-- ==== Sys2Proof/Word.lean ====
section
/-! DEFINITION. The word types of the model and their plainest arithmetic. -/

namespace Sys2Proof

/-- A 32-bit register (R573). -/
abbrev Word := BitVec 32

/-- One byte of memory (R6). -/
abbrev Byte := BitVec 8

end Sys2Proof
end

