-- ==== Sys2Proof/Syntax.lean ====
section
/-! DEFINITION. The commands of the module: one constructor for each row of spec/opcode_table.json.
An operand `at_` is the moment of the event, in units of 10 ns since the first reset. -/

namespace Sys2Proof

/-- The party that accesses a register (R9, R575). -/
inductive Party where
  | host | flint
  deriving DecidableEq, Repr

/-- The engines of a core that run tiles (R60). -/
inductive Engine where
  | matrix | vector | row | attn
  deriving DecidableEq, Repr

/-- A lane of the matrix array that a fault of the hardware makes come out wrong in one pass of a tile: the pass in the tile's order, the
lane's row and column, 32 for the checksum lanes, and the A40 value that comes out (R115, R116). -/
structure LaneFault where
  pass : Nat
  row : Nat
  col : Nat
  value : BitVec 40
  deriving DecidableEq, Repr

/-- What a configuration access concerns: the two BAR4 registers, read or written with an address, or another register
(R414, R417). -/
inductive CfgAccess where
  | other
  | bar4Read
  | bar4Write (value : Nat)
  deriving DecidableEq, Repr

/-- A Vein packet: the fields of its header flit, its body from byte 64 on as a number, and its data flits with their poison
bits (R342, R343). -/
structure Packet where
  dst : Nat
  src : Nat
  job : Nat
  vc : Nat
  escape : Bool
  type : Nat
  xfer : Nat
  offset : Nat
  body : Nat
  data : List (Nat × Nat)
  deriving DecidableEq, Repr

/-- What a link control flit carries (R351). -/
structure LinkControl where
  ack : Nat
  nak : Bool
  expected : Nat
  /-- Cumulative credit returns of the 32 pools and of the hub pool. -/
  pools : List Nat
  escape : Nat
  deriving DecidableEq, Repr

/-- A wire flit (R342). `num` is the number that its sender gave it, and `crc` stands in bytes 252 to 255 of a header. -/
inductive WireFlit where
  | idle
  | control (c : LinkControl)
  | header (num : Nat) (crc : Nat) (nData : Nat) (pkt : Packet)
  | data (num vc poison body : Nat)
  deriving DecidableEq, Repr

/-- What a tick or stretch symbol names: the master that issued it, and its domain (R33, R34). -/
structure SymbolTag where
  master : Nat
  domain : Nat
  deriving DecidableEq, Repr

/-- How far an attention tile goes on: by how many stages, and whether a fault of the hardware makes a comparison of a checksum fail in
the first (R115, R116, R273). -/
structure AttnPart where
  stages : Nat
  checkFail : Bool
  deriving DecidableEq, Repr

/-- A received flit group: its corrected and uncorrectable symbols by lane, and its flits (R340, R341). -/
structure FlitGroup where
  lanes : List Nat
  flits : List WireFlit
  deriving DecidableEq, Repr

/-- A lane that fails: it has lost its lock, or else carries too many bad symbols (R357). -/
structure LaneSign where
  lane : Nat
  lost : Bool
  deriving DecidableEq, Repr

/-- A configuration access and its moment (R414, R417). -/
structure CfgRequest where
  moment : Nat
  access : CfgAccess
  deriving DecidableEq, Repr

/-- The commands, in the table's order. -/
inductive Instr where
  /-- STRATUM_IN_EDGE (R45). -/
  | stratumInEdge (at_ : Nat)
  /-- TICK_SYMBOL_RECEIVED (R33). -/
  | tickSymbolReceived (at_ : Nat) (port : Nat) (tag : SymbolTag) (count : BitVec 48) (abort : Bool)
  /-- MASTER_TICK_ISSUE (R32). -/
  | masterTickIssue (at_ : Nat) (quarry : Nat)
  /-- HOLDOVER_TICK (R46). -/
  | holdoverTick (at_ : Nat)
  /-- STRETCH_SYMBOL_SEND (R34). -/
  | stretchSymbolSend (at_ : Nat)
  /-- STRETCH_SYMBOL_RECEIVED (R34). -/
  | stretchSymbolReceived (at_ : Nat) (port : Nat) (tag : SymbolTag) (count : BitVec 48)
  /-- DONE_SYMBOL_RECEIVED (R31). -/
  | doneSymbolReceived (at_ : Nat) (port : Nat) (domain : Nat) (count : BitVec 48)
  /-- MODULE_DONE (R26). -/
  | moduleDone (at_ : Nat) (quarry : Nat)
  /-- STRATUM_OVERRUN (R41). -/
  | stratumOverrun (at_ : Nat) (quarry : Nat)
  /-- DOMAIN_OVERRUN (R41). -/
  | domainOverrun (at_ : Nat)
  /-- TICK_LOST (R45). -/
  | tickLost (at_ : Nat)
  /-- TICK_STUCK (R45). -/
  | tickStuck (at_ : Nat) (since : Nat)
  /-- STR_CONFIG_WRITE (R29). -/
  | strConfigWrite (at_ : Nat) (party : Party) (off : Nat) (value : BitVec 32)
  /-- STR_COUNT_LO_READ (R48). -/
  | strCountLoRead (party : Party) (quarry : Nat)
  /-- STR_COUNT_WRITE (R48). -/
  | strCountWrite (party : Party) (quarry : Nat) (hi : Bool) (value : BitVec 32)
  /-- DESCRIPTOR_ISSUE (R54). -/
  | descriptorIssue (at_ : Nat) (core : Nat) (stream : Nat)
  /-- TILE_PICK (R73). -/
  | tilePick (at_ : Nat) (core : Nat) (engine : Engine)
  /-- QUEUE_ADMISSION (R74). -/
  | queueAdmission (at_ : Nat) (core : Nat) (stream : Nat)
  /-- SEMAPHORE_WAKE (R70). -/
  | semaphoreWake (at_ : Nat) (key : Nat)
  /-- WAIT (R65). -/
  | wait (at_ : Nat) (core : Nat) (stream : Nat)
  /-- SIGNAL (R65). -/
  | signal (at_ : Nat) (core : Nat) (stream : Nat)
  /-- LOOP (R66). -/
  | loop (at_ : Nat) (core : Nat) (stream : Nat)
  /-- BRANCH (R65). -/
  | branch (at_ : Nat) (core : Nat) (stream : Nat)
  /-- YIELD (R65). -/
  | yield (at_ : Nat) (core : Nat) (stream : Nat)
  /-- END (R65). -/
  | end_ (at_ : Nat) (core : Nat) (stream : Nat)
  /-- TILE_FINISH (R63). -/
  | tileFinish (at_ : Nat) (core : Nat) (stream : Nat)
  /-- TILE_GUARD (R76). -/
  | tileGuard (at_ : Nat) (core : Nat) (stream : Nat)
  /-- CORE_HANG (R76). -/
  | coreHang (at_ : Nat) (core : Nat)
  /-- MATMUL (R90). -/
  | matmul (core : Nat) (stream : Nat) (fault : Option LaneFault)
  /-- EPILOGUE (R99). -/
  | epilogue (core : Nat) (stream : Nat)
  /-- SLOT_COMBINE (R102). -/
  | slotCombine (core : Nat) (stream : Nat)
  /-- REDUCE (R111). -/
  | reduce (core : Nat) (stream : Nat)
  /-- REDUCE_PULL (R113). -/
  | reducePull (core : Nat) (stream : Nat) (sender : Nat)
  /-- ELEMENTWISE (R114). -/
  | elementwise (core : Nat) (stream : Nat)
  /-- SPILL (R133). -/
  | spill (core : Nat) (stream : Nat)
  /-- FILL (R133). -/
  | fill (core : Nat) (stream : Nat)
  /-- KERNEL (R158). -/
  | kernel (core : Nat) (stream : Nat)
  /-- SOFTMAX_FWD (R198). -/
  | softmaxFwd (core : Nat) (stream : Nat)
  /-- SOFTMAX_BWD (R199). -/
  | softmaxBwd (core : Nat) (stream : Nat)
  /-- LNORM_FWD (R183). -/
  | lnormFwd (core : Nat) (stream : Nat)
  /-- LNORM_BWD (R183). -/
  | lnormBwd (core : Nat) (stream : Nat)
  /-- RMSNORM_FWD (R183). -/
  | rmsnormFwd (core : Nat) (stream : Nat)
  /-- RMSNORM_BWD (R183). -/
  | rmsnormBwd (core : Nat) (stream : Nat)
  /-- STATS_SPILL (R191). -/
  | statsSpill (core : Nat) (stream : Nat)
  /-- STATS_FILL (R191). -/
  | statsFill (core : Nat) (stream : Nat)
  /-- COPY (R234). -/
  | copy (core : Nat) (id : Nat)
  /-- TRANSPOSE (R236). -/
  | transpose (core : Nat) (id : Nat)
  /-- DMA_FILL (R234). -/
  | dmaFill (core : Nat) (id : Nat)
  /-- DMA_LANDED (R237). -/
  | dmaLanded (at_ : Nat) (core : Nat) (id : Nat)
  /-- PATROL_SCRUB (R223). -/
  | patrolScrub (at_ : Nat) (pa : Nat) (last : Bool)
  /-- FRAME_COUNT_RESTART (R224). -/
  | frameCountRestart (at_ : Nat)
  /-- CHANNEL_BURST (R588). -/
  | channelBurst (at_ : Nat) (channel : Nat)
  /-- TLB_INVALIDATE (R231). -/
  | tlbInvalidate (party : Party) (value : BitVec 32)
  /-- INVALIDATE_DONE (R231). -/
  | invalidateDone (at_ : Nat)
  /-- MEM_LAYOUT_WRITE (R214). -/
  | memLayoutWrite (party : Party) (value : BitVec 32)
  /-- KV_APPEND (R257). -/
  | kvAppend (core : Nat) (stream : Nat)
  /-- KV_DEMOTE (R265). -/
  | kvDemote (core : Nat) (stream : Nat) (stages : Nat)
  /-- KV_FRAME_MAP (R260). -/
  | kvFrameMap (at_ : Nat) (ctx : Nat)
  /-- KV_FULL (R260). -/
  | kvFull (at_ : Nat) (slot : Nat)
  /-- KV_SUBSLOT_RELEASE (R265). -/
  | kvSubslotRelease (at_ : Nat)
  /-- KV_VERSION_REPLAY (R254). -/
  | kvVersionReplay (at_ : Nat) (core : Nat) (stream : Nat)
  /-- ATTN_FWD (R273). -/
  | attnFwd (core : Nat) (stream : Nat) (part : AttnPart)
  /-- ATTN_BWD (R284). -/
  | attnBwd (core : Nat) (stream : Nat) (part : AttnPart)
  /-- ATTN_DECODE (R281). -/
  | attnDecode (core : Nat) (stream : Nat) (part : AttnPart)
  /-- BUCKET_SORT (R286). -/
  | bucketSort (core : Nat) (stream : Nat)
  /-- SEQ_DONE (R289). -/
  | seqDone (core : Nat) (stream : Nat)
  /-- WS_UPDATE (R311). -/
  | wsUpdate (core : Nat) (id : Nat)
  /-- WS_UPDATE_WRITEBACK (R315). -/
  | wsUpdateWriteback (at_ : Nat) (core : Nat) (id : Nat)
  /-- SHARD_DRAIN_COMPLETE (R315). -/
  | shardDrainComplete (at_ : Nat) (ctx : Nat) (shard : Nat)
  /-- LEASE_HELD (R327). -/
  | leaseHeld (at_ : Nat) (ctx : Nat) (shard : Nat)
  /-- WS_LEASE (R324). -/
  | wsLease (core : Nat) (id : Nat)
  /-- LEASE_MESSAGE (R325). -/
  | leaseMessage (at_ : Nat) (ctx : Nat) (gatherer : Nat) (shard : Nat) (mode : Nat) (version : Nat) (held : Nat)
  /-- LEASE_REPLY (R324). -/
  | leaseReply (at_ : Nat) (core : Nat) (id : Nat) (entry : Nat) (result : Nat)
  /-- WS_SEAL (R310). -/
  | wsSeal (core : Nat) (id : Nat)
  /-- FLIT_GROUP_RECEIVED (R341). -/
  | flitGroupReceived (at_ : Nat) (port : Nat) (c0 : Nat) (c1 : Nat) (group : FlitGroup)
  /-- PACKET_RECEIVED (R346). -/
  | packetReceived (at_ : Nat) (port : Nat) (pkt : Packet)
  /-- ROUTE_FAIL_RECEIVED (R346). -/
  | routeFailReceived (at_ : Nat) (dst : Nat) (job : Nat)
  /-- LINK_CONTROL_RECEIVED (R351). -/
  | linkControlReceived (at_ : Nat) (port : Nat) (control : LinkControl)
  /-- LINK_CONTROL_DUE (R351). -/
  | linkControlDue (at_ : Nat) (port : Nat)
  /-- ACK_TIMEOUT (R352). -/
  | ackTimeout (at_ : Nat) (port : Nat)
  /-- LINK_FAILED (R353). -/
  | linkFailed (at_ : Nat) (port : Nat)
  /-- LANE_DEGRADE (R357). -/
  | laneDegrade (at_ : Nat) (port : Nat) (sign : LaneSign)
  /-- LINK_DEGRADED (R356). -/
  | linkDegraded (at_ : Nat) (port : Nat)
  /-- LINK_DOWN (R356). -/
  | linkDown (at_ : Nat) (port : Nat)
  /-- LINK_UP (R356). -/
  | linkUp (at_ : Nat) (port : Nat) (peer : Nat) (lanes : Nat)
  /-- TRAINING_RETRY (R356). -/
  | trainingRetry (at_ : Nat) (port : Nat)
  /-- PORT_RETRAIN (R356). -/
  | portRetrain (at_ : Nat) (port : Nat)
  /-- VEI_POOL_DATA_WRITE (R360). -/
  | veiPoolDataWrite (party : Party) (value : BitVec 32)
  /-- VEI_ROUTE_DATA_WRITE (R360). -/
  | veiRouteDataWrite (party : Party) (value : BitVec 32)
  /-- COLL (R371). -/
  | coll (core : Nat) (id : Nat)
  /-- SHIFT (R375). -/
  | shift (core : Nat) (id : Nat)
  /-- EXPERT_DISPATCH (R383). -/
  | expertDispatch (core : Nat) (id : Nat)
  /-- EXPERT_COMBINE (R384). -/
  | expertCombine (core : Nat) (id : Nat)
  /-- END_MARKER_RECEIVED (R366). -/
  | endMarkerReceived (at_ : Nat) (job : Nat) (src : Nat) (xfer : Nat) (amount : Nat)
  /-- COLL_TIMEOUT (R377). -/
  | collTimeout (at_ : Nat) (id : Nat)
  /-- DONATION_EXHAUSTED (R400). -/
  | donationExhausted (at_ : Nat) (core : Nat) (stream : Nat)
  /-- ALL_BLOCKED (R405). -/
  | allBlocked (at_ : Nat) (quarry : Nat)
  /-- SWAP_EXCHANGE (R407). -/
  | swapExchange (at_ : Nat) (quarry : Nat)
  /-- SWAP_ABANDONED (R407). -/
  | swapAbandoned (at_ : Nat) (quarry : Nat)
  /-- SWAP_DONE (R407). -/
  | swapDone (at_ : Nat) (quarry : Nat)
  /-- DOORBELL_SQ_TAIL (R420). -/
  | doorbellSqTail (at_ : Nat) (ring : Nat) (index : Nat)
  /-- DOORBELL_CQ_HEAD (R420). -/
  | doorbellCqHead (at_ : Nat) (ring : Nat) (index : Nat)
  /-- COMMAND_FETCH (R426). -/
  | commandFetch (at_ : Nat)
  /-- CTX_CREATE (R429). -/
  | ctxCreate (at_ : Nat) (id : Nat)
  /-- CTX_DESTROY (R430). -/
  | ctxDestroy (at_ : Nat) (id : Nat)
  /-- JOB_LOAD (R431). -/
  | jobLoad (at_ : Nat) (id : Nat)
  /-- JOB_START (R432). -/
  | jobStart (at_ : Nat) (id : Nat)
  /-- DMA_H2D (R434). -/
  | dmaH2d (at_ : Nat) (id : Nat)
  /-- DMA_D2H (R435). -/
  | dmaD2h (at_ : Nat) (id : Nat)
  /-- FOSSIL_BEGIN (R483). -/
  | fossilBegin (at_ : Nat) (id : Nat)
  /-- FOSSIL_COMMIT (R493). -/
  | fossilCommit (at_ : Nat) (id : Nat)
  /-- FILL_FROM_BUDDY (R500). -/
  | fillFromBuddy (at_ : Nat) (id : Nat)
  /-- QUERY (R437). -/
  | query (at_ : Nat) (id : Nat)
  /-- FENCE_UNIT (R438). -/
  | fenceUnit (at_ : Nat) (id : Nat)
  /-- SET_POLICY (R439). -/
  | setPolicy (at_ : Nat) (id : Nat)
  /-- TELEMETRY_READ (R442). -/
  | telemetryRead (at_ : Nat) (id : Nat)
  /-- COMPLETION_POST (R421). -/
  | completionPost (at_ : Nat) (cq : Nat)
  /-- MSIX_MODERATION (R422). -/
  | msixModeration (at_ : Nat) (cq : Nat)
  /-- SQ_DISABLE (R427). -/
  | sqDisable (at_ : Nat) (ring : Nat)
  /-- HIF_REG_WRITE (R443). -/
  | hifRegWrite (at_ : Nat) (party : Party) (off : Nat) (value : BitVec 32)
  /-- FUNCTION_LEVEL_RESET (R415). -/
  | functionLevelReset (at_ : Nat)
  /-- BAR4_ACCESS (R417). -/
  | bar4Access (at_ : Nat) (write : Bool) (x : Nat) (data : (List Nat)) (n : Nat)
  /-- RECORD_CLOSE (R451). -/
  | recordClose (at_ : Nat) (index : Nat)
  /-- WATCHDOG_ACK (R459). -/
  | watchdogAck (at_ : Nat)
  /-- WATCHDOG_RESTART (R460). -/
  | watchdogRestart (at_ : Nat) (exception : Bool)
  /-- FLINT_RESTART_DONE (R460). -/
  | flintRestartDone (at_ : Nat)
  /-- ASSAY_CHECKER_START (R466). -/
  | assayCheckerStart (at_ : Nat) (core : Nat) (stream : Nat)
  /-- SIGNATURE_COMPARE (R466). -/
  | signatureCompare (at_ : Nat) (core : Nat) (stream : Nat) (delta : Nat)
  /-- PATTERN_REPLAY (R472). -/
  | patternReplay (at_ : Nat) (entry : Nat) (sigs : (List Nat))
  /-- EVIDENCE_READY (R473). -/
  | evidenceReady (at_ : Nat) (entry : Nat)
  /-- SCREEN_START (R474). -/
  | screenStart (at_ : Nat) (party : Party) (value : BitVec 32) (deltas : (List (List Nat)))
  /-- ERR_CTRL_WRITE (R475). -/
  | errCtrlWrite (at_ : Nat) (party : Party) (value : BitVec 32)
  /-- FIRST_TOUCH_COPY (R485). -/
  | firstTouchCopy (at_ : Nat) (pa : Nat)
  /-- FOSSIL_PAGE_STREAM (R488). -/
  | fossilPageStream (at_ : Nat) (page : Nat)
  /-- EPOCH_STREAMED (R484). -/
  | epochStreamed (at_ : Nat)
  /-- FOSSIL_STORE_FAILED (R489). -/
  | fossilStoreFailed (at_ : Nat)
  /-- BUDDY_OPEN_MESSAGE (R490). -/
  | buddyOpenMessage (at_ : Nat) (sender : Nat) (epoch : Nat) (pages : Nat)
  /-- BUDDY_OPEN_REPLY (R490). -/
  | buddyOpenReply (at_ : Nat) (accept : Bool) (feed : Nat)
  /-- BUDDY_IMAGE_PAGE (R490). -/
  | buddyImagePage (at_ : Nat) (src : Nat) (page : Nat) (data : (List (Nat × Nat)))
  /-- COMMIT_MARKER_RECEIVED (R494). -/
  | commitMarkerReceived (at_ : Nat) (sender : Nat) (epoch : Nat)
  /-- FOSSIL_BUDDY_LOST (R492). -/
  | fossilBuddyLost (at_ : Nat)
  /-- FILL_REQUEST_RECEIVED (R500). -/
  | fillRequestReceived (at_ : Nat) (requester : Nat) (epoch : Nat)
  /-- FILL_PAGE_RECEIVED (R500). -/
  | fillPageReceived (at_ : Nat) (refused : Nat) (page : Nat) (data : (List (Nat × Nat)))
  /-- FILL_SOURCE_LOST (R501). -/
  | fillSourceLost (at_ : Nat)
  /-- FOS_REG_WRITE (R503). -/
  | fosRegWrite (at_ : Nat) (party : Party) (off : Nat) (value : BitVec 32)
  /-- BOOT_ROM_START (R514). -/
  | bootRomStart (at_ : Nat)
  /-- BOOT_LOCK (R518). -/
  | bootLock (at_ : Nat)
  /-- OWNER_ENROLL (R520). -/
  | ownerEnroll (at_ : Nat) (party : Party) (value : BitVec 32)
  /-- DEBUG_OPEN (R521). -/
  | debugOpen (at_ : Nat) (party : Party) (value : BitVec 32)
  /-- FW_UPDATE (R526). -/
  | fwUpdate (at_ : Nat)
  /-- FW_UPDATE_DONE (R527). -/
  | fwUpdateDone (at_ : Nat)
  /-- FW_CONFIRM (R528). -/
  | fwConfirm (at_ : Nat)
  /-- BURN_SVN (R529). -/
  | burnSvn (at_ : Nat)
  /-- ATTESTATION_REQUEST (R524). -/
  | attestationRequest (at_ : Nat)
  /-- ATTESTATION_REPORT_WRITTEN (R525). -/
  | attestationReportWritten (at_ : Nat)
  /-- BYPASS (R521). -/
  | bypass (at_ : Nat)
  /-- IDCODE (R568). -/
  | idcode (at_ : Nat)
  /-- SAMPLE_PRELOAD (R521). -/
  | samplePreload (at_ : Nat) (outputs : (List Bool))
  /-- EXTEST (R568). -/
  | extest (at_ : Nat)
  /-- KUERMOU_PRIVATE_DEBUG (R521). -/
  | kuermouPrivateDebug (at_ : Nat)
  /-- PWR_EN_RISE (R535). -/
  | pwrEnRise (at_ : Nat)
  /-- PWR_GOOD_RISE (R562). -/
  | pwrGoodRise (at_ : Nat) (feed : Nat) (node : Nat) (slot : Nat)
  /-- PWR_EN_FALL (R535). -/
  | pwrEnFall (at_ : Nat)
  /-- PERST_ASSERT (R570). -/
  | perstAssert (at_ : Nat)
  /-- INPUT_UNDERVOLTAGE (R533). -/
  | inputUndervoltage (at_ : Nat)
  /-- INPUT_OVERVOLTAGE (R533). -/
  | inputOvervoltage (at_ : Nat)
  /-- INPUT_VOLTAGE (R533). -/
  | inputVoltage (at_ : Nat) (mv : Nat)
  /-- POWER_SAMPLE (R537). -/
  | powerSample (at_ : Nat) (mv : Nat) (ca : Nat) (avg1ms : Nat) (avgWin : Nat)
  /-- CAP_STEP (R537). -/
  | capStep (at_ : Nat)
  /-- THERMAL_THROTTLE (R538). -/
  | thermalThrottle (at_ : Nat) (unit : Nat) (temp : Nat)
  /-- THERMAL_TRIP (R538). -/
  | thermalTrip (at_ : Nat) (unit : Nat) (temp : Nat)
  /-- THROTTLE_IN_ASSERT (R539). -/
  | throttleInAssert (at_ : Nat)
  /-- THROTTLE_IN_RELEASE (R539). -/
  | throttleInRelease (at_ : Nat)
  /-- THROTTLE_IN_PULSE (R539). -/
  | throttleInPulse (at_ : Nat)
  /-- THROTTLE_HELD (R539). -/
  | throttleHeld (at_ : Nat)
  /-- DROOP (R541). -/
  | droop (at_ : Nat) (slab : Nat)
  /-- DROOP_RECOVERY (R541). -/
  | droopRecovery (at_ : Nat) (slab : Nat)
  /-- CANARY_STRETCH (R543). -/
  | canaryStretch (at_ : Nat) (slab : Nat)
  /-- REFCLK_LOST (R542). -/
  | refclkLost (at_ : Nat) (mhz : Nat)
  /-- WEAR_PLAN (R544). -/
  | wearPlan (at_ : Nat) (steps : (List Nat)) (mhz : (List Nat)) (failed : (List Nat)) (failedSlabs : (List Nat))
  /-- PLAN_NOW (R545). -/
  | planNow (at_ : Nat)
  /-- WEAR_PLAN_DUE (R545). -/
  | wearPlanDue (at_ : Nat)
  /-- SET_ENDPOINT_ID (R564). -/
  | setEndpointId (at_ : Nat) (eid : Nat)
  /-- GET_ENDPOINT_ID (R564). -/
  | getEndpointId (at_ : Nat)
  /-- GET_MCTP_VERSION_SUPPORT (R564). -/
  | getMctpVersionSupport (at_ : Nat)
  /-- GET_MESSAGE_TYPE_SUPPORT (R564). -/
  | getMessageTypeSupport (at_ : Nat)
  /-- GETTID (R566). -/
  | gettid (at_ : Nat)
  /-- GETPLDMVERSION (R566). -/
  | getpldmversion (at_ : Nat) (type : Nat)
  /-- GETPLDMTYPES (R566). -/
  | getpldmtypes (at_ : Nat)
  /-- GETPLDMCOMMANDS (R566). -/
  | getpldmcommands (at_ : Nat) (type : Nat)
  /-- GETPDRREPOSITORYINFO (R566). -/
  | getpdrrepositoryinfo (at_ : Nat)
  /-- GETPDR (R566). -/
  | getpdr (at_ : Nat) (record : Nat)
  /-- GETSENSORREADING (R566). -/
  | getsensorreading (at_ : Nat) (sensor : Nat)
  /-- GETSTATESENSORREADINGS (R566). -/
  | getstatesensorreadings (at_ : Nat) (sensor : Nat)
  /-- UNSUPPORTED_PLDM_CMD (R566). -/
  | unsupportedPldmCmd (at_ : Nat)
  /-- SENSOR_REFRESH (R566). -/
  | sensorRefresh (at_ : Nat)
  /-- REG_WRITE (R583). -/
  | regWrite (at_ : Nat) (party : Party) (off : Nat) (bytes : Nat) (value : Nat)
  /-- HOST_DMA_DONE (R434). -/
  | hostDmaDone (at_ : Nat) (queue : Nat)
  /-- CONFIGURATION_REQUEST (R414, R417). -/
  | configurationRequest (request : CfgRequest)
  /-- CHANNEL_RETRAIN_DONE (R588). -/
  | channelRetrainDone (at_ : Nat) (channel : Nat)
  /-- REFCLK_RESTORED (R542). -/
  | refclkRestored (at_ : Nat)
  deriving DecidableEq, Repr

end Sys2Proof
end

