-- ==== Sys2Proof/Config.lean ====
section
/-! DEFINITION. What one part fixes and what the spec leaves open: constants without a body, so that no
proof can learn a value. Every one is named in a log entry. -/

namespace Sys2Proof

/-- The stream of free values. The model applies it to a counter of State each time the spec leaves a result
open (log entry 3). -/
opaque Config.free : Nat → Nat

/-- The contents of a memory cell that the spec leaves undefined: by the number of the loss and the cell
(log entry 4). -/
opaque Config.freeCell : Nat → Nat → Nat

/-- Which value within its bound the attention pipe finds for a rotary phase, by the phase (log entry 32). -/
opaque Config.freeTurn : Nat → Nat

/-- GLB_SERIAL: the fused serial number (R523). -/
opaque Config.serial : BitVec 64

/-- The two harvested sites of a slab as production test burned them, before `harvestedPair` makes them two
distinct sites below 42 (R5). -/
opaque Config.harvestRaw : Nat → Nat × Nat

/-- The fused minimum svn as the part left the factory (R529). -/
opaque Config.fusedMinSvn : BitVec 6

/-- Whether an owner key was burned before the model's first step, and the key (R520). -/
opaque Config.fusedOwner : Option (BitVec 256)

/-- PWR_THERM_LIM: the fused thermal thresholds trip_c, throttle_c, stack_throttle_c (R538). -/
opaque Config.thermLim : BitVec 24

/-- The unique secret from which the key unit derives the module's Ed25519 key pair (R523). -/
opaque Config.uniqueSecret : BitVec 256

/-- The hash of the boot ROM that an attestation report measures (R524). -/
opaque Config.romMeasure : BitVec 512

/-- The four Kuermou public keys that the boot ROM holds (R511). -/
opaque Config.kuermouKey : Nat → BitVec 256

/-- The reset voltage in mV that production test fuses for a voltage group (R544). -/
opaque Config.groupV0 : Nat → Nat

/-- The limits in mV that production test fuses for a voltage group: V_min and V_max (R544). -/
opaque Config.groupLimits : Nat → Nat × Nat

/-- The boot flash as production left it, by byte (R509). -/
opaque Config.flash : Nat → BitVec 8

/-- The Kuermou keys that fuses revoke (R513). -/
opaque Config.keyRevoked : Nat → Bool

/-- The host port trained at ×8, because the partner offers no more (R413). -/
opaque Config.hostX8 : Bool

/-- The strap pins as the board ties them: FEED_ID, NODE_POS, SLOT_ID (R562). -/
opaque Config.straps : BitVec 4 × BitVec 3 × BitVec 6

/-- The two distinct harvested sites of slab `s`, in ascending order (R5, R85). -/
def Config.harvested (s : Nat) : Nat × Nat :=
  let a := (Config.harvestRaw s).1 % 42
  let b := (a + 1 + (Config.harvestRaw s).2 % 41) % 42
  if a < b then (a, b) else (b, a)

end Sys2Proof
end

