-- ==== Sys2Proof/Machine/Regs.lean ====
section
/-! DEFINITION. The register map of BAR0 (R572): the offset of every register, the access code of its bits
(R8) and its reset value, from the field tables of the owning chapters. -/

namespace Sys2Proof.Machine

/-- What the field tables say of one register: the bits of each access code, and its reset value.
Bits of no mask are read-only or reserved. -/
structure RegInfo where
  rw : Nat := 0
  w1c : Nat := 0
  wo : Nat := 0
  rwl : Nat := 0
  reset : Word := 0
  deriving DecidableEq, Repr

/-- A register of read-only and reserved bits that resets to 0. -/
def RegInfo.ro : RegInfo := { rw := 0 }

/-- A field of a register: its lowest bit and its width. -/
structure Fld where
  reg : Nat
  lo : Nat
  width : Nat
  deriving DecidableEq, Repr

/-- The bits [hi:lo]. -/
def bitMask (hi lo : Nat) : Nat := 2 ^ (hi + 1) - 2 ^ lo

/-! Block bases (R572). -/
def Reg.glb : Nat := 0x0000000
def Reg.hif : Nat := 0x0100000
def Reg.str : Nat := 0x0200000
def Reg.ctx : Nat := 0x0300000
def Reg.mem : Nat := 0x0400000
def Reg.vei : Nat := 0x0500000
def Reg.col : Nat := 0x0600000
def Reg.err : Nat := 0x0700000
def Reg.fos : Nat := 0x0800000
def Reg.pwr : Nat := 0x0900000
def Reg.sec : Nat := 0x0A00000
/-- SLB block of slab `s`. -/
def Reg.slb (s : Nat) : Nat := 0x1000000 + s * 0x400000

/-! The index of R572, block by block. -/
def Reg.glbIdent : Nat := 0x0
def Reg.glbCap : Nat := 0x4
def Reg.glbCap2 : Nat := 0x8
def Reg.glbStraps : Nat := 0x10
def Reg.glbCores : Nat := 0x14
def Reg.glbStat : Nat := 0x18
def Reg.glbSerialLo : Nat := 0x20
def Reg.glbSerialHi : Nat := 0x24

def Reg.hifStat : Nat := 0x100000
def Reg.hifEvt : Nat := 0x100004
def Reg.hifBar4 : Nat := 0x100008
def Reg.ring (r : Nat) : Nat := 0x101000 + 0x40 * r
def Reg.sqBaseLo (r : Nat) : Nat := Reg.ring r
def Reg.sqBaseHi (r : Nat) : Nat := Reg.ring r + 0x04
def Reg.sqCfg (r : Nat) : Nat := Reg.ring r + 0x08
def Reg.sqHead (r : Nat) : Nat := Reg.ring r + 0x0C
def Reg.cqBaseLo (r : Nat) : Nat := Reg.ring r + 0x10
def Reg.cqBaseHi (r : Nat) : Nat := Reg.ring r + 0x14
def Reg.cqCfg (r : Nat) : Nat := Reg.ring r + 0x18
def Reg.cqTail (r : Nat) : Nat := Reg.ring r + 0x1C

def Reg.strCtrl : Nat := 0x200000
def Reg.strPeriod : Nat := 0x200004
def Reg.strDomain : Nat := 0x200008
/-- STR_STAT of quarry `q` (R38). -/
def Reg.strStat (q : Nat) : Nat := 0x20000C + 0x100 * q
def Reg.strCountLo (q : Nat) : Nat := 0x200010 + 0x100 * q
def Reg.strCountHi (q : Nat) : Nat := 0x200014 + 0x100 * q
def Reg.strStretchCnt (q : Nat) : Nat := 0x200018 + 0x100 * q
def Reg.strStretchMax (q : Nat) : Nat := 0x20001C + 0x100 * q
def Reg.strFaultCnt (q : Nat) : Nat := 0x200020 + 0x100 * q

def Reg.ctxMode : Nat := 0x300000
def Reg.ctxStat : Nat := 0x300004
def Reg.ctxState (c : Nat) : Nat := 0x300100 + 0x40 * c
def Reg.ctxGeode (c : Nat) : Nat := 0x300104 + 0x40 * c
def Reg.ctxCore (c : Nat) : Nat := 0x300108 + 0x40 * c
def Reg.ctxLocal (c : Nat) : Nat := 0x30010C + 0x40 * c
def Reg.ctxMain (c : Nat) : Nat := 0x300110 + 0x40 * c
def Reg.ctxGlobal (c : Nat) : Nat := 0x300114 + 0x40 * c

def Reg.memLayout : Nat := 0x400000
def Reg.memScrub : Nat := 0x400004
def Reg.memStat : Nat := 0x400008
def Reg.memTlbInvLo : Nat := 0x40000C
def Reg.memTlbInvHi : Nat := 0x400010

def Reg.veiModule : Nat := 0x500000
def Reg.veiStat : Nat := 0x500004
def Reg.veiJob (c : Nat) : Nat := 0x500010 + 4 * c
def Reg.veiRouteIdx : Nat := 0x500040
def Reg.veiRouteData : Nat := 0x500044
def Reg.veiPoolIdx : Nat := 0x500048
def Reg.veiPoolData : Nat := 0x50004C
def Reg.portCfg (p : Nat) : Nat := 0x500100 + 0x20 * p
def Reg.portStat (p : Nat) : Nat := 0x500104 + 0x20 * p
def Reg.portReplays (p : Nat) : Nat := 0x500108 + 0x20 * p
def Reg.portFec (p : Nat) : Nat := 0x50010C + 0x20 * p
def Reg.portMaxEp (p : Nat) : Nat := 0x500110 + 0x20 * p

def Reg.colStat : Nat := 0x600000
def Reg.colGroupIdx : Nat := 0x600004
def Reg.colGroupLo : Nat := 0x600008
def Reg.colGroupHi : Nat := 0x60000C

def Reg.errCtrl : Nat := 0x700000
def Reg.errStat : Nat := 0x700004
def Reg.errNext : Nat := 0x700008
def Reg.errEvidLo : Nat := 0x70000C
def Reg.errEvidHi : Nat := 0x700010
def Reg.errEvidCfg : Nat := 0x700014
def Reg.errScreenLo : Nat := 0x700018
def Reg.errScreenHi : Nat := 0x70001C
def Reg.errScreenCtrl : Nat := 0x700020
def Reg.errAssayChk : Nat := 0x700024
def Reg.errAssaySkip : Nat := 0x700028

def Reg.fosSetLo : Nat := 0x800000
def Reg.fosSetHi : Nat := 0x800004
def Reg.fosSetCnt : Nat := 0x800008
def Reg.fosInWin : Nat := 0x80000C
def Reg.fosInH0 : Nat := 0x800010
def Reg.fosInH1 : Nat := 0x800014
def Reg.fosInSize : Nat := 0x800018
def Reg.fosBuddyIn : Nat := 0x80001C
def Reg.fosBuddyEpoch : Nat := 0x800020
def Reg.fosBuddyStat : Nat := 0x800024
def Reg.fosStat : Nat := 0x800028
def Reg.fosEpoch : Nat := 0x80002C
def Reg.fosCommitted : Nat := 0x800030

def Reg.pwrCap : Nat := 0x900000
def Reg.pwrStat : Nat := 0x900004
def Reg.pwrInput : Nat := 0x900008
def Reg.pwrPower : Nat := 0x90000C
def Reg.pwrDroopCfg : Nat := 0x900010
def Reg.pwrDroopCnt (s : Nat) : Nat := 0x900020 + 4 * s
def Reg.pwrThrottleCnt : Nat := 0x900030
def Reg.pwrTemp : Nat := 0x900034
def Reg.pwrThermLim : Nat := 0x900038
def Reg.pwrWear : Nat := 0x900040
def Reg.pwrWearCtrl : Nat := 0x900044
def Reg.pwrSlabF (s : Nat) : Nat := 0x900050 + 4 * s
def Reg.pwrWearGrp (g : Nat) : Nat := 0x900100 + 4 * g

def Reg.secLock : Nat := 0xA00000
def Reg.secBootStat : Nat := 0xA00004
def Reg.secProt : Nat := 0xA00008
def Reg.secDebug : Nat := 0xA0000C
def Reg.secOwnerCtrl : Nat := 0xA00010
def Reg.secOwnerKey (n : Nat) : Nat := 0xA00020 + 4 * n
def Reg.secUpdLo : Nat := 0xA00040
def Reg.secUpdHi : Nat := 0xA00044
def Reg.secUpdLen : Nat := 0xA00048
def Reg.secUpdCtrl : Nat := 0xA0004C
def Reg.secUpdStat : Nat := 0xA00050
def Reg.secAttLo : Nat := 0xA00060
def Reg.secAttHi : Nat := 0xA00064
def Reg.secAttNonce (n : Nat) : Nat := 0xA00070 + 4 * n
def Reg.secAttCtrl : Nat := 0xA00090
def Reg.secAttStat : Nat := 0xA00094

def Reg.siteMapLo (s : Nat) : Nat := Reg.slb s
def Reg.siteMapHi (s : Nat) : Nat := Reg.slb s + 4
def Reg.fenceLo (s : Nat) : Nat := Reg.slb s + 8
def Reg.fenceHi (s : Nat) : Nat := Reg.slb s + 12

/-- The enabled sites of slab `s`, one bit each (R85). -/
def siteMap (s : Nat) : Nat :=
  let h := Config.harvested s
  2 ^ 42 - 1 - 2 ^ h.1 - 2 ^ h.2

/-- GLB_STRAPS as it decodes the latched strap pins (R562). -/
def strapsWord (p : BitVec 4 × BitVec 3 × BitVec 6) : Word :=
  BitVec.ofNat 32 (p.1.toNat * 2 ^ 12 + p.2.1.toNat * 2 ^ 8 + p.2.2.toNat)

/-- Registers that are not repeated: offset and field summary (the register tables of each chapter). -/
def Reg.singles : List (Nat × RegInfo) :=
  [ (Reg.glbIdent, { reset := 0x2560A100 }),
    (Reg.glbCap, { reset := BitVec.ofNat 32 (42 * 2 ^ 24 + 160 * 2 ^ 16 + 4 * 2 ^ 12 + 32 * 2 ^ 6 + 16) }),
    (Reg.glbCap2, { reset := BitVec.ofNat 32 (8 * 2 ^ 24 + 128 * 2 ^ 16 + 8 * 2 ^ 8 + 4 * 2 ^ 4 + 4) }),
    (Reg.glbStraps, { reset := strapsWord Config.straps }),
    (Reg.glbCores, { reset := 160 }),
    (Reg.glbStat, { w1c := 1 }),
    (Reg.glbSerialLo, { reset := BitVec.ofNat 32 Config.serial.toNat }),
    (Reg.glbSerialHi, { reset := BitVec.ofNat 32 (Config.serial.toNat / 2 ^ 32) }) ] ++
  [ (Reg.hifStat, { w1c := 3 }),
    (Reg.hifEvt, { rw := bitMask 31 31 + bitMask 5 0 }),
    (Reg.hifBar4, { rwl := bitMask 31 31 + bitMask 12 0 }),
    (Reg.strCtrl, { rw := bitMask 12 0, reset := 4 <<< 9 }),
    (Reg.strPeriod, { rw := bitMask 25 16 + bitMask 9 0, reset := BitVec.ofNat 32 (90 * 2 ^ 16 + 100) }),
    (Reg.strDomain, { rw := bitMask 31 18 + bitMask 15 0 }),
    (Reg.ctxMode, .ro),
    (Reg.ctxStat, { w1c := bitMask 8 8 }) ] ++
  [ (Reg.memLayout, { rw := bitMask 25 16 + bitMask 9 0 }),
    (Reg.memScrub, { rw := bitMask 31 31 + bitMask 23 16 + bitMask 7 0,
                     reset := BitVec.ofNat 32 (2 ^ 31 + 8 * 2 ^ 16 + 24) }),
    (Reg.memStat, { w1c := 2 }),
    (Reg.memTlbInvLo, { wo := bitMask 31 0 }),
    (Reg.memTlbInvHi, { wo := bitMask 31 0 }),
    (Reg.veiModule, { rw := bitMask 31 31 + bitMask 11 0 }),
    (Reg.veiStat, { w1c := 1 }),
    (Reg.veiRouteIdx, { rw := bitMask 11 0 }),
    (Reg.veiRouteData, { rw := bitMask 31 31 + bitMask 3 0 }),
    (Reg.veiPoolIdx, { rw := bitMask 9 0 }),
    (Reg.veiPoolData, { rw := bitMask 12 0 }),
    (Reg.colStat, { w1c := 1 }),
    (Reg.colGroupIdx, { rw := bitMask 5 0 }),
    (Reg.colGroupLo, .ro),
    (Reg.colGroupHi, .ro) ] ++
  [ (Reg.errCtrl, { rw := bitMask 31 31 + bitMask 9 8 + bitMask 3 0, reset := 8 }),
    (Reg.errStat, { w1c := 1 }),
    (Reg.errNext, .ro),
    (Reg.errEvidLo, { rw := bitMask 31 12 }),
    (Reg.errEvidHi, { rw := bitMask 31 0 }),
    (Reg.errEvidCfg, { rw := bitMask 31 31 + bitMask 5 0 }),
    (Reg.errScreenLo, { rw := bitMask 31 6 }),
    (Reg.errScreenHi, { rw := bitMask 31 0 }),
    (Reg.errScreenCtrl, { rw := bitMask 8 0, wo := bitMask 31 31 }),
    (Reg.errAssayChk, .ro),
    (Reg.errAssaySkip, .ro) ] ++
  [ (Reg.fosSetLo, { rw := bitMask 31 4 }),
    (Reg.fosSetHi, { rw := bitMask 15 0 }),
    (Reg.fosSetCnt, { rw := bitMask 12 0 }),
    (Reg.fosInWin, { rw := bitMask 26 0 }),
    (Reg.fosInH0, { rw := bitMask 26 0 }),
    (Reg.fosInH1, { rw := bitMask 26 0 }),
    (Reg.fosInSize, { rw := bitMask 15 0 }),
    (Reg.fosBuddyIn, { rw := bitMask 31 31 + bitMask 11 0 }),
    (Reg.fosBuddyEpoch, .ro),
    (Reg.fosBuddyStat, .ro),
    (Reg.fosStat, { w1c := bitMask 5 5 }),
    (Reg.fosEpoch, .ro),
    (Reg.fosCommitted, .ro) ] ++
  [ (Reg.pwrCap, { rw := bitMask 31 31 + bitMask 26 16 + bitMask 9 0,
                   reset := BitVec.ofNat 32 (1800 * 2 ^ 16 + 100) }),
    (Reg.pwrStat, .ro),
    (Reg.pwrInput, .ro),
    (Reg.pwrPower, .ro),
    (Reg.pwrDroopCfg, { rw := bitMask 15 8 + bitMask 3 0, reset := BitVec.ofNat 32 (64 * 2 ^ 8 + 6) }),
    (Reg.pwrThrottleCnt, .ro),
    (Reg.pwrTemp, .ro),
    (Reg.pwrThermLim, { reset := Config.thermLim.setWidth 32 }),
    (Reg.pwrWear, { rw := bitMask 15 8, reset := BitVec.ofNat 32 (20 * 2 ^ 8 + 100) }),
    (Reg.pwrWearCtrl, { rw := bitMask 7 0, wo := bitMask 31 31, reset := 24 }) ] ++
  [ (Reg.secLock, { rwl := 1 }),
    (Reg.secBootStat, { reset := BitVec.ofNat 32 (Config.fusedMinSvn.toNat * 2 ^ 8 + (if Config.fusedOwner.isSome then 2 ^ 6 else 0)) }),
    (Reg.secProt, { rwl := bitMask 15 8 + bitMask 2 0, reset := 0xFF07 }),
    (Reg.secDebug, { rwl := 1 }),
    (Reg.secOwnerCtrl, { rwl := 1 }),
    (Reg.secUpdLo, { rw := bitMask 31 6 }),
    (Reg.secUpdHi, { rw := bitMask 31 0 }),
    (Reg.secUpdLen, { rw := bitMask 25 0 }),
    (Reg.secUpdCtrl, { wo := bitMask 31 29 }),
    (Reg.secUpdStat, .ro),
    (Reg.secAttLo, { rw := bitMask 31 6 }),
    (Reg.secAttHi, { rw := bitMask 31 0 }),
    (Reg.secAttCtrl, { wo := bitMask 31 31 }),
    (Reg.secAttStat, .ro) ]

/-- The registers of one ring by their offset in it (R443). -/
def Reg.ringInfo : Nat → Option RegInfo
  | 0x00 => some { rw := bitMask 31 12 }
  | 0x04 => some { rw := bitMask 31 0 }
  | 0x08 => some { rw := bitMask 31 31 + bitMask 13 8 + bitMask 4 0, reset := 4 }
  | 0x0C => some .ro
  | 0x10 => some { rw := bitMask 31 12 }
  | 0x14 => some { rw := bitMask 31 0 }
  | 0x18 => some { rw := bitMask 31 7 + bitMask 4 0, reset := BitVec.ofNat 32 (2 ^ 24 + 4) }
  | 0x1C => some .ro
  | _ => none

/-- The tick registers that each quarry has a copy of, by their offset in the block (R38). -/
def Reg.quarryInfo : Nat → Option RegInfo
  | 0x0C => some { w1c := 8 }
  | 0x10 => some { rw := bitMask 31 0 }
  | 0x14 => some { rw := bitMask 15 0 }
  | 0x18 => some .ro
  | 0x1C => some .ro
  | 0x20 => some .ro
  | _ => none

/-- The registers of one context (R410). CTX_STATE.donate_strata resets to 2. -/
def Reg.ctxInfo : Nat → Option RegInfo
  | 0x00 => some { reset := 2 <<< 20 }
  | 0x04 => some .ro
  | 0x08 => some .ro
  | 0x0C => some .ro
  | 0x10 => some .ro
  | 0x14 => some .ro
  | _ => none

/-- The registers of one Vein port (R360). -/
def Reg.portInfo : Nat → Option RegInfo
  | 0x00 => some { rw := bitMask 31 30 + bitMask 9 0, reset := BitVec.ofNat 32 (2 ^ 30 + 50) }
  | 0x04 => some .ro
  | 0x08 => some .ro
  | 0x0C => some .ro
  | 0x10 => some .ro
  | _ => none

/-- The registers of one slab block (R85, R581). -/
def Reg.slabInfo (s : Nat) : Nat → Option RegInfo
  | 0 => some { reset := BitVec.ofNat 32 (siteMap s) }
  | 4 => some { reset := BitVec.ofNat 32 (siteMap s / 2 ^ 32) }
  | 8 => some .ro
  | 12 => some .ro
  | _ => none

/-- The first row of a table under a key. -/
def lookupRow {α : Type} : List (Nat × α) → Nat → Option α
  | [], _ => none
  | (k, v) :: r, a => if a = k then some v else lookupRow r a

/-- What the tables say of the register at a BAR0 offset; `none` for an offset that no table names (R572). -/
def Reg.info (off : Nat) : Option RegInfo :=
  if off < 0x100000 then lookupRow Reg.singles off
  else if 0x101000 ≤ off ∧ off < 0x102000 then Reg.ringInfo ((off - 0x101000) % 0x40)
  else if 0x20000C ≤ off ∧ off < 0x200400 then Reg.quarryInfo ((off - 0x200000) % 0x100)
  else if 0x300100 ≤ off ∧ off < 0x300300 then Reg.ctxInfo ((off - 0x300100) % 0x40)
  else if 0x500010 ≤ off ∧ off < 0x500030 then
    if off % 4 = 0 then some { rw := bitMask 31 31 + bitMask 11 0 } else none
  else if 0x500100 ≤ off ∧ off < 0x500300 then Reg.portInfo ((off - 0x500100) % 0x20)
  else if 0x900020 ≤ off ∧ off < 0x900030 then if off % 4 = 0 then some .ro else none
  else if 0x900050 ≤ off ∧ off < 0x900060 then
    if off % 4 = 0 then some { reset := BitVec.ofNat 32 (1900 * 2 ^ 16) } else none
  else if 0x900100 ≤ off ∧ off < 0x900160 then
    if off % 4 = 0 then some { reset := BitVec.ofNat 32 (100 * 2 ^ 24) } else none
  else if 0xA00020 ≤ off ∧ off < 0xA00040 then
    if off % 4 = 0 then some { reset := BitVec.ofNat 32 ((Config.fusedOwner.getD 0).toNat / 2 ^ (8 * (off - 0xA00020))) } else none
  else if 0xA00070 ≤ off ∧ off < 0xA00090 then
    if off % 4 = 0 then some { rw := bitMask 31 0 } else none
  else if 0x1000000 ≤ off ∧ off < 0x2000000 then
    Reg.slabInfo ((off - 0x1000000) / 0x400000) ((off - 0x1000000) % 0x400000)
  else lookupRow Reg.singles off

/-- The reset value of the register at an offset; 0 where no register stands. -/
def Reg.resetWord (off : Nat) : Word :=
  match Reg.info off with
  | some r => r.reset
  | none => 0

/-! Named fields (the register tables of the owning chapters). -/
def Fld.hostWrReject : Fld := ⟨Reg.glbStat, 0, 1⟩
def Fld.fatal : Fld := ⟨Reg.glbStat, 1, 1⟩
def Fld.coresFenced : Fld := ⟨Reg.glbCores, 8, 8⟩
def Fld.coresActive : Fld := ⟨Reg.glbCores, 0, 8⟩

def Fld.hifCfgReject : Fld := ⟨Reg.hifStat, 0, 1⟩
def Fld.badDoorbell : Fld := ⟨Reg.hifStat, 1, 1⟩
def Fld.hifWidth : Fld := ⟨Reg.hifStat, 4, 2⟩
def Fld.evtEnable : Fld := ⟨Reg.hifEvt, 31, 1⟩
def Fld.evtCq : Fld := ⟨Reg.hifEvt, 0, 6⟩
def Fld.bar4Enable : Fld := ⟨Reg.hifBar4, 31, 1⟩
def Fld.bar4Base : Fld := ⟨Reg.hifBar4, 0, 13⟩
def Fld.sqEnable (r : Nat) : Fld := ⟨Reg.sqCfg r, 31, 1⟩
def Fld.sqCq (r : Nat) : Fld := ⟨Reg.sqCfg r, 8, 6⟩
def Fld.sqLog2 (r : Nat) : Fld := ⟨Reg.sqCfg r, 0, 5⟩
def Fld.sqHead (r : Nat) : Fld := ⟨Reg.sqHead r, 0, 16⟩
def Fld.cqEnable (r : Nat) : Fld := ⟨Reg.cqCfg r, 31, 1⟩
def Fld.cqModCount (r : Nat) : Fld := ⟨Reg.cqCfg r, 24, 7⟩
def Fld.cqModUs (r : Nat) : Fld := ⟨Reg.cqCfg r, 14, 10⟩
def Fld.cqVector (r : Nat) : Fld := ⟨Reg.cqCfg r, 7, 7⟩
def Fld.cqLog2 (r : Nat) : Fld := ⟨Reg.cqCfg r, 0, 5⟩
def Fld.cqTail (r : Nat) : Fld := ⟨Reg.cqTail r, 0, 16⟩

def Fld.overrunLimit : Fld := ⟨Reg.strCtrl, 9, 4⟩
def Fld.outEn : Fld := ⟨Reg.strCtrl, 8, 1⟩
def Fld.holdoverEn : Fld := ⟨Reg.strCtrl, 7, 1⟩
def Fld.run : Fld := ⟨Reg.strCtrl, 6, 1⟩
def Fld.upPort : Fld := ⟨Reg.strCtrl, 2, 4⟩
def Fld.source : Fld := ⟨Reg.strCtrl, 0, 2⟩
def Fld.minGap : Fld := ⟨Reg.strPeriod, 16, 10⟩
def Fld.periodUs : Fld := ⟨Reg.strPeriod, 0, 10⟩
def Fld.domainId : Fld := ⟨Reg.strDomain, 20, 12⟩
def Fld.role : Fld := ⟨Reg.strDomain, 18, 2⟩
def Fld.downPorts : Fld := ⟨Reg.strDomain, 0, 16⟩
def Fld.lateSrc (q : Nat) : Fld := ⟨Reg.strStat q, 4, 5⟩
def Fld.strCfgReject (q : Nat) : Fld := ⟨Reg.strStat q, 3, 1⟩
def Fld.hold (q : Nat) : Fld := ⟨Reg.strStat q, 2, 1⟩
def Fld.holdover (q : Nat) : Fld := ⟨Reg.strStat q, 1, 1⟩
def Fld.done (q : Nat) : Fld := ⟨Reg.strStat q, 0, 1⟩
def Fld.stretchCnt (q : Nat) : Fld := ⟨Reg.strStretchCnt q, 0, 32⟩
def Fld.stretchMax (q : Nat) : Fld := ⟨Reg.strStretchMax q, 0, 32⟩
def Fld.earlyEdges (q : Nat) : Fld := ⟨Reg.strFaultCnt q, 16, 16⟩
def Fld.premature (q : Nat) : Fld := ⟨Reg.strFaultCnt q, 0, 16⟩

def Fld.mode : Fld := ⟨Reg.ctxMode, 0, 2⟩
def Fld.ctxCfgReject : Fld := ⟨Reg.ctxStat, 8, 1⟩
def Fld.ctxExists (c : Nat) : Fld := ⟨Reg.ctxStat, c, 1⟩
def Fld.ctxState (c : Nat) : Fld := ⟨Reg.ctxState c, 0, 3⟩
def Fld.resident (c : Nat) : Fld := ⟨Reg.ctxState c, 4, 1⟩
def Fld.swapping (c : Nat) : Fld := ⟨Reg.ctxState c, 5, 1⟩
def Fld.ctxQuarry (c : Nat) : Fld := ⟨Reg.ctxState c, 6, 2⟩
def Fld.ctxPrio (c : Nat) : Fld := ⟨Reg.ctxState c, 8, 3⟩
def Fld.partner (c : Nat) : Fld := ⟨Reg.ctxState c, 16, 3⟩
def Fld.partnerValid (c : Nat) : Fld := ⟨Reg.ctxState c, 19, 1⟩
def Fld.donateStrata (c : Nat) : Fld := ⟨Reg.ctxState c, 20, 4⟩
def Fld.swaps (c : Nat) : Fld := ⟨Reg.ctxState c, 24, 8⟩
def Fld.geodeBase (c : Nat) : Fld := ⟨Reg.ctxGeode c, 0, 6⟩
def Fld.geodeSize (c : Nat) : Fld := ⟨Reg.ctxGeode c, 16, 7⟩
def Fld.streamBase (c : Nat) : Fld := ⟨Reg.ctxCore c, 0, 6⟩
def Fld.streamCount (c : Nat) : Fld := ⟨Reg.ctxCore c, 8, 7⟩
def Fld.slotBase (c : Nat) : Fld := ⟨Reg.ctxCore c, 16, 7⟩
def Fld.slotCount (c : Nat) : Fld := ⟨Reg.ctxCore c, 24, 8⟩
def Fld.statBase (c : Nat) : Fld := ⟨Reg.ctxLocal c, 8, 6⟩
def Fld.statUnits (c : Nat) : Fld := ⟨Reg.ctxLocal c, 14, 7⟩
def Fld.lsBase (c : Nat) : Fld := ⟨Reg.ctxLocal c, 21, 5⟩
def Fld.lsUnits (c : Nat) : Fld := ⟨Reg.ctxLocal c, 26, 6⟩
def Fld.mainBase (c : Nat) : Fld := ⟨Reg.ctxMain c, 0, 10⟩
def Fld.mainSize (c : Nat) : Fld := ⟨Reg.ctxMain c, 16, 10⟩
def Fld.globalBase (c : Nat) : Fld := ⟨Reg.ctxGlobal c, 0, 11⟩
def Fld.globalSize (c : Nat) : Fld := ⟨Reg.ctxGlobal c, 16, 11⟩

def Fld.buddyGib : Fld := ⟨Reg.memLayout, 16, 10⟩
def Fld.globalGib : Fld := ⟨Reg.memLayout, 0, 10⟩
def Fld.scrubEn : Fld := ⟨Reg.memScrub, 31, 1⟩
def Fld.frameCe : Fld := ⟨Reg.memScrub, 16, 8⟩
def Fld.scrubPeriod : Fld := ⟨Reg.memScrub, 0, 8⟩
def Fld.scrubActive : Fld := ⟨Reg.memStat, 2, 1⟩
def Fld.memCfgReject : Fld := ⟨Reg.memStat, 1, 1⟩
def Fld.invBusy : Fld := ⟨Reg.memStat, 0, 1⟩

def Fld.moduleValid : Fld := ⟨Reg.veiModule, 31, 1⟩
def Fld.moduleId : Fld := ⟨Reg.veiModule, 0, 12⟩
def Fld.dropped : Fld := ⟨Reg.veiStat, 16, 16⟩
def Fld.veiCfgReject : Fld := ⟨Reg.veiStat, 0, 1⟩
def Fld.jobValid (c : Nat) : Fld := ⟨Reg.veiJob c, 31, 1⟩
def Fld.jobId (c : Nat) : Fld := ⟨Reg.veiJob c, 0, 12⟩
def Fld.portEnable (p : Nat) : Fld := ⟨Reg.portCfg p, 31, 1⟩
def Fld.degradeEn (p : Nat) : Fld := ⟨Reg.portCfg p, 30, 1⟩
def Fld.retryBudget (p : Nat) : Fld := ⟨Reg.portCfg p, 0, 10⟩
def Fld.portPeer (p : Nat) : Fld := ⟨Reg.portStat p, 16, 12⟩
def Fld.lanesOk (p : Nat) : Fld := ⟨Reg.portStat p, 8, 8⟩
def Fld.episode (p : Nat) : Fld := ⟨Reg.portStat p, 3, 1⟩
def Fld.portState (p : Nat) : Fld := ⟨Reg.portStat p, 0, 3⟩
def Fld.episodes (p : Nat) : Fld := ⟨Reg.portReplays p, 0, 32⟩
def Fld.badGroups (p : Nat) : Fld := ⟨Reg.portFec p, 0, 32⟩
def Fld.maxEp (p : Nat) : Fld := ⟨Reg.portMaxEp p, 0, 32⟩

def Fld.colBusy (e : Nat) : Fld := ⟨Reg.colStat, 12 + e, 1⟩
def Fld.dirValid : Fld := ⟨Reg.colStat, 7, 1⟩
def Fld.dirCtx : Fld := ⟨Reg.colStat, 4, 3⟩
def Fld.colCfgReject : Fld := ⟨Reg.colStat, 0, 1⟩

def Fld.reserveEn : Fld := ⟨Reg.errCtrl, 31, 1⟩
def Fld.assayLevel : Fld := ⟨Reg.errCtrl, 8, 2⟩
def Fld.sampleLog2 : Fld := ⟨Reg.errCtrl, 0, 4⟩
def Fld.errOpen : Fld := ⟨Reg.errStat, 24, 8⟩
def Fld.errLost : Fld := ⟨Reg.errStat, 16, 8⟩
def Fld.wdTrips : Fld := ⟨Reg.errStat, 8, 8⟩
def Fld.lastValid : Fld := ⟨Reg.errStat, 5, 1⟩
def Fld.replayBusy : Fld := ⟨Reg.errStat, 4, 1⟩
def Fld.screenBusy : Fld := ⟨Reg.errStat, 3, 1⟩
def Fld.degraded : Fld := ⟨Reg.errStat, 2, 1⟩
def Fld.errCfgReject : Fld := ⟨Reg.errStat, 0, 1⟩
def Fld.errNext : Fld := ⟨Reg.errNext, 0, 6⟩
def Fld.evidEnable : Fld := ⟨Reg.errEvidCfg, 31, 1⟩
def Fld.evidSlotsM1 : Fld := ⟨Reg.errEvidCfg, 0, 6⟩
def Fld.screenCount : Fld := ⟨Reg.errScreenCtrl, 0, 9⟩
def Fld.assayChk : Fld := ⟨Reg.errAssayChk, 0, 32⟩
def Fld.assaySkip : Fld := ⟨Reg.errAssaySkip, 0, 32⟩

def Fld.fosSetCnt : Fld := ⟨Reg.fosSetCnt, 0, 13⟩
def Fld.fosInPages : Fld := ⟨Reg.fosInSize, 0, 16⟩
def Fld.buddyEn : Fld := ⟨Reg.fosBuddyIn, 31, 1⟩
def Fld.buddySender : Fld := ⟨Reg.fosBuddyIn, 0, 12⟩
def Fld.buddyEpoch : Fld := ⟨Reg.fosBuddyEpoch, 0, 32⟩
def Fld.buddyValid : Fld := ⟨Reg.fosBuddyStat, 31, 1⟩
def Fld.buddyLanding : Fld := ⟨Reg.fosBuddyStat, 30, 1⟩
def Fld.buddyFilling : Fld := ⟨Reg.fosBuddyStat, 29, 1⟩
def Fld.buddyPages : Fld := ⟨Reg.fosBuddyStat, 0, 18⟩
def Fld.bounced : Fld := ⟨Reg.fosStat, 16, 16⟩
def Fld.fosCfgReject : Fld := ⟨Reg.fosStat, 5, 1⟩
def Fld.fosUpdated : Fld := ⟨Reg.fosStat, 4, 1⟩
def Fld.partial_ : Fld := ⟨Reg.fosStat, 3, 1⟩
def Fld.fosState : Fld := ⟨Reg.fosStat, 0, 3⟩
def Fld.fosEpoch : Fld := ⟨Reg.fosEpoch, 0, 32⟩
def Fld.fosCommitted : Fld := ⟨Reg.fosCommitted, 0, 32⟩

def Fld.capEn : Fld := ⟨Reg.pwrCap, 31, 1⟩
def Fld.capW : Fld := ⟨Reg.pwrCap, 16, 11⟩
def Fld.capWindow : Fld := ⟨Reg.pwrCap, 0, 10⟩
def Fld.ref156Lost : Fld := ⟨Reg.pwrStat, 7, 1⟩
def Fld.wearPlanDue : Fld := ⟨Reg.pwrStat, 6, 1⟩
def Fld.inputRange : Fld := ⟨Reg.pwrStat, 5, 1⟩
def Fld.ceiling : Fld := ⟨Reg.pwrStat, 4, 1⟩
def Fld.capping : Fld := ⟨Reg.pwrStat, 3, 1⟩
def Fld.thermal : Fld := ⟨Reg.pwrStat, 2, 1⟩
def Fld.throttleIn : Fld := ⟨Reg.pwrStat, 1, 1⟩
def Fld.floor : Fld := ⟨Reg.pwrStat, 0, 1⟩
def Fld.inputMv : Fld := ⟨Reg.pwrInput, 16, 16⟩
def Fld.inputCa : Fld := ⟨Reg.pwrInput, 0, 16⟩
def Fld.avg1ms : Fld := ⟨Reg.pwrPower, 16, 16⟩
def Fld.avgWin : Fld := ⟨Reg.pwrPower, 0, 16⟩
def Fld.stormPerMs : Fld := ⟨Reg.pwrDroopCfg, 8, 8⟩
def Fld.droopThresh : Fld := ⟨Reg.pwrDroopCfg, 0, 4⟩
def Fld.droops (s : Nat) : Fld := ⟨Reg.pwrDroopCnt s, 0, 32⟩
def Fld.filtered : Fld := ⟨Reg.pwrThrottleCnt, 16, 16⟩
def Fld.assertions : Fld := ⟨Reg.pwrThrottleCnt, 0, 16⟩
def Fld.hubC : Fld := ⟨Reg.pwrTemp, 24, 8⟩
def Fld.stackC : Fld := ⟨Reg.pwrTemp, 16, 8⟩
def Fld.slabC : Fld := ⟨Reg.pwrTemp, 8, 8⟩
def Fld.tripC : Fld := ⟨Reg.pwrThermLim, 16, 8⟩
def Fld.throttleC : Fld := ⟨Reg.pwrThermLim, 8, 8⟩
def Fld.stackThrottleC : Fld := ⟨Reg.pwrThermLim, 0, 8⟩
def Fld.wearLow : Fld := ⟨Reg.pwrWear, 8, 8⟩
def Fld.wearIndex : Fld := ⟨Reg.pwrWear, 0, 8⟩
def Fld.wearPeriod : Fld := ⟨Reg.pwrWearCtrl, 0, 8⟩
def Fld.wearMhz (s : Nat) : Fld := ⟨Reg.pwrSlabF s, 16, 12⟩
def Fld.fMhz (s : Nat) : Fld := ⟨Reg.pwrSlabF s, 0, 12⟩
def Fld.grpIndex (g : Nat) : Fld := ⟨Reg.pwrWearGrp g, 24, 8⟩
def Fld.grpMv (g : Nat) : Fld := ⟨Reg.pwrWearGrp g, 0, 12⟩

def Fld.bootLock : Fld := ⟨Reg.secLock, 0, 1⟩
def Fld.keyIdx : Fld := ⟨Reg.secBootStat, 24, 2⟩
def Fld.svn : Fld := ⟨Reg.secBootStat, 16, 6⟩
def Fld.minSvn : Fld := ⟨Reg.secBootStat, 8, 6⟩
def Fld.ownerEnrolled : Fld := ⟨Reg.secBootStat, 6, 1⟩
def Fld.debugOpened : Fld := ⟨Reg.secBootStat, 5, 1⟩
def Fld.trial : Fld := ⟨Reg.secBootStat, 4, 1⟩
def Fld.fallback : Fld := ⟨Reg.secBootStat, 3, 1⟩
def Fld.bootSlot : Fld := ⟨Reg.secBootStat, 2, 1⟩
def Fld.bootState : Fld := ⟨Reg.secBootStat, 0, 2⟩
def Fld.ctxEnable : Fld := ⟨Reg.secProt, 8, 8⟩
def Fld.quarryModes : Fld := ⟨Reg.secProt, 0, 3⟩
def Fld.debugOpen : Fld := ⟨Reg.secDebug, 0, 1⟩
def Fld.enroll : Fld := ⟨Reg.secOwnerCtrl, 0, 1⟩
def Fld.updStatus : Fld := ⟨Reg.secUpdStat, 0, 3⟩
def Fld.attStatus : Fld := ⟨Reg.secAttStat, 0, 2⟩

end Sys2Proof.Machine
end

