-- ==== Sys2Proof/Machine/State.lean ====
section
/-! DEFINITION. The state of the module: every register, buffer, queue, counter, mode and pin that the spec
gives it, as plain data, and the queue of waiting commands. INVENTORY.md lists each piece with its rule. -/

namespace Sys2Proof.Machine

/-- A sparse map from keys to values: keys strictly rising, no entry equal to its default. -/
abbrev SMap (α : Type) := List (Nat × α)

/-! ## Strata (chapter Strata and the Stratum Tick) -/

/-- The tick state of one quarry; in Whole mode the module is quarry 0 (R37, R38). -/
structure Quarry where
  /-- The 48-bit stratum counter (R48). -/
  count : BitVec 48 := 0
  /-- Count bits [47:32] that the host's last read of STR_COUNT_LO latched (R48). -/
  latchHost : BitVec 16 := 0
  /-- The same latch of Flint (R48). -/
  latchFlint : BitVec 16 := 0
  /-- Accepted ticks since PERST#: the measure of budgets in strata (R42). -/
  ticks : Nat := 0
  /-- A stratum has been opened by a tick since run was last set (R32). -/
  opened : Bool := false
  /-- Moment of the last accepted tick, in units of 10 ns. -/
  lastTick : Nat := 0
  /-- The period in µs that times the present stratum (R30). -/
  period : Nat := 100
  /-- The least gap in µs between external ticks that is in force (R30). -/
  minGap : Nat := 90
  /-- Moment at which run was last set (R32). -/
  runAt : Nat := 0
  /-- Moment from which a missing tick is measured: done, or the last stretch symbol since (R45). -/
  heardAt : Nat := 0
  /-- Down ports whose done of the present stratum has arrived (R31). -/
  downDone : List Nat := []
  /-- Who reported done last in the present stratum: a down port, or 16 for the module (R40). -/
  lastDone : Option Nat := none
  /-- The done symbol of the present stratum has been sent up (R31). -/
  sentDone : Bool := false
  /-- STRATUM_OVERRUN has been raised in the present stratum (R41). -/
  overrun : Bool := false
  /-- DOMAIN_OVERRUN has been raised in the present stratum (R41). -/
  domOverrun : Bool := false
  /-- The job context faulted on an overrun, so the module counts as done (R43). -/
  faultDone : Bool := false
  /-- Internal ticks issued in the present holdover (R46). -/
  holdoverTicks : Nat := 0
  /-- Stretch symbols sent in the present stratum (R34). -/
  stretchSent : Nat := 0
  /-- A swap is in progress: incoming, victim, the tick at which it is abandoned, exchange done (R407). -/
  swap : Option (Nat × Nat × Nat × Bool) := none
  deriving DecidableEq, Repr

/-! ## Cores, streams and tiles (chapter Cores, Descriptor Streams and Tiles) -/

/-- Stream states (R59). -/
inductive StreamState where
  | unbound | idle | parked | ready | waiting | busy | ended | faulted
  deriving DecidableEq, Repr

/-- Why a stream is Waiting (R59, R70, R74, R77, R254). -/
inductive WaitFor where
  | nothing
  | sem (key : Nat)
  | queue
  /-- A KV-extend fault on a window address (R258). -/
  | kvExtend (slot : Nat) (va : Nat)
  /-- An odd or changed page version, with the virtual address of the page's record (R254). -/
  | kvVersion (slot : Nat) (record : Nat)
  /-- A checker's comparison (R466). -/
  | checker
  deriving DecidableEq, Repr

/-- What a piece of work has raised and counted (R146, R152). -/
structure Tally where
  /-- The five flags of R146, with PERM_RANGE in bit 5. -/
  flags : BitVec 6 := 0
  overflow : Nat := 0
  saturation : Nat := 0
  nanProduced : Nat := 0
  infConsumed : Nat := 0
  underflow : Nat := 0
  checksSkipped : Nat := 0
  rowEmpty : Nat := 0
  infInRow : Nat := 0
  nanInRow : Nat := 0
  permRange : Nat := 0
  elements : Nat := 0
  /-- Largest tracked magnitude, as a binary32 pattern (R150). -/
  amax : Nat := 0
  deriving DecidableEq, Repr

/-- Where a tile that ended for replay goes on: how far it came, whether it has opened its rows and fed a page of the
present entry, and what it raised (R257, R274). -/
structure Resume where
  entry : Nat := 0
  group : Nat := 0
  fed : Bool := false
  opened : Bool := false
  tally : Tally := {}
  /-- What each output element has raised so far, by its number in the tile (R146). -/
  marks : SMap (BitVec 7) := []
  /-- Sequences that have failed since the tile began: it does nothing for them (R261). -/
  dead : List Nat := []
  deriving DecidableEq, Repr

/-- One descriptor stream (R53, R55, R59). -/
structure Stream where
  state : StreamState := .unbound
  ctx : Nat := 0
  pc : Nat := 0
  c0 : BitVec 32 := 0
  c1 : BitVec 32 := 0
  c2 : BitVec 32 := 0
  c3 : BitVec 32 := 0
  progBase : Nat := 0
  progLen : Nat := 0
  prio : Bool := false
  /-- Moved to Ready by a release and not yet at its YIELD or END (R24, R58). -/
  released : Bool := false
  /-- The head has been fetched and checked (R64). -/
  issued : Bool := false
  /-- The descriptor buffer: up to 4 prefetched descriptors with the addresses that they were read from (R52, R58). -/
  buffer : List (Nat × Nat) := []
  /-- The wait of the head was met when the control unit last looked at it (R73). -/
  met : Bool := false
  /-- The checked head descriptor, 64 bytes as a little-endian number (R6). -/
  head : Nat := 0
  /-- Moment at which the head became ready (R73). -/
  readyAt : Nat := 0
  waitFor : WaitFor := .nothing
  /-- Resume point of a tile that ended for replay (R274, R590). -/
  resume : Option Resume := none
  /-- The donation of this wait has been spent (R400). -/
  donationSpent : Bool := false
  /-- Sticky flag word, with PERM_RANGE in bit 5 (R147). -/
  sticky : BitVec 6 := 0
  /-- end_code of the END that the stream executed (R65). -/
  endCode : BitVec 32 := 0
  deriving DecidableEq, Repr

/-- A core or hub semaphore (R67). -/
structure Sem where
  value : BitVec 32 := 0
  owner : Nat := 0
  valid : Bool := false
  share : BitVec 8 := 0
  deriving DecidableEq, Repr

/-- What a tile's work has come to. -/
inductive TilePhase where
  /-- The engine runs the tile. -/
  | running
  /-- The tile's effect on memory and slots is complete. -/
  | worked
  /-- Finished, but a checker's comparison is due (R466). -/
  | checking
  /-- A checker's execution of a tile runs (R466). -/
  | recheck
  /-- Ended by a guard or fault; the engine has not stopped yet (R76, R82). -/
  | stopping
  /-- A tile of a fenced core that the plan of a stratum gives this core; it has not started (R27, R447). -/
  | placed
  deriving DecidableEq, Repr

/-- One entry of a telemetry table (R152). -/
structure Tele where
  sum : Tally := {}
  longTiles : Nat := 0
  tiles : Nat := 0
  deriving DecidableEq, Repr

/-- A region of an evidence entry: where it lay, the output that it belongs to (15 for an input), and its bytes (R471). -/
structure EvidRegion where
  space : Bool
  addr : Nat
  out : Nat
  data : List Byte
  deriving DecidableEq, Repr

/-- One tile in flight on an engine of a core (R60, R76). -/
structure Tile where
  core : Nat
  engine : Engine
  stream : Nat
  ctx : Nat
  /-- The descriptor, as in `Stream.head`. -/
  desc : Nat
  startAt : Nat := 0
  /-- The slab's arithmetic-clock count at the start, in hundredths of a clock (R75). -/
  startClk : Nat := 0
  /-- The slab's guarded-time count at the start, in units of 10 ns (R76). -/
  startGuard : Nat := 0
  /-- Stratum counter at the start (R141, R465). -/
  startCount : BitVec 48 := 0
  /-- The stream of a fenced core whose tile this is, as its core and number; of a checker's execution, its primary; none while
  the tile runs for `stream` (R27, R447, R466). -/
  home : Option (Nat × Nat) := none
  /-- Moment of the guard or fault that is stopping the tile, or of its end while it waits for its checker. -/
  stopAt : Nat := 0
  /-- It ran longer than a tile may, as measured when a checked tile ended (R75). -/
  long : Bool := false
  phase : TilePhase := .running
  /-- Flags and counts raised so far. -/
  tally : Tally := {}
  /-- Checker core of a tile selected for checking (R465). -/
  checker : Option Nat := none
  /-- The checker's tile has started (R466). -/
  checkerRan : Bool := false
  /-- The tile was selected at level 2 (R471). -/
  full : Bool := false
  /-- What a tile under Assay has written and read, as in `CoreSt.log`, the latest last (R467, R470). -/
  wrote : List (Nat × Nat × List Byte) := []
  /-- For a checked tile: its core's local store as its inputs stood at its start, with the tags (R466). -/
  copy : Option (List Host.Cell × SMap Bool) := none
  /-- The signature of a checker's execution (R467). -/
  sig : Nat := 0
  /-- Subslot addresses that a demotion posts to Flint for release (R265). -/
  posted : List Nat := []
  /-- Accepted ticks at the start (R276). -/
  startTicks : Nat := 0
  /-- How far an attention or KV tile has come, as in `Resume`. -/
  at_ : Resume := {}
  /-- The sequence table, and the block header after it, as the tile read them at its start (R294). -/
  table : List Nat := []
  /-- Page records that the tile has read and not yet done with (R253, R254). -/
  held : List Nat := []
  /-- Ordinal of the tile among those its unit started in the stratum (R141, R589). -/
  ordinal : Nat := 0
  /-- One more than the rounds of a REDUCE that are done; 0 before it begins (R111). -/
  round : Nat := 0
  deriving DecidableEq, Repr

/-- A descriptor in a DMA queue, hub transfer queue or Whetstone queue (R52, R74). -/
structure QEntry where
  core : Nat
  /-- Number given at admission; unique while the entry lives. -/
  id : Nat
  stream : Nat
  ctx : Nat
  desc : Nat
  /-- Accepted ticks at issue, for tick-bound descriptors (R25). -/
  ticks : Nat := 0
  startCount : BitVec 48 := 0
  /-- The engine has moved or updated everything it will. -/
  moved : Bool := false
  /-- Flags and counts raised so far. -/
  tally : Tally := {}
  deriving DecidableEq, Repr

/-- The cores of the module (R52). -/
structure CoreSt where
  /-- Keyed 64 × core + stream. -/
  streams : SMap Stream := []
  /-- Keyed 256 × core + index for core semaphores, 0x10000 + index for hub semaphores. -/
  sems : SMap Sem := []
  tiles : List Tile := []
  dmaq : List QEntry := []
  hubq : List QEntry := []
  wsq : List QEntry := []
  nextId : Nat := 0
  /-- Context whose tile an engine ran last, keyed 4 × core + engine number, as context + 1 (R81). -/
  lastCtx : SMap Nat := []
  /-- Telemetry entries, keyed 4096 × context + entry (R151). -/
  tele : SMap Tele := []
  /-- The sampling value x of level 1, keyed by core (R468). -/
  assayX : SMap (BitVec 32) := []
  /-- What a tile under Assay writes and reads, the latest first, while it runs: a write of 0 local store, 1 memory or 2 a statistics
  record, a read of 3 local store or 4 memory; the offset, address or record; and the bytes (R467, R470). -/
  log : Option (List (Nat × Nat × List Byte)) := none
  /-- While a relocated tile runs: the regions that it reads, what it has written first; none in any state between commands
  (R472, R474). -/
  feed : Option (List EvidRegion) := none
  /-- Ordinals of the epilogue and the vector engine, keyed 2 × core + unit kind: the stratum, by accepted ticks, and the
  number of pieces of work that it has started (R589). -/
  ordinals : SMap (Nat × Nat) := []
  deriving DecidableEq, Repr

/-! ## Memory (chapter Geode, Main Memory and Translation) -/

/-- One TLB leaf or walk-cache pointer (R230). `unit` is the core for a leaf, 160 + slab for a pointer. -/
structure TlbEntry where
  unit : Nat
  ctx : Nat
  base : Nat
  size : Nat
  pa : Nat
  write : Bool
  deriving DecidableEq, Repr

/-- The memories of the module, and the host memory that the PCIe port reaches (R17, R52, R208). -/
structure MemSt where
  /-- Main memory and Geode by physical address (R208). -/
  phys : List Host.Cell := []
  /-- How often the contents of main memory have been lost since the first reset (R214). -/
  mainEpoch : Nat := 0
  /-- How often those of Geode, local store, statistics and accumulators have. -/
  sramEpoch : Nat := 0
  /-- Poisoned granules of main memory and Geode, keyed by granule number (R216, R218). -/
  poison : SMap Bool := []
  /-- Fossil field of main-memory granules, keyed by granule number (R218). -/
  fossil : SMap (BitVec 2) := []
  /-- Local stores, keyed 2²¹ × core + offset. -/
  ls : List Host.Cell := []
  /-- Poison tags of local-store granules, keyed by granule number (R458). -/
  lsPoison : SMap Bool := []
  /-- Statistics memories, keyed 2¹⁸ × core + offset (R187). -/
  stat : List Host.Cell := []
  /-- Poison flags of statistics records, keyed 16384 × core + record (R192). -/
  statPoison : SMap Bool := []
  /-- Accumulators, keyed (128 × core + slot) × 1024 + 32 × row + column (R99). -/
  acc : SMap (BitVec 40) := []
  /-- Poison flags of slot rows, keyed (128 × core + slot) × 32 + row (R119). -/
  accPoison : SMap Bool := []
  /-- Slots whose contents a fault left undefined, keyed 128 × slab + slot: the number of that loss (R101). -/
  accLost : SMap Nat := []
  /-- The same for one core's slots, keyed 128 × core + slot (R282). -/
  accGone : SMap Nat := []
  /-- The same for statistics records, keyed 64 × slab + unit of 256 records (R187). -/
  statLost : SMap Nat := []
  /-- Losses of contents so far. -/
  losses : Nat := 0
  /-- Physical errors of main memory and Geode not yet found, keyed by 8-byte word: how the word's bits differ from what
  was written. Bits 71:64 are its check bits in Geode, and metadata byte i of the granule for word i of main memory
  (R216, R218, R219). -/
  latent : SMap (BitVec 72) := []
  /-- Uncorrectable errors of local store, slot rows and records not yet found, by granule, row or record as the
  poison maps are keyed, plus 2³², 2³³ or 2³⁴ (R458). -/
  localLatent : SMap Bool := []
  /-- Corrected errors per 16 KiB frame in the present period (R224). -/
  frameCe : SMap Nat := []
  /-- The retired-frame list in order (R225). -/
  retired : List Nat := []
  /-- Moments of each corrected error within the last second, as (channel, moment) (R588). -/
  channelCe : List (Nat × Nat) := []
  /-- Channels whose burst stands raised (R588). -/
  bursting : SMap Bool := []
  /-- Channels being retrained, with the moment from which (R588). -/
  retraining : List (Nat × Nat) := []
  /-- TLB leaves and walk-cache pointers (R230), newest first. -/
  tlb : List TlbEntry := []
  /-- The invalidation in progress: scope, context, address (R231). -/
  inval : Option (Nat × Nat × Nat) := none
  /-- Start of the present scrub pass, or the last restart of the counts (R224). -/
  scrubStart : Nat := 0
  /-- The moment of the last PERST# (R224). -/
  resetAt : Nat := 0
  /-- Host memory (R17). -/
  host : List Host.Cell := []
  /-- Host ranges that answer badly: first address, length, poisoned (else an access error) (R425). -/
  hostBad : List (Nat × Nat × Bool) := []
  deriving DecidableEq, Repr

/-! ## Contexts and jobs (chapter Jobs, Resident Contexts and Quarries) -/

/-- The plan header of one core (R56). -/
structure Plan where
  base : Nat := 0
  len : Nat := 0
  loopFrom : Nat := 0
  /-- The job stratum index j (R57). -/
  j : Nat := 0
  deriving DecidableEq, Repr

/-- One stream-table entry of a job image (R55). -/
structure StreamCfg where
  base : Nat := 0
  len : Nat := 0
  prio : Bool := false
  enable : Bool := false
  deriving DecidableEq, Repr

/-- A semaphore donation (R400). -/
structure Donation where
  /-- Waiting stream, keyed 64 × core + stream. -/
  waiter : Nat
  fromCtx : Nat
  toCtx : Nat
  level : Nat
  /-- Ticks counted so far; only those at which the owner is resident (R400). -/
  used : Nat
  deriving DecidableEq, Repr

/-- What a resident or spilled context holds besides its CTX registers (R393, R429, R431). -/
structure Ctx where
  seed : BitVec 64 := 0
  ptRoot : Nat := 0
  /-- Times this number has been created: tells one life of a number from the next (R453). -/
  life : Nat := 0
  /-- Step flag word and repeat bit (R148, R310). -/
  stepFlags : BitVec 5 := 0
  repeatBit : Bool := false
  /-- WS_SEAL of the present step has run (R328). -/
  sealed_ : Bool := false
  /-- Check or release messages that found no lease (R325). -/
  verStray : Nat := 0
  trapMask : BitVec 5 := 0
  /-- Code of the fault that ended the context; 0 when none. -/
  faultCode : Nat := 0
  /-- Code of a fault that waits for the swap to end; 0 when none (R408). -/
  pendFault : Nat := 0
  /-- The SQ that carried JOB_START (R424). -/
  startSq : Nat := 0
  /-- A job has started and its job-end completion has not been posted (R424, R432). -/
  jobOn : Bool := false
  /-- The host has set the priority level through set-policy (R288, R398). -/
  prioSet : Bool := false
  /-- Moment at which the context was last spilled (R406). -/
  spilledAt : Nat := 0
  /-- Sequences that failed in the job, and the first of them (R424). -/
  failedSeqs : Nat := 0
  firstFailed : Option Nat := none
  /-- Regions section: KV frame pool ranges (address, frames), staging address and size in MiB, channel mask (R431). -/
  kvPool : List (Nat × Nat) := []
  /-- Pool frames that hold tables of the context's tree which Flint has made for its windows (R227, R258). -/
  kvTables : List Nat := []
  staging : Nat := 0
  stagingMib : Nat := 0
  /-- Bytes of the staging area taken (R365). -/
  stagingUsed : Nat := 0
  decodeMask : BitVec 8 := 0
  /-- Rotary set-ups, the newest first: the accepted tick from which each is in force, the base, the pairing mode, and
  the scales as bytes (R276). -/
  rots : List (Nat × BitVec 32 × Bool × List Byte) := []
  /-- A layer table is loaded, and its bytes; telemetry and norm table addresses stand in it (R298). -/
  layerTable : List Byte := []
  /-- Op lists as bytes (R316). -/
  opLists : List Byte := []
  deriving DecidableEq, Repr

/-- Contexts, jobs and donations. -/
structure CtxSt where
  ctxs : SMap Ctx := []
  /-- Keyed 160 × context + core. -/
  plans : SMap Plan := []
  /-- Keyed (160 × context + core) × 64 + stream. -/
  streamCfg : SMap StreamCfg := []
  donations : List Donation := []
  /-- Unfinished tiles of fenced cores that Flint gives the next stratum's plan (R27, R447). -/
  reissue : List Tile := []
  deriving DecidableEq, Repr

/-! ## Host interface (chapter Host Interface) -/

/-- A command that Flint has read (R423, R426). -/
structure Cmd where
  /-- Acceptance number (R426). -/
  id : Nat
  sq : Nat
  /-- The 64 bytes as a little-endian number (R6). -/
  raw : Nat
  started : Bool := false
  /-- A DMA command has moved what it will; its status and counts (R434, R435). -/
  dmaDone : Bool := false
  status : Nat := 0
  moved : Nat := 0
  poisoned : Nat := 0
  firstPoison : Nat := 0
  deriving DecidableEq, Repr

/-- A completion not yet written (R421, R424): the CQ, its SQ, and the 32 bytes but for sq_head and phase. -/
structure Compl where
  cq : Nat
  sq : Nat
  kind : Nat
  body : Nat
  /-- Sequence slot to release once written (R289, R421). -/
  slot : Option Nat := none
  deriving DecidableEq, Repr

/-- The host interface. -/
structure HostSt where
  sqTail : SMap Nat := []
  cqHead : SMap Nat := []
  /-- The phase bit has inverted since the CQ was enabled (R421). -/
  cqPhase : SMap Bool := []
  /-- Unsignalled entries of a CQ, and the moment of the oldest (R422). -/
  unsignalled : SMap Nat := []
  oldest : SMap Nat := []
  /-- The SQ after the one read last (R426). -/
  nextSq : Nat := 0
  nextId : Nat := 0
  /-- Commands read and not completed, in acceptance order. -/
  cmds : List Cmd := []
  /-- Completions not yet written, in order. -/
  compls : List Compl := []
  /-- MSI-X vectors fired, in order (R422). -/
  msix : List Nat := []
  /-- MSI-X table: vectors that the host has masked or not set up hold their entry here; reset clears it. -/
  msixTable : SMap Nat := []
  /-- Uncorrectable internal errors reported through AER (R461). -/
  aer : Nat := 0
  /-- The last configuration request was completed with retry status (R414). -/
  lastCrs : Option Bool := none
  /-- Result of the last register, BAR4 or configuration read. -/
  readData : Nat := 0
  /-- Host copies of the index registers, by offset (R576). -/
  hostIdx : SMap Word := []
  /-- The two BAR4 registers of configuration space together (R417). -/
  bar4 : BitVec 64 := 0
  /-- A function-level reset waits for a swap to end (R415). -/
  flr : Bool := false
  deriving DecidableEq, Repr

/-! ## Errors and Assay (chapter Errors, Containment and Assay) -/

/-- State of an error record (R450). -/
inductive RecState where
  | free | opened | closed
  deriving DecidableEq, Repr

/-- An error record (R450). -/
structure ErrRec where
  state : RecState := .free
  code : Nat := 0
  lastCode : Nat := 0
  ctx : Option Nat := none
  domain : Nat := 0
  escalated : Bool := false
  index : Nat := 0
  count : Nat := 0
  parent : Nat := 255
  flags : BitVec 6 := 0
  firstStratum : BitVec 48 := 0
  lastStratum : BitVec 48 := 0
  tileId : BitVec 32 := 0
  layerTag : BitVec 16 := 0
  core : Option Nat := none
  phys : Nat := 0
  evid : Option Nat := none
  detail : Nat := 0
  /-- Order of closing (R451). -/
  closedSeq : Nat := 0
  /-- Life of the context that a sequence record names (R453). -/
  life : Nat := 0
  deriving DecidableEq, Repr

/-- Use of an evidence entry (R470). -/
inductive EvidUse where
  | never | captured | replayed | copied
  deriving DecidableEq, Repr

/-- An entry of the evidence log (R470, R471): its header fields, and its regions with their data, which lie in the firmware area
of slice e mod 4. `regions` is none where they fit no entry (log entry 98). -/
structure Evid where
  use_ : EvidUse := .never
  source : Nat := 0
  outcome : Nat := 0
  primary : Nat := 0
  checker : Nat := 0xFFFF
  ctx : Nat := 0
  sigPrimary : Nat := 0
  sigChecker : Nat := 0
  sigRef : Nat := 0
  culprits : Nat := 0
  seed : BitVec 64 := 0
  stratum : BitVec 48 := 0
  ordinal : Nat := 0
  descriptor : Nat := 0
  regions : Option (List EvidRegion) := none
  /-- The record that a mismatch opened for it (R453, R470). -/
  record : Option Nat := none
  deriving DecidableEq, Repr

/-- The error engine, fences, the watchdog and Assay. -/
structure ErrSt where
  recs : SMap ErrRec := []
  closeSeq : Nat := 0
  /-- Event policies by code (R441). -/
  policy : SMap Nat := []
  /-- Fenced units, keyed 1024 × domain + index (R447, R448). -/
  fences : SMap Bool := []
  evid : SMap Evid := []
  /-- Screening vectors that are still to run: the host address of each, and by how much each core's signature differs from a
  fault-free one (R474). -/
  screen : List (Nat × List Nat) := []
  /-- The evidence entry after the one filled last (R470). -/
  nextEvid : Nat := 0
  /-- Entries copied to the host since boot (R473). -/
  copied : Nat := 0
  /-- Moment of the last watchdog acknowledgement and of the last trip (R459, R461). -/
  lastAck : Nat := 0
  lastTrip : Option Nat := none
  /-- Flint is held or restarting (R460). -/
  flintDown : Bool := false
  /-- Commands that a watchdog trip caught; they complete with MODULE_STATE after the restart (R460). -/
  caught : List Nat := []
  /-- Policy actions that wait for the restart: code, context or index (R460). -/
  deferred : List (Nat × Nat) := []
  /-- New level and sample_log2 take effect at the next tick: those in effect (R475). -/
  level : Nat := 0
  sampleLog2 : Nat := 8
  deriving DecidableEq, Repr
/-! ## Sequences (chapter The Paged Key-Value Cache) -/

/-- The entry of a sequence slot (R248). -/
structure Slot where
  valid : Bool := false
  ctx : Nat := 0
  decode : Bool := false
  channel : Nat := 0
  /-- 0 active, 1 KV_FULL, 2 KV_POISON. -/
  status : Nat := 0
  budget : Nat := 0
  layerBits : Nat := 0
  groupBits : Nat := 0
  recBase : Nat := 0
  extendFaults : Nat := 0
  versionReplays : Nat := 0
  failIdx : Nat := 0
  deriving DecidableEq, Repr

/-- A KV-extend fault that waits for a frame (R258 to R260). -/
structure KvWait where
  core : Nat
  stream : Nat
  ctx : Nat
  slot : Nat
  /-- Virtual address of the subslot. -/
  va : Nat
  /-- Accepted tick at which its budget expires (R260). -/
  expires : Nat
  /-- The budget has expired with no frame for it (R260). -/
  lost : Bool := false
  deriving DecidableEq, Repr

/-- A pool frame that is mapped into a window: context, slot, subslot address and physical address (R258). -/
structure KvFrame where
  ctx : Nat
  slot : Nat
  va : Nat
  pa : Nat
  deriving DecidableEq, Repr

/-- Sequence slots, faults and frames. -/
structure KvSt where
  slots : SMap Slot := []
  /-- In the order in which they were taken (R260). -/
  waits : List KvWait := []
  frames : List KvFrame := []
  /-- Subslots that demotions have posted for release: context and address (R265). -/
  posted : List (Nat × Nat) := []
  deriving DecidableEq, Repr

/-! ## Whetstone (chapter Backward Pass, Whetstone and Parameter Versions) -/

/-- An entry of the version table (R303). -/
structure Shard where
  /-- The table has this entry. -/
  valid : Bool := false
  version : BitVec 32 := 0
  leases : Nat := 0
  /-- 0 stable, 1 draining, 2 updating. -/
  state : Nat := 0
  layer : Nat := 0
  /-- Accepted tick at which draining began (R327). -/
  drainAt : Nat := 0
  /-- Format of the shard's parameters as the last update gave it: p_fmt of R314; none before any (R304). -/
  pFmt : Option (BitVec 1) := none
  /-- The outcome of an update with last = 1 that has written back while others of the shard were in flight: one more than
  its number (R315). -/
  closing : Nat := 0
  deriving DecidableEq, Repr

/-- A WS_UPDATE that the hub has accepted (R311, R315, R322). -/
structure WsJob where
  id : Nat
  core : Nat
  ctx : Nat
  shard : Nat
  /-- 0 Repeat, 1 Skip, 2 Update. -/
  outcome : Nat
  /-- κ, binary32. -/
  kappa : Nat
  /-- The scalar record as read. -/
  scalars : Nat
  /-- Its blocks have been treated. -/
  ran : Bool := false
  tally : Tally := {}
  /-- By unit: the sums Σ M′², Σ G² and Σ (M′ − M)² in A40. -/
  norms : List (Nat × Nat × Nat × Nat) := []
  deriving DecidableEq, Repr

/-- A lease message: from the entry of a WS_LEASE to a home module (R324, R325). -/
structure LeaseMsg where
  id : Nat
  core : Nat
  /-- Entry of the lease list. -/
  entry : Nat
  ctx : Nat
  home : Nat
  shard : Nat
  mode : Nat
  /-- Version in the header, and in the entry. -/
  version : Nat
  held : Nat
  deriving DecidableEq, Repr

/-- A lease reply that this module has sent: gatherer, shard and result (R325). -/
structure LeaseOut where
  gatherer : Nat
  shard : Nat
  result : Nat
  deriving DecidableEq, Repr

/-- An entry of the norm table: binary32 sums, and the outcomes (R323). -/
structure Norm where
  sqW : Nat := 0
  sqG : Nat := 0
  sqU : Nat := 0
  updates : Nat := 0
  skips : Nat := 0
  deriving DecidableEq, Repr

/-- Version tables, updates, leases and norms. -/
structure WsSt where
  /-- Keyed 4096 × context + shard. -/
  shards : SMap Shard := []
  jobs : List WsJob := []
  /-- Lease messages sent and not yet answered. -/
  asked : List LeaseMsg := []
  /-- Lease replies sent, in order. -/
  replies : List LeaseOut := []
  /-- Keyed 4096 × context + entry. -/
  norms : SMap Norm := []
  deriving DecidableEq, Repr


/-! ## Vein (chapter Vein Links) -/

/-- A packet that waits for a port or leaves by it. -/
structure OutPkt where
  /-- Its header, and the data flits that are here. -/
  pkt : Packet
  /-- The pool whose credits it takes: 4 × context + vc, 32 for the hub pool, 33 for none (R348, R349). -/
  pool : Nat
  /-- Of a transit packet, the port and the pool of this module whose buffer holds it; pool 34 is the escape flit (R348). -/
  src : Option (Nat × Nat) := none
  /-- Data flits of a transit packet that have not yet arrived (R346). -/
  more : Nat := 0
  deriving DecidableEq, Repr

/-- Where the data flits of a packet that arrives go: to this module, out of a port, or nowhere. -/
inductive RxTo where
  | here | out (port : Nat) | gone
  deriving DecidableEq, Repr

/-- A packet in progress at a receiver: its channel, its data flits still to come, where they go, and for this module the packet
so far (R343, R346). -/
structure RxFlow where
  vc : Nat
  left : Nat
  dest : RxTo
  pkt : Packet
  deriving DecidableEq, Repr

/-- A Vein port: what it sends, what it keeps for a replay, and what it receives (R348 to R357). -/
structure Port where
  /-- Packets to send, in the order in which the hub gave them. -/
  queue : List OutPkt := []
  /-- The packets in progress, at most one on a virtual channel, with the data flits still to send (R343). -/
  cur : List OutPkt := []
  /-- The virtual channel 0–2 served last, and the pool served last on each channel (R350). -/
  lastVc : Nat := 2
  lastPool : SMap Nat := []
  /-- Number of the next flit to send (R351). -/
  seq : Nat := 0
  /-- Numbered flits not yet acknowledged, the oldest first, and those of them that a replay is still to send again (R352). -/
  replay : List WireFlit := []
  resend : List WireFlit := []
  /-- A link control flit is due, and whether it carries a NAK (R350, R351). -/
  ctlDue : Option Bool := none
  /-- Moment from which the port carries traffic at its present width, and the flit groups that it has sent since (R340). -/
  upAt : Nat := 0
  groups : Nat := 0
  /-- Moment at which an ack last advanced, or the wait for one began (R352). -/
  ackAt : Nat := 0
  /-- Start of the open retry episode, and the first flit of its latest replay (R353). -/
  epStart : Nat := 0
  epFirst : Nat := 0
  /-- Expected number of the receiver; it discards until that flit comes (R352). -/
  rxNext : Nat := 0
  discard : Bool := false
  /-- Packets in progress at the receiver (R343). -/
  partials : List RxFlow := []
  /-- Corrected and uncorrectable symbols by lane of the bad groups since the last good one, the newest first (R357). -/
  bad : List (List Nat) := []
  /-- Moment of the last link control flit; acks or credits are owed (R351). -/
  ctlAt : Nat := 0
  owed : Bool := false
  /-- Flits sent under each pool, and the peer's cumulative returns (R348, R351). -/
  used : SMap Nat := []
  returned : SMap Nat := []
  /-- The receiver's own cumulative returns. -/
  freed : SMap Nat := []
  /-- Packets that took the escape flit, the peer's returns of it, and the receiver's own returns. -/
  escUsed : Nat := 0
  escReturned : Nat := 0
  escFreed : Nat := 0
  /-- Moment at which the port failed, and the code (R356). -/
  failedAt : Nat := 0
  failCode : Nat := 0
  /-- Moment of the last start of training (R356). -/
  trainAt : Nat := 0
  /-- The lane that a degrading port leaves out (R357). -/
  lostLane : Nat := 0
  deriving DecidableEq, Repr

/-- The Vein ports and the routes. -/
structure VeinSt where
  ports : SMap Port := []
  /-- The flit groups that the ports have sent: port and five flits, no flit in a group that carries lane alignment; groups of
idle flits alone are not listed (R340). -/
  tx : List (Nat × List WireFlit) := []
  /-- Route table by destination (R360). -/
  routes : SMap Word := []
  /-- Pool sizes, keyed 64 × port + pool (R348, R349). -/
  pools : SMap Nat := []
  /-- Moment of the last VEIN_NO_ROUTE (R361). -/
  noRouteAt : Option Nat := none
  /-- ROUTE_FAIL notices sent: source, job and moment (R346). -/
  notices : List (Nat × Nat × Nat) := []
  deriving DecidableEq, Repr

/-! ## Collectives (chapter Collectives and Expert Routing) -/

/-- A class 0x6 descriptor that the hub has accepted (R364 to R377). -/
structure Xfer where
  id : Nat
  core : Nat
  stream : Nat
  ctx : Nat
  desc : Nat
  group : Nat
  /-- op of R365: 0–3 COLL, 4 SHIFT, 5 dispatch, 6 combine. -/
  op : Nat
  tag : Nat
  tickBound : Bool
  /-- Accepted ticks at issue (R25). -/
  ticks : Nat
  /-- Strata until the timeout (R376). -/
  left : Nat
  /-- Modules that it sends to. -/
  dests : List Nat
  /-- Counts table as the hub read it (R370). -/
  counts : List Nat := []
  /-- The engine that runs it (R363). -/
  engine : Option Nat := none
  /-- Ports that it uses, and whether its first packet has arrived (R354). -/
  ports : List Nat := []
  heard : Bool := false
  /-- The layer header and the layer's entries as the directory had them at the acceptance (R381). -/
  header : Nat := 0
  entries : List Nat := []
  /-- Ordinal of its draws (R373). -/
  ordinal : Nat := 0
  startCount : BitVec 48 := 0
  /-- Units received of each segment in the reducing and in the gathering part, by rank, or rows by rank. -/
  gotR : SMap Nat := []
  gotG : SMap Nat := []
  /-- End markers that have arrived: rank and amount (R366). -/
  marks : List (Nat × Nat) := []
  /-- Its own end markers have been sent. -/
  marked : Bool := false
  /-- The reduced own segment has gone on (R371). -/
  gathered : Bool := false
  /-- Rows landed in each slot, by slot (R383). -/
  rows : SMap Nat := []
  /-- Counts to add to the expert counter table, keyed 4 × entry + field (R385). -/
  expert : SMap Nat := []
  tally : Tally := {}
  /-- What each output element has raised so far, by its number (R146). -/
  seen : SMap (BitVec 7) := []
  deriving DecidableEq, Repr

/-- A packet that waits: for its transfer in the staging area, or for its landing in its pool (R365, R402). -/
structure Held where
  port : Option Nat
  /-- The pool that it occupies at that port; none once it lies in the staging area. -/
  pool : Option Nat
  ctx : Nat
  pkt : Packet
  deriving DecidableEq, Repr

/-- The collective engines. -/
structure CollSt where
  /-- Group entries as 8-byte numbers, and the member array (R367). -/
  groups : SMap Nat := []
  members : SMap Nat := []
  /-- Layer headers and entries of the expert directory (R380). -/
  headers : SMap Nat := []
  entries : SMap Nat := []
  /-- Expert counter table, keyed 4 × entry + field (R385). -/
  counters : SMap Nat := []
  /-- Accepted descriptors, in the order of acceptance. -/
  xfers : List Xfer := []
  /-- Packets that wait, in the order of arrival. -/
  held : List Held := []
  /-- Descriptors started per group in a stratum: accepted ticks and number (R373). -/
  ordinals : SMap (Nat × Nat) := []
  /-- Rows sent to the home and to the secondary of an expert in a stratum, keyed 2 × entry and 2 × entry + 1: accepted ticks and
  number (R380, R383). -/
  rowCounts : SMap (Nat × Nat) := []
  /-- A directory that set-policy has loaded and that is in force from the next accepted tick: context, headers and entries
  (R381). -/
  nextDir : Option (Nat × SMap Nat × SMap Nat) := none
  deriving DecidableEq, Repr

/-! ## Fossils (chapter Fossils, Buddies and Repeating a Step) -/

/-- A page of the fossil set of an epoch (R480, R485): 0 Protected, 1 Bounced, 2 Copied, 3 Streaming. -/
structure FosPage where
  va : Nat
  pa : Nat
  state : Nat := 0
  /-- Bounce frame. -/
  frame : Nat := 0
  crc : Nat := 0
  /-- Poisoned granules of the page as the engine read it. -/
  poisoned : Nat := 0
  deriving DecidableEq, Repr

/-- The one epoch of the module (R483, R484). -/
structure Epoch where
  ctx : Nat
  epoch : Nat
  /-- FOSSIL_BEGIN, until it completes, and the FOSSIL_COMMIT that waits. -/
  begin_ : Option Nat := none
  commit : Option Nat := none
  /-- The buddy has been asked and has not answered (R490). -/
  asked : Bool := false
  toStore : Bool := false
  toBuddy : Bool := false
  storeLive : Bool := false
  buddyLive : Bool := false
  /-- Status of the destination lost last (R494). -/
  lost : Nat := 0
  store : Nat := 0
  /-- Host DMA queue of the store path (R489). -/
  queue : Nat := 0
  buddy : Nat := 0
  coFed : Bool := false
  pages : List FosPage := []
  stratum : BitVec 48 := 0
  /-- Version entries at the opening tick, 8 bytes each (R479). -/
  versions : List Nat := []
  /-- Pages that bounced. -/
  bounces : Nat := 0
  headerSent : Bool := false
  deriving DecidableEq, Repr

/-- Messages of the fossil engine and of Flint that have no packet layout (R490, R494, R500): open, its reply, the commit
marker, a fill request, and a refused fill. -/
inductive FosMsg where
  | open_ (dst sender epoch pages : Nat)
  | reply (dst : Nat) (accept : Bool) (feed : Nat)
  | commit (dst epoch : Nat)
  | request (dst requester epoch : Nat)
  | refused (dst status : Nat)
  deriving DecidableEq, Repr

/-- A fill in progress at the spare (R500). -/
structure Fill where
  cmd : Nat
  ctx : Nat
  buddy : Nat
  epoch : Nat
  /-- The request has gone to the buddy (R501). -/
  asked : Bool := false
  /-- The header has landed: virtual addresses of the pages, and the version entries. -/
  header : Bool := false
  dir : List Nat := []
  versions : List Nat := []
  /-- Pages written, and poisoned granules among them. -/
  landed : Nat := 0
  poisoned : Nat := 0
  firstPoison : Nat := 0
  deriving DecidableEq, Repr

/-- A page that arrives: its sender and epoch, whether it is a page of a fill, its number, and its flits so far. -/
structure Arriving where
  src : Nat
  epoch : Nat
  fill : Bool
  page : Nat
  flits : List (Nat × Nat)
  deriving DecidableEq, Repr

/-- The fossil engine, and this module as a buddy. -/
structure FosSt where
  epoch : Option Epoch := none
  /-- Epochs that were abandoned and have not begun again (R484, R493). -/
  abandoned : List Nat := []
  /-- The context that holds or held the training job (R391). -/
  train : Option Nat := none
  /-- A context and the half that its window takes at the next tick (R495). -/
  nextMap : Option (Nat × Nat) := none
  /-- Held halves: half and step (R497). -/
  holds : List (Nat × Nat) := []
  /-- V of the previous boundary, and whether the next tick is the first after JOB_START (R482). -/
  lastV : Option Nat := none
  firstTick : Bool := false
  /-- As a buddy: the image that lands, as sender, epoch and pages; the half of the committed image (R490). -/
  landing : Option (Nat × Nat × Nat) := none
  half : Nat := 0
  /-- Pages of images and of a fill that arrive, one of each kind from a sender. -/
  arriving : List Arriving := []
  /-- Granules of another epoch that fills have sent poisoned (R500). -/
  parityMisses : Nat := 0
  fill : Option Fill := none
  /-- State partial: virtual ranges that are still to be written (R502). -/
  owed : List (Nat × Nat) := []
  /-- Messages sent, in order. -/
  sent : List FosMsg := []
  deriving DecidableEq, Repr

/-! ## Firmware and security (chapter Flint Firmware, Boot and Attestation) -/

/-- The boot flash, the fuses burned since production, what the boot ROM latched, and the requests in progress. -/
structure FwSt where
  /-- Bytes of the boot flash that differ from what production left (R509). -/
  flash : List Host.Cell := []
  /-- min_svn as burned since production; 0 when none (R529). -/
  burnedSvn : Nat := 0
  /-- Owner key burned since production, 32 bytes as a number (R520). -/
  owner : Option Nat := none
  /-- Digest of the running image (R514). -/
  digest : List Byte := []
  /-- enroll_key, latched when the image was accepted to enrol it (R514, R520). -/
  enrollKey : Option Nat := none
  /-- debug_open of the running image (R521). -/
  debugImage : Bool := false
  /-- M_setup (R518). -/
  mSetup : List Byte := []
  /-- An update in progress: host address and length; a watchdog restart has struck it (R526, R527). -/
  update : Option (Nat × Nat) := none
  updAborted : Bool := false
  /-- A report in the making: host address and nonce (R524). -/
  report : Option (Nat × List Byte) := none
  deriving DecidableEq, Repr

/-! ## Power and clocks (chapter Power, Clocks and Ageing) -/

/-- Clock control of one slab. -/
structure Slab where
  /-- Arithmetic clocks run so far, in hundredths of a clock (R75). -/
  clk : Nat := 0
  /-- Time run at 0.95 GHz or above, in units of 10 ns (R76). -/
  guard : Nat := 0
  /-- A droop or a canary halves the clock; moment from which it returns (R541, R543). -/
  drooped : Bool := false
  droopRamp : Option Nat := none
  /-- Moments of the stretches within the last millisecond (R541). -/
  droopAt : List Nat := []
  /-- Thermal request in MHz; 0 for none (R538). -/
  thermReq : Nat := 0
  deriving DecidableEq, Repr

/-- The power controller, the sensors and the weathering plan. -/
structure PwrSt where
  slabs : SMap Slab := []
  /-- Requests of the ceiling, the cap and the hub's temperature in MHz; 0 for none (R537, R538). -/
  ceilReq : Nat := 0
  capReq : Nat := 0
  hubReq : Nat := 0
  /-- Moment of the last step of the cap (R537). -/
  capAt : Nat := 0
  /-- New compute tiles are withheld (R537). -/
  withhold : Bool := false
  /-- Temperatures last sensed: slabs 0–3, the hub 4, stacks 5–36; the units in an excursion (R538). -/
  temps : SMap Nat := []
  hot : SMap Bool := []
  /-- Moment of the last step of a unit in an excursion (R538). -/
  hotAt : SMap Nat := []
  /-- THROTTLE_IN# recognised asserted since, THROTTLE_HELD raised, and the moment of the release (R539). -/
  throttleAt : Option Nat := none
  throttleTold : Bool := false
  throttleRamp : Option Nat := none
  /-- PWR_GOOD fell of itself: the regulators stay off until PWR_EN has been low for 100 ms; since when it is low (R536). -/
  lockout : Bool := false
  lowSince : Nat := 0
  /-- Moment of the last weathering plan, a plan asked for, and WEAR_LOW raised in this boot (R544 to R546). -/
  wearAt : Option Nat := none
  planNow : Bool := false
  wearLowTold : Bool := false
  /-- Sensor readings as Flint last refreshed them, and the moment (R566). -/
  readings : List Nat := []
  readAt : Option Nat := none
  deriving DecidableEq, Repr

/-! ## Pins and phases (chapter Connectors, Pins and Mechanical Data) -/

/-- Phases of R569. -/
inductive Phase where
  | unpowered | powerUp | reset | boot | running | fatal
  deriving DecidableEq, Repr

/-- The instruction in force at the JTAG port (R521). -/
inductive Jtag where
  | bypass | idcode | samplePreload | extest | private_
  deriving DecidableEq, Repr

/-- A reply of the management endpoint: completion code and values (R564, R566). -/
structure Reply where
  completion : Nat
  values : List Nat
  deriving DecidableEq, Repr

/-- The pins that the board and the module drive (R535, R559, R562, R568, R569). -/
structure Pins where
  phase : Phase := .reset
  pwrEn : Bool := true
  pwrGood : Bool := true
  /-- PERST# asserted. -/
  perst : Bool := true
  stratumOut : Bool := false
  /-- GLB_STRAPS as latched at PWR_GOOD rising. -/
  straps : Word := strapsWord Config.straps
  jtag : Jtag := .idcode
  /-- Output values that the boundary register holds: PWR_GOOD, ALERT#, STRATUM_OUT±, SMB_CLK and SMB_DAT released. -/
  boundary : List Bool := [false, false, false, true, true]
  /-- What the last JTAG instruction captured. -/
  scanOut : List Nat := []
  /-- MCTP endpoint ID, and the reply to the last request; none where the endpoint did not answer. -/
  eid : Nat := 0
  reply : Option Reply := none
  deriving DecidableEq, Repr

/-! ## Blocked quarries (R405) -/

/-- Per quarry: the moment since which every resident context has been blocked; and, once ALL_BLOCKED has been raised, the
contexts that have been blocked ever since. -/
structure BlkSt where
  since : SMap (Option Nat) := []
  told : SMap (Option (List Nat)) := []
  deriving DecidableEq, Repr

/-! ## The machine -/

/-- The module. -/
structure State where
  /-- Time since the first reset, in units of 10 ns (R28). -/
  now : Nat := 0
  /-- The registers of BAR0 that hold something other than their reset value, by offset (R572). -/
  regs : SMap Word := []
  /-- Tick state of each quarry. -/
  quarries : SMap Quarry := []
  core : CoreSt := {}
  mem : MemSt := {}
  ctx : CtxSt := {}
  host : HostSt := {}
  err : ErrSt := {}
  ws : WsSt := {}
  kv : KvSt := {}
  pwr : PwrSt := {}
  vein : VeinSt := {}
  coll : CollSt := {}
  fos : FosSt := {}
  fw : FwSt := {}
  blk : BlkSt := {}
  pins : Pins := {}
  /-- The model's own counter of free values taken. -/
  freeCtr : Nat := 0
  /-- Commands that wait, first in, first out. -/
  pending : List Instr := []
  deriving DecidableEq, Repr

/-- Why the machine stops with a fault. -/
inductive Fault where
  /-- No command raises it: kept so that the type is closed and inhabited. Safe. -/
  | none_
  deriving DecidableEq, Repr

/-- Why a command has no meaning in the model. -/
inductive Refusal where
  /-- Raised by an arm of `exec` whose command has no meaning yet: safe, nothing is claimed of it. -/
  | notModelled (mnemonic : String)
  deriving DecidableEq, Repr

/-- The machine right after reset: PWR_GOOD high, PERST# asserted, every register at its reset value
(R569, R570, R578), every memory empty and no command waiting. -/
def State.reset : State := {}

end Sys2Proof.Machine
end

