-- ==== Sys2Proof/Machine/Ops.lean ====
section
/-! DEFINITION. The named operations over the state: sparse maps, registers and fields, bytes, time, free
values, streams, semaphores, tiles and contexts. -/

namespace Sys2Proof.Machine

/-! ## Bit fields and byte order (R6) -/

/-- The `w` bits of `n` from bit `lo`. -/
def bits (n lo w : Nat) : Nat := n / 2 ^ lo % 2 ^ w

/-- Bit `i` of `n`. -/
def bit (n i : Nat) : Bool := n / 2 ^ i % 2 == 1

/-- `n` with the `w` bits from `lo` replaced by `v`. -/
def putBits (n lo w v : Nat) : Nat := n - bits n lo w * 2 ^ lo + v % 2 ^ w * 2 ^ lo

/-- Byte field: `w` bits from bit `lo` of byte `b` of a little-endian number (R6). -/
def fieldAt (n b lo w : Nat) : Nat := bits n (8 * b + lo) w

/-- The number that a list of bytes spells, lowest address first (R6). -/
def leNat : List Byte → Nat
  | [] => 0
  | b :: r => b.toNat + 256 * leNat r

/-- The `k` bytes of a number, lowest address first (R6). -/
def leBytes : Nat → Nat → List Byte
  | 0, _ => []
  | k + 1, n => BitVec.ofNat 8 n :: leBytes k (n / 256)

/-- A `w`-bit number read in two's complement. -/
def signed (w n : Nat) : Int := if n % 2 ^ w < 2 ^ (w - 1) then (n % 2 ^ w : Nat) else (n % 2 ^ w : Nat) - (2 ^ w : Nat)

/-- Truth as a bit. -/
def b2n (b : Bool) : Nat := if b then 1 else 0

/-! ## Sparse maps -/

/-- The elements of a list with their positions. -/
def indexed {α : Type} (l : List α) : List (Nat × α) := List.zip (List.range l.length) l

/-- The value under a key, with the default `d` where none is listed. -/
def SMap.get {α : Type} (d : Nat → α) : SMap α → Nat → α
  | [], a => d a
  | (k, v) :: r, a => if a = k then v else SMap.get d r a

/-- The map with a value under a key, in canonical form. -/
def SMap.put {α : Type} [DecidableEq α] (d : Nat → α) : SMap α → Nat → α → SMap α
  | [], a, v => if v = d a then [] else [(a, v)]
  | (k, w) :: r, a, v =>
    if a < k then (if v = d a then (k, w) :: r else (a, v) :: (k, w) :: r)
    else if a = k then (if v = d a then r else (a, v) :: r)
    else (k, w) :: SMap.put d r a v

/-- Keys strictly rising from `lo` on, and no entry equal to its default. -/
def SMap.wfFrom {α : Type} [DecidableEq α] (d : Nat → α) : Nat → SMap α → Bool
  | _, [] => true
  | lo, (k, v) :: r => decide (lo ≤ k) && decide (v ≠ d k) && SMap.wfFrom d (k + 1) r

/-- The canonical form of a sparse map. -/
def SMap.wf {α : Type} [DecidableEq α] (d : Nat → α) (m : SMap α) : Bool := SMap.wfFrom d 0 m

/-- The map without the keys that satisfy `p`. -/
def SMap.drop {α : Type} (p : Nat → Bool) (m : SMap α) : SMap α := m.filter fun e => !p e.1

/-- The keys and values that the map lists. -/
def SMap.keys {α : Type} (m : SMap α) : List Nat := m.map Prod.fst

/-! ## Registers (R572) -/

/-- The stored word of the register at an offset. -/
def State.rd (s : State) (off : Nat) : Word := SMap.get Reg.resetWord s.regs off

/-- The state with a register's stored word replaced. -/
def State.wr (s : State) (off : Nat) (w : Word) : State := { s with regs := SMap.put Reg.resetWord s.regs off w }

/-- A field of a register. -/
def State.fld (s : State) (f : Fld) : Nat := bits (s.rd f.reg).toNat f.lo f.width

/-- The state with a field set, all other bits of its register kept. -/
def State.setFld (s : State) (f : Fld) (v : Nat) : State :=
  s.wr f.reg (BitVec.ofNat 32 (putBits (s.rd f.reg).toNat f.lo f.width v))

/-- A one-bit field as truth. -/
def State.flag (s : State) (f : Fld) : Bool := s.fld f == 1

/-- The state with a saturating counter field advanced by `k` (R49, R577). -/
def State.bump (s : State) (f : Fld) (k : Nat := 1) : State := s.setFld f (min (s.fld f + k) (2 ^ f.width - 1))

/-! ## Free values -/

/-- A value that the spec leaves open, below `n`, and the state that has taken it (log entry 3). -/
def State.fresh (s : State) (n : Nat) : Nat × State :=
  (Config.free s.freeCtr % n, { s with freeCtr := s.freeCtr + 1 })

/-- `n` free bytes. -/
def State.freshBytes (s : State) : Nat → List Byte × State
  | 0 => ([], s)
  | n + 1 =>
    let r := s.fresh 256
    let l := r.2.freshBytes n
    (BitVec.ofNat 8 r.1 :: l.1, l.2)

/-! ## CRC-32 (IEEE 802.3) -/

/-- Eight steps of the reflected polynomial. -/
def crc32Steps : Nat → BitVec 32 → BitVec 32
  | 0, r => r
  | n + 1, r => crc32Steps n (if r.getLsbD 0 then (r >>> 1) ^^^ 0xEDB88320 else r >>> 1)

/-- One byte. -/
def crc32Byte (r : BitVec 32) (b : Byte) : BitVec 32 := crc32Steps 8 (r ^^^ b.setWidth 32)

/-- CRC-32 of a list of bytes (R343, R480). -/
def crc32 (l : List Byte) : Nat := (~~~ (l.foldl crc32Byte 0xFFFFFFFF)).toNat

/-! ## Modes, slabs and quarries (R4, R389) -/

/-- CTX_MODE.mode. -/
def State.modeOf (s : State) : Nat := s.fld Fld.mode

/-- The number of quarries of a mode (R389). -/
def quarryCount (mode : Nat) : Nat := if mode = 1 then 2 else if mode = 2 then 4 else 1

/-- The quarry that owns a slab (R389). -/
def quarryOfSlab (mode slab : Nat) : Nat := if mode = 1 then slab / 2 else if mode = 2 then slab else 0

/-- The quarry that owns a core (R389). -/
def State.quarryOfCore (s : State) (core : Nat) : Nat := quarryOfSlab s.modeOf (core / 40)

/-- The slabs of quarry `q` (R389). -/
def slabsOf (mode q : Nat) : List Nat :=
  if mode = 1 then [2 * q, 2 * q + 1] else if mode = 2 then [q] else [0, 1, 2, 3]

/-- The cores of quarry `q` (R389). -/
def coresOf (mode q : Nat) : List Nat := (slabsOf mode q).flatMap fun s => (List.range 40).map (40 * s + ·)

/-- The tick state of quarry `q`. -/
def State.quarry (s : State) (q : Nat) : Quarry := SMap.get (fun _ => {}) s.quarries q

/-- The state with the tick state of a quarry replaced. -/
def State.setQuarry (s : State) (q : Nat) (v : Quarry) : State :=
  { s with quarries := SMap.put (fun _ => {}) s.quarries q v }

/-! ## Time -/

/-- Slab `i`'s clock control. -/
def State.slab (s : State) (i : Nat) : Slab := SMap.get (fun _ => {}) s.pwr.slabs i

/-- The state with a slab's clock control replaced. -/
def State.setSlab (s : State) (i : Nat) (v : Slab) : State :=
  { s with pwr := { s.pwr with slabs := SMap.put (fun _ => {}) s.pwr.slabs i v } }

/-- One slab over `dt` units of time: its clocks, and its guarded time while it runs at 0.95 GHz or above
(R75, R76). -/
def State.runSlab (s : State) (dt i : Nat) : State :=
  let f := s.fld (Fld.fMhz i)
  let b := s.slab i
  s.setSlab i { b with clk := b.clk + f * dt, guard := if 950 ≤ f then b.guard + dt else b.guard }

/-- All slabs run at their present clocks until the moment `t`. -/
def State.runTo (s : State) (t : Nat) : State :=
  let dt := t - s.now
  let s := (((s.runSlab dt 0).runSlab dt 1).runSlab dt 2).runSlab dt 3
  { s with now := t }

/-- The lesser of a clock and a request; 0 stands for none. -/
def lesser (f req : Nat) : Nat := if req = 0 then f else min f req

/-- The clock that the requests leave to slab `i`, in MHz, before droop; never below 0.95 GHz (R540). -/
def State.requested (s : State) (i : Nat) : Nat :=
  max 950 (lesser (lesser (lesser (lesser (s.fld (Fld.wearMhz i)) s.pwr.ceilReq) s.pwr.capReq) s.pwr.hubReq) (s.slab i).thermReq)

/-- The same under THROTTLE_IN#: the floor, or 8 equal steps of 10 µs after its release (R539). -/
def State.permitted (s : State) (i : Nat) : Nat :=
  let f := s.requested i
  match s.pwr.throttleAt, s.pwr.throttleRamp with
  | some _, _ => 950
  | none, some r => 950 + (f - 950) * min 8 ((s.now - r) / 1000) / 8
  | none, none => f

/-- Sixteenths of the clock that droop leaves: half, or 8 steps of 100 ns after it (R541). -/
def Slab.share (b : Slab) (now : Nat) : Nat :=
  if b.drooped then 8
  else match b.droopRamp with
    | some r => 8 + min 8 ((now - r) / 10)
    | none => 16

/-- The present arithmetic clock of slab `i` (R540). -/
def State.clockOf (s : State) (i : Nat) : Nat := s.permitted i * (s.slab i).share s.now / 16

/-- PWR_SLAB_F.f_mhz and the bits of PWR_STAT that follow the requests (R548). -/
def State.setClocks (s : State) : State :=
  let all : List Nat := [0, 1, 2, 3]
  let s := all.foldl (fun t i => t.setFld (Fld.fMhz i) (s.clockOf i)) s
  let s := s.setFld Fld.floor (b2n (all.any fun i => s.permitted i == 950))
  let s := s.setFld Fld.thermal (b2n (s.pwr.hubReq != 0 || all.any fun i => (s.slab i).thermReq != 0))
  let s := s.setFld Fld.capping (b2n (s.pwr.capReq != 0))
  s.setFld Fld.ceiling (b2n (s.pwr.ceilReq != 0))

/-- The steps of a return that began at a moment, `n` units apart, and are still ahead. -/
def stepsAhead (now : Nat) (r : Option Nat) (n : Nat) : List Nat :=
  match r with
  | some r => ((List.range 8).map fun k => r + n * (k + 1)).filter fun t => decide (now < t)
  | none => []

/-- The next moment at which a clock takes a step of its return (R539, R541). -/
def State.nextStep (s : State) : Option Nat :=
  (stepsAhead s.now s.pwr.throttleRamp 1000 ++ ([0, 1, 2, 3] : List Nat).flatMap fun i => stepsAhead s.now (s.slab i).droopRamp 10).min?

/-- Time runs to the moment `t`, through at most `n` steps of clocks on the way. -/
def State.advanceN (s : State) (t : Nat) : Nat → State
  | 0 => s.runTo t
  | n + 1 => match s.nextStep with
    | some b => if b ≤ t then (s.runTo b).setClocks.advanceN t n else s.runTo t
    | none => s.runTo t

/-! Lengths of time in units of 10 ns (R28). -/
def us (n : Nat) : Nat := 100 * n
def ms (n : Nat) : Nat := 100000 * n

/-! ## Pins (R567 to R569) -/

/-- While EXTEST runs the module ignores the covered inputs (R568). -/
def State.deaf (s : State) : Bool := s.pins.jtag == .extest

/-- The module asserts ALERT# (R567). -/
def State.alert (s : State) : Bool :=
  s.pins.phase == .fatal || (s.pins.phase == .running && (s.flag Fld.fatal || s.flag Fld.degraded || s.flag Fld.thermal
    || s.flag Fld.inputRange || s.flag Fld.ceiling || s.flag Fld.partial_))

/-! ## Who reaches the registers (R414, R516, R572, R575) -/

/-- A party reaches the register at an offset: the host once configuration requests complete, Flint unless it restarts; in
recovery only the GLB and SEC blocks answer. -/
def State.admits (s : State) (p : Party) (off : Nat) : Bool :=
  (s.pins.phase == .boot || s.pins.phase == .running || s.pins.phase == .fatal)
    && (match p with
        | .host => s.flag Fld.bootLock
        | .flint => !s.err.flintDown)
    && (s.fld Fld.bootState != 3 || decide (off < Reg.hif) || (decide (Reg.sec ≤ off) && decide (off < Reg.sec + 0x100000)))

/-- A write of the bits that a register has: the RW bits take the value, the W1C bits that it sets clear (R7, R8). -/
def State.plainWrite (s : State) (off : Nat) (v : Word) : State :=
  match Reg.info off with
  | some r =>
    let rw := BitVec.ofNat 32 r.rw
    s.wr off (((s.rd off &&& ~~~rw) ||| (v &&& rw)) &&& ~~~(v &&& BitVec.ofNat 32 r.w1c))
  | none => s

/-! ## Contexts (R393, R410) -/

/-- What context `c` holds besides its registers. -/
def State.ctxAt (s : State) (c : Nat) : Ctx := SMap.get (fun _ => {}) s.ctx.ctxs c

/-- The state with a context's holdings replaced. -/
def State.setCtx (s : State) (c : Nat) (v : Ctx) : State :=
  { s with ctx := { s.ctx with ctxs := SMap.put (fun _ => {}) s.ctx.ctxs c v } }

/-! CTX_STATE.state values (R410). -/
def csFree : Nat := 0
def csCreated : Nat := 1
def csLoaded : Nat := 2
def csRunning : Nat := 3
def csEnded : Nat := 4
def csFaulted : Nat := 5

/-- CTX_STATE.state of context `c`. -/
def State.ctxState (s : State) (c : Nat) : Nat := s.fld (Fld.ctxState c)

/-- The numbers a context may take (R393). -/
def ctxNumbers : List Nat := [0, 1, 2, 3, 4, 5, 6, 7]

/-- Some context exists (R410). -/
def State.anyCtx (s : State) : Bool := ctxNumbers.any fun c => s.ctxState c != csFree

/-- A context whose Geode share is spilled or being swapped (R402, R404). -/
def State.displaced (s : State) (c : Nat) : Bool := !s.flag (Fld.resident c) || s.flag (Fld.swapping c)

/-- The quarry of context `c` (R410). -/
def State.ctxQuarry (s : State) (c : Nat) : Nat := s.fld (Fld.ctxQuarry c)

/-- The stratum counter that a unit acting for context `c` uses (R38). -/
def State.countOf (s : State) (c : Nat) : BitVec 48 := (s.quarry (s.ctxQuarry c)).count

/-- Accepted ticks of the quarry of context `c`. -/
def State.ticksOf (s : State) (c : Nat) : Nat := (s.quarry (s.ctxQuarry c)).ticks

/-! ## Streams and semaphores (R53, R67) -/

/-- Stream `n` of core `c`. -/
def State.stream (s : State) (c n : Nat) : Stream := SMap.get (fun _ => {}) s.core.streams (64 * c + n)

/-- The state with a stream replaced. -/
def State.setStream (s : State) (c n : Nat) (v : Stream) : State :=
  { s with core := { s.core with streams := SMap.put (fun _ => {}) s.core.streams (64 * c + n) v } }

/-- Every stream that is not unbound, changed by `f` of its key and value. -/
def State.mapStreams (s : State) (f : Nat → Stream → Stream) : State :=
  s.core.streams.keys.foldl (fun t k => t.setStream (k / 64) (k % 64) (f k (t.stream (k / 64) (k % 64)))) s

/-- The semaphore under a key. -/
def State.sem (s : State) (k : Nat) : Sem := SMap.get (fun _ => {}) s.core.sems k

/-- The state with a semaphore replaced. -/
def State.setSem (s : State) (k : Nat) (v : Sem) : State :=
  { s with core := { s.core with sems := SMap.put (fun _ => {}) s.core.sems k v } }

/-- The key of the semaphore that a reference of core `c` names (R69). -/
def semKey (c ref : Nat) : Nat := if bit ref 15 then 0x10000 + ref % 4096 else 256 * c + ref % 256

/-- A reference names no semaphore: scope 0 with bits [11:8] non-zero (R64, R69). -/
def semNamesNone (ref : Nat) : Bool := !bit ref 15 && bits ref 8 4 != 0

/-- Context `c` may wait on, signal or test the semaphore (R68). -/
def Sem.permits (m : Sem) (c : Nat) : Bool := m.valid && (m.owner == c || m.share.getLsbD c)

/-! ## Blocked contexts and the passing of time (R403, R405) -/

/-- Context `c` is blocked: it holds no running job, or none of its streams is Ready or Busy (R403). -/
def State.blocked (s : State) (c : Nat) : Bool :=
  s.ctxState c != csRunning || s.core.streams.all fun e => e.2.ctx != c || !(e.2.state == .ready || e.2.state == .busy)

/-- The contexts of a quarry. -/
def State.ctxsOf (s : State) (q : Nat) : List Nat := ctxNumbers.filter fun c => s.ctxState c != csFree && s.ctxQuarry c == q

/-- Every resident context of a quarry is blocked. -/
def State.quarryBlocked (s : State) (q : Nat) : Bool := (s.ctxsOf q).all fun c => !s.flag (Fld.resident c) || s.blocked c

/-- What the state of the streams means for a quarry while it lasts: since when every resident context is blocked, and whether
ALL_BLOCKED may be raised again (R405). -/
def State.noteQuarry (s : State) (q : Nat) : State :=
  let b := s.blk
  let since := SMap.get (fun _ => none) b.since q
  let told := match SMap.get (fun _ => none) b.told q with
    | none => none
    | some l => if l.all s.blocked then some ((s.ctxsOf q).filter s.blocked) else none
  { s with blk := { b with
      since := SMap.put (fun _ => none) b.since q (if s.quarryBlocked q then some (since.getD s.now) else none)
      told := SMap.put (fun _ => none) b.told q told } }

/-- The same for every quarry. -/
def State.noteBlocked (s : State) : State := (((s.noteQuarry 0).noteQuarry 1).noteQuarry 2).noteQuarry 3

/-- Time reaches the moment `t`; it never runs back (log entry 1). -/
def State.advanceTo (s : State) (t : Nat) : State := if t ≤ s.now then s else s.noteBlocked.advanceN t 40

/-! ## Tiles -/

/-- The tile of a stream in flight. -/
def State.tileOf (s : State) (c n : Nat) : Option Tile := s.core.tiles.find? fun t => t.core == c && t.stream == n

/-- The state with a stream's tile replaced. -/
def State.setTile (s : State) (v : Tile) : State :=
  { s with core := { s.core with
      tiles := s.core.tiles.map fun t => if t.core == v.core && t.stream == v.stream then v else t } }

/-- The state with a stream's tile removed. -/
def State.dropTile (s : State) (c n : Nat) : State :=
  { s with core := { s.core with tiles := s.core.tiles.filter fun t => !(t.core == c && t.stream == n) } }

/-! ## Fences (R447, R448) -/

/-- Domain numbers of R446. -/
def domSequence : Nat := 1
def domContext : Nat := 2
def domCore : Nat := 3
def domBank : Nat := 4
def domChannel : Nat := 5
def domPort : Nat := 6
def domWhetstone : Nat := 7
def domSlab : Nat := 8
def domModule : Nat := 9

/-- The unit of a domain carries a fence of its own. -/
def State.fenceBit (s : State) (dom i : Nat) : Bool := SMap.get (fun _ => false) s.err.fences (1024 * dom + i)

/-- The state with a unit's fence set. -/
def State.setFence (s : State) (dom i : Nat) : State :=
  { s with err := { s.err with fences := SMap.put (fun _ => false) s.err.fences (1024 * dom + i) true } }

/-- A core is fenced: itself, through its bank, or with its slab (R447). -/
def State.coreFenced (s : State) (c : Nat) : Bool :=
  s.fenceBit domCore c || s.fenceBit domBank c || s.fenceBit domSlab (c / 40)

/-- A Geode bank is fenced (R447). -/
def State.bankFenced (s : State) (c : Nat) : Bool := s.fenceBit domBank c || s.fenceBit domSlab (c / 40)

/-- A memory channel is fenced (R447). -/
def State.channelFenced (s : State) (ch : Nat) : Bool := s.fenceBit domChannel ch || s.fenceBit domSlab (ch / 128)

/-- A Whetstone unit is fenced (R447). -/
def State.whetstoneFenced (s : State) (u : Nat) : Bool := s.fenceBit domWhetstone u || s.fenceBit domSlab (u / 8)

/-! ## Host memory (R17) -/

/-- One byte of host memory; memory that nothing has written reads 0 (log entry 2). -/
def State.hostByte (s : State) (a : Nat) : Byte := SMap.get (fun _ => 0) s.mem.host (a % 2 ^ 64)

/-- The state with one byte of host memory written. -/
def State.setHostByte (s : State) (a : Nat) (b : Byte) : State :=
  { s with mem := { s.mem with host := SMap.put (fun _ => 0) s.mem.host (a % 2 ^ 64) b } }

/-- `n` bytes of host memory from `a` on. -/
def State.hostBytes (s : State) (a n : Nat) : List Byte := (List.range n).map fun i => s.hostByte (a + i)

/-- Bytes written to host memory from `a` on. -/
def State.putHost (s : State) : Nat → List Byte → State
  | _, [] => s
  | a, b :: r => State.putHost (s.setHostByte a b) (a + 1) r

/-- Host memory answers an access error somewhere in the range (R425). -/
def State.hostAborts (s : State) (a n : Nat) : Bool :=
  s.mem.hostBad.any fun r => !r.2.2 && decide (r.1 < a + n) && decide (a < r.1 + r.2.1)

/-- Host memory answers a poisoned TLP somewhere in the range (R425). -/
def State.hostPoisons (s : State) (a n : Nat) : Bool :=
  s.mem.hostBad.any fun r => r.2.2 && decide (r.1 < a + n) && decide (a < r.1 + r.2.1)

end Sys2Proof.Machine
end

