-- ==== Sys2Proof/Machine/Raise.lean ====
section
/-! DEFINITION. Raising an error: the records of the error engine, merging, escalation, lost errors, event
completions and the action of each containment domain (R446 to R455). This is the block's one shared operation in
place of taking an exception. -/

namespace Sys2Proof.Machine

/-- What an error carries into its record (R450). -/
structure ErrInfo where
  code : Nat
  domain : Nat := 0
  index : Nat := 0
  ctx : Option Nat := none
  tileId : BitVec 32 := 0
  layerTag : BitVec 16 := 0
  core : Option Nat := none
  phys : Nat := 0
  flags : BitVec 6 := 0
  detail : Nat := 0
  evid : Option Nat := none

/-! ## Completions (R421, R424) -/

/-- The 32 bytes of a completion but for sq_head and phase, which the writing fills in (R424). -/
def complBody (tag sq kind : Nat) (ctx : Option Nat) (status tail : Nat) : Nat :=
  tag % 2 ^ 32 + sq % 64 * 2 ^ 48 + (kind % 8 + (match ctx with | some c => c % 8 | none => 8) * 8) * 2 ^ 56
    + status % 2 ^ 16 * 2 ^ 64 + tail % 2 ^ 160 * 2 ^ 96

/-- The state with a completion waiting to be written. -/
def State.post (s : State) (c : Compl) : State := { s with host := { s.host with compls := s.host.compls ++ [c] } }

/-- An event completion, when HIF_EVT.enable is 1 (R454). -/
def State.postEvent (s : State) (code idx count : Nat) (ctx : Option Nat) : State :=
  if s.flag Fld.evtEnable then
    s.post { cq := s.fld Fld.evtCq, sq := 0, kind := 3, body := complBody 0 0 3 ctx code (idx % 256 + count % 256 * 256) }
  else s

/-! ## Records (R450 to R452) -/

/-- Error record `i`. -/
def State.errRec (s : State) (i : Nat) : ErrRec := SMap.get (fun _ => {}) s.err.recs i

/-- The state with an error record replaced. -/
def State.setRec (s : State) (i : Nat) (r : ErrRec) : State :=
  { s with err := { s.err with recs := SMap.put (fun _ => {}) s.err.recs i r } }

/-- ERR_STAT.open: the records in state open (R475). -/
def State.countOpen (s : State) : State :=
  s.setFld Fld.errOpen ((List.range 64).filter fun i => (s.errRec i).state == .opened).length

/-- The open record of an instance (R452). Domain 0 stands for an event of no domain, which merges into nothing. -/
def State.openRec (s : State) (dom i : Nat) : Option Nat :=
  if dom = 0 then none
  else (List.range 64).find? fun k =>
    let r := s.errRec k
    r.state == .opened && r.domain == dom && r.index == i

/-- The closed record that closed earliest (R451). -/
def State.oldestClosed (s : State) : Option Nat :=
  (List.range 64).foldl (fun best k =>
    if (s.errRec k).state == .closed then
      match best with
      | some b => if (s.errRec k).closedSeq < (s.errRec b).closedSeq then some k else some b
      | none => some k
    else best) none

/-- The index a new record takes: the lowest free one, else the closed record that closed earliest (R451). -/
def State.recPlace (s : State) : Option Nat :=
  match (List.range 64).find? fun k => (s.errRec k).state == .free with
  | some k => some k
  | none => s.oldestClosed

/-- The quarry whose counter a record takes (R38). -/
def State.errQuarry (s : State) (e : ErrInfo) : Nat :=
  if e.domain = domSequence then (match e.ctx with | some c => s.ctxQuarry c | none => 0)
  else if e.domain = domContext then s.ctxQuarry e.index
  else if e.domain = domCore ∨ e.domain = domBank then quarryOfSlab s.modeOf (e.index / 40)
  else if e.domain = domChannel then quarryOfSlab s.modeOf (e.index / 128)
  else if e.domain = domWhetstone then quarryOfSlab s.modeOf (e.index / 8)
  else if e.domain = domSlab then quarryOfSlab s.modeOf e.index
  else 0

/-- A saturating 8-bit count. -/
def sat8 (n : Nat) : Nat := min n 255

/-- The state with an error merged into record `k` (R452). -/
def State.mergeRec (s : State) (k : Nat) (e : ErrInfo) : State :=
  let r := s.errRec k
  s.setRec k { r with lastCode := e.code, lastStratum := (s.quarry (s.errQuarry e)).count,
                      count := sat8 (r.count + 1), flags := r.flags ||| e.flags }

/-- The state with a new record, and whether one could be had; without one ERR_STAT.lost advances (R451, R454).
A record of no domain has nothing to handle and is closed at once (log entry 12). -/
def State.openRecord (s : State) (e : ErrInfo) (parent : Option Nat) : State :=
  match s.recPlace with
  | none => s.bump Fld.errLost
  | some k =>
    let n := (s.quarry (s.errQuarry e)).count
    let r : ErrRec :=
      { state := if e.domain = 0 then .closed else .opened
        code := e.code, lastCode := e.code, ctx := e.ctx, domain := e.domain
        escalated := parent.isSome, index := e.index, count := 1
        parent := parent.getD 255, flags := e.flags, firstStratum := n, lastStratum := n
        tileId := e.tileId, layerTag := e.layerTag, core := e.core, phys := e.phys
        evid := e.evid, detail := e.detail
        closedSeq := if e.domain = 0 then s.err.closeSeq else 0
        life := match e.ctx with | some c => (s.ctxAt c).life | none => 0 }
    let s := s.setRec k r
    let s := if e.domain = 0 then { s with err := { s.err with closeSeq := s.err.closeSeq + 1 } } else s
    let s := (s.setFld Fld.errNext k).setFld Fld.lastValid 1
    (s.countOpen).postEvent e.code k 1 e.ctx

/-- An event of no domain: it is recorded and reported, and nothing else follows (R446, R454). -/
def State.report (s : State) (e : ErrInfo) : State := s.openRecord { e with domain := 0 } none

/-! ## Ending a context's work (R82, R587) -/

/-- A tile holds its engine until it has finished or stopped; one that waits for its checker, or for an engine of the core
to which a plan gave it, holds none. -/
def Tile.holds (t : Tile) : Bool := t.phase != .checking && t.phase != .placed

/-- The tiles of a context stop: their signals are discarded, and the engine has 2 µs to come free (R82). A tile that waits for
its checker or for an engine holds none, and is gone. -/
def State.stopTiles (s : State) (p : Tile → Bool) : State :=
  { s with
    core := { s.core with
      tiles := (s.core.tiles.filter fun t => !(p t && !t.holds)).map fun t =>
        if p t && t.phase != .stopping then { t with phase := .stopping, stopAt := s.now } else t }
    ctx := { s.ctx with reissue := s.ctx.reissue.filter fun t => !p t } }

/-- The donations that a condition names close (R400). -/
def State.closeDonations (s : State) (p : Donation → Bool) : State :=
  { s with ctx := { s.ctx with donations := s.ctx.donations.filter fun d => !p d } }

/-- The DMA and Whetstone descriptors of a context end: the running ones stop and the queued ones are discarded
(R587). -/
def State.dropQueues (s : State) (c : Nat) : State :=
  { s with core := { s.core with
      dmaq := s.core.dmaq.filter fun q => q.ctx != c
      wsq := s.core.wsq.filter fun q => q.ctx != c } }

/-- A swap holds context `c`: it, or its partner, is being swapped (R408). -/
def State.swapHolds (s : State) (c : Nat) : Bool :=
  s.flag (Fld.swapping c) || (s.flag (Fld.partnerValid c) && s.flag (Fld.swapping (s.fld (Fld.partner c))))

/-! ## Sequences (R248, R250, R261) -/

/-- The entry of slot `q`. -/
def State.slot (s : State) (q : Nat) : Slot := SMap.get (fun _ => {}) s.kv.slots q

/-- The state with a slot's entry replaced. -/
def State.setSlot (s : State) (q : Nat) (v : Slot) : State :=
  { s with kv := { s.kv with slots := SMap.put (fun _ => {}) s.kv.slots q v } }

/-- Slot `q` is bound to context `c` (R250). -/
def State.slotOwned (s : State) (q c : Nat) : Bool := (s.slot q).valid && (s.slot q).ctx == c

/-- The completion of a decode sequence (R424): its slot stays bound until the completion is written (R421). -/
def State.postSequence (s : State) (q status endCode : Nat) : State :=
  let e := s.slot q
  let sq := (s.ctxAt e.ctx).startSq
  s.post { cq := s.fld (Fld.sqCq sq), sq := sq, kind := 2, slot := some q
           body := complBody 0 sq 2 (some e.ctx) status (q % 128 + e.channel % 8 * 2 ^ 8 + endCode % 2 ^ 32 * 2 ^ 32) }

/-- The streams that wait on a frame that `p` picks go on (R258). -/
def State.kvWake (s : State) (p : KvWait → Bool) : State :=
  let go := s.kv.waits.filter p
  let s := { s with kv := { s.kv with waits := s.kv.waits.filter fun w => !p w } }
  go.foldl (fun s w => s.setStream w.core w.stream { s.stream w.core w.stream with
    state := .ready, waitFor := .nothing, readyAt := s.now, met := true }) s

/-- The streams that wait for a version of a page of slot `q` go on (R261). -/
def State.versionWake (s : State) (q : Nat) : State :=
  s.mapStreams fun _ st => match st.state, st.waitFor with
    | .waiting, .kvVersion p _ => if p = q then { st with state := .ready, waitFor := .nothing, readyAt := s.now, met := true } else st
    | _, _ => st

/-- The sequence in slot `q` fails: its entry holds the status and the page; its context goes on. A decode sequence
completes with the status; a training job counts the failure; work that has begun does nothing for it (R261, R424). A slot that is free, or has failed already, is
left as it stands. -/
def State.failSequence (s : State) (q code idx : Nat) : State :=
  let e := s.slot q
  if e.valid = false ∨ e.status ≠ 0 then s
  else
    let s := s.setSlot q { e with status := if code = 0x0501 then 1 else 2, failIdx := idx }
    let x := s.ctxAt e.ctx
    let s := s.setCtx e.ctx { x with failedSeqs := x.failedSeqs + 1, firstFailed := x.firstFailed.or (some q) }
    let s := (s.kvWake fun w => w.slot == q).versionWake q
    let note (r : Resume) : Resume := { r with dead := r.dead ++ [q] }
    let s := s.mapStreams fun _ st => if st.ctx == e.ctx then { st with resume := st.resume.map note } else st
    let s := { s with core := { s.core with tiles := s.core.tiles.map fun t => if t.ctx == e.ctx then { t with at_ := note t.at_ } else t } }
    if e.decode then s.postSequence q code 0 else s

/-- The faults that a context's streams wait on are given up (R82). -/
def State.dropWaits (s : State) (c : Nat) : State :=
  { s with kv := { s.kv with waits := s.kv.waits.filter fun w => w.ctx != c } }

/-! ## Shards (R303, R329) -/

/-- Shard `n` of context `c`. -/
def State.shard (s : State) (c n : Nat) : Shard := SMap.get (fun _ => {}) s.ws.shards (4096 * c + n)

/-- The state with a shard's entry replaced. -/
def State.setShard (s : State) (c n : Nat) (v : Shard) : State :=
  { s with ws := { s.ws with shards := SMap.put (fun _ => {}) s.ws.shards (4096 * c + n) v } }

/-- The shards that context `c` homes. -/
def State.shardsOf (s : State) (c : Nat) : List Nat :=
  (s.ws.shards.keys.filter fun k => k / 4096 == c).map (· % 4096)

/-- A context's updates are cut short: its shards are stable at the versions they hold, without leases (R329). -/
def State.dropShards (s : State) (c : Nat) : State :=
  let s := (s.shardsOf c).foldl (fun s n =>
    s.setShard c n { s.shard c n with state := 0, leases := 0, closing := 0, drainAt := 0 }) s
  { s with ws := { s.ws with jobs := s.ws.jobs.filter (fun j => j.ctx != c), asked := s.ws.asked.filter fun m => m.ctx != c } }

/-- After a fault the contents of a context's accumulator slots and statistics records are undefined (R101, R187). -/
def State.loseLocal (s : State) (c : Nat) : State :=
  let slabs := slabsOf s.modeOf (s.ctxQuarry c)
  let slots := (List.range (s.fld (Fld.slotCount c))).map (s.fld (Fld.slotBase c) + ·)
  let units := (List.range (s.fld (Fld.statUnits c))).map (s.fld (Fld.statBase c) + ·)
  let m := s.mem
  let n := m.losses + 1
  let goneSlots := slabs.flatMap fun b => slots.map (128 * b + ·)
  let goneUnits := slabs.flatMap fun b => units.map (64 * b + ·)
  { s with mem := { m with
      losses := n
      accLost := goneSlots.foldl (fun g i => SMap.put (fun _ => 0) g i n) m.accLost
      statLost := goneUnits.foldl (fun g i => SMap.put (fun _ => 0) g i n) m.statLost
      acc := m.acc.filter fun e => !goneSlots.contains (e.1 / 1024 / 128 / 40 * 128 + e.1 / 1024 % 128)
      stat := m.stat.filter fun e => !goneUnits.contains (e.1 / 2 ^ 18 / 40 * 64 + e.1 % 2 ^ 18 / 4096) } }

/-! ## Collective transfers and ports (R354, R377) -/

/-- Port `p`. -/
def State.port (s : State) (p : Nat) : Port := SMap.get (fun _ => {}) s.vein.ports p

/-- The state with a port replaced. -/
def State.setPort (s : State) (p : Nat) (b : Port) : State :=
  { s with vein := { s.vein with ports := SMap.put (fun _ => {}) s.vein.ports p b } }

/-- VEI_PORT_STAT.state values (R356). -/
def psDisabled : Nat := 0
def psTraining : Nat := 1
def psUp : Nat := 2
def psDegrading : Nat := 3
def psDegraded : Nat := 4
def psFailed : Nat := 5

/-- COL_STAT.busy as the running transfers have it. -/
def State.collBusy (s : State) : State :=
  [0, 1, 2, 3].foldl (fun t e => t.setFld (Fld.colBusy e) (b2n (t.coll.xfers.any fun x => x.engine == some e))) s

/-- The state with its list of transfers replaced. -/
def State.setXfers (s : State) (l : List Xfer) : State := { s with coll := { s.coll with xfers := l } }.collBusy

/-- The pool number that stands for the escape flit of a port (R348). -/
def poolEscape : Nat := 34

/-- The receiver's return of `n` flits of a pool of a port, or of its escape flit (R348, R351). -/
def State.freePool (s : State) (p pool n : Nat) : State :=
  let b := s.port p
  if pool = poolEscape then s.setPort p { b with escFreed := (b.escFreed + 1) % 65536, owed := true }
  else s.setPort p { b with freed := SMap.put (fun _ => 0) b.freed pool ((SMap.get (fun _ => 0) b.freed pool + n) % 65536), owed := true }

/-- The packets of a context that wait are discarded, and their pools are freed. -/
def State.dropHeld (s : State) (c : Nat) : State :=
  let s := (s.coll.held.filter fun h => h.ctx == c).foldl (fun s h =>
    match h.port, h.pool with
    | some p, some k => s.freePool p k (1 + h.pkt.data.length)
    | _, _ => s) s
  { s with coll := { s.coll with held := s.coll.held.filter fun h => h.ctx != c } }

/-- Every transfer of a context ends, the context leaves Vein traffic, and what its fault leaves undefined is lost
(R329, R377, R101, R187). -/
def State.endCtxTransfers (s : State) (c : Nat) : State :=
  let s := s.setXfers (s.coll.xfers.filter fun x => x.ctx != c)
  let s := { s with core := { s.core with hubq := s.core.hubq.filter fun q => q.ctx != c } }
  let s := (s.dropHeld c).setFld (Fld.jobValid c) 0
  let s := s.setCtx c { s.ctxAt c with stagingUsed := 0 }
  (s.dropShards c).loseLocal c

/-- Every Vein lane is in electrical idle (R461). -/
def State.idleLanes (s : State) : State :=
  (List.range 16).foldl (fun t p => (t.setPort p {}).setFld (Fld.portState p) psDisabled) s

/-! ## Completing commands (R423, R424) -/

/-- A command that Flint has read. -/
def State.cmd (s : State) (id : Nat) : Option Cmd := s.host.cmds.find? fun c => c.id == id

/-- The context that a command names. -/
def Cmd.ctx (c : Cmd) : Option Nat := if bit c.raw 15 then some (bits c.raw 8 3) else none

/-- A command completes with a status and the bytes from 12 on. -/
def State.completeCmd (s : State) (id status tail : Nat) : State :=
  match s.cmd id with
  | none => s
  | some c =>
    let s := { s with host := { s.host with cmds := s.host.cmds.filter fun x => x.id != id } }
    s.post { cq := s.fld (Fld.sqCq c.sq), sq := c.sq, kind := 0
             body := complBody (bits c.raw 32 32) c.sq 0 c.ctx status tail }

/-- The command of an option completes. -/
def State.completeSome (s : State) (id : Option Nat) (status tail : Nat) : State :=
  match id with | some i => s.completeCmd i status tail | none => s

/-! ## Epochs and fills that end (R484, R492, R494, R501) -/

/-- FOS_STAT.state values (R503). -/
def fosNone : Nat := 0
def fosArmed : Nat := 1
def fosOpen : Nat := 2
def fosStreamed : Nat := 3

/-- A fossil field of R487 on the granules of a 2 MiB frame. -/
def State.fossilField (s : State) (pa v : Nat) : State :=
  let g := pa / 64
  let kept := SMap.drop (fun k => decide (g ≤ k) && decide (k < g + 32768)) s.mem.fossil
  let m := if v = 0 then kept
    else (List.range 32768).foldl (fun m i => SMap.put (fun _ => 0) m (g + i) (BitVec.ofNat 2 v)) kept
  { s with mem := { s.mem with fossil := m } }

/-- Bounce frames in use. -/
def State.countBounced (s : State) : State :=
  s.setFld Fld.bounced (match s.fos.epoch with | some e => (e.pages.filter fun p => p.state == 1).length | none => 0)

/-- The epoch is over: no page is protected, and its bounce frames are free (R494). -/
def State.endEpoch (s : State) : State :=
  let frames : List Nat := match s.fos.epoch with
    | some e => (e.pages.filter fun (p : FosPage) => p.state == 1).map fun (p : FosPage) => p.frame
    | none => []
  let s := frames.foldl (fun s f => s.fossilField f 0) s
  ({ s with fos := { s.fos with epoch := none } }.setFld Fld.fosState fosNone).setFld Fld.bounced 0

/-- The hold of the step before epoch `e` is released (R497). -/
def State.releaseHold (s : State) (e : Nat) : State :=
  { s with fos := { s.fos with holds := s.fos.holds.filter fun h => h.2 + 1 != e } }

/-- An epoch is abandoned: what waits on it completes with FOSSIL_ABANDONED (R484, R493, R497). -/
def State.abandonEpoch (s : State) (e : Epoch) : State :=
  let s := (s.endEpoch.releaseHold e.epoch).setFld Fld.fosEpoch e.epoch
  let s := { s with fos := { s.fos with abandoned := e.epoch :: s.fos.abandoned.filter (· != e.epoch) } }
  (s.completeSome e.begin_ 0x0907 0).completeSome e.commit 0x0907 0

/-- The context of an Armed epoch has faulted (R484). -/
def State.epochFault (s : State) (c : Nat) : State :=
  match s.fos.epoch with
  | some e => if e.ctx = c ∧ s.fld Fld.fosState < fosOpen then s.abandonEpoch e else s
  | none => s

/-- The buddy destination ends (R492). -/
def State.loseBuddy (s : State) : State :=
  match s.fos.epoch with
  | some e =>
    if e.buddyLive then
      let s := { s with fos := { s.fos with epoch := some { e with buddyLive := false, asked := false, lost := 0x0906 } } }
      let s := if e.asked ∧ s.fld Fld.fosState = fosNone then s.setFld Fld.fosState fosArmed else s
      s.report { code := 0x0911 }
    else s
  | none => s

/-- A fill loses its source: the spare is partial, and its context returns to Created (R501, R502). -/
def State.loseFill (s : State) : State :=
  match s.fos.fill with
  | some f =>
    let s := { s with fos := { s.fos with fill := none, owed := f.dir.map fun v => (v, 2 ^ 21), arriving := s.fos.arriving.filter fun a => !a.fill } }
    let s := (s.setFld Fld.partial_ 1).setFld (Fld.ctxState f.ctx) csCreated
    (s.report { code := 0x0913 }).completeCmd f.cmd 0x0908 0
  | none => s

/-- The way to a module is lost: a port on its route has failed, or a ROUTE_FAIL names it (R492, R501). A buddy discards the
half that was landing from there. -/
def State.buddyRouteFail (s : State) (dst : Nat) : State :=
  let s := if s.fos.epoch.any fun e => e.buddy == dst && e.toBuddy then s.loseBuddy else s
  let s := if s.fos.fill.any fun f => f.buddy == dst && f.asked then s.loseFill else s
  if s.fos.landing.any fun l => l.1 == dst then
    { s with fos := { s.fos with landing := none, arriving := s.fos.arriving.filter fun a => a.fill } }.setFld Fld.buddyLanding 0
  else s

/-- A port fails: the routes through it are lost to the fossil engine. -/
def State.buddyPortLost (s : State) (p : Nat) : State :=
  let via (m : Nat) : Bool :=
    let w := (SMap.get (fun _ => 0) s.vein.routes m).toNat
    bit w 31 && bits w 0 4 == p
  let l := (match s.fos.epoch with | some e => [e.buddy] | none => []) ++ (match s.fos.fill with | some f => [f.buddy] | none => [])
    ++ (match s.fos.landing with | some x => [x.1] | none => [])
  (l.filter via).foldl State.buddyRouteFail s

/-- Context `c` faults (R82, R393): its streams move to Faulted, its tiles stop, its queues empty. -/
def State.faultNow (s : State) (c code : Nat) : State :=
  let s := s.setFld (Fld.ctxState c) csFaulted
  let s := s.setCtx c { s.ctxAt c with faultCode := code, pendFault := 0 }
  let s := s.mapStreams fun _ st =>
    if st.ctx == c && st.state != .unbound then
      { st with state := .faulted, waitFor := .nothing, issued := false, released := false } else st
  let s := s.stopTiles fun t => t.ctx == c
  let s := s.closeDonations fun d => d.fromCtx == c
  (((s.dropQueues c).dropWaits c).endCtxTransfers c).epochFault c

/-- A fault strikes context `c`. During a swap of the context it waits for the swap's end (R408). A context that
is Free, or already Faulted, is left as it stands. -/
def State.faultCtx (s : State) (c code : Nat) : State :=
  if s.ctxState c = csFree ∨ s.ctxState c = csFaulted then s
  else if s.swapHolds c then s.setCtx c { s.ctxAt c with pendFault := code }
  else s.faultNow c code

/-! ## Fences (R447, R448) -/

/-- The site of a module core (R4). -/
def siteOfCore (core : Nat) : Nat :=
  let h := Config.harvested (core / 40)
  let k := core % 40
  if k < h.1 then k else if k + 1 < h.2 then k + 1 else k + 2

/-- SLB_FENCE and GLB_CORES after the fence of one core (R579, R581). -/
def State.markFenced (s : State) (core : Nat) : State :=
  let site := siteOfCore core
  let f : Fld := if site < 32 then ⟨Reg.fenceLo (core / 40), site, 1⟩ else ⟨Reg.fenceHi (core / 40), site - 32, 1⟩
  if s.flag f then s
  else ((s.setFld f 1).bump Fld.coresFenced).setFld Fld.coresActive (s.fld Fld.coresActive - 1)

/-- The module is degraded below 144 cores, and says so once (R449). -/
def State.checkDegraded (s : State) : State :=
  if s.fld Fld.coresActive < 144 ∧ s.flag Fld.degraded = false then
    (s.setFld Fld.degraded 1).report { code := 0x0266 }
  else s

/-- A tile whose core is fenced, as it is to be run again from its beginning; its wait stays taken (R27, R447). -/
def Tile.again (t : Tile) : Tile :=
  { t with home := some (t.home.getD (t.core, t.stream)), at_ := { dead := t.at_.dead }, tally := {}, checker := none, checkerRan := false
           wrote := [], posted := [], table := [], held := [], round := 0, stopAt := 0 }

/-- A queued descriptor of a core that the hub has not taken up: its transfer has not been accepted, and no update of it runs. -/
def State.unstarted (s : State) (core : Nat) (q : QEntry) : Bool :=
  q.core == core && !(s.coll.xfers.any fun x => x.id == q.id && x.core == core)
    && !((s.ws.jobs.any fun j => j.id == q.id && j.core == core) || s.ws.asked.any fun m => m.id == q.id)

/-- One core leaves service: its engines stop, its tiles end without faulting a context, and Flint gives them to the next plan;
what its DMA engine was moving and what its queues held ends as well (R27, R447, R587). A checker's tile on it is lost, and its
primary is to have another checker; the checker of a tile that it has lost stops. -/
def State.fenceCore (s : State) (core : Nat) : State :=
  let mine := s.core.tiles.filter fun t => t.core == core && t.phase != .stopping && t.phase != .recheck
  let s := s.markFenced core
  let s := { s with ctx := { s.ctx with reissue := s.ctx.reissue ++ mine.map Tile.again } }
  let kept (t : Tile) : Bool := t.core != core && !(t.phase == .recheck && t.home.any fun h => h.1 == core)
  let again (t : Tile) : Tile := if t.checker = some core then { t with checkerRan := false } else t
  let s := { s with core := { s.core with
    tiles := (s.core.tiles.filter kept).map again
    dmaq := s.core.dmaq.filter fun q => q.core != core
    hubq := s.core.hubq.filter fun q => !s.unstarted core q
    wsq := s.core.wsq.filter fun q => !s.unstarted core q } }
  s.checkDegraded

/-- Each core of a list leaves service. -/
def State.fenceCores (s : State) (l : List Nat) : State := l.foldl State.fenceCore s

/-! ## Raising (R451 to R453) -/

/-- An error that a context bears: a merge, or a new record and the context's fault (R446, R452). -/
def State.raiseCtx (s : State) (e : ErrInfo) (c : Nat) : State :=
  let e := { e with domain := domContext, index := c, ctx := some c }
  match s.openRec domContext c with
  | some k => s.mergeRec k e
  | none => (s.openRecord e none).faultCtx c e.code

/-- Every existing context of a quarry faults with QUARRY_LOST (R392). -/
def State.loseQuarry (s : State) (q : Nat) : State :=
  ctxNumbers.foldl (fun t c =>
    if t.ctxState c ≠ csFree ∧ t.ctxQuarry c = q then t.raiseCtx { code := 0x0615 } c else t) s

/-- The unit of a domain is fenced; the fence is reported as UNIT_FENCED, which merges into the record being
handled (R447, R476). -/
def State.fenceUnit (s : State) (dom i : Nat) : State :=
  let s := s.setFence dom i
  if dom = domCore ∨ dom = domBank then s.fenceCore i
  else if dom = domSlab then
    let s := s.fenceCores ((List.range 40).map (40 * i + ·))
    if s.modeOf = 2 then s.loseQuarry i else s
  else s

/-- UNIT_FENCED joins the open record of the unit, and bytes 48 and 49 of its detail give the code of the cause (R452, R476). What is
fenced with the unit is part of its own fence and makes no event (R447, log entry 185). -/
def State.noteFenced (s : State) (dom i code : Nat) : State :=
  if code = 0x0264 then s
  else match s.openRec dom i with
    | some k =>
      let s := s.mergeRec k { code := 0x0264, domain := dom, index := i }
      let r := s.errRec k
      s.setRec k { r with detail := r.detail / 2 ^ 16 * 2 ^ 16 + code % 2 ^ 16 }
    | none => s

/-- Bytes 12–27 of the completion of a DMA command (R433). -/
def Cmd.dmaTail (c : Cmd) : Nat := c.moved % 2 ^ 32 + c.poisoned % 2 ^ 32 * 2 ^ 32 + c.firstPoison % 2 ^ 64 * 2 ^ 64

/-- Every command that Flint has read, but QUERY, completes with MODULE_STATE: the module is fatal (R461). -/
def State.refuseCommands (s : State) : State :=
  let s := (s.host.cmds.filter fun c => bits c.raw 0 8 != 0x0A).foldl (fun t c => t.completeCmd c.id 0x001A c.dmaTail) s
  { s with err := { s.err with flintDown := false, caught := [], deferred := [] } }

/-- The module is fatal (R461). -/
def State.makeFatal (s : State) (code : Nat) : State :=
  if s.flag Fld.fatal then s
  else
    let s := s.setFld Fld.fatal 1
    let s := { s with pins := { s.pins with phase := .fatal, stratumOut := false } }
    let s := ctxNumbers.foldl (fun t c => if t.ctxState c ≠ csFree then t.faultCtx c 0x0802 else t) s
    let s := s.idleLanes.refuseCommands
    let s := { s with host := { s.host with aer := s.host.aer + 1 } }
    if code = 0x0802 then s else s.postEvent 0x0802 (s.fld Fld.errNext) 1 none

/-- The transfers that a condition picks end at once, without their signals, with COLL_LINK_FAILED, each faulting its context; a
fault that waits for a swap does not keep them running (R354, R377, R408). -/
def State.linkFailed (s : State) (p : Xfer → Bool) : State :=
  let hit := s.coll.xfers.filter p
  let ids := hit.map fun x => x.id
  let s := s.setXfers (s.coll.xfers.filter fun x => !p x)
  let s := { s with core := { s.core with hubq := s.core.hubq.filter fun q => !ids.contains q.id } }
  ctxNumbers.foldl (fun t c => if hit.any fun x => x.ctx == c then t.raiseCtx { code := 0x0312 } c else t) s

/-- The open episode of a port ends at this moment: the longest is kept (R353). -/
def State.closeEpisode (s : State) (p : Nat) : State :=
  if s.flag (Fld.episode p) then
    let d := min (s.now - (s.port p).epStart) (2 ^ 32 - 1)
    let s := if s.fld (Fld.maxEp p) < d then s.setFld (Fld.maxEp p) d else s
    s.setFld (Fld.episode p) 0
  else s

/-- What a port is still to send satisfies a condition on packets. -/
def Port.sendsAny (b : Port) (p : Packet → Bool) : Bool := b.queue.any (fun o => p o.pkt) || b.cur.any fun o => p o.pkt

/-- FOS_BUDDY_STAT.filling: a fill reads the reserve until its last packet has left the ports (R500, R503). -/
def State.endFillRead (s : State) : State :=
  let filling (k : Packet) : Bool := k.type == 9 && k.dst == s.fld Fld.buddySender && k.src == s.fld Fld.moduleId
  if s.flag Fld.buddyFilling ∧ (List.range 16).all fun p => !(s.port p).sendsAny filling then s.setFld Fld.buddyFilling 0 else s

/-- What of a transit packet still waits leaves the buffer of the port that received it, with `header` granules of header (R348). -/
def State.leaveBuffer (header : Nat) (t : State) (o : OutPkt) : State :=
  match o.src with
  | some i => t.freePool i.1 i.2 (header + o.pkt.data.length)
  | none => t

/-- The buffers of port `p` are lost: transit packets that wait to leave by it leave the buffers of their own ports, and those that
it was receiving end where they stand (R346, R356). -/
def State.cutTransit (s : State) (p : Nat) : State :=
  let s := (s.port p).cur.foldl (State.leaveBuffer 0) ((s.port p).queue.foldl (State.leaveBuffer 1) s)
  let keep (l : List OutPkt) : List OutPkt :=
    (l.filter fun o => !(o.src.any (fun i => i.1 == p) && o.more != 0)).map fun o => if o.src.any fun i => i.1 == p then { o with src := none } else o
  let gone (f : RxFlow) : RxFlow := if f.dest = .out p then { f with dest := .gone } else f
  (List.range 16).foldl (fun t i =>
    let b := t.port i
    t.setPort i { b with queue := keep b.queue, cur := keep b.cur, partials := b.partials.map gone }) s

/-- Port `p` enters Failed: its buffers are discarded, and every transfer that uses it ends at once (R354, R356). -/
def State.failPort (s : State) (p : Nat) : State :=
  if s.fld (Fld.portState p) = psFailed then s
  else
    let s := ((s.closeEpisode p).setFld (Fld.portState p) psFailed).cutTransit p
    let s := s.setPort p { failedAt := s.now }
    let s := { s with coll := { s.coll with held := s.coll.held.filter fun h => !(h.port == some p && h.pool.isSome) } }
    ((s.linkFailed fun x => x.ports.contains p).buddyPortLost p).endFillRead

/-- The action of the domain that an error strikes (R446). -/
def State.strike (s : State) (e : ErrInfo) : State :=
  if e.domain = domSequence then s.failSequence e.index e.code e.detail
  else if e.domain = domContext then s.faultCtx e.index e.code
  else if e.domain = domPort then s.failPort e.index
  else if e.domain = domModule then s.makeFatal e.code
  else if e.domain = 0 then s
  else (s.fenceUnit e.domain e.index).noteFenced e.domain e.index e.code

/-- An error: it merges into the open record of its instance, or opens a record, or is lost; the action of its
domain is applied but on a merge (R451, R452). -/
def State.raise (s : State) (e : ErrInfo) : State :=
  match s.openRec e.domain e.index with
  | some k => s.mergeRec k e
  | none => (s.openRecord e none).strike e

/-- The domain and instance to which an error raised in handling record `r` goes (R446, R453); `core` is where the
handling failed, none in the hub. -/
def State.escalation (s : State) (r : ErrRec) (core : Option Nat) : Option (Nat × Nat) :=
  let asCtx : Nat × Nat := match core with | some c => (domCore, c) | none => (domModule, 0)
  if r.domain = domSequence then
    match r.ctx with
    | some c => if s.ctxState c ≠ csFree ∧ (s.ctxAt c).life = r.life then some (domContext, c) else some asCtx
    | none => some asCtx
  else if r.domain = domContext then some asCtx
  else if r.domain = domCore ∨ r.domain = domBank then some (domSlab, r.index / 40)
  else if r.domain = domChannel then some (domSlab, r.index / 128)
  else if r.domain = domWhetstone then some (domSlab, r.index / 8)
  else if r.domain = domPort ∨ r.domain = domSlab then some (domModule, 0)
  else none

/-- An error raised in handling record `k`: it opens an escalated record in the next larger domain and strikes
there; in handling a module record it changes nothing (R453). -/
def State.raiseInHandling (s : State) (k : Nat) (e : ErrInfo) : State :=
  match s.escalation (s.errRec k) e.core with
  | none => s
  | some (d, i) =>
    let e := { e with domain := d, index := i, ctx := if d = domContext then some i else e.ctx }
    (s.openRecord e (some k)).strike e

/-- An error of context `c` at a descriptor or tile of a core (R83). -/
def State.ctxError (s : State) (c core code desc : Nat) : State :=
  s.raiseCtx { code := code, core := some core, tileId := BitVec.ofNat 32 (fieldAt desc 12 0 32),
               layerTag := BitVec.ofNat 16 (fieldAt desc 2 0 16) } c

end Sys2Proof.Machine
end

