-- ==== Sys2Proof/Machine/Translate.lean ====
section
/-! DEFINITION. Memory: the physical map, granules with their error codes and poison, the page walk with its TLB,
local store, and the accesses of a unit of a context (chapter Geode, Main Memory and Translation). -/

namespace Sys2Proof.Machine

/-! ## Cells -/

/-- What an unlisted cell reads as: 0 after the first reset, and a free value after a loss of contents
(log entries 2 and 4). -/
def cellDefault (epoch kind k : Nat) : Nat := if epoch = 0 then 0 else Config.freeCell epoch (kind * 2 ^ 64 + k)

/-- Unlisted bytes of main memory and Geode, by cell key. -/
def MemSt.physDefault (m : MemSt) (k : Nat) : Byte :=
  BitVec.ofNat 8 (if k < 2 ^ 44 then cellDefault m.mainEpoch 0 k else cellDefault m.sramEpoch 1 k)

/-- Unlisted bytes of local store. -/
def MemSt.lsDefault (m : MemSt) (k : Nat) : Byte := BitVec.ofNat 8 (cellDefault m.sramEpoch 2 k)

/-- Unlisted bytes of statistics memory: undefined after a fault of their context. A record whose contents are lost is
empty once Flint has cleared it, which is before anything can read it (R187). -/
def MemSt.statDefault (m : MemSt) (k : Nat) : Byte :=
  let lost := SMap.get (fun _ => 0) m.statLost (k / 2 ^ 18 / 40 * 64 + k % 2 ^ 18 / 4096)
  let v := if lost = 0 then cellDefault m.sramEpoch 3 k else Config.freeCell lost (6 * 2 ^ 64 + k)
  BitVec.ofNat 8 (if k % 16 = 15 then v % 64 else v)

/-- Unlisted accumulators: undefined after a fault of their context or an attention tile (R101, R282). -/
def MemSt.accDefault (m : MemSt) (k : Nat) : BitVec 40 :=
  let lost := max (SMap.get (fun _ => 0) m.accLost (k / 1024 / 128 / 40 * 128 + k / 1024 % 128))
    (SMap.get (fun _ => 0) m.accGone (k / 1024))
  if lost = 0 then BitVec.ofNat 40 (cellDefault m.sramEpoch 4 k)
  else BitVec.ofNat 40 (Config.freeCell lost (5 * 2 ^ 64 + k))

/-- The canonical form of the memories: every map lists its keys in rising order, and no entry that equals what an unlisted
key reads as. -/
def Memory.wf (m : MemSt) : Bool :=
  SMap.wf m.physDefault m.phys && SMap.wf (fun _ => false) m.poison && SMap.wf (fun _ => 0) m.fossil
    && SMap.wf m.lsDefault m.ls && SMap.wf (fun _ => false) m.lsPoison
    && SMap.wf m.statDefault m.stat && SMap.wf (fun _ => false) m.statPoison
    && SMap.wf m.accDefault m.acc && SMap.wf (fun _ => false) m.accPoison
    && SMap.wf (fun _ => 0) m.accLost && SMap.wf (fun _ => 0) m.accGone && SMap.wf (fun _ => 0) m.statLost
    && SMap.wf (fun _ => 0) m.latent && SMap.wf (fun _ => false) m.localLatent
    && SMap.wf (fun _ => 0) m.frameCe && SMap.wf (fun _ => false) m.bursting && SMap.wf (fun _ => 0) m.host

/-- One GiB. -/
def gib : Nat := 2 ^ 30

/-- Bytes of a slice: 640 GiB. -/
def sliceSpan : Nat := 0xA000000000

/-- Size L of the mapped part of a slice, in bytes (R212). -/
def State.mapped (s : State) : Nat := (640 - s.fld Fld.globalGib) * gib

/-- Slice offset at which the firmware area begins (R212). -/
def State.firmwareOff (s : State) : Nat := s.mapped - gib / 2

/-- The key under which the cell of a physical address is kept. The firmware area of a slice keeps its cells wherever a
layout puts it, because the hub carries it along (R214). -/
def State.cellKey (s : State) (pa : Nat) : Nat :=
  if pa < 4 * sliceSpan ∧ s.firmwareOff ≤ pa % sliceSpan ∧ pa % sliceSpan < s.mapped then
    2 ^ 52 + pa / sliceSpan * 2 ^ 29 + (pa % sliceSpan - s.firmwareOff)
  else pa

/-- One byte of main memory or Geode. -/
def State.physByte (s : State) (pa : Nat) : Byte := SMap.get s.mem.physDefault s.mem.phys (s.cellKey pa)

/-- The state with one byte of main memory or Geode stored. -/
def State.setPhysByte (s : State) (pa : Nat) (b : Byte) : State :=
  { s with mem := { s.mem with phys := SMap.put s.mem.physDefault s.mem.phys (s.cellKey pa) b } }

/-- `n` bytes of main memory or Geode. -/
def State.physBytes (s : State) (pa n : Nat) : List Byte := (List.range n).map fun i => s.physByte (pa + i)

/-- Bytes stored from `pa` on. -/
def State.putPhys (s : State) : Nat → List Byte → State
  | _, [] => s
  | pa, b :: r => State.putPhys (s.setPhysByte pa b) (pa + 1) r

/-- One byte of the local store of a core. -/
def State.lsByte (s : State) (core off : Nat) : Byte :=
  SMap.get s.mem.lsDefault s.mem.ls (core * 2 ^ 21 + off % 2 ^ 21)

/-- The state with one byte of local store stored. -/
def State.setLsByte (s : State) (core off : Nat) (b : Byte) : State :=
  { s with mem := { s.mem with ls := SMap.put s.mem.lsDefault s.mem.ls (core * 2 ^ 21 + off % 2 ^ 21) b } }

/-- Bytes stored in local store from `off` on. -/
def State.putLs (s : State) (core : Nat) : Nat → List Byte → State
  | _, [] => s
  | off, b :: r => State.putLs (s.setLsByte core off b) core (off + 1) r

/-- Accumulator (row, column) of a slot (R99). -/
def State.acc (s : State) (core slot i j : Nat) : BitVec 40 :=
  SMap.get s.mem.accDefault s.mem.acc ((128 * core + slot) * 1024 + 32 * i + j)

/-- The state with one accumulator stored. -/
def State.setAcc (s : State) (core slot i j : Nat) (v : BitVec 40) : State :=
  { s with mem := { s.mem with
      acc := SMap.put s.mem.accDefault s.mem.acc ((128 * core + slot) * 1024 + 32 * i + j) v } }

/-- Poison flag of a slot row (R119). -/
def State.accPoison (s : State) (core slot i : Nat) : Bool :=
  SMap.get (fun _ => false) s.mem.accPoison ((128 * core + slot) * 32 + i)

/-- The state with a slot row's poison flag set or cleared. -/
def State.setAccPoison (s : State) (core slot i : Nat) (p : Bool) : State :=
  { s with mem := { s.mem with
      accPoison := SMap.put (fun _ => false) s.mem.accPoison ((128 * core + slot) * 32 + i) p } }

/-! ## The physical map (R208 to R213) -/

/-- First address of the global window and of Geode. -/
def globalBase : Nat := 0x040000000000
def geodeBase : Nat := 0x100000000000

/-- What stands at a physical address. -/
inductive Place where
  /-- Offset in the mapped part of a slice. -/
  | slice (n off : Nat)
  /-- Offset in the global window. -/
  | window (off : Nat)
  /-- Offset in a Geode bank. -/
  | bank (core off : Nat)
  | unmapped
  deriving DecidableEq, Repr

/-- The physical map under MEM_LAYOUT (R208). -/
def State.place (s : State) (pa : Nat) : Place :=
  let g := s.fld Fld.globalGib
  if pa < 4 * sliceSpan then
    if pa % sliceSpan < (640 - g) * gib then .slice (pa / sliceSpan) (pa % sliceSpan) else .unmapped
  else if globalBase ≤ pa ∧ pa < globalBase + 4 * g * gib then .window (pa - globalBase)
  else if geodeBase ≤ pa ∧ pa < geodeBase + 160 * 2 ^ 26 then
    .bank ((pa - geodeBase) / 2 ^ 26) ((pa - geodeBase) % 2 ^ 26)
  else .unmapped

/-- The module channel of an address in main memory (R209, R210). -/
def Place.channel : Place → Option Nat
  | .slice n o => some (128 * n + (bits o 11 7 ^^^ bits o 18 7))
  | .window o => some (bits o 11 9 ^^^ bits o 20 9)
  | _ => none

/-- The sub-channel of an address in main memory (R209, R210). -/
def Place.subChannel (p : Place) : Option Nat :=
  match p with
  | .slice _ o => p.channel.map fun ch => 2 * ch + bits o 6 1
  | .window o => p.channel.map fun ch => 2 * ch + bits o 6 1
  | _ => none

/-- The channel offset of an address in main memory, with G GiB per slice in the window (R209, R210). -/
def Place.chanOff (g : Nat) : Place → Option Nat
  | .slice _ o => some (o / 2 ^ 18 * 2 ^ 11 + bits o 0 11)
  | .window o => some ((640 - g) * 2 ^ 23 + (o / 2 ^ 20 * 2 ^ 11 + bits o 0 11))
  | _ => none

/-- End of the context pool of a slice: L − 7 − B GiB (R212). -/
def State.poolEnd (s : State) : Nat := s.mapped - (7 + s.fld Fld.buddyGib) * gib

/-- Slice offsets at which the buddy reserve, the bounce reserve and the spill area begin (R212). -/
def State.buddyOff (s : State) : Nat := s.poolEnd
def State.bounceOff (s : State) : Nat := s.mapped - 7 * gib
def State.spillOff (s : State) : Nat := s.mapped - 3 * gib

/-- Physical address of the spill slot of a core (R212). -/
def State.spillSlot (s : State) (core : Nat) : Nat :=
  core / 40 * sliceSpan + s.spillOff + core % 40 * 2 ^ 26

/-- A range of main memory lies inside the main-memory shares of context `c` (R213, R394). -/
def State.mainFirewall (s : State) (c pa len : Nat) : Bool :=
  match s.place pa with
  | .slice n o =>
    quarryOfSlab s.modeOf n == s.ctxQuarry c && decide (s.fld (Fld.mainBase c) * gib ≤ o)
      && decide (o + len ≤ (s.fld (Fld.mainBase c) + s.fld (Fld.mainSize c)) * gib) && decide (o + len ≤ s.poolEnd)
  | .window o =>
    decide (s.fld (Fld.globalBase c) * gib ≤ o)
      && decide (o + len ≤ (s.fld (Fld.globalBase c) + s.fld (Fld.globalSize c)) * gib)
      && decide (o + len ≤ 4 * s.fld Fld.globalGib * gib)
  | _ => false

/-- A range of Geode lies inside the Geode share of context `c` (R394). -/
def State.geodeFirewall (s : State) (c pa len : Nat) : Bool :=
  match s.place pa with
  | .bank k o =>
    let last := k + (o + len - 1) / 2 ^ 26
    let lo := s.fld (Fld.geodeBase c) * 2 ^ 20
    let hi := lo + s.fld (Fld.geodeSize c) * 2 ^ 20
    decide (0 < len) && decide (last < 160) && s.quarryOfCore k == s.ctxQuarry c && s.quarryOfCore last == s.ctxQuarry c
      && (if last = k then decide (lo ≤ o) && decide (o + len ≤ hi) else decide (lo = 0) && decide (hi = 2 ^ 26))
  | _ => false

/-- The firewall of context `c`: its Geode share and its main-memory shares (R394). -/
def State.firewall (s : State) (c pa len : Nat) : Bool := s.mainFirewall c pa len || s.geodeFirewall c pa len

/-! ## Errors of the cells (R216, R219 to R225, R588) -/

/-- The granule number of an address. -/
def granOf (pa : Nat) : Nat := pa / 64

/-- Poison of a granule of main memory or Geode. -/
def State.poisonAt (s : State) (pa : Nat) : Bool := SMap.get (fun _ => false) s.mem.poison (granOf (s.cellKey pa))

/-- The state with a granule's poison set or cleared. -/
def State.setPoison (s : State) (pa : Nat) (p : Bool) : State :=
  { s with mem := { s.mem with poison := SMap.put (fun _ => false) s.mem.poison (granOf (s.cellKey pa)) p } }

/-- The key of a word's errors. -/
def State.wordKey (s : State) (pa i : Nat) : Nat := granOf (s.cellKey pa) * 8 + i

/-- The errors not yet found in word `i` of the granule at an address. -/
def State.errorOf (s : State) (pa i : Nat) : BitVec 72 := SMap.get (fun _ => 0) s.mem.latent (s.wordKey pa i)

/-- The errors in the words that `p` selects are gone: corrected, re-encoded or overwritten. -/
def State.clearLatent (s : State) (pa : Nat) (p : Nat → Bool) : State :=
  { s with mem := { s.mem with
      latent := ((List.range 8).filter p).foldl (fun m i => SMap.put (fun _ => 0) m (s.wordKey pa i) 0) s.mem.latent } }

/-- Bits in which a word is wrong. -/
def wrongBits (e : BitVec 72) : Nat := ((List.range 72).filter fun i => e.getLsbD i).length

/-- Symbols in which a word with its metadata byte is wrong (R219). -/
def wrongSymbols (e : BitVec 72) : Nat := ((List.range 9).filter fun i => bits e.toNat (8 * i) 8 != 0).length

/-- The fossil field of the granule at an address (R218). -/
def State.fossilAt (s : State) (pa : Nat) : BitVec 2 := SMap.get (fun _ => 0) s.mem.fossil (granOf (s.cellKey pa))

/-- The state with a granule's fossil field set. -/
def State.setFossil (s : State) (pa : Nat) (v : BitVec 2) : State :=
  { s with mem := { s.mem with fossil := SMap.put (fun _ => 0) s.mem.fossil (granOf (s.cellKey pa)) v } }

/-- The errors of word `i` enter the data as read; in main memory those of metadata byte 0 enter the fossil field too
(R216, R218, R221). -/
def State.readAs (s : State) (pa i : Nat) (e : BitVec 72) : State :=
  let old := leNat (s.physBytes (pa + 8 * i) 8)
  let s := s.putPhys (pa + 8 * i) (leBytes 8 (old ^^^ e.toNat % 2 ^ 64))
  match s.place pa with
  | .bank _ _ => s
  | _ => if i = 0 then s.setFossil pa (s.fossilAt pa ^^^ BitVec.ofNat 2 (bits e.toNat 70 2)) else s

/-- FRAME_RETIRE for the frame of an address, once per listed frame; the list takes it while it has room (R224, R225). -/
def State.retire (s : State) (pa : Nat) : State :=
  let f := pa / 2 ^ 14 * 2 ^ 14
  if s.mem.retired.contains f then s
  else
    let full := decide (4096 ≤ s.mem.retired.length)
    let s := s.report { code := 0x0112, phys := f, detail := b2n full }
    if full then s else { s with mem := { s.mem with retired := s.mem.retired ++ [f] } }

/-- Corrected errors of a channel within the last second (R588). -/
def State.burstCount (s : State) (ch : Nat) : Nat :=
  (s.mem.channelCe.filter fun e => e.1 == ch && decide (s.now < e.2 + ms 1000)).length

/-- A corrected error of a channel enters its window of the last second. A burst of the channel that has fallen to 64 or
below may rise again (R588). -/
def State.countChannel (s : State) (ch : Nat) : State :=
  let old := s.mem.channelCe.filter fun e => decide (s.now < e.2 + ms 1000)
  let burst := if s.burstCount ch ≤ 64 then SMap.put (fun _ => false) s.mem.bursting ch false else s.mem.bursting
  { s with mem := { s.mem with channelCe := old ++ [(ch, s.now)], bursting := burst } }

/-- A corrected error counts against its frame, and in main memory against its channel (R221, R224, R588). -/
def State.countCorrected (s : State) (pa : Nat) : State :=
  let f := pa / 2 ^ 14
  let n := SMap.get (fun _ => 0) s.mem.frameCe f + 1
  let s := { s with mem := { s.mem with frameCe := SMap.put (fun _ => 0) s.mem.frameCe f n } }
  let s := match (s.place pa).channel with | some ch => s.countChannel ch | none => s
  if s.fld Fld.frameCe ≤ n then s.retire pa else s

/-- An uncorrectable error is found: the granule is poisoned over the data as read, and the tier raises its event
(R216, R221, R224). -/
def State.foundUe (s : State) (pa : Nat) : State :=
  let code := match s.place pa with | .bank _ _ => 0x0111 | _ => 0x0110
  ((s.setPoison pa true).report { code := code, phys := granOf pa * 64 }).retire pa

/-- A read of word `i` of a Geode granule: one wrong bit is corrected, two are detected (R216). Of three or more the code says
nothing: they are detected, taken for one wrong bit, or not seen, as a free value says (log entry 23). -/
def State.readWord (s : State) (pa i : Nat) : State :=
  let e := s.errorOf pa i
  if e = 0 then s
  else
    let s := s.clearLatent pa (· == i)
    let n := wrongBits e
    if n = 1 then s.countCorrected pa
    else if n = 2 then (s.readAs pa i e).foundUe pa
    else
      let f := s.fresh 3
      if f.1 = 0 then (f.2.readAs pa i e).foundUe pa
      else if f.1 = 1 then
        let d := f.2.freshBytes 8
        (d.2.putPhys (pa + 8 * i) d.1).countCorrected pa
      else f.2.readAs pa i e

/-- All the errors of a granule enter its data as read: `l` is their words. -/
def State.readAll (s : State) (pa : Nat) (l : List (BitVec 72)) : State :=
  (List.range 8).foldl (fun t i => t.readAs pa i (l.getD i 0)) s

/-- A read of a granule of main memory: up to 3 wrong symbols are corrected and 4 are detected; 5 or more are detected or
miscorrected, as a free value says, and a miscorrected granule holds free data, poison and fossil state (R219, R221, log entry 23). -/
def State.readStack (s : State) (pa : Nat) : State :=
  let l := (List.range 8).map fun i => s.errorOf pa i
  let n := (l.map wrongSymbols).sum
  if n = 0 then s
  else
    let s := s.clearLatent pa fun _ => true
    if n ≤ 3 then s.countCorrected pa
    else if n = 4 then (s.readAll pa l).foundUe pa
    else
      let f := s.fresh 2
      if f.1 = 0 then (f.2.readAll pa l).foundUe pa
      else
        let d := f.2.freshBytes 64
        let m := d.2.fresh 8
        (((m.2.putPhys pa d.1).setPoison pa (bit m.1 2)).setFossil pa (BitVec.ofNat 2 m.1)).countCorrected pa

/-- A read of the words that `p` selects finds what errors they hold: in Geode word by word, in main memory in the whole
granule. -/
def State.readCheck (s : State) (pa : Nat) (p : Nat → Bool) : State :=
  match s.place pa with
  | .bank _ _ => ((List.range 8).filter p).foldl (fun t i => t.readWord pa i) s
  | _ => s.readStack pa

/-- The unit behind an address is fenced (R222, R447). -/
def State.cellFenced (s : State) (pa : Nat) : Bool :=
  match s.place pa with
  | .bank k _ => s.bankFenced k
  | p => match p.channel with | some ch => s.channelFenced ch | none => false

/-- A granule as a read returns it, with its poison (R216, R221, R222). -/
def State.readGran (s : State) (pa : Nat) : (List Byte × Bool) × State :=
  let pa := granOf pa * 64
  if s.cellFenced pa then ((s.physBytes pa 64, true), s)
  else
    let s := s.readCheck pa fun _ => true
    ((s.physBytes pa 64, s.poisonAt pa), s)

/-- A write of bytes inside one granule: `off` within it, the bytes, and the poison of the source. A write of all 64
bytes takes the source's poison; a partial write reads what it must merge and leaves the poison (R216, R220, R222). -/
def State.writeGran (s : State) (pa off : Nat) (b : List Byte) (poisoned : Bool) : State :=
  let pa := granOf pa * 64
  if s.cellFenced pa then s
  else if off = 0 ∧ b.length = 64 then
    ((s.clearLatent pa fun _ => true).putPhys pa b).setPoison pa poisoned
  else
    let part : Nat → Bool := fun i => decide (8 * i < off + b.length) && decide (off < 8 * i + 8)
      && !(decide (off ≤ 8 * i) && decide (8 * i + 8 ≤ off + b.length))
    let whole : Nat → Bool := fun i => decide (off ≤ 8 * i) && decide (8 * i + 8 ≤ off + b.length)
    match s.place pa with
    | .bank _ _ => (((s.readCheck pa part).clearLatent pa whole).putPhys (pa + off) b)
    | _ => ((s.readCheck pa fun _ => true).putPhys (pa + off) b)

/-! ## Stopping a unit's work -/

/-- Why a unit stops before the end of its work. -/
inductive Stop where
  /-- The context faults with a code; `phys` goes into the record. -/
  | fault (code phys : Nat)
  /-- A translation fault on a window address, with its code: the tile ends under R77 (R233, R258). -/
  | kvExtend (slot va code : Nat)
  /-- An odd or changed page version: the tile ends for replay (R254). -/
  | kvVersion (slot record : Nat) (odd : Bool)
  /-- The sequence in a slot fails, and the context does not (R261). -/
  | kvFail (slot code idx : Nat)
  /-- Host memory or a link answered badly, with a status (R425). -/
  | status (code : Nat)
  /-- The work cannot go on yet: nothing of it happens now (R485, R486). -/
  | stall
  deriving DecidableEq, Repr

/-- A computation over the state that may stop; what it has done until then stands (R239). -/
abbrev Exec (α : Type) := ExceptT Stop (StateM State) α

/-- A step on the state alone. -/
def Exec.doState (f : State → State) : Exec Unit := fun s => (.ok (), f s)

/-- A value read from the state, and the state after. -/
def Exec.ofState {α : Type} (f : State → α × State) : Exec α := fun s => let r := f s; (.ok r.1, r.2)

/-- A value of the state. -/
def Exec.ask {α : Type} (f : State → α) : Exec α := fun s => (.ok (f s), s)

/-- The work stops. -/
def Exec.stop {α : Type} (e : Stop) : Exec α := fun s => (.error e, s)

/-- The work stops unless a condition holds. -/
def Exec.check (b : Bool) (e : Stop) : Exec Unit := if b then pure () else Exec.stop e

/-- A step for each element of a list, in order. -/
def Exec.each {α : Type} : List α → (α → Exec Unit) → Exec Unit
  | [], _ => pure ()
  | a :: r, f => do f a; Exec.each r f

/-- A value for each element of a list, in order. -/
def Exec.collect {α β : Type} : List α → (α → Exec β) → Exec (List β)
  | [], _ => pure []
  | a :: r, f => do let b ← f a; let l ← Exec.collect r f; pure (b :: l)

/-- A value carried through the elements of a list, in order. -/
def Exec.fold {α β : Type} : List α → β → (β → α → Exec β) → Exec β
  | [], b, _ => pure b
  | a :: r, b, f => do Exec.fold r (← f b a) f

/-- The state that `f` answers takes over; where it answers none, `stop` runs. -/
def Exec.orElse (f : State → Option State) (stop : Exec Unit) : Exec Unit := fun s =>
  match f s with
  | some t => (.ok (), t)
  | none => stop s

/-- A free value below `n` (log entry 3). -/
def Exec.free (n : Nat) : Exec Nat := Exec.ofState fun s => s.fresh n

/-! ## The walk (R227 to R230) -/

/-- The levels of the tree: lowest address bit, index bits, alignment of the next table, size of a leaf,
whether a leaf or a pointer may stand there (R227). -/
structure Level where
  shift : Nat
  width : Nat
  table : Nat
  next : Nat
  leaf : Bool
  ptr : Bool

/-- Levels A to D (R227). -/
def walkLevels : List Level :=
  [⟨39, 9, 4096, 4096, false, true⟩, ⟨30, 9, 4096, 4096, true, true⟩, ⟨21, 9, 4096, 1024, true, true⟩,
   ⟨14, 7, 1024, 0, true, false⟩]

/-- A leaf that a walk found: base address, size and write permission. -/
structure Leaf where
  va : Nat
  size : Nat
  pa : Nat
  write : Bool
  deriving DecidableEq, Repr

/-- Eight bytes of main memory and their poison, as a walk reads them. -/
def State.walkRead (s : State) (pa : Nat) : (Nat × Bool) × State :=
  let r := s.readGran pa
  ((leNat ((r.1.1.drop (pa % 64)).take 8), r.1.2), r.2)

/-- What the entry of a table says for an address: the code of a translation fault, a leaf, or the next table (R228, R229). -/
def State.walkEntry (s : State) (c va t : Nat) (l : Level) : Except Nat (Leaf ⊕ Nat) × State :=
  if s.mainFirewall c t l.table = false then (.error 0x0104, s)
  else
    let r := s.walkRead (t + 8 * bits va l.shift l.width)
    let s := r.2
    let e := r.1.1
    let addr := bits e 10 38 * 1024
    if r.1.2 then (.error 0x0105, s)
    else if bit e 0 = false then (.error 0x0101, s)
    else if bits e 48 16 ≠ 0 ∨ bits e 3 7 ≠ 0 then (.error 0x0103, s)
    else if bit e 1 then
      if l.leaf = false ∨ addr % 2 ^ l.shift ≠ 0 then (.error 0x0103, s)
      else if s.firewall c addr (2 ^ l.shift) = false then (.error 0x0104, s)
      else (.ok (.inl ⟨va / 2 ^ l.shift * 2 ^ l.shift, 2 ^ l.shift, addr, bit e 2⟩), s)
    else if l.ptr = false ∨ bit e 2 ∨ addr % l.next ≠ 0 then (.error 0x0103, s)
    else (.ok (.inr addr), s)

/-- The unit of a slab's walk cache. -/
def walkUnit (slab : Nat) : Nat := 160 + slab

/-- A walk-cache entry: the table that an address's entry of `size` bytes points to (R230). -/
def ptrEntry (unit c va size table : Nat) : TlbEntry := ⟨unit, c, va / size * size, size, table, false⟩

/-- The pointer that a walk cache holds for an address at a level. -/
def State.cachedPtr (s : State) (unit : Option Nat) (c va size : Nat) : Option Nat :=
  match unit with
  | none => none
  | some u => (s.mem.tlb.find? fun e => e.unit == u && e.ctx == c && e.size == size && e.base == va / size * size).map fun e => e.pa

/-- A walk that found its leaf leaves its pointers in the walk cache, which holds 512; the oldest go first (R230, log entry 9). -/
def State.walkFill (s : State) (unit : Option Nat) (l : List TlbEntry) : State :=
  match unit with
  | none => s
  | some u =>
    let new := l.filter fun e => !s.mem.tlb.contains e
    let stays (e : TlbEntry) : Bool := l.all fun x => !(x.ctx == e.ctx && x.size == e.size && x.base == e.base) || x.pa == e.pa
    let mine := s.mem.tlb.filter fun e => e.unit == u && stays e
    let rest := s.mem.tlb.filter fun e => e.unit != u
    { s with mem := { s.mem with tlb := (new ++ mine).take 512 ++ rest } }

/-- The walk of R229 from a table on, through a walk cache if one is named: the code of a translation fault, or the leaf. Where the
cache holds a pointer that the table no longer shows, which of the two serves is free (R230, R231, log entry 9). -/
def State.walkFrom (s : State) (unit : Option Nat) (c va : Nat) : Nat → List Level → List TlbEntry → Except Nat Leaf × State
  | _, [], _ => (.error 0x0103, s)
  | t, l :: rest, acc =>
    let size := 2 ^ l.shift
    let ptr (a : Nat) : TlbEntry := ptrEntry (unit.getD 0) c va size a
    let held := s.cachedPtr unit c va size
    let m := s.walkEntry c va t l
    let fresh : Bool := match held, m.1 with
      | none, _ => false
      | some p, .ok (.inr a) => a != p
      | some _, _ => true
    let f := s.fresh 2
    let m' := f.2.walkEntry c va t l
    if fresh = true ∧ f.1 = 0 then f.2.walkFrom unit c va (held.getD 0) rest (acc ++ [ptr (held.getD 0)])
    else
      let r := if fresh = true then m' else m
      match r.1 with
      | .error e => (.error e, r.2)
      | .ok (.inl leaf) => (.ok leaf, r.2.walkFill unit acc)
      | .ok (.inr a) => r.2.walkFrom unit c va a rest (acc ++ [ptr a])

/-- The walk of a context's tree. -/
def State.walk (s : State) (unit : Option Nat) (c va : Nat) : Except Nat Leaf × State :=
  s.walkFrom unit c va (s.ctxAt c).ptRoot walkLevels []

/-- The TLB leaf of a core for an address of a context (R230). -/
def State.tlbHit (s : State) (core c va : Nat) : Option Leaf :=
  (s.mem.tlb.find? fun e => e.unit == core && e.ctx == c && decide (e.base ≤ va) && decide (va < e.base + e.size)).map
    fun e => ⟨e.base, e.size, e.pa, e.write⟩

/-- The TLB of a core holds at most 1,024 leaves (R230); the oldest goes first (log entry 9). -/
def State.tlbFill (s : State) (core c : Nat) (l : Leaf) : State :=
  let mine := s.mem.tlb.filter fun e => e.unit == core
  let rest := s.mem.tlb.filter fun e => e.unit != core
  let e : TlbEntry := ⟨core, c, l.va, l.size, l.pa, l.write⟩
  { s with mem := { s.mem with tlb := (e :: mine).take 1024 ++ rest } }

/-- The leaf that translates an address for a unit of a core. A leaf that the TLB holds may serve although the tables
have changed since, until an invalidation removes it; which of the two serves is free (R230, R231, log entry 9). -/
def State.leafFor (s : State) (core c va : Nat) : Except Nat Leaf × State :=
  let walked (s : State) : Except Nat Leaf × State :=
    match s.walk (some (walkUnit (core / 40))) c va with
    | (.ok l, t) => (.ok l, t.tlbFill core c l)
    | (.error e, t) => (.error e, t)
  match s.tlbHit core c va with
  | none => walked s
  | some h =>
    if (s.walk none c va).1.toOption = some h then (.ok h, s)
    else
      let r := s.fresh 2
      if r.1 = 0 then (.ok h, r.2) else walked r.2

/-- First address of the sequence windows (R226). -/
def windowBase : Nat := 2 ^ 47

/-- The window that an address lies in (R226). -/
def windowOf (va : Nat) : Option Nat := if windowBase ≤ va then some (bits va 40 7) else none

/-- The physical address of a context virtual address for a unit of a core; a window needs its slot bound to the
context (R229, R233, R250). -/
def translate (core c va : Nat) (write : Bool) : Exec Nat := do
  let va := va % 2 ^ 48
  match windowOf va with
  | some q => Exec.check (← Exec.ask fun s => s.slotOwned q c) (.fault 0x0505 0)
  | none => pure ()
  match (← Exec.ofState fun s => s.leafFor core c va) with
  | .error e => Exec.stop (.fault e 0)
  | .ok l =>
    Exec.check (!write || l.write) (.fault 0x0102 0)
    pure (l.pa + (va - l.va))

/-! ## Local store -/

/-- The key of a local-store granule. -/
def lsGran (core off : Nat) : Nat := (core * 2 ^ 21 + off % 2 ^ 21) / 64

/-- Poison tag of a local-store granule (R458). -/
def State.lsPoisonAt (s : State) (core off : Nat) : Bool := SMap.get (fun _ => false) s.mem.lsPoison (lsGran core off)

/-- An error of the local memories not yet found under a key: it is found now, and LOCAL_UE is raised (R458). -/
def State.localFound (s : State) (key core : Nat) (mark : State → State) : State :=
  if SMap.get (fun _ => false) s.mem.localLatent key then
    let s := { s with mem := { s.mem with localLatent := SMap.put (fun _ => false) s.mem.localLatent key false } }
    (mark s).report { code := 0x0121, core := some core }
  else s

/-- The state with a local-store granule's tag set or cleared. -/
def State.setLsPoison (s : State) (core off : Nat) (p : Bool) : State :=
  { s with mem := { s.mem with lsPoison := SMap.put (fun _ => false) s.mem.lsPoison (lsGran core off) p } }

/-- A granule of local store as a read returns it, with its tag (R458). -/
def State.readLsGran (s : State) (core off : Nat) : (List Byte × Bool) × State :=
  let s := s.localFound (2 ^ 32 + lsGran core off) core fun t => t.setLsPoison core off true
  (((List.range 64).map fun i => s.lsByte core (off / 64 * 64 + i), s.lsPoisonAt core off), s)

/-- A write inside one local-store granule; only a write of all 64 bytes changes the tag (R458). -/
def State.writeLsGran (s : State) (core off : Nat) (b : List Byte) (poisoned : Bool) : State :=
  let t := s.putLs core off b
  if off % 64 = 0 ∧ b.length = 64 then
    let t := { t with mem := { t.mem with
      localLatent := SMap.put (fun _ => false) t.mem.localLatent (2 ^ 32 + lsGran core off) false } }
    t.setLsPoison core off poisoned
  else t

/-! ## Accesses of a unit -/

/-- Where an operand stands: local store by offset in the context's window, or memory by context virtual address. -/
structure Addr where
  space : Bool
  addr : Nat
  deriving DecidableEq, Repr

/-- An operand further on. -/
def Addr.plus (a : Addr) (n : Nat) : Addr := { a with addr := a.addr + n }

/-- The local-store offset with the base of the context's window (R396). -/
def State.lsAt (s : State) (c off : Nat) : Nat := s.fld (Fld.lsBase c) * 65536 + off

/-- Bytes of the context's local-store window (R396). -/
def State.lsWindow (s : State) (c : Nat) : Nat := s.fld (Fld.lsUnits c) * 65536

/-- The pieces of a range that lie in one granule each: offset from the start, and length. -/
def granPieces : Nat → Nat → Nat → List (Nat × Nat)
  | 0, _, _ => []
  | _, _, 0 => []
  | fuel + 1, a, n =>
    let k := min n (64 - a % 64)
    (0, k) :: (granPieces fuel (a + k) (n - k)).map fun p => (p.1 + k, p.2)

/-- Granules that a range of `n` bytes can touch. -/
def pieceFuel (n : Nat) : Nat := n / 64 + 2

/-- A unit that reaches only local store and Geode stops with its code at an address elsewhere (R17). -/
def tierCheck (tier : Option Nat) (pa : Nat) : Exec Unit :=
  match tier with
  | none => pure ()
  | some code => do
    let p ← Exec.ask fun s => s.place pa
    match p with
    | .bank _ _ => pure ()
    | _ => Exec.stop (.fault code pa)

/-- An access of a tile under Assay enters its log (R467, R470). -/
def State.noteAccess (s : State) (kind a : Nat) (b : List Byte) : State :=
  match s.core.log with
  | some l => { s with core := { s.core with log := some ((kind, a, b) :: l) } }
  | none => s

/-- One piece of a read: its bytes, its poison and its physical address (0 for local store). -/
def livePiece (core c : Nat) (a : Addr) (k : Nat) (tier : Option Nat) : Exec (List Byte × Bool × Nat) := do
  if a.space then
    let pa ← translate core c a.addr false
    tierCheck tier pa
    let r ← Exec.ofState fun s => s.readGran pa
    let b := (r.1.drop (pa % 64)).take k
    Exec.doState fun s => s.noteAccess 4 a.addr b
    pure (b, r.2, granOf pa * 64)
  else
    let off ← Exec.ask fun s => s.lsAt c a.addr
    let r ← Exec.ofState fun s => s.readLsGran core off
    let b := (r.1.drop (off % 64)).take k
    Exec.doState fun s => s.noteAccess 3 a.addr b
    pure (b, r.2, 0)

/-- Bytes `[a, a + k)` of the regions that a relocated tile reads; what no region holds is free (R472). -/
def State.feedBytes (s : State) (l : List EvidRegion) (space : Bool) (a k : Nat) : List Byte × State :=
  let rest := s.freshBytes k
  ((List.range k).map fun i =>
    match l.find? fun r => r.space == space && decide (r.addr ≤ a + i) && decide (a + i < r.addr + r.data.length) with
    | some r => r.data.getD (a + i - r.addr) 0
    | none => rest.1.getD i 0, rest.2)

/-- One piece of a read; a relocated tile reads the regions, unpoisoned (R472, R474). -/
def readPiece (core c : Nat) (a : Addr) (k : Nat) (tier : Option Nat) : Exec (List Byte × Bool × Nat) := do
  match ← Exec.ask fun s => s.core.feed with
  | some l => do
    let b ← Exec.ofState fun s => s.feedBytes l a.space a.addr k
    pure (b, false, 0)
  | none => livePiece core c a k tier

/-- A read that tells of poison: the bytes, and the physical address of the first poisoned granule. -/
def readTell (core c : Nat) (a : Addr) (n : Nat) (tier : Option Nat := none) : Exec (List Byte × Option Nat) := do
  let l ← Exec.collect (granPieces (pieceFuel n) a.addr n) fun p => readPiece core c (a.plus p.1) p.2 tier
  pure (l.flatMap (·.1), (l.find? (·.2.1)).map (·.2.2))

/-- A read that copies: the bytes, and whether any granule is poisoned (R222, R456). -/
def readCopy (core c : Nat) (a : Addr) (n : Nat) (tier : Option Nat := none) : Exec (List Byte × Bool) := do
  let l ← Exec.collect (granPieces (pieceFuel n) a.addr n) fun p => readPiece core c (a.plus p.1) p.2 tier
  pure (l.flatMap (·.1), l.any (·.2.1))

/-- A read by an arithmetic unit: poison is consumed and faults the context (R456). -/
def readUse (core c : Nat) (a : Addr) (n : Nat) (tier : Option Nat := none) : Exec (List Byte) := do
  let l ← Exec.collect (granPieces (pieceFuel n) a.addr n) fun p => do
    let r ← readPiece core c (a.plus p.1) p.2 tier
    Exec.check (!r.2.1) (.fault 0x0120 r.2.2)
    pure r.1
  pure l.flatten

/-- A Protected or Streaming page of the open epoch lies at an address: a write to it stalls (R485). -/
def State.protectedAt (s : State) (pa : Nat) : Bool :=
  s.fld Fld.fosState == fosOpen && s.fos.epoch.any fun e =>
    e.pages.any fun p => (p.state == 0 || p.state == 3) && decide (p.pa ≤ pa) && decide (pa < p.pa + 2 ^ 21)

/-- A write at a physical address; the writer of a Protected or Streaming page stalls until the page has been copied (R485). Its granule is
new for every read that a later command makes: of the two outcomes that R22 allows a read of another unit in the same stratum
without semaphore order, the model always gives the new granule (DESIGN CHOICE, log entry 167). -/
def storePhys (pa : Nat) (b : List Byte) (poisoned : Bool) : Exec Unit := do
  Exec.check (!(← Exec.ask fun s => s.protectedAt pa)) .stall
  Exec.doState fun s => s.writeGran pa (pa % 64) b poisoned

/-- One piece of a write. -/
def livePut (core c : Nat) (a : Addr) (part : List Byte) (poisoned : Bool) (tier : Option Nat) : Exec Unit := do
  if a.space then
    let pa ← translate core c a.addr true
    tierCheck tier pa
    storePhys pa part poisoned
  else
    let off ← Exec.ask fun s => s.lsAt c a.addr
    Exec.doState fun s => s.writeLsGran core off part poisoned

/-- What a relocated tile writes stands before what it reads (R472). -/
def State.feedPut (s : State) (a : Addr) (b : List Byte) : State :=
  { s with core := { s.core with feed := s.core.feed.map fun l => ⟨a.space, a.addr, 0, b⟩ :: l } }

/-- A write of fresh bytes, granule by granule, with the poison of their source (R220, R222). -/
def writeMem (core c : Nat) (a : Addr) (b : List Byte) (poisoned : Bool) (tier : Option Nat := none) : Exec Unit :=
  Exec.each (granPieces (pieceFuel b.length) a.addr b.length) fun p => do
    let part := (b.drop p.1).take p.2
    if ← Exec.ask fun s => s.core.feed.isSome then Exec.doState fun s => s.feedPut (a.plus p.1) part
    else livePut core c (a.plus p.1) part poisoned tier
    Exec.doState fun s => s.noteAccess (b2n a.space) (a.addr + p.1) part

/-- The poison of the granule that holds an operand is settled: a partial write alone would leave it as it was
(R119, R222, log entry 20). -/
def settlePoison (core c : Nat) (a : Addr) (p : Bool) : Exec Unit := do
  if ← Exec.ask fun s => s.core.feed.isSome then pure ()
  else if a.space then
    let pa ← translate core c a.addr true
    Exec.doState fun s => if s.cellFenced pa then s else s.setPoison pa p
  else Exec.doState fun s => s.setLsPoison core (s.lsAt c a.addr) p

/-- A range of operands, looked at before any work: an address that translates outside Geode stops the unit with its
code, and nothing is read. What does not translate is met when it is reached. -/
def probeTier (core c : Nat) (a : Addr) (n code : Nat) : Exec Unit :=
  if a.space then
    Exec.each (granPieces (pieceFuel n) a.addr n) fun p s =>
      if s.core.feed.isSome then (.ok (), s)
      else match (do tierCheck (some code) (← translate core c (a.addr + p.1) false)) s with
      | (.error (.fault k pa), _) => if k = code then (.error (.fault code pa), s) else (.ok (), s)
      | _ => (.ok (), s)
  else pure ()

end Sys2Proof.Machine
end

