-- ==== Sys2Proof/Machine/Numeric.lean ====
section
/-! DEFINITION. Formats, rounding and overflow tracking: the eleven operand formats and A40, exact values, rounding,
conversion, arithmetic rounded once, and Microscaling blocks (R127 to R146). -/

namespace Sys2Proof.Machine

/-! Bits of the flag word (R146, R175). -/
def fOverflow : BitVec 6 := 1
def fSaturation : BitVec 6 := 2
def fNan : BitVec 6 := 4
def fInf : BitVec 6 := 8
def fUnderflow : BitVec 6 := 16
def fPermRange : BitVec 6 := 32

/-! ## Values -/

/-- A value of the arithmetic: NaN, ±∞, or ±m × 2^e; m = 0 is a signed zero. -/
inductive Num where
  | nan
  | inf (neg : Bool)
  | fin (neg : Bool) (m : Nat) (e : Int)
  deriving DecidableEq, Repr

/-- A value with the flags that producing it raised. -/
abbrev NumF := Num × BitVec 6

def Num.isNan : Num → Bool
  | .nan => true
  | _ => false

def Num.isInf : Num → Bool
  | .inf _ => true
  | _ => false

def Num.isFinite : Num → Bool
  | .fin _ _ _ => true
  | _ => false

def Num.isZero : Num → Bool
  | .fin _ m _ => m == 0
  | _ => false

def Num.isNeg : Num → Bool
  | .nan => false
  | .inf s => s
  | .fin s _ _ => s

def Num.zero : Num := .fin false 0 0
def Num.one : Num := .fin false 1 0

/-- A natural number. -/
def Num.ofNat (n : Nat) : Num := .fin false n 0

/-- The value with its sign inverted. -/
def Num.neg : Num → Num
  | .nan => .nan
  | .inf s => .inf (!s)
  | .fin s m e => .fin (!s) m e

/-- The value with its sign cleared. -/
def Num.abs : Num → Num
  | .nan => .nan
  | .inf _ => .inf false
  | .fin _ m e => .fin false m e

/-- `m × 2^e` in units of `2^u`, exact for u ≤ e and truncated else. -/
def scaleTo (m : Nat) (e u : Int) : Nat := if u ≤ e then m * 2 ^ (e - u).toNat else m / 2 ^ (u - e).toNat

/-- A finite value as an integer in units of `2^u`, u no larger than its exponent. -/
def toUnits (s : Bool) (m : Nat) (e u : Int) : Int := if s then -(scaleTo m e u : Int) else (scaleTo m e u : Int)

/-- A value from an integer in units of `2^u`; 0 becomes a zero of the given sign. -/
def ofUnits (z : Bool) (i u : Int) : Num := if i = 0 then .fin z 0 0 else .fin (decide (i < 0)) i.natAbs u

/-- Exact sum of two finite values; an exact zero of cancelling operands is +0, of two zeros follows IEEE (R137). -/
def addExact (s1 : Bool) (m1 : Nat) (e1 : Int) (s2 : Bool) (m2 : Nat) (e2 : Int) : Num :=
  let u := min e1 e2
  ofUnits (s1 && s2 && m1 == 0 && m2 == 0) (toUnits s1 m1 e1 u + toUnits s2 m2 e2 u) u

/-- Less than, on values that are not NaN. −0 equals +0. -/
def Num.lt : Num → Num → Bool
  | .nan, _ => false
  | _, .nan => false
  | .inf s, .inf t => s && !t
  | .inf s, _ => s
  | _, .inf t => !t
  | .fin s m e, .fin t n f =>
    let u := min e f
    decide (toUnits s m e u < toUnits t n f u)

/-- Equal in value. -/
def Num.eqv : Num → Num → Bool
  | .nan, _ => false
  | _, .nan => false
  | .inf s, .inf t => s == t
  | .inf _, _ => false
  | _, .inf _ => false
  | .fin s m e, .fin t n f =>
    let u := min e f
    decide (toUnits s m e u = toUnits t n f u)

/-! ## Formats (R127) -/

/-- A format: its width, fraction bits and bias; the exponent of its min subnormal; its max finite value `maxM × 2^maxE`;
whether it encodes ±∞, NaN; INT8; a Microscaling element; its canonical NaN (R128). -/
structure Fmt where
  width : Nat
  frac : Nat
  bias : Nat
  emin : Int
  maxM : Nat
  maxE : Int
  inf : Bool := false
  nan : Bool := false
  int : Bool := false
  mx : Bool := false
  canon : Nat := 0
  /-- emax of the block scale rule (R130). -/
  emax : Int := 0
  deriving DecidableEq, Repr

def Fmt.bf16 : Fmt := { width := 16, frac := 7, bias := 127, emin := -133, maxM := 255, maxE := 120, inf := true,
                        nan := true, canon := 0x7FC0 }
def Fmt.f16 : Fmt := { width := 16, frac := 10, bias := 15, emin := -24, maxM := 2047, maxE := 5, inf := true,
                       nan := true, canon := 0x7E00 }
def Fmt.e4m3 : Fmt := { width := 8, frac := 3, bias := 7, emin := -9, maxM := 14, maxE := 5, nan := true,
                        canon := 0x7F, emax := 8 }
def Fmt.e5m2 : Fmt := { width := 8, frac := 2, bias := 15, emin := -16, maxM := 7, maxE := 13, inf := true,
                        nan := true, canon := 0x7E, emax := 15 }
def Fmt.e3m2 : Fmt := { width := 6, frac := 2, bias := 3, emin := -4, maxM := 7, maxE := 2, mx := true, emax := 4 }
def Fmt.e2m3 : Fmt := { width := 6, frac := 3, bias := 1, emin := -3, maxM := 15, maxE := -1, mx := true, emax := 2 }
def Fmt.e2m1 : Fmt := { width := 4, frac := 1, bias := 1, emin := -1, maxM := 3, maxE := 1, mx := true, emax := 2 }
def Fmt.int8 : Fmt := { width := 8, frac := 0, bias := 0, emin := 0, maxM := 127, maxE := 0, int := true }
def Fmt.f32 : Fmt := { width := 32, frac := 23, bias := 127, emin := -149, maxM := 2 ^ 24 - 1, maxE := 104, inf := true,
                       nan := true, canon := 0x7FC00000 }
def Fmt.a40 : Fmt := { width := 40, frac := 29, bias := 511, emin := -539, maxM := 2 ^ 30 - 1, maxE := 482, inf := true,
                       nan := true, canon := 0x7FF0000000 }

/-- The format of a code (R127); reserved codes read as binary32 and are refused before use. -/
def Fmt.ofCode : Nat → Fmt
  | 0x0 => .bf16
  | 0x1 => .f16
  | 0x2 => .e4m3
  | 0x3 => .e5m2
  | 0x4 => { Fmt.e4m3 with mx := true }
  | 0x5 => { Fmt.e5m2 with mx := true }
  | 0x6 => .e3m2
  | 0x7 => .e2m3
  | 0x8 => .e2m1
  | 0x9 => .int8
  | _ => .f32

/-- A pattern read as a value. Every NaN encoding reads as one quiet NaN (R128). -/
def Fmt.decode (f : Fmt) (w : Nat) : Num :=
  if f.int then
    let i := signed 8 w
    ofUnits false i 0
  else
    let s := bit w (f.width - 1)
    let ew := f.width - 1 - f.frac
    let x := bits w f.frac ew
    let m := bits w 0 f.frac
    if f.inf && x == 2 ^ ew - 1 then (if m = 0 then .inf s else .nan)
    else if f.nan && !f.inf && x == 2 ^ ew - 1 && m == 2 ^ f.frac - 1 then .nan
    else if x = 0 then .fin s m f.emin
    else .fin s (2 ^ f.frac + m) ((x : Int) - 1 + f.emin)

/-- The pattern of a value that the format holds; NaN takes the canonical pattern (R128). -/
def Fmt.encode (f : Fmt) : Num → Nat
  | .nan => f.canon
  | .inf s => b2n s * 2 ^ (f.width - 1) + (2 ^ (f.width - 1) - 2 ^ f.frac)
  | .fin s m e =>
    if f.int then ((if s then -(scaleTo m e 0 : Int) else (scaleTo m e 0 : Int)) % 256).toNat
    else if m = 0 then b2n s * 2 ^ (f.width - 1)
    else
      let top := (Nat.log2 m : Int) + e
      let u := max (top - f.frac) f.emin
      let k := scaleTo m e u
      b2n s * 2 ^ (f.width - 1) + (if k < 2 ^ f.frac then k else (u - f.emin + 1).toNat * 2 ^ f.frac + (k - 2 ^ f.frac))

/-! ## Rounding (R138, R140) -/

/-- Rounding modes; the stochastic one carries its 16-bit draw. -/
inductive Rnd where
  | nearest
  | stoch (r : Nat)
  | zero
  deriving DecidableEq, Repr

/-- Whether the integer part `q` of `m / d` moves away from zero. -/
def roundUp (r : Rnd) (m d : Nat) : Bool :=
  match r with
  | .nearest => decide (d < 2 * (m % d)) || (2 * (m % d) == d && m / d % 2 == 1)
  | .stoch k => m % d != 0 && decide (65536 ≤ m % d * 65536 / d + k)
  | .zero => false

/-- A magnitude rounded to a multiple of `2^u`, exact below that. -/
def roundAt (r : Rnd) (u : Int) (m : Nat) (e : Int) : Nat × Int :=
  if u ≤ e then (m, e)
  else
    let d := 2 ^ (u - e).toNat
    (m / d + b2n (roundUp r m d), u)

/-- A magnitude rounded to the precision of a format, exponent unbounded above, gradual underflow below (R135 step 1). -/
def Fmt.round (f : Fmt) (r : Rnd) (m : Nat) (e : Int) : Nat × Int :=
  if m = 0 then (0, 0)
  else roundAt r (if f.int then 0 else max ((Nat.log2 m : Int) + e - f.frac) f.emin) m e

/-- The magnitude exceeds the format's max finite value. -/
def Fmt.exceeds (f : Fmt) (s : Bool) (m : Nat) (e : Int) : Bool :=
  let top : Nat := if f.int && s then 128 else f.maxM
  let u := min e f.maxE
  decide (scaleTo top f.maxE u < scaleTo m e u)

/-- The max finite value with a sign. -/
def Fmt.max (f : Fmt) (s : Bool) : Num := .fin s (if f.int && s then 128 else f.maxM) f.maxE

/-- What an overflowing value becomes (R135). -/
def Fmt.overflow (f : Fmt) (r : Rnd) (s : Bool) : NumF :=
  if f.mx then (f.max s, 0)
  else if f.int ∨ f.width = 8 then (f.max s, fSaturation)
  else if r = .zero then (f.max s, fOverflow)
  else (.inf s, fOverflow)

/-- A conversion (R134 to R136, R140). Microscaling elements clamp without a flag (R130 step 5). -/
def Fmt.convert (f : Fmt) (r : Rnd) : Num → NumF
  | .nan => if f.int then (.zero, fSaturation) else (.nan, 0)
  | .inf s => if f.int then (f.max s, fSaturation) else if f.inf then (.inf s, 0) else (.nan, fNan)
  | .fin s m e =>
    if m = 0 then (.fin (s && !f.int) 0 0, 0)
    else
      let q := f.round r m e
      if q.1 = 0 then (if f.int then (.zero, 0) else (.fin s 0 0, fUnderflow))
      else if f.exceeds s q.1 q.2 then f.overflow r s
      else (.fin s q.1 q.2, 0)

/-- Nearest-even conversion. -/
def Fmt.near (f : Fmt) (x : Num) : NumF := f.convert .nearest x

/-! ## Arithmetic, rounded once to nearest-even (R132, R139, R145) -/

/-- INF_CONSUMED when an operand is ±∞. -/
def infFlag (l : List Num) : BitVec 6 := if l.any Num.isInf then fInf else 0

def Fmt.add (f : Fmt) (a b : Num) : NumF :=
  match a, b with
  | .fin s m e, .fin t n g => f.near (addExact s m e t n g)
  | .inf s, .inf t => if s = t then (.inf s, fInf) else (.nan, fInf ||| fNan)
  | .inf s, .fin _ _ _ => (.inf s, fInf)
  | .fin _ _ _, .inf t => (.inf t, fInf)
  | _, _ => (.nan, infFlag [a, b])

def Fmt.sub (f : Fmt) (a b : Num) : NumF := f.add a b.neg

/-- The exact product; 0 × ∞ is NaN with both flags. -/
def mulExact (a b : Num) : NumF :=
  match a, b with
  | .fin s m e, .fin t n g => (.fin (s != t) (m * n) (e + g), 0)
  | .nan, _ => (.nan, infFlag [b])
  | _, .nan => (.nan, infFlag [a])
  | _, _ => if a.isZero || b.isZero then (.nan, fInf ||| fNan) else (.inf (a.isNeg != b.isNeg), fInf)

def Fmt.mul (f : Fmt) (a b : Num) : NumF :=
  let p := mulExact a b
  match p.1 with
  | .fin _ _ _ => f.near p.1
  | _ => p

/-- a × b + c, rounded once. -/
def Fmt.fma (f : Fmt) (a b c : Num) : NumF :=
  if a.isNan || b.isNan || c.isNan then (.nan, infFlag [a, b, c])
  else
    let p := mulExact a b
    match p.1, c with
    | .fin s m e, .fin t n g => f.near (addExact s m e t n g)
    | .nan, _ => (.nan, p.2)
    | .inf s, .inf t => if s = t then (.inf s, fInf) else (.nan, fInf ||| fNan)
    | .inf s, _ => (.inf s, fInf)
    | _, x => (x, fInf)

/-- The quotient of two magnitudes to at least `k` bits, with a sticky bit: enough to round it correctly. -/
def quotient (k m n : Nat) : Nat × Int :=
  let sh := k + Nat.log2 n + 1
  let q := m * 2 ^ sh / n
  (2 * q + b2n (m * 2 ^ sh % n != 0), -(sh : Int) - 1)

/-- a ÷ b, correctly rounded. A finite value over zero is ±∞ without a flag of its own (R169). -/
def Fmt.div (f : Fmt) (a b : Num) : NumF :=
  match a, b with
  | .nan, _ => (.nan, infFlag [b])
  | _, .nan => (.nan, infFlag [a])
  | .inf _, .inf _ => (.nan, fInf ||| fNan)
  | .inf s, .fin t _ _ => (.inf (s != t), fInf)
  | .fin s _ _, .inf t => (.fin (s != t) 0 0, fInf)
  | .fin s m e, .fin t n g =>
    if n = 0 then (if m = 0 then (.nan, fNan) else (.inf (s != t), 0))
    else if m = 0 then (.fin (s != t) 0 0, 0)
    else
      let q := quotient 40 m n
      f.near (.fin (s != t) q.1 (q.2 + e - g))

/-- The lesser: −0 is less than +0 (R166). -/
def numMin (a b : Num) : NumF :=
  if a.isNan || b.isNan then (.nan, infFlag [a, b])
  else (if a.lt b || (a.eqv b && a.isNeg) then a else b, infFlag [a, b])

/-- The greater: +0 is greater than −0 (R166). -/
def numMax (a b : Num) : NumF :=
  if a.isNan || b.isNan then (.nan, infFlag [a, b])
  else (if b.lt a || (a.eqv b && !a.isNeg) then a else b, infFlag [a, b])

/-- The integer part of a finite value, toward zero. -/
def Num.trunc : Num → Option Int
  | .fin s m e => some (toUnits s m e 0)
  | _ => none

/-! ## Balanced trees and ladders (R91 to R93, R172, R185) -/

/-- One level of a balanced tree: pairs combine, a last single value passes up. -/
def treeLevel (op : Num → Num → NumF) : List Num → List Num × BitVec 6
  | a :: b :: r =>
    let x := op a b
    let y := treeLevel op r
    (x.1 :: y.1, x.2 ||| y.2)
  | l => (l, 0)

/-- The balanced tree over a list without absent positions; fuel is the number of levels. -/
def treeSum (op : Num → Num → NumF) : Nat → List Num → NumF
  | 0, l => (l.headD .zero, 0)
  | n + 1, l =>
    if l.length ≤ 1 then (l.headD .zero, 0)
    else
      let x := treeLevel op l
      let y := treeSum op n x.1
      (y.1, x.2 ||| y.2)

/-- A carry enters a ladder whose full levels, lowest first, end at the first empty one (R92). `cap` is the number of
levels; a carry out of the last one is the sum. -/
def ladderPush (op : Num → Num → NumF) (carry : Num) : List (Option Num) → List (Option Num) × Option Num × BitVec 6
  | [] => ([], some carry, 0)
  | none :: r => (some carry :: r, none, 0)
  | some v :: r =>
    let x := op v carry
    let y := ladderPush op x.1 r
    (none :: y.1, y.2.1, x.2 ||| y.2.2)

/-- Every result enters the ladder in order: the levels, the sum if the ladder ran over, and the flags. -/
def ladderRun (op : Num → Num → NumF) : List Num → List (Option Num) × Option Num → List (Option Num) × Option Num × BitVec 6
  | [], st => (st.1, st.2, 0)
  | v :: r, st =>
    let x := ladderPush op v st.1
    let y := ladderRun op r (x.1, x.2.1.orElse fun _ => st.2)
    (y.1, y.2.1, x.2.2 ||| y.2.2)

/-- The collapse: the lowest full level, then each higher one on its left (R93). -/
def ladderCollapse (op : Num → Num → NumF) : List (Option Num) → Option Num → Option Num × BitVec 6
  | [], acc => (acc, 0)
  | none :: r, acc => ladderCollapse op r acc
  | some v :: r, none => ladderCollapse op r (some v)
  | some v :: r, some a =>
    let x := op v a
    let y := ladderCollapse op r (some x.1)
    (y.1, x.2 ||| y.2)

/-- The sum of tree results through a ladder of `levels` levels (R92, R93, R185). -/
def ladderSum (op : Num → Num → NumF) (levels : Nat) (l : List Num) : NumF :=
  let x := ladderRun op l (List.replicate levels none, none)
  match x.2.1 with
  | some v => (v, x.2.2)
  | none =>
    let y := ladderCollapse op x.1 none
    (y.1.getD .zero, x.2.2 ||| y.2)

/-- A list cut into pieces of `k`; fuel bounds their number. -/
def chunks {α : Type} (k : Nat) : Nat → List α → List (List α)
  | 0, _ => []
  | _, [] => []
  | n + 1, l => l.take k :: chunks k n (l.drop k)

/-- Sums of clock groups of `w` positions, through the ladder (R91 to R93, R185). -/
def groupedSum (op : Num → Num → NumF) (w levels : Nat) (l : List Num) : NumF :=
  let g := (chunks w l.length l).map (treeSum op 32)
  let x := ladderSum op levels (g.map (·.1))
  (x.1, g.foldl (fun f r => f ||| r.2) x.2)

/-! ## Packing (R582) -/

/-- Element `e` of a packed run of elements. -/
def packedAt (f : Fmt) (l : List Byte) (e : Nat) : Nat :=
  let b := f.width * e
  bits (leNat ((l.drop (b / 8)).take 5)) (b % 8) f.width

/-- Bytes that `n` packed elements take. -/
def packedLen (f : Fmt) (n : Nat) : Nat := (f.width * n + 7) / 8

/-- The little-endian number of a run of elements. -/
def packBits (f : Fmt) : List Num → Nat
  | [] => 0
  | x :: r => f.encode x + 2 ^ f.width * packBits f r

/-- A run of elements as bytes. -/
def pack (f : Fmt) (l : List Num) : List Byte := leBytes (packedLen f l.length) (packBits f l)

/-- A run of `n` elements read. -/
def unpack (f : Fmt) (l : List Byte) (n : Nat) : List Num := (List.range n).map fun e => f.decode (packedAt f l e)

/-! ## Microscaling (R129, R130) -/

/-- A value times the E8M0 scale of its block; 0xFF makes it NaN (R129). -/
def scaled (scale : Nat) (x : Num) : Num :=
  if scale = 255 then .nan
  else match x with
    | .fin s m e => .fin s m (e + (scale : Int) - 127)
    | y => y

/-- The larger of two magnitudes, NaN ignored (R150). -/
def amaxOf (a x : Num) : Num := if x.isNan then a else if a.lt x.abs then x.abs else a

/-- ⌊log₂ a⌋ of a finite non-zero magnitude. -/
def Num.ilog2 : Num → Int
  | .fin _ m e => (Nat.log2 m : Int) + e
  | _ => 0

/-- Element rounding of a block: source by source, each with its rounding. -/
def mxElems (f : Fmt) (scale : Nat) : List Num → List Rnd → List NumF
  | [], _ => []
  | x :: r, rs =>
    let y := match x with
      | .fin s m e => f.convert (rs.headD .nearest) (.fin s m (e - ((scale : Int) - 127)))
      | z => (z, 0)
    y :: mxElems f scale r (rs.drop 1)

/-- A block written in a Microscaling format: the scale, and each element with its flags (R130). The amax that sets the scale is
kept in binary32, to which a source of A40 is first rounded; one that rounds to ∞ calls for the greatest scale (R150). A plain FP8
format stands for the element of a scaled 8-bit region, and clamps in the same way. -/
def mxBlock (f : Fmt) (l : List Num) (rs : List Rnd) : Nat × List NumF :=
  let f := { f with mx := true }
  if l.any Num.isNan then (255, l.map fun _ => (.zero, 0))
  else if l.any Num.isInf then (255, l.map fun _ => (.zero, fNan))
  else
    let a := l.foldl (fun a x => amaxOf a (Fmt.f32.near x).1) .zero
    if a.isZero then (0, l.map fun x => (.fin x.isNeg 0 0, 0))
    else
      let x := a.ilog2 - f.emax
      if x < -127 then (0, mxElems f 0 l rs)
      else if 127 < x ∨ a.isInf = true then (254, (mxElems f 254 l rs).map fun y => (y.1, y.2 ||| fSaturation))
      else ((x + 127).toNat, mxElems f (x + 127).toNat l rs)

end Sys2Proof.Machine
end

