-- ==== Sys2Proof/Machine/Approx.lean ====
section
/-! DEFINITION. The approximated functions: each is evaluated in fixed point far beyond binary32, and the result is any
binary32 value within the stated bound of it; which one is free (R107, R169, R184, log entry 21). -/

namespace Sys2Proof.Machine

/-! ## Fixed point: integers in units of 2⁻¹⁶⁰ -/

/-- One, ln 2 and √(2/π) in units of 2⁻¹⁶⁰. -/
def fxOne : Nat := 2 ^ 160
def fxLn2 : Nat := 1013035739299659071135698605846798551586536899366
def fxSqrt2Pi : Nat := 1166109592014436081468383460887399764390691815008

/-- A finite value in fixed point, truncated. -/
def fxOf (s : Bool) (m : Nat) (e : Int) : Int := toUnits s m e (-160)

/-- The product of two fixed-point magnitudes. -/
def fxMul (a b : Nat) : Nat := a * b / fxOne

/-- e^x for 0 ≤ x < 1, by its series: `n` terms from term `t` of index `i`. -/
def fxExpSeries (x : Nat) : Nat → Nat → Nat → Nat
  | 0, _, _ => 0
  | n + 1, i, t => t + fxExpSeries x n (i + 1) (t * x / ((i + 1) * fxOne))

/-- 2^y for y in units of 2⁻¹⁶⁰, as a value. Far below the smallest subnormal it is a tiny value, far above the largest
finite value a huge one. -/
def fxExp2 (y : Int) : Num :=
  let k := y / fxOne
  let f := (y % fxOne).toNat
  if k < -4000 then .fin false 1 (-4000)
  else if 4000 < k then .fin false 1 4000
  else .fin false (fxExpSeries (fxMul f fxLn2) 48 0 fxOne) (k - 160)

/-- e^x for x in units of 2⁻¹⁶⁰. -/
def fxExp (x : Int) : Num := fxExp2 (x * fxOne / fxLn2)

/-- The series of the inverse hyperbolic tangent. -/
def fxAtanhSeries (z2 : Nat) : Nat → Nat → Nat → Nat
  | 0, _, _ => 0
  | n + 1, i, t => t / i + fxAtanhSeries z2 n (i + 2) (fxMul t z2)

/-- ln of m × 2^e, m > 0, in units of 2⁻¹⁶⁰. -/
def fxLn (m : Nat) (e : Int) : Int :=
  let l := Nat.log2 m
  let t := scaleTo m (160 - (l : Int)) 0
  let z := (t - fxOne) * fxOne / (t + fxOne)
  2 * (fxAtanhSeries (fxMul z z) 60 1 z : Int) + ((l : Int) + e) * fxLn2

/-- Bits of an integer square root, from bit `n` down. -/
def isqrtFrom (x : Nat) : Nat → Nat → Nat
  | 0, r => r
  | n + 1, r => isqrtFrom x n (if (r + 2 ^ n) * (r + 2 ^ n) ≤ x then r + 2 ^ n else r)

/-- ⌊√x⌋. -/
def isqrt (x : Nat) : Nat := isqrtFrom x (Nat.log2 x / 2 + 1) 0

/-- 1 ÷ √(m × 2^e), m > 0. -/
def fxRsqrt (m : Nat) (e : Int) : Num :=
  let odd := e % 2 = 1
  let n := if odd then 2 * m else m
  let g := if odd then e - 1 else e
  .fin false (isqrt (2 ^ (320 + 2 * (Nat.log2 n / 2)) / n)) (-160 - (Nat.log2 n / 2 : Nat) - g / 2)

/-- 1 ÷ (1 + e^−x) for x in units of 2⁻¹⁶⁰. -/
def fxSigmoid (x : Int) : Num :=
  match fxExp (-(x.natAbs : Int)) with
  | .fin _ m e =>
    let d := fxOne + scaleTo m e (-160)
    if 0 ≤ x then .fin false (fxOne * fxOne / d) (-160) else .fin false (m * fxOne / d) e
  | y => y

/-! ## A result within a bound -/

/-- |a − b| ≤ w, all finite. -/
def withinBound (a b w : Num) : Bool :=
  match a, b, w with
  | .fin s m e, .fin t n g, .fin _ k h =>
    let u := min e (min g h)
    decide ((toUnits s m e u - toUnits t n g u).natAbs ≤ scaleTo k h u)
  | _, _, _ => false

/-- `k` ulp of binary32 at a value. -/
def ulps32 (k : Nat) (v : Num) : Num := .fin false k (max (v.ilog2 - 23) (-149))

/-- The larger of two magnitudes. -/
def magMax (a b : Num) : Num := if a.lt b then b else a

/-- A binary32 value within `w` of the value `v` that the function has: a free one of those, where the free pattern falls
on one, and else the nearest. A value beyond the finite range overflows; one that becomes zero underflows. -/
def within32 (v w : Num) : Exec NumF := do
  let p ← Exec.free (2 ^ 32)
  let n := Fmt.f32.near v
  if n.1.isFinite then
    let c := Fmt.f32.decode p
    let r := if withinBound c v w then c else n.1
    pure (r, if r.isZero && !v.isZero then fUnderflow else 0)
  else pure n

/-- Within `k` ulp. -/
def within32Ulp (k : Nat) (v : Num) : Exec NumF := within32 v (ulps32 k v)

/-! ## The operations of R169 and R184 -/

/-- 2^a in binary32 (R169). -/
def exp2Op (a : Num) : Exec NumF :=
  match a with
  | .nan => pure (.nan, 0)
  | .inf s => pure (if s then .zero else .inf false, fInf)
  | .fin s m e =>
    if m = 0 then pure (.one, 0)
    else if s = false ∧ (Num.ofNat 128).lt a || (Num.ofNat 128).eqv a then pure (.inf false, fOverflow)
    else if a.lt (.fin true 149 0) then pure (.zero, fUnderflow)
    else
      match a.trunc with
      | some i => if a.eqv (ofUnits false i 0) then pure (.fin false 1 i, 0) else within32Ulp 2 (fxExp2 (fxOf s m e))
      | none => pure (.nan, 0)

/-- log₂ a in binary32 (R169). -/
def log2Op (a : Num) : Exec NumF :=
  match a with
  | .nan => pure (.nan, 0)
  | .inf s => pure (if s then (.nan, fInf ||| fNan) else (.inf false, fInf))
  | .fin s m e =>
    if m = 0 then pure (.inf true, 0)
    else if s then pure (.nan, fNan)
    else if a.eqv .one then pure (.zero, 0)
    else
      let v := ofUnits false (fxLn m e * fxOne / fxLn2) (-160)
      let near := !(a.lt (.fin false 1 (-1))) && !((Num.ofNat 2).lt a)
      within32 v (if near then magMax (ulps32 2 v) (.fin false 1 (-22)) else ulps32 2 v)

/-- 1 ÷ a in binary32 (R169). -/
def rcpOp (a : Num) : Exec NumF :=
  match a with
  | .nan => pure (.nan, 0)
  | .inf s => pure (.fin s 0 0, fInf)
  | .fin s m e =>
    if m = 0 then pure (.inf s, 0)
    else
      let q := quotient 160 1 m
      within32Ulp 1 (.fin s q.1 (q.2 - e))

/-- 1 ÷ √a in binary32 (R169). -/
def rsqrtOp (a : Num) : Exec NumF :=
  match a with
  | .nan => pure (.nan, 0)
  | .inf s => pure (if s then (.nan, fInf ||| fNan) else (.zero, fInf))
  | .fin s m e =>
    if m = 0 then pure (.inf s, 0)
    else if s then pure (.nan, fNan)
    else within32Ulp 2 (fxRsqrt m e)

/-- e^a in binary32, with the special values of EXP2 at base e (R184). -/
def expOp (a : Num) : Exec NumF :=
  match a with
  | .nan => pure (.nan, 0)
  | .inf s => pure (if s then .zero else .inf false, fInf)
  | .fin s m e =>
    if m = 0 then pure (.one, 0)
    else
      let v := if (Num.ofNat 200).lt a then .fin false 1 300 else if a.lt (.fin true 200 0) then .fin false 1 (-300)
        else fxExp (fxOf s m e)
      if v.lt (.fin false 1 128) = false then pure (.inf false, fOverflow)
      else if v.lt (.fin false 1 (-149)) then pure (.zero, fUnderflow)
      else within32Ulp 2 v

/-- ln a in binary32, with the special values of LOG2 at base e (R184). -/
def lnOp (a : Num) : Exec NumF :=
  match a with
  | .nan => pure (.nan, 0)
  | .inf s => pure (if s then (.nan, fInf ||| fNan) else (.inf false, fInf))
  | .fin s m e =>
    if m = 0 then pure (.inf true, 0)
    else if s then pure (.nan, fNan)
    else if a.eqv .one then pure (.zero, 0)
    else within32Ulp 2 (ofUnits false (fxLn m e) (-160))

/-! ## The activations of R107 -/

/-- The bound of GELU and SiLU: 3 ulp or 2⁻²⁴, whichever is larger. -/
def actBound (v : Num) : Num := magMax (ulps32 3 v) (.fin false 1 (-24))

/-- The product of two finite values. -/
def timesExact (a b : Num) : Num := (mulExact a b).1

/-- x × sigmoid(2√(2/π)(x + 0.044715x³)), which is GELU in tanh form, for a finite x in binary32. -/
def geluExact (s : Bool) (m : Nat) (e : Int) : Num :=
  if (Num.fin false m e).lt (.ofNat 64) then
    let x := fxOf s m e
    let a := x.natAbs
    let u := a + fxMul (fxMul (fxMul a a) a) (fxOne * 44715 / 1000000)
    let y := 2 * fxMul u fxSqrt2Pi
    timesExact (.fin s m e) (fxSigmoid (if s then -(y : Int) else (y : Int)))
  else if s then .fin true 1 (-4000)
  else .fin false m e

/-- x × sigmoid(x) for a finite x in binary32. -/
def siluExact (s : Bool) (m : Nat) (e : Int) : Num :=
  if (Num.fin false m e).lt (.ofNat 512) then timesExact (.fin s m e) (fxSigmoid (fxOf s m e))
  else if s then .fin true 1 (-600)
  else .fin false m e

/-- An activation of a binary32 value (R107). -/
def activate (act : Nat) (x : Num) : Exec NumF :=
  match x with
  | .nan => pure (.nan, 0)
  | .inf s => pure (if s then .zero else if act = 5 then .one else .inf false, fInf)
  | .fin s m e =>
    match act with
    | 1 => pure (if s then .zero else x, 0)
    | 2 => pure (if s then (.zero, 0) else Fmt.f32.mul x x)
    | 3 => if m = 0 then pure (.fin s 0 0, 0) else
      let v := geluExact s m e
      within32 v (actBound v)
    | 4 => if m = 0 then pure (.fin s 0 0, 0) else
      let v := siluExact s m e
      within32 v (actBound v)
    | 5 =>
      let v := if (Num.fin false m e).lt (.ofNat 512) then fxSigmoid (fxOf s m e)
        else if s then .fin false 1 (-600) else .one
      within32Ulp 2 v
    | _ => pure (x, 0)

/-! ## Rotary phases (R276, R277) -/

/-- 2π in units of 2⁻¹⁶⁰. -/
def fxTwoPi : Nat := 9182885614096437842769610399486622256908310048836

/-- The power series of sine (from the term y, k = 1) and of cosine (from the term 1, k = 0) in y². -/
def fxTrigSeries (y2 : Nat) : Nat → Nat → Nat → Bool → Int
  | 0, _, _, _ => 0
  | n + 1, k, t, neg => (if neg then -(t : Int) else (t : Int)) + fxTrigSeries y2 n (k + 2) (fxMul t y2 / ((k + 1) * (k + 2))) (!neg)

/-- Cosine and sine of a phase in units of 2⁻³² turn. -/
def fxTurn (p : Nat) : Num × Num :=
  let y := p % 2 ^ 30 * fxTwoPi / 2 ^ 32
  let s := fxTrigSeries (fxMul y y) 40 1 y false
  let c := fxTrigSeries (fxMul y y) 40 0 fxOne false
  let u (x : Int) : Num := ofUnits false x (-160)
  match p / 2 ^ 30 % 4 with
  | 0 => (u c, u s)
  | 1 => (u (-s), u c)
  | 2 => (u (-c), u (-s))
  | _ => (u s, u (-c))

/-- A binary32 value within 2⁻²² of `v`: the one that a pattern spells where it is such a value, else the nearest. -/
def trigPick (v : Num) (pattern : Nat) : Num :=
  let c := Fmt.f32.decode (pattern % 2 ^ 32)
  if withinBound c v (.fin false 1 (-22)) then c else (Fmt.f32.near v).1

/-- The coefficients c and t of a phase φ (R277). Which value within the bound the pipe finds is free, and the same for the
same φ[47:16] (log entry 32). -/
def rotCoef (phi : Nat) : Num × Num :=
  let p := phi / 2 ^ 16 % 2 ^ 32
  let x := fxTurn p
  (trigPick x.1 (Config.freeTurn (2 * p)), trigPick x.2 (Config.freeTurn (2 * p + 1)))

/-- binary64 (R276). -/
def Fmt.f64 : Fmt := { width := 64, frac := 52, bias := 1023, emin := -1074, maxM := 2 ^ 53 - 1, maxE := 971, inf := true,
                       nan := true, canon := 0x7FF8000000000000 }

/-- b^(−i ÷ 64) in binary64, rounded to nearest (log entry 33); NaN where the real power does not exist. -/
def pow64 (b : Num) (i : Nat) : Num :=
  match b with
  | .fin false m e =>
    if m = 0 then (if i = 0 then .one else .inf false)
    else (Fmt.f64.near (fxExp (-(fxLn m e * (i : Int)) / 64))).1
  | .inf false => if i = 0 then .one else .zero
  | _ => if i = 0 then .one else .nan

/-- The phase increment of pair `i`: the formula of R276 in binary64, operation by operation. A value that is not finite has no
floor: the increment is then free. -/
def phaseInc (b : BitVec 32) (f : Num) (i : Nat) : Nat :=
  let x := (Fmt.f64.mul (Fmt.f64.mul (.fin false 1 48) f).1 (pow64 (Fmt.f32.decode b.toNat) i)).1
  let y := (Fmt.f64.div x (.fin false 7074237752028440 (-50))).1
  match (Fmt.f64.add y (.fin false 1 (-1))).1 with
  | .fin s m e =>
    let n : Int := if e < 0 then (let k := (m / 2 ^ (-e).toNat : Nat)
        if s then (if m % 2 ^ (-e).toNat = 0 then -(k : Int) else -(k : Int) - 1) else (k : Int))
      else (if s then -(m * 2 ^ e.toNat : Nat) else (m * 2 ^ e.toNat : Nat))
    (n % (2 ^ 48 : Int)).toNat
  | _ => Config.freeTurn (2 ^ 33 + 64 * b.toNat + i) % 2 ^ 48

end Sys2Proof.Machine
end

