-- ==== Sys2Proof/Machine/Philox.lean ====
section
/-! DEFINITION. The draws of stochastic rounding: Philox-4×32 with 10 rounds, its key and its counter
(R141 to R143, R589). -/

namespace Sys2Proof.Machine

/-- The four words of a counter. -/
structure PhiloxCtr where
  c0 : BitVec 32
  c1 : BitVec 32
  c2 : BitVec 32
  c3 : BitVec 32
  deriving DecidableEq, Repr

/-- High and low half of a 32 × 32-bit product. -/
def mulHi (a b : BitVec 32) : BitVec 32 := BitVec.ofNat 32 (a.toNat * b.toNat / 2 ^ 32)

/-- One round of Philox-4×32. -/
def philoxRound (k0 k1 : BitVec 32) (c : PhiloxCtr) : PhiloxCtr :=
  let m0 : BitVec 32 := 0xD2511F53
  let m1 : BitVec 32 := 0xCD9E8D57
  { c0 := mulHi m1 c.c2 ^^^ c.c1 ^^^ k0, c1 := m1 * c.c2, c2 := mulHi m0 c.c0 ^^^ c.c3 ^^^ k1, c3 := m0 * c.c0 }

/-- `n` rounds; the key advances between rounds. -/
def philoxRounds : Nat → BitVec 32 → BitVec 32 → PhiloxCtr → PhiloxCtr
  | 0, _, _, c => c
  | n + 1, k0, k1, c => philoxRounds n (k0 + 0x9E3779B9) (k1 + 0xBB67AE85) (philoxRound k0 k1 c)

/-- The 128 bits of one call. -/
def philox (k0 k1 : BitVec 32) (c : PhiloxCtr) : Nat :=
  let r := philoxRounds 10 k0 k1 c
  r.c0.toNat + r.c1.toNat * 2 ^ 32 + r.c2.toNat * 2 ^ 64 + r.c3.toNat * 2 ^ 96

/-- Where draws come from: seed, source, ordinal, stratum counter, unit kind and context (R141). -/
structure DrawKey where
  seed : BitVec 64
  source : Nat
  ordinal : Nat
  stratum : BitVec 48
  kind : Nat
  ctx : Nat
  deriving DecidableEq, Repr

/-- The counter of the draw for an element (R141, R589). -/
def DrawKey.counter (k : DrawKey) (elem : Nat) : PhiloxCtr :=
  { c0 := BitVec.ofNat 32 (elem / 8)
    c1 := BitVec.ofNat 32 (k.source * 2 ^ 24 + k.ordinal % 2 ^ 24)
    c2 := BitVec.ofNat 32 k.stratum.toNat
    c3 := BitVec.ofNat 32 (k.kind % 16 * 2 ^ 19 + k.ctx % 8 * 2 ^ 16 + k.stratum.toNat / 2 ^ 32) }

/-- The 16-bit draw for an element (R141). -/
def DrawKey.draw (k : DrawKey) (elem : Nat) : Nat :=
  bits (philox (k.seed.setWidth 32) ((k.seed >>> 32).setWidth 32) (k.counter elem)) (16 * (elem % 8)) 16

/-- Nearest-even or stochastic rounding of an element. -/
def rndOf (k : DrawKey) (stoch : Bool) (elem : Nat) : Rnd := if stoch then .stoch (k.draw elem) else .nearest

/-- The rounding that a 2-bit code names (R138); the reserved code is refused before use. -/
def rndCode (k : DrawKey) (code elem : Nat) : Rnd :=
  match code with
  | 1 => .stoch (k.draw elem)
  | 2 => .zero
  | _ => .nearest

end Sys2Proof.Machine
end

