-- ==== Sys2Proof/Machine/Flags.lean ====
section
/-! DEFINITION. The five numeric flags and PERM_RANGE: sticky words, step flag words, trap masks and the telemetry
table (R146 to R153). -/

namespace Sys2Proof.Machine

/-- A saturating 32-bit count. -/
def sat32 (n : Nat) : Nat := min n (2 ^ 32 - 1)

/-- One if a flag is up. -/
def flagCount (f m : BitVec 6) : Nat := if f &&& m = 0 then 0 else 1

/-- The tally with the flags of one output element: each flag counts once per element (R146). -/
def Tally.element (t : Tally) (f : BitVec 6) : Tally :=
  { t with
    flags := t.flags ||| f
    overflow := t.overflow + flagCount f fOverflow
    saturation := t.saturation + flagCount f fSaturation
    nanProduced := t.nanProduced + flagCount f fNan
    infConsumed := t.infConsumed + flagCount f fInf
    underflow := t.underflow + flagCount f fUnderflow }

/-- The tally with one more output element written (R152). -/
def Tally.written (t : Tally) (f : BitVec 6) : Tally := { t.element f with elements := t.elements + 1 }

/-- Flags of output elements of a tile, each under the number of its element, enter a tally: each flag counts once per element,
whatever earlier work of the tile on it has raised, and with `count` an element counts when it is first met. `marks` holds what each
element has raised, with bit 6 once it has counted (R146, R152). -/
def Tally.once (count : Bool) (z : Tally × SMap (BitVec 7)) : List (Nat × BitVec 6) → Tally × SMap (BitVec 7)
  | [] => z
  | (k, f) :: r =>
    let old := SMap.get (fun _ => 0) z.2 k
    let new := f &&& ~~~(old.setWidth 6)
    let y := if count && !old.getLsbD 6 then z.1.written new else z.1.element new
    Tally.once count (y, SMap.put (fun _ => 0) z.2 k (old ||| f.setWidth 7 ||| (if count then 0x40 else 0))) r

/-- Two tallies together: counts add, amax takes the larger (R153). -/
def Tally.add (a b : Tally) : Tally :=
  { flags := a.flags ||| b.flags
    overflow := sat32 (a.overflow + b.overflow)
    saturation := sat32 (a.saturation + b.saturation)
    nanProduced := sat32 (a.nanProduced + b.nanProduced)
    infConsumed := sat32 (a.infConsumed + b.infConsumed)
    underflow := sat32 (a.underflow + b.underflow)
    checksSkipped := sat32 (a.checksSkipped + b.checksSkipped)
    rowEmpty := sat32 (a.rowEmpty + b.rowEmpty)
    infInRow := sat32 (a.infInRow + b.infInRow)
    nanInRow := sat32 (a.nanInRow + b.nanInRow)
    permRange := sat32 (a.permRange + b.permRange)
    elements := min (a.elements + b.elements) (2 ^ 64 - 1)
    amax := max a.amax b.amax }

/-- The telemetry entry that a layer_tag aggregates into (R151). -/
def teleIndex (tag : Nat) : Nat := min tag 4095

/-- Telemetry entry `i` of context `c`. -/
def State.tele (s : State) (c i : Nat) : Tele := SMap.get (fun _ => {}) s.core.tele (4096 * c + i)

/-- The state with a telemetry entry replaced. -/
def State.setTele (s : State) (c i : Nat) (t : Tele) : State :=
  { s with core := { s.core with tele := SMap.put (fun _ => {}) s.core.tele (4096 * c + i) t } }

/-- The trap code of a context's trap mask for some flags: the lowest trapped bit (R149). -/
def trapCode (mask : BitVec 5) (f : BitVec 6) : Option Nat :=
  ([0, 1, 2, 3, 4].find? fun i => mask.getLsbD i && f.getLsbD i).map (0x0401 + ·)

/-- A piece of work of context `c` finishes: its flags enter the stream's sticky word and the step flag word, its
counts enter the telemetry entry of its layer_tag (R147, R148, R153). -/
def State.absorb (s : State) (c core stream tag : Nat) (t : Tally) (isTile long : Bool) : State :=
  let st := s.stream core stream
  let s := s.setStream core stream { st with sticky := st.sticky ||| t.flags }
  let x := s.ctxAt c
  let s := s.setCtx c { x with stepFlags := x.stepFlags ||| t.flags.setWidth 5 }
  let e := s.tele c (teleIndex tag)
  s.setTele c (teleIndex tag)
    { sum := { Tally.add e.sum t with flags := 0 }
      longTiles := sat32 (e.longTiles + b2n long), tiles := sat32 (e.tiles + b2n isTile) }

/-- Step flags alone, for work that no stream issued (R148). -/
def State.absorbStep (s : State) (c : Nat) (f : BitVec 6) : State :=
  let x := s.ctxAt c
  s.setCtx c { x with stepFlags := x.stepFlags ||| f.setWidth 5 }

end Sys2Proof.Machine
end

