-- ==== Sys2Proof/Machine/Operands.lean ====
section
/-! DEFINITION. The operand forms: the 64-byte descriptor, its header, the body of every class, and the checks that
the control unit makes before a descriptor issues (R60 to R64 and the checks of the owning chapters). -/

namespace Sys2Proof.Machine

/-! ## The common header (R62). A descriptor is its 64 bytes as a little-endian number. -/
def dOpcode (d : Nat) : Nat := fieldAt d 0 0 8
def dClass (d : Nat) : Nat := fieldAt d 0 4 4
def dTickBound (d : Nat) : Bool := bit d 15
def dWaitEn (d : Nat) : Bool := bit d 14
def dSigEn (d : Nat) : Bool := bit d 13
def dConsume (d : Nat) : Bool := bit d 12
def dBwd (d : Nat) : Bool := bit d 11
def dLayerTag (d : Nat) : Nat := fieldAt d 2 0 16
def dWaitSem (d : Nat) : Nat := fieldAt d 4 0 16
def dSigSem (d : Nat) : Nat := fieldAt d 6 0 16
def dWaitVal (d : Nat) : Nat := fieldAt d 8 0 16
def dSigVal (d : Nat) : Nat := fieldAt d 10 0 16
def dTileId (d : Nat) : Nat := fieldAt d 12 0 32

/-- The engine that a class claims (R60). -/
def classEngine : Nat → Option Engine
  | 1 => some .matrix
  | 2 => some .vector
  | 3 => some .row
  | 4 => some .attn
  | _ => none

/-- The opcodes that the classes define (R65, R120, R158, R183, R234, R269, R308, R363). -/
def knownOpcode (op : Nat) : Bool :=
  [0x11, 0x12, 0x13, 0x14, 0x15, 0x16, 0x17, 0x21, 0x31, 0x32, 0x33, 0x34, 0x35, 0x36, 0x37, 0x38, 0x41, 0x42, 0x43, 0x44,
   0x45, 0x4E, 0x4F, 0x51, 0x52, 0x53, 0x61, 0x62, 0x63, 0x64, 0x71, 0x72, 0x73, 0x74, 0x75, 0x76, 0x81, 0x82, 0x83].contains op

/-! ## Fields of a body -/

/-- The bits of a list of fields (byte, lowest bit, width), as a mask over the whole descriptor. -/
def fieldMask (l : List (Nat × Nat × Nat)) : Nat :=
  l.foldl (fun m f => m ||| (2 ^ f.2.2 - 1) * 2 ^ (8 * f.1 + f.2.1)) 0

/-- Every bit of bytes 16 to 63 outside the named fields is 0 (R64). -/
def onlyFields (d : Nat) (l : List (Nat × Nat × Nat)) : Bool :=
  (d / 2 ^ 128 % 2 ^ 384 &&& (2 ^ 384 - 1 - fieldMask l / 2 ^ 128)) == 0

/-- A 48-bit address field and its space bit. -/
def addrField (d b : Nat) (space : Bool) : Addr := ⟨space, fieldAt d b 0 48⟩

/-- An operand of `n` bytes in local store lies inside the context's window (R396); memory is checked as it is reached. -/
def State.lsFits (s : State) (c : Nat) (a : Addr) (n : Nat) : Bool := a.space || decide (a.addr + n ≤ s.lsWindow c)

/-- Bytes that `rows` rows of `len` bytes at a stride span. -/
def spanOf (rows stride len : Nat) : Nat := (rows - 1) * stride + len

/-- A stride in use, that is between two or more rows, is no smaller than the row it spans (R584). -/
def strideOk (rows stride len : Nat) : Bool := decide (rows ≤ 1) || decide (len ≤ stride)

/-! ## Control descriptors (R65) -/

/-- Extra targets of a SIGNAL: reference and value of target `i`. -/
def sigTarget (d i : Nat) : Nat × Nat := (fieldAt d (20 + 4 * i) 0 16, fieldAt d (22 + 4 * i) 0 16)

/-- n_extra and the mode bits of a SIGNAL. -/
def sigExtra (d : Nat) : Nat := fieldAt d 16 0 2
def sigMode (d i : Nat) : Bool := bit d (17 * 8 + i)

/-- The offset of a LOOP or BRANCH. -/
def ctlOffset (d : Nat) : Int := signed 32 (fieldAt d 24 0 32)

/-- The reserved fields of a control body are 0. An extra target that is not used is ignored (R64). -/
def ctlReserved (d : Nat) : Bool :=
  match dOpcode d with
  | 0x72 => onlyFields d ([(16, 0, 2), (17, 0, 4)] ++ [(20, 0, 96)])
  | 0x73 => onlyFields d [(16, 0, 2), (20, 0, 32), (24, 0, 32)]
  | 0x74 => onlyFields d [(16, 0, 8), (18, 0, 16), (20, 0, 32), (24, 0, 32)]
  | 0x76 => onlyFields d [(16, 0, 32)]
  | _ => onlyFields d []

/-- The fields of a control body are in range. -/
def ctlRange (d : Nat) : Bool :=
  match dOpcode d with
  | 0x71 => dWaitEn d
  | 0x73 => fieldAt d 20 0 32 != 0 && decide (ctlOffset d < 0)
  | 0x74 => decide (fieldAt d 16 0 8 ≤ 3) && ctlOffset d != 0
  | _ => true

/-- The semaphore references that a descriptor uses (R64). -/
def semRefs (d : Nat) : List Nat :=
  (if dWaitEn d then [dWaitSem d] else []) ++ (if dSigEn d then [dSigSem d] else []) ++
  (if dOpcode d = 0x72 then (List.range (sigExtra d)).map fun i => (sigTarget d i).1 else []) ++
  (if dOpcode d = 0x74 ∧ fieldAt d 16 0 8 ≠ 0 then [fieldAt d 18 0 16] else [])

/-- A header target of a SIGNAL in set mode: its value may be 0 (R62, R65). -/
def headerSet (d : Nat) : Bool := dOpcode d == 0x72 && sigMode d 3

/-- The header's own ranges (R64). -/
def headerRange (d : Nat) : Bool :=
  (!dTickBound d || [5, 6, 8].contains (dClass d)) && (!dSigEn d || dClass d != 7 || dOpcode d == 0x72)
    && (!dWaitEn d || dWaitVal d != 0) && (!dSigEn d || dSigVal d != 0 || headerSet d)

/-! ## DMA and move (R235, R236, R239) -/

/-- The body of a class 0x5 descriptor. -/
structure DmaBody where
  src : Addr
  dst : Addr
  srcStride : Nat
  dstStride : Nat
  rowLen : Nat
  rows : Nat
  esize : Nat
  fill : Nat

def dmaBody (d : Nat) : DmaBody :=
  { src := addrField d 16 (bit d (44 * 8 + 7)), dst := addrField d 22 (bit d (44 * 8 + 6))
    srcStride := fieldAt d 28 0 32, dstStride := fieldAt d 32 0 32, rowLen := fieldAt d 36 0 32
    rows := fieldAt d 40 0 32, esize := fieldAt d 44 4 2, fill := fieldAt d 48 0 32 }

/-- Bytes of an element of a TRANSPOSE (R235). -/
def DmaBody.elem (b : DmaBody) : Nat := if b.esize = 0 then 2 else 1

def dmaReserved (d : Nat) : Bool :=
  onlyFields d [(16, 0, 48), (22, 0, 48), (28, 0, 32), (32, 0, 32), (36, 0, 32), (40, 0, 32), (44, 4, 4), (48, 0, 32)]

def State.dmaRange (s : State) (c d : Nat) : Bool :=
  let b := dmaBody d
  let op := dOpcode d
  let t := op == 0x52
  let m := if b.esize = 0 then 32 else 64
  let srcLen := if t then b.rowLen * b.elem else b.rowLen
  let dstRows := if t then b.rowLen else b.rows
  let dstLen := if t then b.rows * b.elem else b.rowLen
  b.src.addr % 64 == 0 && b.dst.addr % 64 == 0
    && (op == 0x53 || decide (b.rows ≤ 1) || b.srcStride % 64 == 0) && (decide (dstRows ≤ 1) || b.dstStride % 64 == 0)
    && decide (1 ≤ b.rows) && decide (b.rows ≤ 65536)
    && (if t then decide (b.esize ≤ 1) && b.rows % m == 0 && b.rowLen % m == 0 && decide (1 ≤ b.rowLen)
        else b.rowLen % 64 == 0 && decide (64 ≤ b.rowLen) && decide (b.rowLen ≤ 16777216) && b.esize == 0)
    && (op == 0x53 || b.fill == 0) && (op != 0x53 || b.src.addr == 0)
    && (op == 0x53 || strideOk b.rows b.srcStride srcLen) && strideOk dstRows b.dstStride dstLen
    && (op == 0x53 || s.lsFits c b.src (spanOf b.rows b.srcStride srcLen))
    && s.lsFits c b.dst (spanOf dstRows b.dstStride dstLen)


/-! ## The matrix array (R86, R87, R120 to R124, R584) -/

/-- The width class of a format code in bits (R86). -/
def fmtClass (f : Nat) : Nat := if f ≤ 1 then 16 else if f = 8 then 4 else if f = 0xA then 32 else 8

/-- A format code is a Microscaling one. -/
def fmtMx (f : Nat) : Bool := decide (4 ≤ f) && decide (f ≤ 8)

/-- Formats that pair in a tile (R87). -/
def pairOk (a b : Nat) : Bool :=
  decide (a ≤ 0xA) && decide (b ≤ 0xA) && (!([a, b].any fun f => f == 9 || f == 0xA) || a == b)

/-- Bytes of `n` elements of a format code. -/
def rowBytes (f n : Nat) : Nat := packedLen (Fmt.ofCode f) n

/-- Elements of K that a lane takes in a clock for a width class; three clocks at binary32 (R86). -/
def stepWidth (cls : Nat) : Nat := if cls = 4 then 16 else if cls = 8 then 8 else 4

/-- The body of MATMUL, EPILOGUE and ELEMENTWISE (R121). Strides are in bytes. -/
structure MatBody where
  a : Addr
  b : Addr
  c : Addr
  aStride : Nat
  bStride : Nat
  cStride : Nat
  m : Nat
  n : Nat
  k : Nat
  aFmt : Nat
  bFmt : Nat
  accAdd : Bool
  epi : Bool
  rowMask : Bool
  colMask : Bool
  slot : Nat
  fan : Nat
  ewOp : Nat
  prm : Nat
  mask : Nat

def matBody (d : Nat) : MatBody :=
  { a := addrField d 16 (bit d (49 * 8 + 7)), b := addrField d 22 (bit d (49 * 8 + 6))
    c := addrField d 28 (bit d (49 * 8 + 5))
    aStride := 64 * fieldAt d 34 0 16, bStride := 64 * fieldAt d 36 0 16, cStride := 64 * fieldAt d 38 0 16
    m := fieldAt d 40 0 16, n := fieldAt d 42 0 16, k := fieldAt d 44 0 32
    aFmt := fieldAt d 48 4 4, bFmt := fieldAt d 48 0 4, accAdd := bit d (49 * 8 + 3), epi := bit d (49 * 8 + 2)
    rowMask := bit d (49 * 8 + 1), colMask := bit d (49 * 8), slot := fieldAt d 50 0 7, fan := fieldAt d 51 6 2
    ewOp := fieldAt d 51 4 2, prm := 64 * fieldAt d 52 6 15, mask := 64 * fieldAt d 56 6 15 }

/-- Output blocks down and across (R99). -/
def MatBody.mb (b : MatBody) : Nat := (b.m + 31) / 32
def MatBody.nb (b : MatBody) : Nat := (b.n + 31) / 32

/-- The body of SLOT_COMBINE (R123). -/
structure CombineBody where
  dst : Nat
  step : Nat
  stride : Nat
  count : Nat

def combineBody (d : Nat) : CombineBody :=
  { dst := fieldAt d 16 0 7, step := fieldAt d 17 0 7, stride := fieldAt d 18 0 7, count := fieldAt d 19 0 8 }

/-- The body of REDUCE (R123). -/
structure ReduceBody where
  n : Nat
  rank : Nat
  slot : Nat
  count : Nat
  tag : Nat
  members : Nat
  deriving DecidableEq

def reduceBody (d : Nat) : ReduceBody :=
  { n := fieldAt d 16 0 8, rank := fieldAt d 17 0 8, slot := fieldAt d 18 0 7, count := fieldAt d 19 0 8
    tag := fieldAt d 20 0 16, members := fieldAt d 22 0 128 }

/-- The module core of a rank. -/
def ReduceBody.core (b : ReduceBody) (rank : Nat) : Nat := bits b.members (8 * rank) 8

/-- The body of SPILL and FILL (R123). -/
structure SpillBody where
  addr : Addr
  slot : Nat
  count : Nat

def spillBody (d : Nat) : SpillBody :=
  { addr := addrField d 16 (bit d (22 * 8 + 7)), slot := fieldAt d 23 0 7, count := fieldAt d 24 0 8 }

/-- The reserved fields of a class 0x1 body are 0. -/
def matReserved (d : Nat) : Bool :=
  match dOpcode d with
  | 0x13 => onlyFields d [(16, 0, 7), (17, 0, 7), (18, 0, 7), (19, 0, 8)]
  | 0x14 => onlyFields d [(16, 0, 8), (17, 0, 8), (18, 0, 7), (19, 0, 8), (20, 0, 16), (22, 0, 128)]
  | 0x16 => onlyFields d [(16, 0, 48), (22, 7, 1), (23, 0, 7), (24, 0, 8)]
  | 0x17 => onlyFields d [(16, 0, 48), (22, 7, 1), (23, 0, 7), (24, 0, 8)]
  | _ => onlyFields d [(16, 0, 48), (22, 0, 48), (28, 0, 48), (34, 0, 16), (36, 0, 16), (38, 0, 16), (40, 0, 16),
      (42, 0, 16), (44, 0, 32), (48, 0, 8), (49, 0, 4), (49, 5, 3), (50, 0, 7), (51, 4, 4), (52, 6, 15), (56, 6, 15)]

/-- Slots from `base` on lie in the context's window (R98). -/
def State.slotsFit (s : State) (c base count : Nat) : Bool := decide (base + count ≤ s.fld (Fld.slotCount c))

/-- An operand of rows: alignment, stride (R584) and local-store extent. -/
def State.rowsOk (s : State) (c : Nat) (a : Addr) (rows stride len : Nat) : Bool :=
  a.addr % 64 == 0 && strideOk rows stride len && s.lsFits c a (spanOf rows stride len)

/-- What MATMUL, EPILOGUE and ELEMENTWISE share: extents, C's base, and the masks' extents. -/
def State.matCommon (s : State) (c : Nat) (b : MatBody) : Bool :=
  decide (1 ≤ b.m) && decide (b.m ≤ 4096) && decide (1 ≤ b.n) && decide (b.n ≤ 4096)
    && b.c.addr % 64 == 0 && (b.c.space || decide (b.c.addr < s.lsWindow c))
    && (!b.rowMask || decide (b.mask + (b.m + 7) / 8 ≤ s.lsWindow c))
    && (!b.colMask || decide (b.mask + 512 + (b.n + 7) / 8 ≤ s.lsWindow c))

/-- The fields of a class 0x1 body are in range (R124). -/
def State.matRange (s : State) (core c d : Nat) : Bool :=
  let b := matBody d
  match dOpcode d with
  | 0x11 =>
    s.matCommon c b && decide (1 ≤ b.k) && decide (b.k ≤ 1048576) && b.ewOp == 0 && pairOk b.aFmt b.bFmt
      && (!b.epi || b.fan == 0) && (!(fmtMx b.aFmt || fmtMx b.bFmt) || b.k % 32 == 0)
      && s.rowsOk c b.a b.m b.aStride (rowBytes b.aFmt b.k) && s.rowsOk c b.b b.n b.bStride (rowBytes b.bFmt b.k)
      && s.slotsFit c b.slot (b.mb * b.nb * 2 ^ b.fan)
  | 0x12 =>
    s.matCommon c b && b.a.addr == 0 && b.b.addr == 0 && b.aStride == 0 && b.bStride == 0 && b.k == 0 && b.aFmt == 0
      && b.bFmt == 0 && !b.accAdd && b.ewOp == 0 && s.slotsFit c b.slot (b.mb * b.nb * 2 ^ b.fan)
  | 0x13 =>
    let b := combineBody d
    decide (1 ≤ b.step) && decide (1 ≤ b.stride) && decide (1 ≤ b.count) && decide (b.count ≤ 64)
      && s.slotsFit c (b.dst + (b.count - 1) * b.stride + b.step) 1
  | 0x14 =>
    let b := reduceBody d
    decide (2 ≤ b.n) && decide (b.n ≤ 16) && decide (b.rank < b.n) && decide (1 ≤ b.count) && decide (b.count ≤ 128)
      && s.slotsFit c b.slot b.count && b.core b.rank == core
      && (List.range 16).all fun r => if r < b.n then decide (b.core r < 160) else b.core r == 0
  | 0x15 =>
    s.matCommon c b && b.k == 0 && b.epi && b.fan == 0 && decide (b.ewOp ≤ 2) && decide (b.aFmt ≤ 0xA)
      && (b.ewOp == 2 || pairOk b.aFmt b.bFmt)
      && (!(fmtMx b.aFmt || (b.ewOp != 2 && fmtMx b.bFmt)) || b.n % 32 == 0)
      && s.rowsOk c b.a b.m b.aStride (rowBytes b.aFmt b.n)
      && (b.ewOp == 2 || s.rowsOk c b.b b.m b.bStride (rowBytes b.bFmt b.n))
  | _ =>
    let b := spillBody d
    decide (1 ≤ b.count) && decide (b.count ≤ 128) && s.slotsFit c b.slot b.count && s.lsFits c b.addr (5120 * b.count)

/-- The parameter record (R122). -/
structure MatParam where
  dstFmt : Nat
  act : Nat
  vscale : Nat
  bias : Bool
  amax : Bool
  rnd : Bool
  tscale : Nat
  vscaleOff : Nat
  biasOff : Nat
  amaxOff : Nat
  aScale : Addr
  bScale : Addr
  dScale : Addr
  aScaleStride : Nat
  bScaleStride : Nat
  dScaleStride : Nat

def matParam (r : Nat) : MatParam :=
  { dstFmt := fieldAt r 0 4 4, act := fieldAt r 1 5 3, vscale := fieldAt r 1 3 2, bias := bit r 10, amax := bit r 9
    rnd := bit r 8, tscale := fieldAt r 4 0 32, vscaleOff := 64 * fieldAt r 8 6 15, biasOff := 64 * fieldAt r 12 6 15
    amaxOff := 4 * fieldAt r 16 2 19, aScale := addrField r 20 (bit r (44 * 8 + 7))
    bScale := addrField r 26 (bit r (44 * 8 + 6)), dScale := addrField r 32 (bit r (44 * 8 + 5))
    aScaleStride := 64 * fieldAt r 38 0 16, bScaleStride := 64 * fieldAt r 40 0 16, dScaleStride := 64 * fieldAt r 42 0 16 }

/-- The bits of a 64-byte record outside the named fields are 0. -/
def recordOnly (r : Nat) (l : List (Nat × Nat × Nat)) : Bool := (r &&& (2 ^ 512 - 1 - fieldMask l)) == 0

def matParamReserved (r : Nat) : Bool :=
  recordOnly r [(0, 4, 4), (1, 0, 8), (4, 0, 32), (8, 6, 15), (12, 6, 15), (16, 2, 19), (20, 0, 48), (26, 0, 48),
    (32, 0, 48), (38, 0, 16), (40, 0, 16), (42, 0, 16), (44, 5, 3)]

/-- Bytes of an operand's scales per row or column. -/
def scaleBytes (n : Nat) : Nat := (n + 31) / 32

/-- The scales of a Microscaling operand fit (R122, R584). -/
def State.scalesOk (s : State) (c : Nat) (a : Addr) (rows stride n : Nat) : Bool :=
  strideOk rows stride (scaleBytes n) && s.lsFits c a (spanOf rows stride (scaleBytes n))

/-- A parameter record is in range for a body of MATMUL, EPILOGUE or ELEMENTWISE (R124). -/
def State.matParamRange (s : State) (c : Nat) (b : MatBody) (p : MatParam) (ew epi : Bool) : Bool :=
  let w := s.lsWindow c
  let nel := if ew then b.n else b.k
  (!fmtMx b.aFmt || s.scalesOk c p.aScale b.m p.aScaleStride nel)
    && ((ew && b.ewOp == 2) || !fmtMx b.bFmt || s.scalesOk c p.bScale (if ew then b.m else b.n) p.bScaleStride nel)
    && decide (p.dstFmt ≤ 0xA) && decide (p.act ≤ 5) && decide (p.vscale ≤ 2) && (Fmt.f32.decode p.tscale).isFinite
    && (!epi ||
      ((!p.amax || decide (p.amaxOff + 4 ≤ w))
        && (p.vscale == 0 || decide (p.vscaleOff + 4 * (if p.vscale = 1 then b.m else b.n) ≤ w))
        && (!p.bias || decide (p.biasOff + 4 * b.n ≤ w))
        && strideOk b.m b.cStride (rowBytes p.dstFmt b.n)
        && s.lsFits c b.c (spanOf b.m b.cStride (rowBytes p.dstFmt b.n))
        && (!fmtMx p.dstFmt || (b.n % 32 == 0 && !b.colMask && s.scalesOk c p.dScale b.m p.dScaleStride b.n))))

/-! ## The vector engine (R161 to R166, R180) -/

/-- The body of KERNEL (R161). -/
structure KernBody where
  n : Nat
  kernOff : Nat
  strmOff : Nat
  nOps : Nat
  vl : Nat
  afmt : Nat
  nOut : Nat
  nIn : Nat
  ftz : Bool
  strict : Bool
  amax : Bool
  amaxOff : Nat

def kernBody (d : Nat) : KernBody :=
  { n := fieldAt d 16 0 32, kernOff := 64 * fieldAt d 20 6 15, strmOff := 64 * fieldAt d 24 6 15
    nOps := fieldAt d 28 0 5 + 1, vl := fieldAt d 29 0 8 + 1, afmt := fieldAt d 30 6 2, nOut := fieldAt d 30 5 1 + 1
    nIn := fieldAt d 30 2 3, ftz := bit d 241, strict := bit d 240, amax := bit d 255, amaxOff := 4 * fieldAt d 32 2 19 }

/-- The arithmetic format of a kernel. -/
def KernBody.fmt (b : KernBody) : Fmt := if b.afmt = 0 then .f32 else if b.afmt = 1 then .bf16 else .f16

def kernReserved (d : Nat) : Bool :=
  onlyFields d [(16, 0, 32), (20, 6, 15), (24, 6, 15), (28, 0, 5), (29, 0, 8), (30, 0, 8), (31, 7, 1), (32, 2, 19)]

def State.kernRange (s : State) (c d : Nat) : Bool :=
  let b := kernBody d
  decide (1 ≤ b.n) && decide (b.n ≤ 268435456) && decide (b.afmt ≤ 2) && (b.afmt != 0 || decide (b.vl ≤ 128))
    && decide (b.nIn ≤ 4) && decide (b.kernOff + 8 * b.nOps ≤ s.lsWindow c) && decide (b.strmOff + 192 ≤ s.lsWindow c)
    && (!b.amax || decide (b.amaxOff + 4 ≤ s.lsWindow c))

/-- A stream record (R162). -/
structure StreamRec where
  addr : Addr
  kind : Nat
  fmt : Nat
  rnd : Nat
  firstOnly : Bool
  elemStride : Int
  rowLen : Nat
  rowStride : Int
  tableLen : Nat

def streamRec (r : Nat) : StreamRec :=
  { addr := addrField r 0 (bit r 55), kind := fieldAt r 6 4 3, fmt := fieldAt r 6 0 4, rnd := fieldAt r 7 6 2
    firstOnly := bit r 61, elemStride := signed 32 (fieldAt r 8 0 32), rowLen := fieldAt r 12 0 32
    rowStride := signed 32 (fieldAt r 16 0 32), tableLen := fieldAt r 20 0 32 }

/-- Bytes of an element of a record. -/
def StreamRec.size (r : StreamRec) : Nat := (Fmt.ofCode r.fmt).width / 8

/-- The address of streamed element `e` of `n` (R163); a row length of 0 means one row. -/
def StreamRec.at_ (r : StreamRec) (n e : Nat) : Int :=
  let len := if r.rowLen = 0 then n else r.rowLen
  (r.addr.addr : Int) + (e / len : Nat) * r.rowStride + (e % len : Nat) * r.elemStride * r.size

/-- Every element of a streamed record in local store lies in the window: the extremes lie at the ends of rows. -/
def State.streamFits (s : State) (c n : Nat) (r : StreamRec) : Bool :=
  let len := if r.rowLen = 0 then n else r.rowLen
  let rows := (n + len - 1) / len
  let ends := [0, min len n - 1, (rows - 1) * len, n - 1, (rows - 2) * len, (rows - 1) * len - 1]
  r.addr.space || (decide (r.addr.addr < 2 ^ 21) && ends.all fun e => decide (n ≤ e) ||
    (decide (0 ≤ r.at_ n e) && decide (r.at_ n e + r.size ≤ s.lsWindow c)))

/-- What a record breaks of R162, as an input or an output of `n` elements. -/
def State.recordRange (s : State) (c n : Nat) (out : Bool) (r : StreamRec) : Bool :=
  [0, 1, 2, 3, 9, 0xA].contains r.fmt && r.addr.addr % r.size == 0
    && decide (r.rowStride % r.size = 0)
    && (if out then r.kind == 0 && decide (r.rnd ≤ 2) && r.elemStride != 0 && r.tableLen == 0
        else r.rnd == 0 && !r.firstOnly && decide (r.kind ≤ 1))
    && (if r.kind = 1 then decide (1 ≤ r.tableLen) && decide (r.tableLen ≤ 16777216)
          && (r.addr.space || decide (r.addr.addr + r.tableLen * r.size ≤ s.lsWindow c))
        else r.tableLen == 0 && s.streamFits c n r)

def recordReserved (r : Nat) : Bool := (r / 2 ^ 56 % 32 == 0) && (r / 2 ^ 192 % 2 ^ 64 == 0)

/-- A micro-operation (R164). -/
structure MicroOp where
  op : Nat
  dst : Nat
  sa : Nat
  sb : Nat
  sc : Nat
  rnd : Nat
  aux : Nat
  imm : Nat

def microOp (w : Nat) : MicroOp :=
  { op := bits w 56 8, dst := bits w 52 4, sa := bits w 48 4, sb := bits w 44 4, sc := bits w 40 4, rnd := bits w 38 2
    aux := bits w 32 6, imm := bits w 0 32 }

/-- The operands that an operation uses: 1, 2 or 3 selectors; none for a reserved op (R166). -/
def opArity : Nat → Option Nat
  | 0x01 => some 2 | 0x02 => some 2 | 0x03 => some 2 | 0x04 => some 3 | 0x05 => some 2 | 0x06 => some 2
  | 0x07 => some 1 | 0x08 => some 1 | 0x09 => some 1 | 0x0A => some 2 | 0x0B => some 3
  | 0x10 => some 1 | 0x11 => some 1 | 0x12 => some 1 | 0x13 => some 1 | 0x20 => some 1
  | 0x30 => some 1 | 0x31 => some 1 | 0x32 => some 1 | 0x40 => some 1 | 0x50 => some 2 | 0x51 => some 1
  | _ => none

/-- The selectors that an operation uses. -/
def MicroOp.sels (o : MicroOp) : List Nat := [o.sa, o.sb, o.sc].take ((opArity o.op).getD 0)

/-- The fields that an operation does not use are 0 (R164, R165). -/
def MicroOp.unused (o : MicroOp) : Bool :=
  ([o.sa, o.sb, o.sc].drop ((opArity o.op).getD 0)).all (· == 0)
    && (match o.op with
        | 0x0A => decide (o.aux < 8)
        | 0x20 => decide (o.aux < 16)
        | 0x40 => decide (o.aux < 4)
        | _ => o.aux == 0)
    && (o.sels.contains 0xC || o.op == 0x51 || o.imm == 0)

/-- The formats that CVT may name (R170). -/
def cvtOk (afmt f : Nat) : Bool := if afmt = 0 then [0, 1, 2, 3, 9].contains f else [2, 3, 9].contains f

/-- The fields of a micro-operation are in range for its kernel (R180). -/
def MicroOp.range (o : MicroOp) (b : KernBody) (ins : List StreamRec) : Bool :=
  let imm := Fmt.f32.decode o.imm
  (decide (o.dst ≤ 7) || decide (8 ≤ o.dst ∧ o.dst < 8 + b.nOut))
    && (o.sels.all fun x => decide (x ≤ 7) || x == 0xC || x == 0xD
          || (decide (8 ≤ x) && decide (x < 8 + b.nIn) && ((ins[x - 8]?).map (·.kind) == some 0)))
    && (!o.sels.contains 0xC || imm.isNan || (b.fmt.near imm).1.eqv imm)
    && (if o.op = 0x20 then decide (o.rnd ≤ 2) && cvtOk b.afmt o.aux else o.rnd == 0)
    && (o.op != 0x0A || decide (o.aux ≤ 5))
    && (o.op != 0x51 || decide (o.imm < b.vl))
    && (o.op != 0x40 || (decide (o.aux < b.nIn) && match ins[o.aux]? with
          | some r => r.kind == 1 && r.addr.space
          | none => false))

/-- A kernel: its body, program, inputs and outputs. -/
structure Kernel where
  b : KernBody
  prog : List MicroOp
  ins : List StreamRec
  outs : List StreamRec

/-- Vectors of a kernel (R159). -/
def KernBody.vectors (b : KernBody) : Nat := (b.n + b.vl - 1) / b.vl

/-- Elements of an output. -/
def KernBody.outCount (b : KernBody) (r : StreamRec) : Nat := if r.firstOnly then b.vectors else b.n

/-- The code that a program and a stream block earn, if any (R180). `recs` are the raw records in use. -/
def State.kernelCheck (s : State) (c : Nat) (k : Kernel) (recs : List Nat) : Option Nat :=
  let stoch := (k.prog.filter fun o => o.op == 0x20 && o.rnd == 1).length + (k.outs.filter fun r => r.rnd == 1).length
  if k.prog.any (fun o => (opArity o.op).isNone) then some 0x0201
  else if recs.all recordReserved = false ∨ k.prog.all MicroOp.unused = false then some 0x0202
  else if (k.prog.all fun o => o.range k.b k.ins) = false ∨ 1 < stoch
      ∨ ((List.range k.b.nOut).all fun o => k.prog.any fun m => m.dst == 8 + o) = false
      ∨ (k.ins.all fun r => s.recordRange c k.b.n false r) = false
      ∨ (k.outs.all fun r => s.recordRange c (k.b.outCount r) true r) = false then some 0x0207
  else none

/-! ## The row engine (R200 to R204) -/

/-- The body of opcodes 0x31 to 0x36 (R200). Strides are in bytes. -/
structure RowBody where
  x : Addr
  y : Addr
  dy : Addr
  xStride : Nat
  yStride : Nat
  dyStride : Nat
  rows : Nat
  cols : Nat
  xFmt : Nat
  yFmt : Nat
  dyFmt : Nat
  mode : Nat
  phase : Nat
  first : Bool
  last : Bool
  maskMode : Nat
  pg : Bool
  beta : Bool
  gamma : Bool
  stat : Nat
  tag : Nat
  rowBase : Nat
  colBase : Nat
  prm : Nat

def rowBody (d : Nat) : RowBody :=
  { x := addrField d 16 (bit d (45 * 8 + 3)), y := addrField d 22 (bit d (45 * 8 + 2))
    dy := addrField d 28 (bit d (45 * 8 + 1))
    xStride := 64 * fieldAt d 34 0 16, yStride := 64 * fieldAt d 36 0 16, dyStride := 64 * fieldAt d 38 0 16
    rows := fieldAt d 40 0 16, cols := fieldAt d 42 0 16 + 1, xFmt := fieldAt d 44 4 4, yFmt := fieldAt d 44 0 4
    dyFmt := fieldAt d 45 4 4, mode := fieldAt d 46 6 2, phase := fieldAt d 46 4 2, first := bit d (46 * 8 + 3)
    last := bit d (46 * 8 + 2), maskMode := fieldAt d 46 0 2, pg := bit d (47 * 8 + 7), beta := bit d (47 * 8 + 6)
    gamma := bit d (47 * 8 + 5), stat := fieldAt d 48 0 14, tag := fieldAt d 50 0 16, rowBase := fieldAt d 52 0 32
    colBase := fieldAt d 56 0 32, prm := 64 * fieldAt d 60 6 15 }

/-- The body of STATS_SPILL and STATS_FILL (R202). -/
structure StatsBody where
  addr : Addr
  count : Nat
  stat : Nat

def statsBody (d : Nat) : StatsBody :=
  { addr := addrField d 16 (bit d (22 * 8 + 7)), count := fieldAt d 24 0 15, stat := fieldAt d 48 0 14 }

def rowReserved (d : Nat) : Bool :=
  if dOpcode d = 0x37 ∨ dOpcode d = 0x38 then onlyFields d [(16, 0, 48), (22, 7, 1), (24, 0, 15), (48, 0, 14)]
  else onlyFields d [(16, 0, 48), (22, 0, 48), (28, 0, 48), (34, 0, 16), (36, 0, 16), (38, 0, 16), (40, 0, 16), (42, 0, 16),
    (44, 0, 8), (45, 1, 7), (46, 0, 8), (47, 5, 3), (48, 0, 14), (50, 0, 16), (52, 0, 32), (56, 0, 32), (60, 6, 15)]

/-- Records of a context's statistics window (R187, R396). -/
def State.statWindow (s : State) (c : Nat) : Nat := 256 * s.fld (Fld.statUnits c)

/-- Formats of x, dy and y in a row tile. -/
def rowFmt (f : Nat) : Bool := f == 0 || f == 1 || f == 0xA

/-- Backward operations. -/
def rowBwd (op : Nat) : Bool := op == 0x32 || op == 0x34 || op == 0x36

/-- The tile writes y or dx. -/
def RowBody.writesY (b : RowBody) (op : Nat) : Bool := !((op == 0x31 || op == 0x32) && b.phase == 1)

/-- The combinations of R203. -/
def rowCombo (op : Nat) (b : RowBody) : Bool :=
  let unused := !b.first && !b.last
  match op with
  | 0x31 => decide (b.maskMode ≤ 2) && (match b.phase with
      | 0 => decide (b.mode ≤ 1) && unused && rowFmt b.yFmt
      | 1 => b.mode == 3 && b.yFmt == 0
      | 2 => b.mode == 2 && unused && rowFmt b.yFmt
      | _ => false)
  | 0x32 => decide (b.maskMode ≤ 2) && b.mode == 2 && (match b.phase with
      | 0 => unused && rowFmt b.yFmt
      | 1 => !b.last && b.yFmt == 0
      | 2 => !b.first && rowFmt b.yFmt
      | _ => false)
  | _ => b.phase == 0 && b.maskMode == 0 && unused
      && (if rowBwd op then b.mode == 2 && rowFmt b.yFmt else decide (b.mode ≤ 1) && (decide (b.yFmt ≤ 3) || b.yFmt == 0xA))

/-- An operand of rows in a row tile: alignment to its element, stride and local-store extent. -/
def State.rowArea (s : State) (c : Nat) (a : Addr) (rows stride f n : Nat) : Bool :=
  a.addr % (Fmt.ofCode f).width.div 8 == 0 && strideOk rows stride (rowBytes f n)
    && s.lsFits c a (spanOf rows stride (rowBytes f n))

def State.rowRange (s : State) (c d : Nat) : Bool :=
  let op := dOpcode d
  if op = 0x37 ∨ op = 0x38 then
    let b := statsBody d
    decide (1 ≤ b.count) && decide (b.count ≤ 16384) && b.addr.addr % 16 == 0
      && decide (b.stat + b.count ≤ s.statWindow c) && s.lsFits c b.addr (16 * b.count)
  else
    let b := rowBody d
    decide (1 ≤ b.rows) && decide (b.rows ≤ 4096) && rowCombo op b && rowFmt b.xFmt
      && (if rowBwd op then rowFmt b.dyFmt else b.dyFmt == 0 && b.dy.addr == 0)
      && (!b.pg || op == 0x34 || op == 0x36) && (!b.beta || op == 0x33 || op == 0x34)
      && (b.mode == 0 || decide (b.stat + b.rows ≤ s.statWindow c))
      && decide (b.colBase + b.cols ≤ 16777216)
      && (op == 0x31 || op == 0x32 || decide (b.colBase + b.cols ≤ 65536))
      && s.rowArea c b.x b.rows b.xStride b.xFmt b.cols
      && (!rowBwd op || s.rowArea c b.dy b.rows b.dyStride b.dyFmt b.cols)
      && (if b.writesY op then s.rowArea c b.y b.rows b.yStride b.yFmt b.cols
          else b.y.addr % 2 == 0 && (b.y.space || decide (b.y.addr < 2 ^ 21)))
      && decide (b.prm + 64 ≤ s.lsWindow c)

/-- The parameter record of a row tile (R201). -/
structure RowParam where
  param : Nat
  gamma : Nat
  beta : Nat
  dgamma : Nat
  dbeta : Nat
  mask : Nat
  dOff : Nat

def rowParam (r : Nat) : RowParam :=
  { param := fieldAt r 0 0 32, gamma := 4 * fieldAt r 4 2 19, beta := 4 * fieldAt r 8 2 19, dgamma := 4 * fieldAt r 12 2 19
    dbeta := 4 * fieldAt r 16 2 19, mask := 4 * fieldAt r 20 2 19, dOff := 4 * fieldAt r 24 2 19 }

def rowParamReserved (r : Nat) : Bool :=
  recordOnly r [(0, 0, 32), (4, 2, 19), (8, 2, 19), (12, 2, 19), (16, 2, 19), (20, 2, 19), (24, 2, 19)]

/-- Bytes of a bit mask's row (R193). -/
def maskRow (cols : Nat) : Nat := 64 * ((cols + 511) / 512)

/-- A parameter record is in range for its tile (R201, R204). -/
def State.rowParamRange (s : State) (c op : Nat) (b : RowBody) (p : RowParam) : Bool :=
  let w := s.lsWindow c
  let v := Fmt.f32.decode p.param
  let bwd := rowBwd op
  (if op = 0x31 ∨ op = 0x32 then v.isFinite else v.isFinite && !(v.lt (.fin false 1 (-126))))
    && (!b.gamma || op == 0x31 || op == 0x32 || decide (p.gamma + 4 * b.cols ≤ w))
    && (!(b.beta && !bwd) || decide (p.beta + 4 * b.cols ≤ w))
    && (!b.pg || decide (p.dgamma + 4 * b.cols ≤ w))
    && (!(b.pg && b.beta) || decide (p.dbeta + 4 * b.cols ≤ w))
    && (b.maskMode != 1 || decide (p.mask + 4 * b.rows ≤ w))
    && (b.maskMode != 2 || (p.mask % 64 == 0 && decide (p.mask + maskRow b.cols * b.rows ≤ w)))
    && (!(op == 0x32 && b.phase != 0) || decide (p.dOff + 4 * b.rows ≤ w))

/-! ## Class 0x4: the KV cache and the attention pipe (R256, R263, R270, R286, R289) -/

/-- KV_APPEND (R256). -/
structure AppendBody where
  k : Addr
  v : Addr
  stride : Nat
  n : Nat
  t0 : Nat
  pos0 : Nat
  slot : Nat
  fmt : Nat
  layer : Nat
  group : Nat
  kFmt : Nat
  vFmt : Nat
  kScale : List Nat
  vScale : List Nat

def appendBody (d : Nat) : AppendBody :=
  { k := addrField d 16 (bit d (41 * 8 + 7)), v := addrField d 22 (bit d (41 * 8 + 6))
    stride := 64 * fieldAt d 28 0 16, n := fieldAt d 30 0 16 + 1, t0 := fieldAt d 32 0 32, pos0 := fieldAt d 36 0 32
    slot := fieldAt d 40 0 7, fmt := fieldAt d 41 0 4, layer := fieldAt d 42 0 16, group := fieldAt d 44 0 8
    kFmt := fieldAt d 45 4 4, vFmt := fieldAt d 45 0 4
    kScale := (List.range 4).map fun i => fieldAt d (46 + i) 0 8
    vScale := (List.range 4).map fun i => fieldAt d (50 + i) 0 8 }

/-- KV_DEMOTE (R263). -/
structure DemoteBody where
  page0 : Nat
  count : Nat
  slot : Nat
  layer : Nat
  group : Nat
  kNew : Nat
  vNew : Nat
  stage : Nat

def demoteBody (d : Nat) : DemoteBody :=
  { page0 := fieldAt d 16 0 32, count := fieldAt d 20 0 8, slot := fieldAt d 21 0 7, layer := fieldAt d 22 0 16
    group := fieldAt d 24 0 8, kNew := fieldAt d 25 4 4, vNew := fieldAt d 25 0 4, stage := 64 * fieldAt d 28 6 15 }

/-- An attention body (R270). -/
structure AttnBody where
  q : Addr
  acc : Addr
  out : Addr
  kv : Nat
  seq : Nat
  layer : Nat
  scale : Nat
  page0 : Nat
  pages : Nat
  stat : Nat
  tag : Nat
  qFmt : Nat
  outFmt : Nat
  first : Bool
  last : Bool
  block : Bool
  rope : Bool
  causal : Bool
  seqs : Nat
  group : Nat
  heads : Nat
  slots : Nat

def attnBody (d : Nat) : AttnBody :=
  { q := addrField d 16 (bit d (59 * 8 + 7)), acc := addrField d 22 (bit d (59 * 8 + 6))
    out := addrField d 28 (bit d (59 * 8 + 5)), kv := fieldAt d 34 0 48, seq := 32 * fieldAt d 40 0 16
    layer := fieldAt d 42 0 16, scale := fieldAt d 44 0 32, page0 := fieldAt d 48 0 32, pages := fieldAt d 52 0 16
    stat := fieldAt d 54 0 14, tag := fieldAt d 56 0 16, qFmt := fieldAt d 58 4 4, outFmt := fieldAt d 58 0 4
    first := bit d (59 * 8 + 4), last := bit d (59 * 8 + 3), block := bit d (59 * 8 + 2), rope := bit d (59 * 8 + 1)
    causal := bit d (59 * 8), seqs := fieldAt d 60 0 4 + 1, group := fieldAt d 61 0 8, heads := fieldAt d 62 0 4 + 1
    slots := fieldAt d 63 0 7 }

/-- BUCKET_SORT (R286). -/
structure SortBody where
  src : Nat
  dst : Nat
  count : Nat
  buckets : Nat

def sortBody (d : Nat) : SortBody :=
  { src := 32 * fieldAt d 16 0 16, dst := 32 * fieldAt d 18 0 16, count := fieldAt d 20 0 8
    buckets := fieldAt d 21 0 5 + 1 }

/-- The reserved fields of a class 0x4 body are 0. -/
def attnReserved (d : Nat) : Bool :=
  match dOpcode d with
  | 0x44 => onlyFields d [(16, 0, 16), (18, 0, 16), (20, 0, 8), (21, 0, 5)]
  | 0x45 => onlyFields d [(16, 0, 7), (20, 0, 32)]
  | 0x4E => onlyFields d [(16, 0, 48), (22, 0, 48), (28, 0, 16), (30, 0, 16), (32, 0, 32), (36, 0, 32), (40, 0, 7),
      (41, 6, 2), (41, 0, 4), (42, 0, 16), (44, 0, 8), (45, 0, 8), (46, 0, 32), (50, 0, 32)]
  | 0x4F => onlyFields d [(16, 0, 32), (20, 0, 8), (21, 0, 7), (22, 0, 16), (24, 0, 8), (25, 0, 8), (28, 6, 15)]
  | _ => onlyFields d [(16, 0, 48), (22, 0, 48), (28, 0, 48), (34, 0, 48), (40, 0, 16), (42, 0, 16), (44, 0, 32),
      (48, 0, 32), (52, 0, 16), (54, 0, 14), (56, 0, 16), (58, 0, 8), (59, 0, 8), (60, 0, 4), (61, 0, 8), (62, 0, 4),
      (63, 0, 7)]

/-- Bits of a local page index in a slot's split (R247). -/
def Slot.pageBits (e : Slot) : Nat := 24 - e.layerBits - e.groupBits

/-- A layer, group and run of pages lie inside a slot's split (R247, R266). -/
def Slot.spans (e : Slot) (layer group page n : Nat) : Bool :=
  decide (layer < 2 ^ e.layerBits) && decide (group < 2 ^ e.groupBits) && decide (page + n ≤ 2 ^ e.pageBits)

/-- Bytes of a 128-dimension row in a page format (R244). -/
def kvRow (f : Nat) : Nat := if f ≤ 1 then 256 else if f = 8 then 64 else 128

/-- Page formats that an append may open, or a demotion write, and their scales (R256, R263, R266). -/
def openScales (f : Nat) (l : List Nat) : Bool :=
  decide (f ≤ 3) && (if f ≤ 1 then l.all (· == 127) else l.all (· != 255))
def demoteFmt (f : Nat) : Bool := f == 2 || f == 3 || f == 8

/-- Fields of KV_APPEND in range (R266). -/
def State.appendRange (s : State) (c d : Nat) : Bool :=
  let b := appendBody d
  let row := 128 * ((Fmt.ofCode b.fmt).width / 8)
  (b.fmt == 0 || b.fmt == 1 || b.fmt == 0xA) && decide (b.n ≤ 1024) && openScales b.kFmt b.kScale
    && openScales b.vFmt b.vScale && decide (b.k.addr % 64 = 0) && decide (b.v.addr % 64 = 0)
    && strideOk b.n b.stride row && s.lsFits c b.k (spanOf b.n b.stride row) && s.lsFits c b.v (spanOf b.n b.stride row)
    && (b.k.space || decide (b.k.addr < 2 ^ 21)) && (b.v.space || decide (b.v.addr < 2 ^ 21))
    && (!s.slotOwned b.slot c || (s.slot b.slot).spans b.layer b.group (b.t0 / 128) ((b.t0 + b.n - 1) / 128 - b.t0 / 128 + 1))

/-- Fields of KV_DEMOTE in range. -/
def State.demoteRange (s : State) (c d : Nat) : Bool :=
  let b := demoteBody d
  decide (1 ≤ b.count) && decide (b.count ≤ 8) && demoteFmt b.kNew && demoteFmt b.vNew
    && s.lsFits c ⟨false, b.stage⟩ 65536
    && (!s.slotOwned b.slot c || (s.slot b.slot).spans b.layer b.group b.page0 b.count)

/-- Fields of an attention body in range (R270, R294). What depends on the sequence table is checked at the tile's start. -/
def State.attnRange (s : State) (c d : Nat) : Bool :=
  let b := attnBody d
  let bwd := dOpcode d == 0x42
  decide (b.qFmt ≤ 3) && (if bwd then rowFmt b.outFmt else decide (b.outFmt ≤ 3) || b.outFmt == 0xA)
    && (Fmt.f32.decode b.scale).isFinite && decide (1 ≤ b.pages) && decide (b.pages ≤ 1024)
    && (b.block || b.kv == 0) && decide (b.q.addr % 64 = 0) && decide (b.acc.addr % 64 = 0)
    && decide (b.out.addr % 64 = 0) && s.slotsFit c b.slots (if bwd then 44 else 8)
    && s.lsFits c ⟨false, b.seq⟩ (32 * b.seqs)

/-- Fields of BUCKET_SORT in range. -/
def State.sortRange (s : State) (c d : Nat) : Bool :=
  let b := sortBody d
  decide (1 ≤ b.count) && decide (b.count ≤ 128) && decide (b.buckets ≤ 16)
    && s.lsFits c ⟨false, b.src⟩ (32 * b.count) && s.lsFits c ⟨false, b.dst⟩ (512 * b.buckets)

/-- SEQ_DONE names no bound slot of its own context that runs on no channel (R289). -/
def State.doneRange (s : State) (c d : Nat) : Bool :=
  let q := fieldAt d 16 0 7
  !s.slotOwned q c || (s.slot q).decode

/-- Fields of a class 0x4 body in range. -/
def State.pipeRange (s : State) (c d : Nat) : Bool :=
  match dOpcode d with
  | 0x44 => s.sortRange c d
  | 0x45 => s.doneRange c d
  | 0x4E => s.appendRange c d
  | 0x4F => s.demoteRange c d
  | _ => s.attnRange c d

/-- KV_SLOT_ACCESS at the head of a stream: a slot not bound to the context; a SEQ_DONE may name a free slot
(R266, R289). -/
def State.pipeSlot (s : State) (c d : Nat) : Option Nat :=
  let bad (q : Nat) : Option Nat := if s.slotOwned q c then none else some 0x0505
  match dOpcode d with
  | 0x45 => if (s.slot (fieldAt d 16 0 7)).valid then bad (fieldAt d 16 0 7) else none
  | 0x4E => bad (appendBody d).slot
  | 0x4F => bad (demoteBody d).slot
  | _ => none

/-! ## Class 0x6: collectives (R369, R375, R382) -/

/-- COLL (R369). -/
structure CollBody where
  src : Nat
  dst : Nat
  counts : Nat
  norm : Nat
  op : Nat
  direct : Bool
  bf16 : Bool
  normEn : Bool
  blkSrc : Bool
  blkDst : Bool
  shardHdr : Bool
  shard : Nat
  blkOff : Nat
  blkLen : Nat

def collBody (d : Nat) : CollBody :=
  { src := fieldAt d 16 0 48, dst := fieldAt d 22 0 48, counts := fieldAt d 28 0 48, norm := fieldAt d 34 0 48
    op := fieldAt d 41 6 2, direct := bit d (41 * 8 + 5), bf16 := bit d (41 * 8 + 4), normEn := bit d (41 * 8 + 3)
    blkSrc := bit d (41 * 8 + 2), blkDst := bit d (41 * 8 + 1), shardHdr := bit d (41 * 8)
    shard := fieldAt d 44 0 12, blkOff := fieldAt d 46 0 9, blkLen := fieldAt d 48 0 10 }

/-- SHIFT (R375). -/
structure ShiftBody where
  src : Nat
  dst : Nat
  sendLen : Nat
  recvLen : Nat
  dist : Int
  vc : Nat

def shiftBody (d : Nat) : ShiftBody :=
  { src := fieldAt d 16 0 48, dst := fieldAt d 22 0 48, sendLen := fieldAt d 28 0 32, recvLen := fieldAt d 32 0 32
    dist := signed 8 (fieldAt d 37 0 8), vc := fieldAt d 38 0 1 }

/-- EXPERT_DISPATCH and EXPERT_COMBINE (R382). -/
structure ExpertBody where
  route : Nat
  tok : Nat
  land : Nat
  deferIn : Nat
  deferOut : Nat
  nTok : Nat
  slotRows : Nat
  deferMax : Nat
  /-- Row size in units of 64 B. -/
  rowUnits : Nat
  k : Nat
  outFmt : Nat
  layer : Nat

def expertBody (d : Nat) : ExpertBody :=
  { route := fieldAt d 16 0 48, tok := fieldAt d 22 0 48, land := fieldAt d 28 0 48, deferIn := fieldAt d 34 0 48
    deferOut := fieldAt d 40 0 48, nTok := fieldAt d 46 0 16 + 1, slotRows := fieldAt d 48 0 16, deferMax := fieldAt d 50 0 16
    rowUnits := 4 * (fieldAt d 52 0 8 + 1), k := fieldAt d 53 0 3 + 1, outFmt := fieldAt d 53 4 4, layer := fieldAt d 54 0 6 }

/-- The group that a COLL or SHIFT names, the op of R365, and the tag. -/
def xferOp (d : Nat) : Nat :=
  match dOpcode d with
  | 0x61 => fieldAt d 41 6 2
  | 0x62 => 4
  | 0x63 => 5
  | _ => 6

def xferTag (d : Nat) : Nat :=
  match dOpcode d with
  | 0x61 => fieldAt d 42 0 16
  | 0x62 => fieldAt d 40 0 16
  | _ => fieldAt d 56 0 16

def collReserved (d : Nat) : Bool :=
  match dOpcode d with
  | 0x61 => onlyFields d [(16, 0, 48), (22, 0, 48), (28, 0, 48), (34, 0, 48), (40, 0, 6), (41, 0, 8), (42, 0, 16), (44, 0, 12),
      (46, 0, 9), (48, 0, 10)]
  | 0x62 => onlyFields d [(16, 0, 48), (22, 0, 48), (28, 0, 32), (32, 0, 32), (36, 0, 6), (37, 0, 8), (38, 0, 1), (40, 0, 16)]
  | _ => onlyFields d [(16, 0, 48), (22, 0, 48), (28, 0, 48), (34, 0, 48), (40, 0, 48), (46, 0, 16), (48, 0, 16), (50, 0, 16),
      (52, 0, 8), (53, 0, 3), (53, 4, 4), (54, 0, 6), (56, 0, 16)]

/-- Fields of a class 0x6 body in range; no tick-bound transfer in Quarry mode (R379, R386). -/
def State.collRange (s : State) (d : Nat) : Bool :=
  (s.modeOf == 0 || !dTickBound d) &&
  match dOpcode d with
  | 0x61 =>
    let b := collBody d
    decide (b.src % 64 = 0) && decide (b.dst % 64 = 0) && decide (b.counts % 64 = 0) && decide (b.norm % 64 = 0)
      && (b.op != 3 || b.direct) && (!b.normEn || b.op == 1 || b.op == 2) && (b.normEn || b.norm == 0)
      && (!b.blkSrc || b.op == 0) && (!b.blkDst || b.op == 1) && (!b.shardHdr || b.blkSrc)
      && (!(b.blkSrc || b.blkDst) || (decide (1 ≤ b.blkLen) && decide (b.blkLen ≤ 512)))
  | 0x62 =>
    let b := shiftBody d
    decide (b.src % 64 = 0) && decide (b.dst % 64 = 0) && decide (b.dist ≠ 0)
  | op =>
    let b := expertBody d
    [b.route, b.tok, b.land, b.deferIn, b.deferOut].all (fun a => decide (a % 64 = 0))
      && (op != 0x64 || b.outFmt == 0 || b.outFmt == 0xA)

/-! ## Class 0x8: Whetstone (R310, R314, R324) -/

/-- WS_UPDATE (R314). -/
structure WsBody where
  blk : Nat
  step : Nat
  scal : Nat
  blocks : Nat
  shard : Nat
  list : Nat
  gpb : Nat
  f16 : Bool
  gHalf : Bool
  s1 : Nat
  s2 : Nat
  first : Bool
  last : Bool
  clip : Bool
  skip : Nat

def wsBody (d : Nat) : WsBody :=
  { blk := fieldAt d 16 0 48, step := fieldAt d 22 0 48, scal := fieldAt d 28 0 48, blocks := fieldAt d 34 0 32
    shard := fieldAt d 38 0 12, list := fieldAt d 40 0 4, gpb := fieldAt d 41 0 7, f16 := bit d (42 * 8 + 7)
    gHalf := bit d (42 * 8 + 6), s1 := fieldAt d 42 4 2, s2 := fieldAt d 42 2 2, first := bit d (42 * 8 + 1)
    last := bit d (42 * 8), clip := bit d (43 * 8 + 5), skip := fieldAt d 43 0 5 }

/-- Bytes per granule of the arrays P, M, G, S1 and S2 (R307). -/
def WsBody.sizes (b : WsBody) : List Nat :=
  [64, 128, if b.gHalf then 64 else 128, if b.s1 = 0 then 0 else if b.s1 = 1 then 128 else 64,
   if b.s2 = 0 then 0 else if b.s2 = 1 then 128 else if b.s2 = 2 then 64 else 4]

/-- Start of each array in a block, and the end of the last (R307). -/
def WsBody.layout (b : WsBody) : List Nat :=
  b.sizes.foldl (fun l n => l ++ [(l.getLastD 0 + n * b.gpb + 63) / 64 * 64]) [0]

/-- Bytes of a block in use. -/
def WsBody.end_ (b : WsBody) : Nat :=
  let o := b.layout
  if b.s2 = 0 then o.getD 4 0 else o.getD 4 0 + b.sizes.getD 4 0 * b.gpb

/-- WS_LEASE (R324). -/
structure LeaseBody where
  list : Addr
  mode : Nat
  count : Nat

def leaseBody (d : Nat) : LeaseBody :=
  { list := addrField d 16 (bit d (22 * 8 + 7)), mode := fieldAt d 22 0 2, count := fieldAt d 24 0 9 }

def wsReserved (d : Nat) : Bool :=
  match dOpcode d with
  | 0x81 => onlyFields d [(16, 0, 48), (22, 0, 48), (28, 0, 48), (34, 0, 32), (38, 0, 12), (40, 0, 4), (41, 0, 7), (42, 0, 8),
      (43, 0, 6)]
  | 0x82 => onlyFields d [(16, 0, 48), (22, 7, 1), (22, 0, 2), (24, 0, 9)]
  | _ => onlyFields d [(16, 0, 48)]

/-- Fields of a class 0x8 body in range; the class runs in Whole mode alone (R308, R332). -/
def State.wsRange (s : State) (c d : Nat) : Bool :=
  s.modeOf == 0 &&
  match dOpcode d with
  | 0x81 =>
    let b := wsBody d
    decide (1 ≤ b.blocks) && decide (b.blocks ≤ 1048576) && decide (1 ≤ b.gpb) && decide (b.gpb ≤ 64)
      && decide (b.s1 ≠ 3) && decide (b.end_ ≤ 32768) && decide (b.scal % 64 = 0) && (s.shard c b.shard).valid
  | 0x82 =>
    let b := leaseBody d
    decide (b.mode ≠ 3) && decide (1 ≤ b.count) && decide (b.count ≤ 256) && decide (b.list.addr % 16 = 0)
      && s.lsFits c b.list (16 * b.count)
  | _ => true
/-! ## What Assay weighs (R464, R467) -/

/-- An area that a tile writes: its address field, the lowest address written, the bytes from there to the highest, and the
bytes written. -/
structure OutArea where
  a : Addr
  lo : Int
  span : Nat
  bytes : Nat

/-- An area of rows. -/
def rowsOut (a : Addr) (rows stride len : Nat) : OutArea := ⟨a, a.addr, spanOf rows stride len, rows * len⟩

/-- `n` bytes of a context's local store as a number. -/
def State.lsNum (s : State) (core c off n : Nat) : Nat :=
  leNat ((List.range n).map fun i => s.lsByte core (s.lsAt c (off + i)))

/-- Bytes of an operand that lie in local store. -/
def localLen (a : Addr) (n : Nat) : Nat := if a.space then 0 else n

/-- A stream record of a kernel's block. -/
def State.kernRec (s : State) (core c : Nat) (b : KernBody) (i : Nat) : StreamRec := streamRec (s.lsNum core c (b.strmOff + 32 * i) 32)

/-- The records of a kernel's inputs and outputs: four inputs stand first (R162). -/
def State.kernIns (s : State) (core c : Nat) (b : KernBody) : List StreamRec := (List.range b.nIn).map (s.kernRec core c b)
def State.kernOuts (s : State) (core c : Nat) (b : KernBody) : List StreamRec := (List.range b.nOut).map fun i => s.kernRec core c b (4 + i)

/-- The area of a kernel's output of `n` elements: the extremes lie at the ends of rows. -/
def streamOut (r : StreamRec) (n : Nat) : OutArea :=
  let len := if r.rowLen = 0 then n else r.rowLen
  let rows := (n + len - 1) / len
  let l := ([0, min len n - 1, (rows - 1) * len, n - 1, (rows - 2) * len, (rows - 1) * len - 1].filter fun e => decide (e < n)).map (r.at_ n)
  let lo := l.foldl min (r.at_ n 0)
  ⟨r.addr, lo, (l.foldl max (r.at_ n 0) - lo).toNat + r.size, n * r.size⟩

/-- An output stands element for element where an input does (R177). -/
def inPlace (n : Nat) (o r : StreamRec) : Bool :=
  let row (x : StreamRec) : Nat := if x.rowLen = 0 then n else x.rowLen
  r.kind == 0 && o.addr == r.addr && o.size == r.size && row o == row r
    && (row o == 1 || o.elemStride == r.elemStride) && (decide (n ≤ row o) || o.rowStride == r.rowStride)

/-- The entries of an attention tile's sequence table: row0 and n_q (R271). -/
def State.seqRows (s : State) (core c : Nat) (b : AttnBody) : List (Nat × Nat) :=
  (List.range b.seqs).map fun i =>
    let r := s.lsNum core c (b.seq + 32 * i) 32
    (fieldAt r 2 0 7, if fieldAt r 8 0 32 = 0 then 0 else fieldAt r 1 0 7 + 1)

/-- The areas that a tile of an operation that Assay may check writes: those of its body's address fields in order, then those
that its record, stream block or amax cell names (R467). -/
def State.outAreas (s : State) (core c d : Nat) : List OutArea :=
  match dOpcode d with
  | 0x21 =>
    let b := kernBody d
    (s.kernOuts core c b).map (fun r => streamOut r (b.outCount r)) ++ (if b.amax then [rowsOut ⟨false, b.amaxOff⟩ 1 4 4] else [])
  | 0x41 | 0x43 =>
    let b := attnBody d
    let l := s.seqRows core c b
    let pairs := b.heads * l.foldl (fun n r => max n (r.1 + r.2)) 0
    let rows := b.heads * l.foldl (fun n r => n + r.2) 0
    let o := rowBytes b.outFmt 128
    [⟨b.acc, b.acc.addr, 512 * pairs, 512 * rows⟩, ⟨b.out, b.out.addr, o * pairs, o * rows⟩]
  | op =>
    if dClass d = 1 then
      let b := matBody d
      let p := matParam (s.lsNum core c b.prm 64)
      [rowsOut b.c b.m b.cStride (rowBytes p.dstFmt b.n)]
        ++ (if fmtMx p.dstFmt then [rowsOut p.dScale b.m p.dScaleStride (scaleBytes b.n)] else [])
        ++ (if p.amax then [rowsOut ⟨false, p.amaxOff⟩ 1 4 4] else [])
    else
      let b := rowBody d
      if b.writesY op then [rowsOut b.y b.rows b.yStride (rowBytes b.yFmt b.cols)] else []

/-- Bytes that a tile writes into statistics records. -/
def State.recordBytes (s : State) (core c d : Nat) : Nat :=
  match dOpcode d with
  | 0x41 | 0x43 => 16 * (attnBody d).heads * (s.seqRows core c (attnBody d)).foldl (fun n r => n + r.2) 0
  | _ => if dClass d = 3 ∧ (rowBody d).mode = 1 then 16 * (rowBody d).rows else 0

/-- Bytes of a tile's inputs that lie in local store (R464). -/
def State.localInputs (s : State) (core c d : Nat) : Nat :=
  match dOpcode d with
  | 0x21 =>
    let b := kernBody d
    8 * b.nOps + 192 + (if b.amax then 4 else 0)
      + (s.kernIns core c b).foldl (fun n r => n + localLen r.addr (r.size * (if r.kind = 1 then r.tableLen else b.n))) 0
  | 0x41 | 0x43 =>
    let b := attnBody d
    let rows := b.heads * (s.seqRows core c b).foldl (fun n r => n + r.2) 0
    32 * (b.seqs + b2n b.block) + localLen b.q (rows * rowBytes b.qFmt 128)
  | op =>
    if dClass d = 1 then
      let b := matBody d
      let p := matParam (s.lsNum core c b.prm 64)
      let ew := op == 0x15
      let k := if ew then b.n else b.k
      let bRows := if ew then b.m else b.n
      64 + localLen b.a (b.m * rowBytes b.aFmt k) + (if ew ∧ b.ewOp = 2 then 0 else localLen b.b (bRows * rowBytes b.bFmt k))
        + (if fmtMx b.aFmt then localLen p.aScale (b.m * scaleBytes k) else 0)
        + (if fmtMx b.bFmt then localLen p.bScale (bRows * scaleBytes k) else 0)
        + (if b.rowMask then (b.m + 7) / 8 else 0) + (if b.colMask then (b.n + 7) / 8 else 0)
        + (if p.vscale = 0 then 0 else 4 * (if p.vscale = 1 then b.m else b.n)) + (if p.bias then 4 * b.n else 0) + (if p.amax then 4 else 0)
    else
      let b := rowBody d
      64 + localLen b.x (b.rows * rowBytes b.xFmt b.cols) + (if rowBwd op then localLen b.dy (b.rows * rowBytes b.dyFmt b.cols) else 0)
        + (if b.gamma then 4 * b.cols else 0) + (if b.beta then 4 * b.cols else 0)
        + (if b.maskMode = 1 then 4 * b.rows else if b.maskMode = 2 then maskRow b.cols * b.rows else 0)

/-- The condition of R464 for a tile's operation. -/
def State.operEligible (s : State) (core c d : Nat) : Bool :=
  match dOpcode d with
  | 0x21 =>
    let b := kernBody d
    (s.kernOuts core c b).all fun o => (s.kernIns core c b).all fun r => !inPlace (b.outCount o) o r
  | 0x41 | 0x43 => (attnBody d).first && (attnBody d).last
  | op =>
    if op = 0x11 ∨ op = 0x15 then (matBody d).epi && !(matBody d).accAdd && (matBody d).fan == 0
    else if op = 0x31 ∨ op = 0x33 ∨ op = 0x35 then (rowBody d).phase == 0 && decide ((rowBody d).mode ≤ 1)
    else if op = 0x32 ∨ op = 0x34 ∨ op = 0x36 then (rowBody d).phase == 0 && !(rowBody d).pg
    else false

/-- A tile is eligible for re-execution (R464). -/
def State.eligible (s : State) (core c d : Nat) : Bool :=
  s.operEligible core c d && decide (s.localInputs core c d ≤ 65536)
    && decide ((s.outAreas core c d).foldl (fun n o => n + o.bytes) (s.recordBytes core c d) ≤ 2 ^ 23)

/-! ## The checks of R64 -/

/-- The body's reserved fields are 0. -/
def bodyReserved (d : Nat) : Bool :=
  match dClass d with
  | 1 => matReserved d
  | 2 => kernReserved d
  | 3 => rowReserved d
  | 4 => attnReserved d
  | 5 => dmaReserved d
  | 6 => collReserved d
  | 7 => ctlReserved d
  | 8 => wsReserved d
  | _ => true

/-- The body's fields are in range. -/
def State.bodyRange (s : State) (core c d : Nat) : Bool :=
  match dClass d with
  | 1 => s.matRange core c d
  | 2 => s.kernRange c d
  | 3 => s.rowRange c d
  | 4 => s.pipeRange c d
  | 5 => s.dmaRange c d
  | 6 => s.collRange d
  | 7 => ctlRange d
  | 8 => s.wsRange c d
  | _ => true

/-- Checks of a class with a code of its own. -/
def State.bodyOther (s : State) (c d : Nat) : Option Nat :=
  match dClass d with
  | 4 => s.pipeSlot c d
  | _ => none

/-- A semaphore reference that context `c` on a core may use (R64, R68, R69). -/
def State.semRefOk (s : State) (core c ref : Nat) : Bool := !semNamesNone ref && (s.sem (semKey core ref)).permits c

/-- The checks of a descriptor at the head of its stream, in the order of R64: none, or the code of the fault. In Quarry mode every
class 0x8 descriptor is out of range, whatever else it holds (R308). -/
def State.descCheck (s : State) (core c d : Nat) : Option Nat :=
  if dClass d = 8 ∧ s.modeOf ≠ 0 then some 0x0207
  else if knownOpcode (dOpcode d) = false then some 0x0201
  else if fieldAt d 1 0 3 ≠ 0 ∨ (semRefs d).any (fun r => bits r 12 3 != 0) ∨ bodyReserved d = false then some 0x0202
  else if headerRange d = false ∨ s.bodyRange core c d = false then some 0x0207
  else if (semRefs d).all (s.semRefOk core c) = false then some 0x0204
  else s.bodyOther c d

end Sys2Proof.Machine
end

