-- ==== Sys2Proof/Machine/Evidence.lean ====
section
/-! DEFINITION. What Assay takes from a tile: the signature of its writes (R467), and the regions that an evidence entry holds
(R470, R471). -/

namespace Sys2Proof.Machine

/-! ## Signatures (R467) -/

/-- Eight steps of CRC-64/ECMA-182. -/
def crc64Steps : Nat → BitVec 64 → BitVec 64
  | 0, r => r
  | n + 1, r => crc64Steps n (if r.getLsbD 63 then (r <<< 1) ^^^ 0x42F0E1EBA9EA3693 else r <<< 1)

/-- One byte. -/
def crc64Byte (r : BitVec 64) (b : Byte) : BitVec 64 := crc64Steps 8 (r ^^^ (b.setWidth 64 <<< 56))

/-- CRC-64/ECMA-182 of a list of bytes. -/
def crc64 (l : List Byte) : Nat := (l.foldl crc64Byte 0).toNat

/-- A unit that a tile has written: its output number, its offset from the start of the output, and its bytes. -/
structure SigUnit where
  out : Nat
  off : Nat
  data : List Byte

/-- The value of a unit. -/
def SigUnit.value (u : SigUnit) : Nat := crc64 (leBytes 6 u.off ++ [0#8] ++ leBytes 1 u.out ++ u.data)

/-- Bytes laid over a list from a place on. -/
def overlay (l : List Byte) (i : Nat) (b : List Byte) : List Byte := l.take i ++ b ++ l.drop (i + b.length)

/-- A write of at most one granule joins the units, the last write of a byte standing. -/
def joinUnits (out off i : Nat) (b : List Byte) : List SigUnit → List SigUnit
  | [] => [⟨out, off, overlay (List.replicate 64 0) i b⟩]
  | u :: r => if u.out = out ∧ u.off = off then { u with data := overlay u.data i b } :: r else u :: joinUnits out off i b r

/-- The area in which a write lies, and its number. -/
def areaOf (areas : List OutArea) (space : Bool) (a : Nat) : Option (Nat × OutArea) :=
  (indexed areas).find? fun (e : Nat × OutArea) =>
    e.2.a.space == space && decide (e.2.lo ≤ (a : Int)) && decide ((a : Int) < e.2.lo + (e.2.span : Int))

/-- The granules that a tile wrote, by output. -/
def granUnits (areas : List OutArea) (l : List (Nat × Nat × List Byte)) : List SigUnit :=
  l.foldl (fun us (w : Nat × Nat × List Byte) =>
    if 2 ≤ w.1 then us
    else match areaOf areas (w.1 == 1) w.2.1 with
      | some (n, o) => joinUnits n (64 * (w.2.1 / 64 - o.lo.toNat / 64)) (w.2.1 % 64) w.2.2 us
      | none => us) []

/-- The statistics records that a tile wrote, the last write of each standing; they count from the lowest. -/
def recUnits (l : List (Nat × Nat × List Byte)) : List SigUnit :=
  let w := l.filter fun (w : Nat × Nat × List Byte) => w.1 == 2
  let low := (w.map fun (x : Nat × Nat × List Byte) => x.2.1).foldl min (w.head?.elim 0 fun (x : Nat × Nat × List Byte) => x.2.1)
  let last : SMap (List Byte) := w.foldl (fun m (x : Nat × Nat × List Byte) => SMap.put (fun _ => []) m x.2.1 x.2.2) []
  last.map fun (e : Nat × List Byte) => ⟨15, 16 * (e.1 - low), e.2⟩

/-- The state in which a checked tile's core has the local store that its inputs were copied from (R466). -/
def State.checkView (s : State) (t : Tile) : State :=
  match t.copy with
  | some z => { s with mem := { s.mem with ls := z.1, lsPoison := z.2 } }
  | none => s

/-- The signature of what a log says that a tile has written. -/
def State.signature (s : State) (t : Tile) (l : List (Nat × Nat × List Byte)) : Nat :=
  let areas := (s.checkView t).outAreas t.core t.ctx t.desc
  ((granUnits areas l ++ recUnits l).foldl (fun n u => n + u.value) 0) % 2 ^ 64

/-! ## Evidence (R469, R470) -/

/-- Evidence entry `i`. -/
def State.evid (s : State) (i : Nat) : Evid := SMap.get (fun _ => {}) s.err.evid i

/-- The state with an evidence entry replaced. -/
def State.setEvid (s : State) (i : Nat) (v : Evid) : State :=
  { s with err := { s.err with evid := SMap.put (fun _ => {}) s.err.evid i v } }

/-- An evidence entry may be filled (R470). -/
def State.evidFree (s : State) (i : Nat) : Bool :=
  match (s.evid i).use_ with
  | .never => true
  | .copied => true
  | .replayed => !s.flag Fld.evidEnable
  | .captured => !s.flag Fld.evidEnable && !s.flag Fld.reserveEn

/-- A range of bytes joins rising runs, none of which touches another. -/
def addRun (lo hi : Nat) : List (Nat × Nat) → List (Nat × Nat)
  | [] => [(lo, hi)]
  | r :: l =>
    if hi < r.1 then (lo, hi) :: r :: l
    else if r.2 < lo then r :: addRun lo hi l
    else addRun (min lo r.1) (max hi r.2) l

/-- The runs of bytes that a tile read in local store or memory and had not written itself. -/
def inputRuns (space : Bool) (l : List (Nat × Nat × List Byte)) : List (Nat × Nat) :=
  let k := b2n space
  (l.foldl (fun (z : List (Nat × Nat) × List (Nat × Nat)) w =>
    let lo := w.2.1
    let hi := lo + w.2.2.length
    if w.1 = k then (addRun lo hi z.1, z.2)
    else if w.1 = 3 + k ∧ (z.1.any fun r => decide (r.1 ≤ lo) && decide (hi ≤ r.2)) = false then (z.1, addRun lo hi z.2)
    else z) ([], [])).2

/-- The runs of bytes that a tile wrote in its output `n`. -/
def outputRuns (areas : List OutArea) (n : Nat) (l : List (Nat × Nat × List Byte)) : List (Nat × Nat) :=
  l.foldl (fun z w =>
    if w.1 < 2 ∧ ((areaOf areas (w.1 == 1) w.2.1).any fun (e : Nat × OutArea) => e.1 == n) then addRun w.2.1 (w.2.1 + w.2.2.length) z
    else z) []

/-- One region that is to be captured: its space, its output number, and its bytes `[lo, hi)`. -/
structure EvidPlace where
  space : Bool
  out : Nat
  lo : Nat
  hi : Nat

/-- The regions of an entry in the order of R470: the memory inputs, the outputs by number, the local-store inputs. Each is as long as
it can be (log entry 98). -/
def State.evidPlaces (s : State) (t : Tile) (ins outs : List (Nat × Nat × List Byte)) : List EvidPlace :=
  let areas := (s.checkView t).outAreas t.core t.ctx t.desc
  let mk (space : Bool) (out : Nat) (r : Nat × Nat) : EvidPlace := ⟨space, out, r.1, r.2⟩
  (inputRuns true ins).map (mk true 15)
    ++ (indexed areas).flatMap (fun (e : Nat × OutArea) => (outputRuns areas e.1 outs).map (mk e.2.a.space e.1))
    ++ (inputRuns false ins).map (mk false 15)

/-- The bytes of a region as they stand: a local-store input in the checker's copy, or in the primary core where there is none; a place
that does not read has free bytes (R470). -/
def State.placeBytes (s : State) (t : Tile) (p : EvidPlace) : List Byte × State :=
  if p.space = false ∧ p.out = 15 then
    let v := s.checkView t
    ((List.range (p.hi - p.lo)).map fun i => v.lsByte t.core (v.lsAt t.ctx (p.lo + i)), s)
  else match (readCopy t.core t.ctx ⟨p.space, p.lo⟩ (p.hi - p.lo)) s with
    | (.ok r, s') => (r.1, s')
    | (.error _, s') => s'.freshBytes (p.hi - p.lo)

/-- The regions with their bytes, where they are 1 to 32 and 8 MiB at most. -/
def State.evidRegions (s : State) (t : Tile) (ins outs : List (Nat × Nat × List Byte)) : Option (List EvidRegion) × State :=
  let l := s.evidPlaces t ins outs
  if l.length = 0 ∨ 32 < l.length ∨ 2 ^ 23 < l.foldl (fun n p => n + (p.hi - p.lo)) 0 then (none, s)
  else
    let z := l.foldl (fun (z : List EvidRegion × State) p =>
      let b := z.2.placeBytes t p
      (z.1 ++ [⟨p.space, p.lo, p.out, b.1⟩], b.2)) ([], s)
    (some z.1, z.2)

/-- Evidence of a tile is captured in the entry after the one filled last, when that is free; `ins` and `outs` are logs of what the
tile reads and of what it wrote. The open record of its context names the entry, and a replay is due when the reserve is held
(R470 to R472). -/
def State.capture (s : State) (t : Tile) (source checker sigP sigC : Nat) (ins outs : List (Nat × Nat × List Byte)) : State :=
  let i := s.err.nextEvid
  if s.evidFree i then
    let k := s.openRec domContext t.ctx
    let r := s.evidRegions t ins outs
    let s := r.2
    let v : Evid := { use_ := .captured, source := source, primary := t.core, checker := checker, ctx := t.ctx, sigPrimary := sigP
                      sigChecker := sigC, seed := (s.ctxAt t.ctx).seed, stratum := t.startCount, ordinal := t.ordinal
                      descriptor := t.desc, regions := r.1, record := k }
    let s := s.setEvid i v
    let s := { s with err := { s.err with nextEvid := (i + 1) % 8 } }
    let s := match k with | some k => s.setRec k { s.errRec k with evid := some i } | none => s
    if s.flag Fld.reserveEn then s.setFld Fld.replayBusy 1 else s
  else s

/-! ## Logs -/

/-- The state in which what a tile writes and reads is logged from here on. -/
def State.logged (s : State) : State := { s with core := { s.core with log := some [] } }

/-- The log, the latest last. -/
def State.accesses (s : State) : List (Nat × Nat × List Byte) := (s.core.log.getD []).reverse

end Sys2Proof.Machine
end

