-- ==== Sys2Proof/Machine/Sequences.lean ====
section
/-! DEFINITION. The frames of sequence windows: the pool of a context, the leaves that Flint maps and clears, and the
release of slots (R250, R258 to R260). -/

namespace Sys2Proof.Machine

/-- The physical address of a context's last-level entry for an address, where its tree has that table (R227). -/
def State.leafEntryFrom (s : State) (va : Nat) : Nat → List Level → Option Nat
  | _, [] => none
  | t, [l] => some (t + 8 * bits va l.shift l.width)
  | t, l :: rest =>
    let e := leNat (s.physBytes (t + 8 * bits va l.shift l.width) 8)
    if bit e 0 && !bit e 1 then s.leafEntryFrom va (bits e 10 38 * 1024) rest else none

/-- The last-level entry of context `c` for an address. -/
def State.leafEntry (s : State) (c va : Nat) : Option Nat := s.leafEntryFrom va (s.ctxAt c).ptRoot walkLevels

/-- Frames of the pool of a context, in pool order (R258). -/
def Ctx.poolFrames (x : Ctx) : List Nat := x.kvPool.flatMap fun r => (List.range r.2).map fun i => r.1 + 2 ^ 14 * i

/-- Flint may map a frame of 16 KiB: it is not retired, and no granule of it lies on a fenced channel (R225, R447). -/
def State.frameUsable (s : State) (pa : Nat) : Bool :=
  !s.mem.retired.contains pa && (List.range 8).all fun i =>
    match (s.place (pa + 2048 * i)).channel with | some ch => !s.channelFenced ch | none => true

/-- The free frames of a context's pool, in pool order (R258). -/
def State.freeFrames (s : State) (c : Nat) : List Nat :=
  (s.ctxAt c).poolFrames.filter fun pa =>
    s.frameUsable pa && !(s.ctxAt c).kvTables.contains pa && !s.kv.frames.any fun f => f.ctx == c && f.pa == pa

/-- Where the walk of an address from a table on meets an invalid entry: the entry's address, and the levels below it, which have no
table yet. None where the walk ends otherwise (R229). -/
def State.gapFrom (s : State) (c va : Nat) : Nat → List Level → Option (Nat × List Level)
  | _, [] => none
  | t, l :: rest =>
    match (s.walkEntry c va t l).1 with
    | .error e => if e = 0x0101 then some (t + 8 * bits va l.shift l.width, rest) else none
    | .ok (.inl _) => none
    | .ok (.inr a) => s.gapFrom c va a rest

/-- Where the tree of context `c` lacks the leaf of an address. -/
def State.gap (s : State) (c va : Nat) : Option (Nat × List Level) := s.gapFrom c va (s.ctxAt c).ptRoot walkLevels

/-- Flint maps a frame into a subslot whose last-level entry lies at `e`: a leaf of 16 KiB that permits writes (R228, R258). -/
def State.mapFrame (s : State) (c q va pa e : Nat) : State :=
  let s := s.writeGran e (e % 64) (leBytes 8 (pa + 7)) false
  { s with kv := { s.kv with frames := s.kv.frames ++ [⟨c, q, va, pa⟩] } }

/-- Flint makes an empty table of a level in a frame of the pool, which the entry at `e` points to (R227, R228). -/
def State.makeTable (s : State) (c pa e : Nat) (l : Level) : State :=
  let s := (List.range (l.table / 64)).foldl (fun s i => s.writeGran (pa + 64 * i) 0 (leBytes 64 0) false) s
  let s := s.writeGran e (e % 64) (leBytes 8 (pa + 1)) false
  s.setCtx c { s.ctxAt c with kvTables := (s.ctxAt c).kvTables ++ [pa] }

/-- Flint maps a subslot from an invalid entry down: the tables that are missing and then the leaf, each in the next of the frames. -/
def State.mapDown (s : State) (c q va : Nat) : Nat → List Level → List Nat → State
  | _, _, [] => s
  | e, [], pa :: _ => s.mapFrame c q va pa e
  | e, l :: rest, pa :: frames => (s.makeTable c pa e l).mapDown c q va (pa + 8 * bits va l.shift l.width) rest frames

/-- Flint serves a fault on a subslot: it takes no frame where the subslot has been mapped since; else it maps the pool's first free
frame, after one for each table that the tree lacks there (log entry 30). None where the frames do not suffice, or where the entry lies
in a page that an epoch protects (R258, R259, R485). -/
def State.serveFault (s : State) (c q va : Nat) : Option State :=
  match s.gap c va with
  | none => some s
  | some (e, rest) =>
    let l := s.freeFrames c
    if l.length ≤ rest.length ∨ s.protectedAt e then none else some (s.mapDown c q va e rest l)

/-- Waits of the same context, on other subslots, that Flint serves before a wait (R259, R260). -/
def State.waitsBefore (s : State) (w : KvWait) : List Nat :=
  (((s.kv.waits.takeWhile (· != w)).filter fun x => x.ctx == w.ctx && x.va != w.va && !x.lost).map (·.va)).eraseDups

/-- Flint can serve a wait, after those that it serves before it (R258, R260). -/
def State.frameFor (s : State) (w : KvWait) : Bool :=
  (((s.waitsBefore w).foldl (fun t va => (t.serveFault w.ctx w.slot va).getD t) s).serveFault w.ctx w.slot w.va).isSome

/-- A tick of quarry `q`: a wait whose budget expires at it with no frame for it is lost (R42, R260). -/
def State.loseWaits (s : State) (q : Nat) : State :=
  let over_ (w : KvWait) : Bool := s.ctxQuarry w.ctx == q && decide (w.expires ≤ s.ticksOf w.ctx) && !s.frameFor w
  { s with kv := { s.kv with waits := s.kv.waits.map fun w => { w with lost := w.lost || over_ w } } }

/-- The translations of a subslot leave every TLB (R231). -/
def State.forget (s : State) (c va : Nat) : State :=
  { s with mem := { s.mem with tlb := s.mem.tlb.filter fun e =>
      !(e.ctx == c && decide (e.base ≤ va) && decide (va < e.base + e.size)) } }

/-- Flint clears the leaf of a subslot, invalidates it and has the frame back in the pool (R250, R265). -/
def State.unmapFrame (s : State) (f : KvFrame) : State :=
  let s := match s.leafEntry f.ctx f.va with
    | some e => s.writeGran e (e % 64) (leBytes 8 0) false
    | none => s
  let s := s.forget f.ctx f.va
  { s with kv := { s.kv with frames := s.kv.frames.filter fun g => g != f } }

/-- The frames that `p` picks are released. -/
def State.unmapFrames (s : State) (p : KvFrame → Bool) : State := (s.kv.frames.filter p).foldl State.unmapFrame s

/-- Slot `q` is released: its frames go back to the pool and its entry is cleared (R250). -/
def State.releaseSlot (s : State) (q : Nat) : State :=
  let s := s.unmapFrames fun f => f.slot == q && f.ctx == (s.slot q).ctx
  s.setSlot q {}

/-- The slots bound to context `c`. -/
def State.slotsOf (s : State) (c : Nat) : List Nat := (List.range 128).filter fun q => s.slotOwned q c

/-- The status with which the sequence of a slot completes (R424). -/
def Slot.seqStatus (e : Slot) : Nat := if e.status = 0 then 0 else 0x0500 + e.status

/-- The job of context `c` has ended: each decode sequence that has not completed does so, with end_code 0, and keeps its slot
until the completion is written; the other slots are released (R250, R421, R432). -/
def State.endSequences (s : State) (c : Nat) : State :=
  (s.slotsOf c).foldl (fun s q =>
    if s.host.compls.any (fun x => x.slot == some q) then s
    else if (s.slot q).decode then s.postSequence q (s.slot q).seqStatus 0
    else s.releaseSlot q) s

end Sys2Proof.Machine
end

