-- ==== Sys2Proof/Machine/Port.lean ====
section
/-! DEFINITION. Sending on Vein: symbols, routes, credits, the order of flits, the replay buffer and link control
(R344, R346 to R353). -/

namespace Sys2Proof

/-- A tick, done or stretch symbol: it takes no credit (R344). -/
def Packet.symbol (p : Packet) : Bool := p.type == 5 || p.type == 6 || p.type == 7

/-- Fields of a symbol's body (R344). -/
def Packet.domain (p : Packet) : Nat := p.body % 4096
def Packet.count (p : Packet) : BitVec 48 := BitVec.ofNat 48 (p.body / 2 ^ 16)
def Packet.abort (p : Packet) : Bool := Machine.bit p.body 64

/-- A single-flit packet of type 0x04 or 0x08 may use the escape flit (R348). -/
def Packet.mayEscape (p : Packet) : Bool := (p.type == 4 || p.type == 8) && p.data == []

/-- The number of a flit (R351). -/
def WireFlit.num : WireFlit → Option Nat
  | .header n _ _ _ => some n
  | .data n _ _ _ => some n
  | _ => none

end Sys2Proof

namespace Sys2Proof.Machine

/-! ## Packets (R343, R344) -/

/-- Virtual channel of the control and tick packets. -/
def vcControl : Nat := 3

/-- dst of a packet for the neighbour itself (R343). -/
def dstNeighbour : Nat := 0xFFF

/-- This module's ID (R338). -/
def State.moduleId (s : State) : Nat := s.fld Fld.moduleId

/-- A symbol of type `ty` (R344). -/
def symbolPacket (ty src domain : Nat) (count : BitVec 48) (abort : Bool) : Packet :=
  { dst := dstNeighbour, src := src, job := 0, vc := vcControl, escape := false, type := ty, xfer := 0, offset := 0
    body := domain % 4096 + count.toNat * 2 ^ 16 + b2n abort * 2 ^ 64, data := [] }

/-- A ROUTE_FAIL notice, naming dst and job; the layout of its body is the model's (log entry 40). A module that holds no context of
the job sends it under job 0, the job of what serves the modules themselves (log entry 180). -/
def failNotice (dest own under dst job : Nat) : Packet :=
  { dst := dest, src := own, job := under, vc := vcControl, escape := false, type := 8, xfer := 0, offset := 0
    body := dst % 4096 + job % 4096 * 2 ^ 16, data := [] }

/-- Bytes 0 to 251 of the header flit of a packet with a number and a count of data flits (R343). -/
def headerBytes (seq nData : Nat) (k : Packet) : List Byte :=
  leBytes 8 (k.dst % 2 ^ 12 + k.src % 2 ^ 12 * 2 ^ 16 + k.job % 2 ^ 12 * 2 ^ 32 + k.vc % 4 * 2 ^ 48 + b2n k.escape * 2 ^ 55 + k.type % 256 * 2 ^ 56)
    ++ leBytes 8 (nData % 2 ^ 10 + seq % 2 ^ 12 * 2 ^ 16 + k.xfer % 2 ^ 32 * 2 ^ 32) ++ leBytes 8 (k.offset % 2 ^ 48)
    ++ List.replicate 40 0 ++ leBytes 188 k.body

/-- The crc of a header flit (R343). -/
def headerCrc (seq nData : Nat) (k : Packet) : Nat := crc32 (headerBytes seq nData k)

/-! ## Pools (R348, R349) -/

/-- The context that takes part in a job (R345). -/
def State.jobCtx (s : State) (job : Nat) : Option Nat :=
  ctxNumbers.find? fun c => s.flag (Fld.jobValid c) && s.fld (Fld.jobId c) == job && s.ctxState c != csFree

/-- The context whose pools serve a job: the one that takes part, or one that has left Vein traffic with that job (R348, R377; log
entry 180). -/
def State.poolCtx (s : State) (job : Nat) : Option Nat :=
  match s.jobCtx job with
  | some c => some c
  | none => ctxNumbers.find? fun c => s.fld (Fld.jobId c) == job

/-- The hub pool, and no pool. -/
def poolHub : Nat := 32
def poolNone : Nat := 33

/-- The pool whose credits a packet takes at a port of this module. -/
def State.poolOf (s : State) (p : Packet) : Nat :=
  if p.type = 9 then poolHub
  else if p.symbol ∨ p.job = 0 then poolNone
  else match s.poolCtx p.job with
    | some c => 4 * c + p.vc % 4
    | none => poolNone

/-- The pool of the receiver whose buffer holds a packet that has arrived. -/
def State.poolIn (s : State) (p : Packet) : Nat := if p.escape then poolEscape else s.poolOf p

/-- Size of a pool of a port. -/
def State.poolSize (s : State) (p pool : Nat) : Nat := SMap.get (fun _ => 0) s.vein.pools (64 * p + pool)

/-- Credits that the sender holds in a pool: the peer's pool is taken to be as large as its own (log entry 41). -/
def State.credits (s : State) (p pool : Nat) : Nat :=
  let b := s.port p
  s.poolSize p pool - (SMap.get (fun _ => 0) b.used pool + 65536 - SMap.get (fun _ => 0) b.returned pool) % 65536

/-- The escape flit is free (R348). -/
def Port.escapeFree (b : Port) : Bool := (b.escUsed + 65536 - b.escReturned) % 65536 == 0

/-- Data flits of a packet. -/
def OutPkt.nData (o : OutPkt) : Nat := o.pkt.data.length + o.more

/-- A packet may start: credits for every flit of it, or the escape flit. -/
def State.canStart (s : State) (p : Nat) (o : OutPkt) : Bool :=
  o.pkt.symbol || decide (1 + o.nData ≤ s.credits p o.pool) || (o.pkt.mayEscape && (s.port p).escapeFree)

/-! ## The flits of a slot (R350) -/

/-- A port carries traffic (R356). -/
def State.carries (s : State) (p : Nat) : Bool := s.fld (Fld.portState p) == psUp || s.fld (Fld.portState p) == psDegraded

/-- The packet in progress on a channel. -/
def Port.flow (b : Port) (vc : Nat) : Option OutPkt := b.cur.find? fun o => o.pkt.vc == vc

/-- The packet that starts next on a channel: contexts take turns packet by packet. -/
def State.nextPacket (s : State) (p vc : Nat) : Option OutPkt :=
  let b := s.port p
  let mine := b.queue.filter fun o => o.pkt.vc == vc && !o.pkt.symbol
  let last := SMap.get (fun _ => 39) b.lastPool vc
  (List.range 40).findSome? fun i =>
    match mine.find? fun o => o.pool == (last + 1 + i) % 40 with
    | some o => if s.canStart p o then some o else none
    | none => none

/-- A numbered flit leaves a port and enters its replay buffer (R351, R352). -/
def State.emit (s : State) (p : Nat) (f : WireFlit) : WireFlit × State :=
  let b := s.port p
  (f, s.setPort p { b with seq := (b.seq + 1) % 4096, replay := b.replay ++ [f], ackAt := if b.replay = [] then s.now else b.ackAt })

/-- One flit of a transit packet leaves the buffer of its port (R348). -/
def State.freeFlit (s : State) (o : OutPkt) : State :=
  match o.src with
  | some i => s.freePool i.1 i.2 1
  | none => s

/-- A packet starts: its header flit leaves, and it takes its credits. -/
def State.startPacket (s : State) (p : Nat) (o : OutPkt) : WireFlit × State :=
  let n := 1 + o.nData
  let esc := !o.pkt.symbol && !decide (n ≤ s.credits p o.pool)
  let s := s.freeFlit o
  let b := s.port p
  let b := { b with queue := b.queue.erase o, lastPool := SMap.put (fun _ => 39) b.lastPool o.pkt.vc o.pool }
  let b := if o.pkt.symbol then b
    else if esc then { b with escUsed := (b.escUsed + 1) % 65536 }
    else { b with used := SMap.put (fun _ => 0) b.used o.pool ((SMap.get (fun _ => 0) b.used o.pool + n) % 65536) }
  let b := if o.nData = 0 then b else { b with cur := b.cur ++ [o] }
  let k := { o.pkt with data := [], escape := esc }
  (s.setPort p b).emit p (.header b.seq (headerCrc b.seq o.nData k) o.nData k)

/-- The next data flit of a packet in progress leaves. -/
def State.sendData (s : State) (p : Nat) (o : OutPkt) (d : Nat × Nat) (rest : List (Nat × Nat)) : WireFlit × State :=
  let s := s.freeFlit o
  let b := s.port p
  let cur := b.cur.filter fun x => x.pkt.vc != o.pkt.vc
  let b := { b with cur := if rest = [] ∧ o.more = 0 then cur else cur ++ [{ o with pkt := { o.pkt with data := rest } }] }
  (s.setPort p b).emit p (.data b.seq o.pkt.vc d.2 d.1)

/-- One channel claims the slot: it goes on with its packet, or starts one. A transit packet whose next flit has not yet come claims
none. -/
def State.channelFlit (s : State) (p vc : Nat) : Option (WireFlit × State) :=
  match (s.port p).flow vc with
  | some o => (match o.pkt.data with
    | d :: rest => some (s.sendData p o d rest)
    | [] => none)
  | none => (s.nextPacket p vc).map fun o => s.startPacket p o

/-- Channels 0 to 2 take turns flit by flit. -/
def State.turnFlit (s : State) (p : Nat) : Option (WireFlit × State) :=
  let b := s.port p
  [1, 2, 3].findSome? fun i =>
    let vc := (b.lastVc + i) % 3
    (s.channelFlit p vc).map fun r => (r.1, r.2.setPort p { r.2.port p with lastVc := vc })

/-- The link control flit that a port would send. -/
def Port.controlFlit (b : Port) (nak : Bool) : LinkControl :=
  { ack := (b.rxNext + 4095) % 4096, nak := nak, expected := b.rxNext
    pools := (List.range 33).map (SMap.get (fun _ => 0) b.freed), escape := b.escFreed }

/-- The flit that claims the next slot of a port: a link control flit that is due, the next of a replay, and then, while the replay
buffer has room, a symbol, channel 3, and channels 0 to 2 (R350, R352; for the replay's place log entry 181). -/
def State.nextFlit (s : State) (p : Nat) : Option (WireFlit × State) :=
  let b := s.port p
  match b.ctlDue, b.resend with
  | some nak, _ => some (.control (b.controlFlit nak), s.setPort p { b with ctlDue := none, ctlAt := s.now, owed := false })
  | none, f :: r => some (f, s.setPort p { b with resend := r })
  | none, [] =>
    if 2048 ≤ b.replay.length then none
    else match b.queue.find? fun o => o.pkt.symbol with
      | some o => some (s.startPacket p o)
      | none => match s.channelFlit p 3 with
        | some r => some r
        | none => s.turnFlit p

/-! ## Flit groups (R340) -/

/-- The next slots of a port; an idle flit fills a slot that nothing claims (R350). -/
def State.slots (s : State) (p : Nat) : Nat → List WireFlit × State
  | 0 => ([], s)
  | n + 1 => match s.nextFlit p with
    | some r => let y := r.2.slots p n; (r.1 :: y.1, y.2)
    | none => let y := s.slots p n; (.idle :: y.1, y.2)

/-- A port sends a flit group: five wire flits, or in one group of 1,048,576 lane alignment; the first after training aligns (log
entry 181). -/
def State.sendGroup (s : State) (p : Nat) : State :=
  let b := s.port p
  let s := s.setPort p { b with groups := b.groups + 1 }
  let r := if b.groups % 1048576 = 0 then (([], s) : List WireFlit × State) else s.slots p 5
  { r.2 with vein := { r.2.vein with tx := r.2.vein.tx ++ [(p, r.1)] } }

/-- At most so many groups, until no flit claims a slot. -/
def State.sendGroups (s : State) (p : Nat) : Nat → State
  | 0 => s
  | n + 1 => if (s.nextFlit p).isSome then (s.sendGroup p).sendGroups p n else s

/-- Groups that a port has had time for: one in 6.4 ns at ×8, and half as many at ×4 (R340, R362). -/
def State.groupsDue (s : State) (p : Nat) : Nat :=
  (s.now - (s.port p).upAt) * 25 / (if s.fld (Fld.portState p) = psUp then 16 else 32)

/-- A port has filled every slot up to this moment. Between two changes of what it has to send, its replay buffer bounds how many
groups are not idle. -/
def State.pump (s : State) (p : Nat) : State :=
  if s.carries p then
    let n := s.groupsDue p
    let s := s.sendGroups p (min (n - (s.port p).groups) 4096)
    (s.setPort p { s.port p with groups := max n (s.port p).groups }).endFillRead
  else s

/-- Every port has. -/
def State.pumpAll (s : State) : State := (List.range 16).foldl State.pump s

/-- A packet enters a port. -/
def State.enterPort (s : State) (p : Nat) (o : OutPkt) : State :=
  let s := s.pump p
  let b := s.port p
  s.setPort p { b with queue := b.queue ++ [o] }

/-- A symbol goes out of a port; while the port degrades it waits, and a port that is down loses it (R356, R358). -/
def State.send (s : State) (p : Nat) (k : Packet) : State :=
  if s.carries p ∨ s.fld (Fld.portState p) = psDegrading then s.enterPort p { pkt := k, pool := poolNone } else s

/-! ## Routing (R346) -/

/-- The port that the route table names for a destination. -/
def State.routePort (s : State) (dst : Nat) : Option Nat :=
  let w := (SMap.get (fun _ => 0) s.vein.routes dst).toNat
  if bit w 31 then some (bits w 0 4) else none

/-- The hub may send a packet: out of which port. A port without a hub pool carries no fossil data (R346, R349). -/
def State.routeFor (s : State) (k : Packet) : Option Nat :=
  match s.routePort k.dst with
  | none => none
  | some p =>
    if k.job ≠ 0 ∧ (s.jobCtx k.job).isNone then none
    else if s.carries p = false then none
    else if k.type = 9 ∧ s.poolSize p poolHub = 0 then none
    else some p

/-- A dropped packet is counted; the first in each 10 µs raises VEIN_NO_ROUTE (R346, R361). -/
def State.countDrop (s : State) : State :=
  let s := s.bump Fld.dropped
  if s.vein.noRouteAt.all fun t => decide (t + us 10 ≤ s.now) then
    ({ s with vein := { s.vein with noRouteAt := some s.now } }).report { code := 0x0305 }
  else s

/-- A ROUTE_FAIL notice reaches this module: every transfer of the job bound for dst ends; job 0 concerns the fossil engine
(R346, R377). -/
def State.routeFail (s : State) (dst job : Nat) : State :=
  if job = 0 then s.buddyRouteFail dst
  else match s.jobCtx job with
    | some c => s.linkFailed fun x => x.ctx == c && x.dests.contains dst
    | none => s

/-- The notice for a dropped packet: this module's own engines take it at once; another source gets at most one per job in
10 µs (R346). -/
def State.notice (s : State) (k : Packet) : State :=
  if k.src = s.moduleId then s.routeFail k.dst k.job
  else
    let l := s.vein.notices.filter fun n => decide (s.now < n.2.2 + us 10)
    if l.any fun n => n.1 == k.src && n.2.1 == k.job then { s with vein := { s.vein with notices := l } }
    else
      let s := { s with vein := { s.vein with notices := l ++ [(k.src, k.job, s.now)] } }
      let m := failNotice k.src s.moduleId (if (s.jobCtx k.job).isSome then k.job else 0) k.dst k.job
      match s.routeFor m with
      | some p => s.enterPort p { pkt := m, pool := s.poolOf m }
      | none => s.countDrop

/-- The hub drops a packet (R346). -/
def State.dropPacket (s : State) (k : Packet) : State := if k.symbol then s.countDrop else s.countDrop.notice k

/-- The hub sends a packet out of the port that the route table names, or drops it (R346). -/
def State.routeOut (s : State) (k : Packet) : State :=
  match s.routeFor k with
  | some p => s.enterPort p { pkt := k, pool := s.poolOf k }
  | none => s.dropPacket k

/-! ## Link control and replays (R351 to R353) -/

/-- A link control flit is due: it takes the next slot, and it is neither numbered nor kept (R350, R351). -/
def State.sendControl (s : State) (p : Nat) (nak : Bool) : State :=
  if s.carries p then
    let s := s.pump p
    let b := s.port p
    s.setPort p { b with ctlDue := some (nak || b.ctlDue == some true) }
  else s

/-- A replay from a number: every numbered flit from there on is sent again; an episode begins unless one is open
(R352, R353). -/
def State.startReplay (s : State) (p n : Nat) : State :=
  let s := s.pump p
  let b := s.port p
  match b.replay.dropWhile fun f => f.num != some n with
  | [] => s
  | l =>
    let s := if s.flag (Fld.episode p) then s
      else ((s.bump (Fld.episodes p)).setFld (Fld.episode p) 1).setPort p { b with epStart := s.now }
    s.setPort p { s.port p with epFirst := n, ackAt := s.now, resend := l }

/-- The flits that an ack leaves unacknowledged. -/
def afterAck (l : List WireFlit) (n : Nat) : List WireFlit :=
  if l.any fun f => f.num == some n then (l.dropWhile fun f => f.num != some n).drop 1 else l

/-- A link control flit arrives: acks, credit returns, and a replay on a NAK; an ack that covers the first flit of the latest
replay ends the episode (R351 to R353). -/
def State.portControl (s : State) (p : Nat) (c : LinkControl) : State :=
  if s.carries p then
    let s := s.pump p
    let b := s.port p
    let l := afterAck b.replay c.ack
    let pools := (List.range 33).foldl (fun m i => SMap.put (fun _ => 0) m i (c.pools.getD i 0 % 65536)) b.returned
    let s := s.setPort p { b with
      replay := l, resend := afterAck b.resend c.ack, ackAt := if l.length < b.replay.length then s.now else b.ackAt
      returned := pools, escReturned := c.escape % 65536 }
    let s := if s.flag (Fld.episode p) ∧ l.all (fun f => f.num != some b.epFirst) then s.closeEpisode p else s
    if c.nak then s.startReplay p c.expected else s
  else s

end Sys2Proof.Machine
end

