-- ==== Sys2Proof/Machine/Epoch.lean ====
section
/-! DEFINITION. Step boundaries: the version of a step, the opening of an epoch and the input window (R482, R484, R495,
R497). -/

namespace Sys2Proof.Machine

/-! ## Pages and their copies (R485 to R487) -/

/-- A unit of 64 bytes as it travels: its 512 bits, and its poison. -/
abbrev Gran := Nat × Bool

/-- One fossil page. -/
def fosPage : Nat := 2 ^ 21

/-- Granules from `pa` on, by number, as a unit reads them. -/
def State.readGrans (s : State) (pa : Nat) : List Nat → List Gran × State
  | [] => ([], s)
  | i :: r =>
    let g := s.readGran (pa + 64 * i)
    let z := g.2.readGrans pa r
    ((leNat g.1.1, g.1.2) :: z.1, z.2)

/-- The granules of a 2 MiB page of main memory, as the engine reads them (R487). -/
def State.readFosPage (s : State) (pa : Nat) : List Gran × State := s.readGrans pa (List.range 32768)

/-- Granules written from `pa` on, with their poison. -/
def State.writeFosPage (s : State) (pa : Nat) (l : List Gran) : State :=
  (List.zip l (List.range l.length)).foldl (fun t (g : Gran × Nat) => t.writeGran (pa + 64 * g.2) 0 (leBytes 64 g.1.1) g.1.2) s

/-- The slice into which a page bounces (R486). -/
def State.bounceSlice (s : State) (pa : Nat) : Nat :=
  match s.place pa with
  | .slice n _ => n
  | .window o => o / fosPage % 4
  | _ => 0

/-- A free bounce frame of a slice: 2,048 of them lie in its bounce reserve (R212, R486). -/
def State.bounceFrame (s : State) (e : Epoch) (slice : Nat) : Option Nat :=
  let base := slice * sliceSpan + s.bounceOff
  ((List.range 2048).map fun i => base + i * fosPage).find? fun f =>
    e.pages.all fun (p : FosPage) => !(p.state == 1 && p.frame == f)

/-- The page of the open epoch that holds an address. -/
def Epoch.pageAt (e : Epoch) (pa : Nat) : Option FosPage :=
  e.pages.find? fun (p : FosPage) => decide (p.pa ≤ pa) && decide (pa < p.pa + fosPage)

/-- The epoch with a page replaced. -/
def Epoch.setPage (e : Epoch) (p : FosPage) : Epoch :=
  { e with pages := e.pages.map fun (q : FosPage) => if q.va == p.va then p else q }

/-- A write meets the page at an address: a Protected page is copied whole into a free bounce frame and becomes Bounced, so that its
writers go on. Without a free frame they stall on (R485 to R487). -/
def State.touchPage (s : State) (pa : Nat) : State :=
  match s.fos.epoch with
  | some e =>
    match e.pageAt pa with
    | some p =>
      if s.fld Fld.fosState = fosOpen ∧ p.state = 0 then
        match s.bounceFrame e (s.bounceSlice p.pa) with
        | some f =>
          let r := s.readFosPage p.pa
          let s := (r.2.writeFosPage f r.1).fossilField f 1
          let e := { e.setPage { p with state := 1, frame := f } with bounces := e.bounces + 1 }
          { s with fos := { s.fos with epoch := some e } }.countBounced
        | none => s
      else s
    | none => s
  | none => s

/-! ## Step boundaries (R482) -/

/-- A layer is frozen (R298). -/
def Ctx.frozen (x : Ctx) (layer : Nat) : Bool := bit (leNat ((x.layerTable.drop (16 * layer)).take 1)) 2

/-- The home shards of the layers that are not frozen. -/
def State.liveShards (s : State) (c : Nat) : List Shard :=
  ((s.shardsOf c).map (s.shard c)).filter fun x => x.valid && !(s.ctxAt c).frozen x.layer

/-- The training context: the one whose job with a layer table has been loaded or started last (R391). It is so until it is destroyed,
also while it is Created between two loads. -/
def State.trainCtx (s : State) : Option Nat := s.fos.train

/-- A context has loaded or started a job with a layer table: it is the training context, unless another one's job is loaded or
runs (R391). -/
def State.setTrain (s : State) (c : Nat) : State :=
  let live (d : Nat) : Bool := d != c && (s.ctxAt d).layerTable != [] && (s.ctxState d == csLoaded || s.ctxState d == csRunning)
  if (s.ctxAt c).layerTable = [] ∨ s.fos.train.any live then s else { s with fos := { s.fos with train := some c } }

/-- The version V that every such shard holds in state stable (R482). -/
def State.stepVersion (s : State) (c : Nat) : Option Nat :=
  match s.liveShards c with
  | [] => none
  | x :: r => if (x :: r).all fun y => y.state == 0 && y.version == x.version then some x.version.toNat else none

/-- The address of the level C entry of an address (R227). -/
def State.levelC (s : State) (c va : Nat) : Option Nat :=
  let e1 := leNat (s.physBytes ((s.ctxAt c).ptRoot + 8 * bits va 39 9) 8)
  if bit e1 0 ∧ bit e1 1 = false then
    let e2 := leNat (s.physBytes (bits e1 10 38 * 1024 + 8 * bits va 30 9) 8)
    if bit e2 0 ∧ bit e2 1 = false then some (bits e2 10 38 * 1024 + 8 * bits va 21 9) else none
  else none

/-- The window and the halves of the step inputs, as virtual addresses (R495). -/
def State.inWindow (s : State) : Nat := bits (s.rd Reg.fosInWin).toNat 0 27 * 2 ^ 21
def State.inHalf (s : State) (h : Nat) : Nat := bits (s.rd (if h = 0 then Reg.fosInH0 else Reg.fosInH1)).toNat 0 27 * 2 ^ 21

/-- The window takes the leaves of a half, and its old translations go (R495). -/
def State.mapWindow (s : State) (c h : Nat) : State :=
  let n := s.fld Fld.fosInPages
  let s := (List.range n).foldl (fun s i =>
    match s.levelC c (s.inHalf h + i * 2 ^ 21), s.levelC c (s.inWindow + i * 2 ^ 21) with
    | some a, some b => s.writeGran b (b % 64) (s.physBytes a 8) false
    | _, _ => s) s
  { s with mem := { s.mem with tlb := s.mem.tlb.filter fun e =>
      !(e.ctx == c && decide (e.base < s.inWindow + n * 2 ^ 21) && decide (s.inWindow < e.base + e.size)) } }

/-- The version entries of a context, in the layout of JOB_LOAD section 0x08 (R431, R479). -/
def State.versionWords (s : State) (c : Nat) : List Nat :=
  (List.range 4096).map fun n =>
    let x := s.shard c n
    if x.valid then x.version.toNat + x.layer % 2 ^ 16 * 2 ^ 32 else 0

/-- The completion bytes that carry the co-fed flag (R491, R493). -/
def coFedTail (b : Bool) : Nat := b2n b * 2 ^ 66

/-- The Armed epoch opens: its pages are protected before the plan is released, its half is held, and FOSSIL_BEGIN completes
(R484, R497). -/
def State.openEpoch (s : State) (e : Epoch) (count : BitVec 48) : State :=
  let s := { s with fos := { s.fos with
    epoch := some { e with begin_ := none, stratum := count, versions := s.versionWords e.ctx }
    holds := s.fos.holds ++ [(e.epoch % 2, e.epoch)] } }
  (s.setFld Fld.fosState fosOpen).completeSome e.begin_ 0 (coFedTail e.coFed)

/-- The window's entries in the level C tables that the tick before has changed: they take the leaves of the half, once no protected
page holds an entry (R485, R495). -/
def State.enterMap (s : State) : State :=
  match s.fos.nextMap with
  | none => s
  | some (c, h) =>
    let at_ := (List.range (s.fld Fld.fosInPages)).filterMap fun i => s.levelC c (s.inWindow + i * 2 ^ 21)
    let s := at_.foldl State.touchPage s
    if at_.any s.protectedAt then s else { s with fos := { s.fos with nextMap := none } }.mapWindow c h

/-- A step boundary at version `v`; the new mapping of the window is in force from the next tick (R482, R484, R495, R497, R499). -/
def State.boundary (s : State) (c v : Nat) : State :=
  let s := { s with fos := { s.fos with lastV := some v } }.setFld Fld.fosUpdated 0
  let s := if s.fld Fld.fosState = fosArmed then
      match s.fos.epoch with
      | some e => if e.epoch = v then s.openEpoch e (s.countOf c) else s
      | none => s
    else { s with fos := { s.fos with holds := [] } }
  if s.fld Fld.fosInPages = 0 then s else { s with fos := { s.fos with nextMap := some (c, v % 2) } }

/-- What an accepted tick of quarry `q` means to the steps of the training context: the first tick after JOB_START with every
shard stable at one version, or a version above that of the previous boundary (R482). -/
def State.stepBoundary (s : State) (q : Nat) : State :=
  if q ≠ 0 ∨ s.modeOf ≠ 0 then s
  else
    let s := s.enterMap
    match s.trainCtx with
    | none => s
    | some c =>
      if (s.ctxAt c).layerTable = [] then s else
      let first := s.fos.firstTick
      let s := { s with fos := { s.fos with firstTick := false } }
      match s.stepVersion c with
      | some v => if first ∨ s.fos.lastV.any (fun w => decide (w < v)) then s.boundary c v else s
      | none => s

end Sys2Proof.Machine
end

