-- ==== Sys2Proof/Machine/Strata.lean ====
section
/-! DEFINITION. The stratum tick: ticks, done, stretch, overrun, tick faults and the STR registers
(chapter Strata and the Stratum Tick). -/

namespace Sys2Proof.Machine

/-! ## Sending -/

/-- The tick and stretch symbols of a master, and the done symbol of this module (R31, R33, R34). DEDUCED: a member
forwards the symbol that it received, so the symbol keeps the source that its master gave it (log entry 161). -/
def tickSym (master domain : Nat) (count : BitVec 48) (abort : Bool) : Packet := symbolPacket 5 master domain count abort
def stretchSym (master domain : Nat) (count : BitVec 48) : Packet := symbolPacket 7 master domain count false
def State.doneSym (s : State) (domain : Nat) (count : BitVec 48) : Packet := symbolPacket 6 s.moduleId domain count false

/-- The ports of STR_DOMAIN.down_ports (R31). -/
def State.downPorts (s : State) : List Nat := (List.range 16).filter fun p => bit (s.fld Fld.downPorts) p

/-- The state with a message sent on every down port. -/
def State.sendDown (s : State) (m : Packet) : State := s.downPorts.foldl (fun t p => t.send p m) s

/-- One period of the present stratum of quarry `q`, in units of 10 ns (R30). -/
def State.period (s : State) (q : Nat) : Nat := us (s.quarry q).period

/-- Holdover or hold (R46). -/
def State.tickless (s : State) (q : Nat) : Bool := s.flag (Fld.holdover q) || s.flag (Fld.hold q)

/-! ## Done (R24, R26, R31) -/

/-- A stream keeps its core from being done: a release moved it to Ready and its segment has not ended (R24). Streams
of a displaced context are left out (R404). -/
def State.streamOpen (s : State) (core n : Nat) : Bool :=
  let st := s.stream core n
  st.released && !s.displaced st.ctx

/-- A tile that Flint has placed in the plan of the stratum keeps its core from being done until it has finished (R27). -/
def State.placedOpen (s : State) (t : Tile) : Bool := t.home.isSome && t.phase != .recheck && !s.coreFenced t.core && !s.displaced t.ctx

/-- Every unfenced core of a quarry is done (R24, R26, R27). -/
def State.coresDone (s : State) (q : Nat) : Bool :=
  (s.core.streams.all fun e =>
    s.quarryOfCore (e.1 / 64) != q || s.coreFenced (e.1 / 64) || !s.streamOpen (e.1 / 64) (e.1 % 64))
  && s.core.tiles.all fun t => s.quarryOfCore t.core != q || !s.placedOpen t

/-- A queued descriptor is a tick-bound transfer of the present stratum of quarry `q` (R25, R26, R404). -/
def State.boundEntry (s : State) (q : Nat) (e : QEntry) : Bool :=
  bit e.desc 15 && s.quarryOfCore e.core == q && e.ticks == (s.quarry q).ticks && !s.displaced e.ctx

/-- Every tick-bound transfer that was issued in the present stratum has landed (R26). -/
def State.transfersLanded (s : State) (q : Nat) : Bool :=
  !(s.core.dmaq.any (s.boundEntry q) || s.core.hubq.any (s.boundEntry q) || s.core.wsq.any (s.boundEntry q))

/-- The module is done for the stratum (R26), or counts as done (R43). -/
def State.doneNow (s : State) (q : Nat) : Bool :=
  (s.quarry q).faultDone || (s.coresDone q && s.transfersLanded q)

/-- Done has arrived on every down port (R31). A module alone, and each quarry of Quarry mode, has no down port to wait
for: its subtree done is its own done (R32, R37). -/
def State.downsDone (s : State) (q : Nat) : Bool :=
  if q = 0 ∧ s.fld Fld.role ≠ 0 then s.downPorts.all fun p => (s.quarry q).downDone.contains p else true

/-- Subtree done: done, and done received on every down port (R31). -/
def State.subtreeDone (s : State) (q : Nat) : Bool := s.flag (Fld.done q) && s.downsDone q

/-- STRATUM_OUT± carries the done level of a member that has reported done, while out_en is 1 (R30, R31); in holdover and
in hold it stays as it stands (R585). -/
def State.driveOut (s : State) : State :=
  if s.flag Fld.outEn = false then { s with pins := { s.pins with stratumOut := false } }
  else if s.fld Fld.role = 2 ∧ (s.quarry 0).sentDone ∧ s.tickless 0 = false then
    { s with pins := { s.pins with stratumOut := true } }
  else s

/-- A module that is subtree done has reported done for the stratum, from which a missing tick is measured (R45). A member
sends its done symbol up, once, and asserts STRATUM_OUT± when out_en is set; in holdover or hold it does neither (R31, R585). -/
def State.reportDone (s : State) : State :=
  let b := s.quarry 0
  if s.subtreeDone 0 ∧ b.sentDone = false ∧ s.tickless 0 = false then
    let s := s.setQuarry 0 { b with sentDone := true, heardAt := s.now }
    let s := if s.fld Fld.role = 2 ∧ s.fld Fld.source = 2 then
        s.send (s.fld Fld.upPort) (s.doneSym (s.fld Fld.domainId) b.count) else s
    s.driveOut
  else s

/-! ## Release (R23, R57, R58) -/

/-- The plan of context `c` on a core. -/
def State.plan (s : State) (c core : Nat) : Plan := SMap.get (fun _ => {}) s.ctx.plans (160 * c + core)

/-- The state with a plan replaced. -/
def State.setPlan (s : State) (c core : Nat) (p : Plan) : State :=
  { s with ctx := { s.ctx with plans := SMap.put (fun _ => {}) s.ctx.plans (160 * c + core) p } }

/-- The value of j after entry j (R57). -/
def Plan.next (p : Plan) : Plan := { p with j := if p.j + 1 = p.len then p.loopFrom else p.j + 1 }

/-- One bit of a release mask: a Parked stream of the job's context moves to Ready (R58). -/
def State.releaseStream (s : State) (c core n : Nat) : State :=
  let st := s.stream core n
  if st.state = .parked ∧ st.ctx = c then
    s.setStream core n { st with state := .ready, released := true, issued := false, readyAt := s.now, buffer := [] }
  else s

/-- The streams that a release mask names. -/
def maskStreams (m : Nat) : List Nat := (List.range 64).filter (bit m)

/-- A core releases entry j of a context's plan and advances j; a fetch that fails to translate faults the context
(R57, R58, R64). -/
def State.releaseCore (s : State) (c core : Nat) : State :=
  let p := s.plan c core
  match (readCopy core c ⟨true, p.base + 8 * p.j⟩ 8) s with
  | (.ok r, s) => (maskStreams (leNat r.1)).foldl (fun t n => t.releaseStream c core n) (s.setPlan c core p.next)
  | (.error (.fault code phys), s) => s.raiseCtx { code := code, core := some core, phys := phys } c
  | (.error _, s) => s

/-- The core to which Flint gives an unfinished tile of a fenced core: the unfenced core of the quarry that comes next in the
order of core numbers. DESIGN CHOICE: the spec names no core (log entry 164). -/
def State.placeFor (s : State) (q core : Nat) : Option Nat :=
  let l := (coresOf s.modeOf q).filter fun k => !s.coreFenced k
  (l.find? fun k => decide (core < k)).or l.head?

/-- The place in the tile list of an unfinished tile of a fenced core. -/
def placedStream (home : Nat × Nat) : Nat := 10304 + 64 * home.1 + home.2

/-- The plan of the stratum holds the unfinished tiles that fenced cores left (R27, R447). -/
def State.placeTiles (s : State) (c : Nat) : State :=
  (s.ctx.reissue.filter fun t => t.ctx == c).foldl (fun s t =>
    let home := t.home.getD (t.core, t.stream)
    match s.placeFor (s.ctxQuarry c) t.core with
    | none => s
    | some k =>
      let t' := { t with core := k, stream := placedStream home, phase := .placed, startAt := s.now }
      { s with
        core := { s.core with tiles := s.core.tiles ++ [t'] }
        ctx := { s.ctx with reissue := s.ctx.reissue.erase t } }) s

/-- Every unfenced core of the quarry releases the plan of one running context, and what Flint has added to it (R23, R27). -/
def State.releaseCtx (s : State) (c : Nat) : State :=
  if s.ctxState c = csRunning then
    ((coresOf s.modeOf (s.ctxQuarry c)).foldl (fun t core =>
      if t.ctxState c ≠ csRunning ∨ t.coreFenced core ∨ (t.plan c core).len = 0 then t else t.releaseCore c core) s).placeTiles c
  else s

/-- The release of a stratum of quarry `q` (R23). -/
def State.releasePlan (s : State) (q : Nat) : State :=
  ctxNumbers.foldl (fun t c => if t.ctxQuarry c = q then t.releaseCtx c else t) s

/-! ## Accepting a tick (R23, R36, R39, R40, R48) -/

/-- The stretch of the stratum that ends: STR_STRETCH_CNT above 1 µs, STR_STRETCH_MAX for any new maximum (R39, R49). -/
def State.noteStretch (s : State) (q : Nat) : State :=
  let d := s.now - ((s.quarry q).lastTick + s.period q)
  let s := if us 1 < d then s.bump (Fld.stretchCnt q) else s
  if s.fld (Fld.stretchMax q) < d then s.setFld (Fld.stretchMax q) (min d (2 ^ 32 - 1)) else s

/-- A port of a transfer is in a retry episode or degrading (R354). -/
def State.portHeld (s : State) (p : Nat) : Bool := s.flag (Fld.episode p) || s.fld (Fld.portState p) == psDegrading

/-- Budgets in strata advance by one accepted tick (R42): those of donations while the owner is resident (R400), those of
transfers while no port of theirs is held (R354, R376). -/
def State.tickBudgets (s : State) (q : Nat) : State :=
  let count (d : Donation) : Donation :=
    if s.ctxQuarry d.toCtx = q ∧ s.flag (Fld.resident d.toCtx) then { d with used := d.used + 1 } else d
  let arm (x : Xfer) : Xfer :=
    if s.ctxQuarry x.ctx = q ∧ x.ports.any s.portHeld = false then { x with left := x.left - 1 } else x
  { s with
    ctx := { s.ctx with donations := s.ctx.donations.map count }
    coll := { s.coll with xfers := s.coll.xfers.map arm } }

/-- A directory that set-policy has loaded is in force from an accepted tick of its context's quarry on (R381). -/
def State.dirTick (s : State) (q : Nat) : State :=
  match s.coll.nextDir with
  | some (c, headers, entries) =>
    if s.ctxQuarry c = q then
      let s := { s with coll := { s.coll with headers := headers, entries := entries, nextDir := none } }
      (s.setFld Fld.dirValid 1).setFld Fld.dirCtx c
    else s
  | none => s

/-- A tick is accepted: stretch and late_src of the ending stratum, the counter, the period, a fresh done condition;
STRATUM_OUT± drops on an external tick; then the release, when there is one. -/
def State.acceptTick (s : State) (q : Nat) (count : BitVec 48) (external release : Bool) : State :=
  let b := s.quarry q
  let s := if b.opened then s.noteStretch q else s
  let s := match b.lastDone with
    | some w => if b.opened then s.setFld (Fld.lateSrc q) w else s
    | none => s
  let s := s.setQuarry q { s.quarry q with
    count := count, ticks := b.ticks + 1, opened := true, lastTick := s.now, period := s.fld Fld.periodUs, minGap := s.fld Fld.minGap
    heardAt := s.now, downDone := [], lastDone := none, sentDone := false, overrun := false, domOverrun := false
    faultDone := false, stretchSent := 0 }
  let s := s.setFld (Fld.done q) 0
  let s := if external then { s with pins := { s.pins with stratumOut := false } } else s
  let s := { s with err := { s.err with level := s.fld Fld.assayLevel, sampleLog2 := s.fld Fld.sampleLog2 } }
  let s := ((s.tickBudgets q).loseWaits q).stepBoundary q
  let s := s.dirTick q
  if release then s.releasePlan q else s

/-- The next count of quarry `q`. -/
def State.nextCount (s : State) (q : Nat) : BitVec 48 := (s.quarry q).count + 1

/-! ## Events and policies (R50, R441) -/

/-- The policy in force for a code: 0 for the default (R441). -/
def State.policy (s : State) (code : Nat) : Nat := SMap.get (fun _ => 0) s.err.policy code

/-- The running contexts of a quarry: those whose job a tick event concerns. -/
def State.jobContexts (s : State) (q : Nat) : List Nat :=
  ctxNumbers.filter fun c => s.ctxState c == csRunning && s.ctxQuarry c == q

/-- A tick event with code `code`, which its policy turns into a contained fault of the job's context or a report; while
Flint restarts, the action waits (R50, R441, R460). `dflt` says that the default policy is the fault. -/
def State.tickEvent (s : State) (q code : Nat) (dflt : Bool) (victims : List Nat) : State :=
  let p := s.policy code
  if (p = 0 && dflt) || p = 2 then
    if s.err.flintDown then
      let s := s.report { code := code }
      { s with err := { s.err with deferred := s.err.deferred ++ victims.map (fun c => (code, c)) } }
    else if victims = [] then s.report { code := code, index := q }
    else victims.foldl (fun t c => t.raiseCtx { code := code } c) s
  else s.report { code := code, index := q }

/-- The abort tick's action: Flint ends the job's contexts with cause STRATUM_OVERRUN, naming the master (R44). -/
def State.abortJobs (s : State) (q master : Nat) : State :=
  (s.jobContexts q).foldl (fun t c => t.raiseCtx { code := 0x0601, detail := master } c) s

/-- The action of a tick of quarry 0 that may be an abort tick of a master (R44). -/
def State.abortBy (s : State) (abort : Option Nat) : State :=
  match abort with
  | some master => s.abortJobs 0 master
  | none => s

/-! ## External ticks (R33, R45, R46) -/

/-- The module acts on its tick input: the clock of R28 runs and run is 1. -/
def State.ticking (s : State) : Bool := s.pins.phase == .running && s.flag Fld.run

/-- An external tick: early, premature, in sequence, or the end of holdover or hold (R45, R46). `carried` is the count
of a Vein tick; `fwd` sends it on; `abort` names the master of an abort tick, whose contexts end before any event of the tick
strikes them (R44). DESIGN CHOICE: an abort tick that finds a module in holdover not done is ignored and counted as premature, as
R46 has it for every external tick, though R44 has a member accept it (log entry 162). -/
def State.externalTick (s : State) (carried : Option (BitVec 48)) (abort : Option Nat) (fwd : State → State) : State :=
  let b := s.quarry 0
  let isDone := s.flag (Fld.done 0)
  let count := carried.getD (s.nextCount 0)
  if s.flag (Fld.holdover 0) then
    if isDone then
      let s := (fwd s).setFld (Fld.holdover 0) 0
      (s.acceptTick 0 count true abort.isNone).abortBy abort
    else s.bump (Fld.premature 0)
  else if b.opened ∧ s.now < b.lastTick + us b.minGap then s.bump (Fld.earlyEdges 0)
  else
    let s := fwd s
    let premature := b.opened && !isDone && abort.isNone && !s.flag (Fld.hold 0)
    let outOfSeq := match carried with | some n => n != s.nextCount 0 | none => false
    let s := s.setFld (Fld.hold 0) 0
    let s := if premature then s.bump (Fld.premature 0) else s
    let s := (s.acceptTick 0 count true (abort.isNone && !premature)).abortBy abort
    let s := if premature then s.tickEvent 0 0x0605 true (s.jobContexts 0) else s
    if outOfSeq then s.tickEvent 0 0x0606 true (s.jobContexts 0) else s

/-- STRATUM_IN_EDGE: an active edge, where the pins are the source (R28, R45). An accepted edge goes down the tree as a
tick symbol on the down ports that STR_DOMAIN names. -/
def stratumInEdge (at_ : Nat) (s : State) : State :=
  let s := s.advanceTo at_
  if s.ticking ∧ s.deaf = false ∧ s.fld Fld.source = 1 then
    s.externalTick none none fun t => t.sendDown (tickSym t.moduleId (t.fld Fld.domainId) (t.nextCount 0) false)
  else s

def execStratumInEdge (at_ : Nat) (s : State) : Host.Outcome State Fault Refusal := .next (stratumInEdge at_ s)

/-- A tick or stretch symbol is for this module: its domain, on the up port, which carries traffic, with Vein as the source
(R33, R356). -/
def State.hears (s : State) (port domain : Nat) : Bool :=
  s.ticking && s.carries port && s.fld Fld.source == 2 && s.fld Fld.upPort == port && s.fld Fld.domainId == domain

/-- TICK_SYMBOL_RECEIVED: the symbol is forwarded on every down port and accepted, or ignored (R33, R44, R45). `master` is the
source that its header carries, the domain's master. -/
def tickSymbolReceived (at_ port master domain : Nat) (count : BitVec 48) (abort : Bool) (s : State) : State :=
  let s := s.advanceTo at_
  if s.hears port domain then
    s.externalTick (some count) (if abort then some master else none) fun t => t.sendDown (tickSym master domain count abort)
  else s

def execTickSymbolReceived (at_ port : Nat) (tag : SymbolTag) (count : BitVec 48) (abort : Bool) (s : State) :
    Host.Outcome State Fault Refusal := .next (tickSymbolReceived at_ port tag.master tag.domain count abort s)

/-! ## Internal ticks (R32, R34, R37, R46) -/

/-- The tick of a generator is due: the first one period after run was set; later ones at subtree done, not before one
period after the last (R32). A period written since then takes effect at that tick (R30). -/
def State.tickDue (s : State) (q : Nat) : Bool :=
  let b := s.quarry q
  if b.opened then s.subtreeDone q && decide (b.lastTick + s.period q ≤ s.now)
  else decide (b.runAt + s.period q ≤ s.now)

/-- This module times ticks itself: source 0b00, as a master or alone (R29, R32, R37). -/
def State.generates (s : State) (q : Nat) : Bool :=
  s.ticking && s.fld Fld.source == 0 && decide (s.fld Fld.role < 2) && decide (q < quarryCount s.modeOf)

/-- The symbol that a master sends with a tick (R33). -/
def State.masterSymbol (s : State) (q : Nat) (abort : Bool) : State :=
  if s.fld Fld.role = 1 then s.sendDown (tickSym s.moduleId (s.fld Fld.domainId) (s.nextCount q) abort) else s

/-- MASTER_TICK_ISSUE (R32). -/
def masterTickIssue (at_ quarry : Nat) (s : State) : State :=
  let s := s.advanceTo at_
  if s.generates quarry ∧ s.tickDue quarry then
    (s.masterSymbol quarry false).acceptTick quarry (s.nextCount quarry) false true
  else s

def execMasterTickIssue (at_ quarry : Nat) (s : State) : Host.Outcome State Fault Refusal :=
  .next (masterTickIssue at_ quarry s)

/-- HOLDOVER_TICK: the later of one period after the previous tick and own done; the first no earlier than one period
after the expected tick (R46). STRATUM_OUT± stays as it stands (R585). -/
def holdoverTick (at_ : Nat) (s : State) : State :=
  let s := s.advanceTo at_
  let b := s.quarry 0
  let due := b.lastTick + (if b.holdoverTicks = 0 then 2 else 1) * s.period 0
  if s.ticking ∧ s.flag (Fld.holdover 0) ∧ s.flag (Fld.done 0) ∧ due ≤ s.now then
    let s := s.acceptTick 0 (s.nextCount 0) false true
    s.setQuarry 0 { s.quarry 0 with holdoverTicks := b.holdoverTicks + 1 }
  else s

def execHoldoverTick (at_ : Nat) (s : State) : Host.Outcome State Fault Refusal := .next (holdoverTick at_ s)

/-- STRETCH_SYMBOL_SEND: a stretching master sends one at each whole period after the last tick (R34). -/
def stretchSymbolSend (at_ : Nat) (s : State) : State :=
  let s := s.advanceTo at_
  let b := s.quarry 0
  if s.generates 0 ∧ s.fld Fld.role = 1 ∧ b.opened ∧ s.subtreeDone 0 = false
      ∧ b.lastTick + (b.stretchSent + 1) * s.period 0 ≤ s.now then
    (s.sendDown (stretchSym s.moduleId (s.fld Fld.domainId) b.count)).setQuarry 0 { b with stretchSent := b.stretchSent + 1 }
  else s

def execStretchSymbolSend (at_ : Nat) (s : State) : Host.Outcome State Fault Refusal := .next (stretchSymbolSend at_ s)

/-- STRETCH_SYMBOL_RECEIVED: forwarded, and the wait for a missing tick starts anew (R34, R45). -/
def stretchSymbolReceived (at_ port master domain : Nat) (count : BitVec 48) (s : State) : State :=
  let s := s.advanceTo at_
  if s.hears port domain then
    let s := s.sendDown (stretchSym master domain count)
    s.setQuarry 0 { s.quarry 0 with heardAt := s.now }
  else s

def execStretchSymbolReceived (at_ port : Nat) (tag : SymbolTag) (count : BitVec 48) (s : State) :
    Host.Outcome State Fault Refusal := .next (stretchSymbolReceived at_ port tag.master tag.domain count s)

/-! ## Done -/

/-- DONE_SYMBOL_RECEIVED: counts only on a down port that carries traffic, with this domain and this count (R31, R356). -/
def doneSymbolReceived (at_ port domain : Nat) (count : BitVec 48) (s : State) : State :=
  let s := s.advanceTo at_
  let b := s.quarry 0
  if s.ticking ∧ s.carries port ∧ bit (s.fld Fld.downPorts) port ∧ port < 16 ∧ s.fld Fld.domainId = domain ∧ b.count = count
      ∧ b.opened ∧ b.downDone.contains port = false then
    (s.setQuarry 0 { b with downDone := b.downDone ++ [port], lastDone := some port }).reportDone
  else s

def execDoneSymbolReceived (at_ port domain : Nat) (count : BitVec 48) (s : State) :
    Host.Outcome State Fault Refusal := .next (doneSymbolReceived at_ port domain count s)

/-- MODULE_DONE: the module is done for the stratum (R26); a subtree done is reported (R31). -/
def moduleDone (at_ quarry : Nat) (s : State) : State :=
  let s := s.advanceTo at_
  let b := s.quarry quarry
  if s.ticking ∧ quarry < quarryCount s.modeOf ∧ b.opened ∧ s.flag (Fld.done quarry) = false ∧ s.doneNow quarry then
    let s := s.setFld (Fld.done quarry) 1
    let s := s.setQuarry quarry { b with lastDone := some 16 }
    if quarry = 0 then s.reportDone else s
  else s

def execModuleDone (at_ quarry : Nat) (s : State) : Host.Outcome State Fault Refusal := .next (moduleDone at_ quarry s)

/-! ## Overrun and tick loss (R41, R43 to R46) -/

/-- The overrun point of a stratum (R41). -/
def State.overrunAt (s : State) (q : Nat) : Nat :=
  (s.quarry q).lastTick + (1 + s.fld Fld.overrunLimit) * s.period q

/-- The contexts whose work keeps a quarry from done. -/
def State.lateContexts (s : State) (q : Nat) : List Nat :=
  (s.jobContexts q).filter fun c =>
    (s.core.streams.any fun e => e.2.ctx == c && s.streamOpen (e.1 / 64) (e.1 % 64) && !s.coreFenced (e.1 / 64))
      || (s.core.tiles.any fun t => t.ctx == c && s.placedOpen t)
      || ((s.core.dmaq ++ s.core.hubq ++ s.core.wsq).any fun e => e.ctx == c && s.boundEntry q e)

/-- The module, or a quarry of it, is done under R26. -/
def State.isDone (s : State) (q : Nat) : Bool := s.flag (Fld.done q) || s.doneNow q

/-- A quarry that is not done at the overrun point raises STRATUM_OVERRUN, once a stratum; under the default policy the job's
context faults and the module counts as done (R41, R43). -/
def State.overrunQuarry (s : State) (q : Nat) : State :=
  let b := s.quarry q
  if b.opened ∧ s.isDone q = false ∧ b.overrun = false ∧ s.overrunAt q ≤ s.now then
    let fault := (s.policy 0x0601 == 0 || s.policy 0x0601 == 2) && !s.err.flintDown
    let s := s.setQuarry q { b with overrun := true }
    let s := s.tickEvent q 0x0601 true (s.lateContexts q)
    if fault then s.setQuarry q { s.quarry q with faultDone := true } else s
  else s

/-- STRATUM_OVERRUN (R41). -/
def stratumOverrun (at_ quarry : Nat) (s : State) : State :=
  let s := s.advanceTo at_
  if s.ticking ∧ quarry < quarryCount s.modeOf then s.overrunQuarry quarry else s

def execStratumOverrun (at_ quarry : Nat) (s : State) : Host.Outcome State Fault Refusal :=
  .next (stratumOverrun at_ quarry s)

/-- An abort tick: its flag goes down the tree, no plan is released, the job's contexts end (R43, R44). -/
def State.abortTick (s : State) : State :=
  let s := (s.masterSymbol 0 true).acceptTick 0 (s.nextCount 0) false false
  s.abortJobs 0 (s.fld Fld.moduleId)

/-- DOMAIN_OVERRUN: a master that is not subtree done at the overrun point; under the default policy Flint issues an
abort tick at once. A master that is not done itself raises STRATUM_OVERRUN at that point too (R41, R43). -/
def domainOverrun (at_ : Nat) (s : State) : State :=
  let s := s.advanceTo at_
  let b := s.quarry 0
  if s.ticking ∧ s.fld Fld.role = 1 ∧ b.opened ∧ (s.isDone 0 && s.downsDone 0) = false ∧ b.domOverrun = false
      ∧ s.overrunAt 0 ≤ s.now then
    let s := s.overrunQuarry 0
    let s := s.setQuarry 0 { s.quarry 0 with domOverrun := true }
    let s := s.report { code := 0x0602 }
    if s.policy 0x0602 = 1 then s
    else if s.err.flintDown then { s with err := { s.err with deferred := s.err.deferred ++ [(0x0602, 0)] } }
    else s.abortTick
  else s

def execDomainOverrun (at_ : Nat) (s : State) : Host.Outcome State Fault Refusal := .next (domainOverrun at_ s)

/-- Tick loss: holdover or hold, by holdover_en (R46), and the event. -/
def State.loseTick (s : State) (code : Nat) : State :=
  let s := if s.flag Fld.holdoverEn then s.setFld (Fld.holdover 0) 1 else s.setFld (Fld.hold 0) 1
  let s := s.setQuarry 0 { s.quarry 0 with holdoverTicks := 0 }
  s.tickEvent 0 code false (s.jobContexts 0)

/-- The moment from which a tick is missing: on Vein 2 periods after done was reported and the last stretch symbol; on the pins
(overrun_limit + 2) periods after the expected tick (R45). -/
def State.missingAt (s : State) : Nat :=
  if s.fld Fld.source = 2 then (s.quarry 0).heardAt + 2 * s.period 0
  else (s.quarry 0).lastTick + (s.fld Fld.overrunLimit + 3) * s.period 0

/-- TICK_LOST: only a module that has reported done can miss a tick (R45, R46). -/
def tickLost (at_ : Nat) (s : State) : State :=
  let s := s.advanceTo at_
  if s.ticking ∧ (s.fld Fld.source = 1 ∨ s.fld Fld.source = 2) ∧ (s.quarry 0).sentDone ∧ (s.quarry 0).opened
      ∧ s.tickless 0 = false ∧ s.missingAt ≤ s.now then s.loseTick 0x0603
  else s

def execTickLost (at_ : Nat) (s : State) : Host.Outcome State Fault Refusal := .next (tickLost at_ s)

/-- TICK_STUCK: STRATUM_IN± has stayed active since `since`, more than 2 periods (R45, R560). -/
def tickStuck (at_ since : Nat) (s : State) : State :=
  let s := s.advanceTo at_
  if s.ticking ∧ s.deaf = false ∧ s.fld Fld.source = 1 ∧ s.tickless 0 = false ∧ since + 2 * s.period 0 < s.now then s.loseTick 0x0604
  else s

def execTickStuck (at_ since : Nat) (s : State) : Host.Outcome State Fault Refusal := .next (tickStuck at_ since s)

/-! ## Set-up (R29, R48, R49, R586) -/

/-- The three words of the set-up would be in range and consistent: the first three rules and the last of R29. -/
def strWordsOk (ctrl period domain : Nat) : Bool :=
  let source := bits ctrl 0 2
  let periodUs := bits period 0 10
  let minGap := bits period 16 10
  let role := bits domain 18 2
  decide (1 ≤ bits ctrl 9 4) && source != 3 && decide (25 ≤ periodUs) && decide (periodUs ≤ 1000)
    && decide (1 ≤ minGap) && decide (minGap ≤ 999) && role != 3
    && decide (minGap < periodUs)
    && !(bit domain (bits ctrl 2 4))
    && !(role == 2 && source == 0)

/-- The fields that may not change while run is 1 are unchanged (R29). -/
def strFrozenOk (ctrl domain ctrl' domain' : Nat) : Bool :=
  !(bit ctrl 6) || (bits ctrl' 0 2 == bits ctrl 0 2 && bits ctrl' 2 4 == bits ctrl 2 4 && bits domain' 18 2 == bits domain 18 2
    && bits domain' 0 16 == bits domain 0 16 && bits domain' 20 12 == bits domain 20 12)

/-- run changes from 0 to 1: the tick logic starts afresh (R32, R49, R586). -/
def State.startRun (s : State) (q : Nat) : State :=
  let b := s.quarry q
  let s := s.setQuarry q { b with
    opened := false, runAt := s.now, downDone := [], lastDone := none, sentDone := false, overrun := false
    domOverrun := false, faultDone := false, stretchSent := 0, holdoverTicks := 0, period := s.fld Fld.periodUs, minGap := s.fld Fld.minGap }
  let s := s.setFld (Fld.done q) 0
  (((s.wr (Reg.strStretchCnt q) 0).wr (Reg.strStretchMax q) 0).wr (Reg.strFaultCnt q) 0)

/-- run changes from 1 to 0: holdover and hold end at once (R586). -/
def State.stopRun (s : State) (q : Nat) : State := (s.setFld (Fld.holdover q) 0).setFld (Fld.hold q) 0

/-- The effect of a change of run on every quarry. -/
def State.runChange (s : State) (was : Bool) : State :=
  let now := s.flag Fld.run
  if was = now then s
  else [0, 1, 2, 3].foldl (fun t q => if now then t.startRun q else t.stopRun q) s

/-- The retry budget of port `p` fits the collective timeouts and the ticks: an enabled port's budget is at most half of every
timeout that a group defines, and that of a port that carries ticks at most the period. -/
def State.budgetFits (s : State) (p : Nat) : Bool :=
  let period := s.fld Fld.periodUs
  let timeouts := (s.coll.groups.filter fun (e : Nat × Nat) => bit e.2 7).map fun (e : Nat × Nat) => fieldAt e.2 1 0 8
  let b := s.fld (Fld.retryBudget p)
  (!s.flag (Fld.portEnable p) || timeouts.all fun t => decide (2 * b ≤ t * period))
    && (!(bit (s.fld Fld.downPorts) p || (s.fld Fld.source == 2 && s.fld Fld.upPort == p)) || decide (b ≤ period))

/-- The retry budgets of all ports fit (R355). -/
def State.budgetsOk (s : State) : Bool := (List.range 16).all s.budgetFits

/-- The written bits of a word, reserved bits discarded (R7). -/
def keepBits (mask : Nat) (v : Word) : Word := v &&& BitVec.ofNat 32 mask

/-- A write of STR_CTRL, STR_PERIOD or STR_DOMAIN by Flint: it takes effect, or is ignored with cfg_reject (R29), or without it
where the retry budgets no longer fit (R355). With out_en at 0, STRATUM_OUT± is held at idle. DESIGN CHOICE: the refusal of a
register that is common to all quarries is told in quarry 0's STR_STAT (R38, log entry 163). -/
def State.strWrite (s : State) (off : Nat) (value : Word) : State :=
  let v := keepBits (if off = Reg.strPeriod then bitMask 25 16 + bitMask 9 0
    else if off = Reg.strDomain then bitMask 31 18 + bitMask 15 0 else bitMask 12 0) value
  let ctrl := (if off = Reg.strCtrl then v else s.rd Reg.strCtrl).toNat
  let period := (if off = Reg.strPeriod then v else s.rd Reg.strPeriod).toNat
  let domain := (if off = Reg.strDomain then v else s.rd Reg.strDomain).toNat
  if strWordsOk ctrl period domain
      ∧ strFrozenOk (s.rd Reg.strCtrl).toNat (s.rd Reg.strDomain).toNat ctrl domain then
    let was := s.flag Fld.run
    if (s.wr off v).budgetsOk = false then s else
    ((s.wr off v).runChange was).driveOut
  else s.setFld (Fld.strCfgReject 0) 1

/-- STR_CONFIG_WRITE. A host write is ignored and sets GLB_STAT.host_wr_reject (R575). -/
def strConfigWrite (at_ : Nat) (party : Party) (off : Nat) (value : Word) (s : State) : State :=
  let s := s.advanceTo at_
  if (off = Reg.strCtrl ∨ off = Reg.strPeriod ∨ off = Reg.strDomain) ∧ s.admits party off then
    match party with
    | .host => s.setFld Fld.hostWrReject 1
    | .flint => s.strWrite off value
  else s

def execStrConfigWrite (at_ : Nat) (party : Party) (off : Nat) (value : BitVec 32) (s : State) :
    Host.Outcome State Fault Refusal := .next (strConfigWrite at_ party off value s)

/-- The quarry has tick registers: quarry 0 always, the others in Quarry mode (R38). -/
def State.hasTickRegs (s : State) (q : Nat) : Bool := decide (q < quarryCount s.modeOf)

/-- STR_COUNT_LO_READ: the read latches count bits [47:32] for the reading party and returns bits [31:0] (R48). -/
def strCountLoRead (party : Party) (quarry : Nat) (s : State) : State :=
  if s.admits party Reg.str = false then s
  else if s.hasTickRegs quarry then
    let b := s.quarry quarry
    let hi : BitVec 16 := BitVec.ofNat 16 (b.count.toNat / 2 ^ 32)
    let b := match party with
      | .host => { b with latchHost := hi }
      | .flint => { b with latchFlint := hi }
    let s := s.setQuarry quarry b
    { s with host := { s.host with readData := b.count.toNat % 2 ^ 32 } }
  else { s with host := { s.host with readData := 0 } }

def execStrCountLoRead (party : Party) (quarry : Nat) (s : State) : Host.Outcome State Fault Refusal :=
  .next (strCountLoRead party quarry s)

/-- STR_COUNT_WRITE: Flint writes half of the counter while run is 0; the latches stay (R48). A host write is ignored
(R575). -/
def strCountWrite (party : Party) (quarry : Nat) (hi : Bool) (value : Word) (s : State) : State :=
  if s.hasTickRegs quarry ∧ s.admits party Reg.str then
    match party with
    | .host => s.setFld Fld.hostWrReject 1
    | .flint =>
      if s.flag Fld.run then s
      else
        let b := s.quarry quarry
        let n := if hi then b.count.toNat % 2 ^ 32 + value.toNat % 2 ^ 16 * 2 ^ 32
                 else b.count.toNat / 2 ^ 32 * 2 ^ 32 + value.toNat
        s.setQuarry quarry { b with count := BitVec.ofNat 48 n }
  else s

def execStrCountWrite (party : Party) (quarry : Nat) (hi : Bool) (value : BitVec 32) (s : State) :
    Host.Outcome State Fault Refusal := .next (strCountWrite party quarry hi value s)

end Sys2Proof.Machine
end

