-- ==== Sys2Proof/Machine/Streams.lean ====
section
/-! DEFINITION. Descriptor streams: issue, the tile picker, the queues, control descriptors, semaphores, the end of a
tile, the tile guard and the end of a job (chapter Cores, Descriptor Streams and Tiles). -/

namespace Sys2Proof.Machine

/-! ## Levels and donations (R398 to R401) -/

/-- The effective level of a context: its own or the highest donated to it (R398). -/
def State.level (s : State) (c : Nat) : Nat :=
  s.ctx.donations.foldl (fun m d => if d.toCtx = c then max m d.level else m) (s.fld (Fld.ctxPrio c))

/-- A stream moves to Waiting on a semaphore; a wait on another context's semaphore opens a donation at the waiter's own
level, unless the wait has spent one (R70, R400). -/
def State.waitOn (s : State) (core n key : Nat) : State :=
  let st := s.stream core n
  let o := (s.sem key).owner
  let s := s.setStream core n { st with state := .waiting, waitFor := .sem key }
  if o ≠ st.ctx ∧ st.donationSpent = false ∧ s.ctx.donations.any (fun d => d.waiter == 64 * core + n) = false then
    let d : Donation := ⟨64 * core + n, st.ctx, o, s.fld (Fld.ctxPrio st.ctx), 0⟩
    { s with ctx := { s.ctx with donations := s.ctx.donations ++ [d] } }
  else s

/-- A stream leaves Waiting for Ready; its donation closes (R59, R400). -/
def State.wake (s : State) (core n : Nat) : State :=
  let s := s.setStream core n { s.stream core n with
    state := .ready, waitFor := .nothing, readyAt := s.now, met := true, donationSpent := false }
  s.closeDonations fun d => d.waiter == 64 * core + n

/-! ## Waits and signals (R70, R71) -/

/-- The wait of a head descriptor is met (R70). -/
def State.waitMet (s : State) (core d : Nat) : Bool :=
  !dWaitEn d || decide (dWaitVal d ≤ (s.sem (semKey core (dWaitSem d))).value.toNat)

/-- A stream's head waits on the semaphore under a key. -/
def Stream.waitsOn (st : Stream) (core key : Nat) : Bool :=
  st.state == .ready && st.issued && dWaitEn st.head && semKey core (dWaitSem st.head) == key

/-- Heads that wait on a semaphore, when it changes: the moment at which a wait comes to be met is the ready time of its
head (R73). -/
def State.senseWaits (s : State) (key : Nat) : State :=
  s.mapStreams fun k st =>
    if st.waitsOn (k / 64) key then
      let now := s.waitMet (k / 64) st.head
      { st with met := now, readyAt := if now && !st.met then s.now else st.readyAt }
    else st

/-- Taking a wait subtracts wait_val when consume is set (R70). -/
def State.takeWait (s : State) (core d : Nat) : State :=
  if dWaitEn d && dConsume d then
    let k := semKey core (dWaitSem d)
    let m := s.sem k
    (s.setSem k { m with value := m.value - BitVec.ofNat 32 (dWaitVal d) }).senseWaits k
  else s

/-- An add: it saturates, and whether it carried beyond 0xFFFF_FFFF (R71). -/
def State.semAdd (s : State) (k v : Nat) : State × Bool :=
  let m := s.sem k
  let n := m.value.toNat + v
  if n < 2 ^ 32 then (s.setSem k { m with value := BitVec.ofNat 32 n }, false)
  else (s.setSem k { m with value := BitVec.ofNat 32 (2 ^ 32 - 1) }, true)

/-- A set takes effect at once (R71). -/
def State.semSet (s : State) (k v : Nat) : State := s.setSem k { s.sem k with value := BitVec.ofNat 32 v }

/-- One signal of context `c` from a core: refused on a semaphore it may not use, faulting it with SEM_ACCESS; an
overflow faults it with SEM_OVERFLOW (R68, R71). The flag says that the context goes on. -/
def State.signalOne (s : State) (c core desc ref v : Nat) (set : Bool) : State × Bool :=
  let k := semKey core ref
  if (s.sem k).permits c = false then (s.ctxError c core 0x0204 desc, false)
  else if set then (s.semSet k v, true)
  else
    let r := s.semAdd k v
    if r.2 then (r.1.ctxError c core 0x0205 desc, false) else (r.1, true)

/-- The signal of a descriptor's header, if it has one (R63). -/
def State.signalHeader (s : State) (c core desc : Nat) : State :=
  if dSigEn desc then (s.signalOne c core desc (dSigSem desc) (dSigVal desc) false).1 else s

/-! ## Issue (R54, R64) -/

/-- A stream may issue: Ready, its head not yet issued, on a core in service, for a running context in place. -/
def State.mayIssue (s : State) (core n : Nat) : Bool :=
  let st := s.stream core n
  st.state == .ready && !st.issued && !s.coreFenced core && s.ctxState st.ctx == csRunning && !s.displaced st.ctx

/-- The program counter lies in the program (R64). -/
def Stream.inProgram (st : Stream) : Bool := decide (st.progBase ≤ st.pc) && decide (st.pc < st.progBase + 64 * st.progLen)

/-- The descriptors of a program from an address on enter a stream's buffer, which holds 4; the one that cannot be read ends
the prefetch, and is met when it reaches the head (R52, R58). -/
def prefetch (core c : Nat) (st : Stream) : Nat → Nat → Exec (List (Nat × Nat))
  | 0, _ => pure []
  | n + 1, pc =>
    if decide (st.progBase ≤ pc) && decide (pc < st.progBase + 64 * st.progLen) then
      match st.buffer.find? fun e => e.1 == pc with
      | some e => do pure (e :: (← prefetch core c st n (pc + 64)))
      | none => fun s => match (readCopy core c ⟨true, pc⟩ 64) s with
        | (.ok r, s) => (do pure ((pc, leNat r.1) :: (← prefetch core c st n (pc + 64)))) s
        | (.error _, s) => (.ok [], s)
    else pure []

/-- The head descriptor of a stream: from its buffer, or as it is fetched now, when the descriptors after it are prefetched.
DESIGN CHOICE: the spec gives the buffer and its size, and not the moment of each prefetch (R52, R58, log entry 165). -/
def fetchHead (core : Nat) (st : Stream) : Exec (Nat × List (Nat × Nat)) :=
  match st.buffer.find? fun e => e.1 == st.pc with
  | some e => do pure (e.2, ← prefetch core st.ctx st 4 st.pc)
  | none => do
    let r ← readCopy core st.ctx ⟨true, st.pc⟩ 64
    let rest ← prefetch core st.ctx st 3 (st.pc + 64)
    pure (leNat r.1, (st.pc, leNat r.1) :: rest)

/-- DESCRIPTOR_ISSUE: the head is fetched and checked; a failure faults the context (R54, R64). -/
def descriptorIssue (at_ core stream : Nat) (s : State) : State :=
  let s := s.advanceTo at_
  let st := s.stream core stream
  if s.mayIssue core stream then
    if st.inProgram = false then s.ctxError st.ctx core 0x0206 0
    else
      match (fetchHead core st) s with
      | (.error (.fault code phys), s) => s.raiseCtx { code := code, core := some core, phys := phys } st.ctx
      | (.error _, s) => s
      | (.ok r, s) =>
        match s.descCheck core st.ctx r.1 with
        | some code => s.ctxError st.ctx core code r.1
        | none => s.setStream core stream { st with issued := true, head := r.1, buffer := r.2, met := s.waitMet core r.1 }
  else s

def execDescriptorIssue (at_ core stream : Nat) (s : State) : Host.Outcome State Fault Refusal :=
  .next (descriptorIssue at_ core stream s)

/-- A stream's checked head waits for the control unit, the picker or a queue. -/
def State.headReady (s : State) (core n : Nat) : Bool :=
  let st := s.stream core n
  st.state == .ready && st.issued && !s.coreFenced core && s.ctxState st.ctx == csRunning && !s.displaced st.ctx

/-- The stream goes on to a program counter: its next head is to be issued (R54). -/
def State.goTo (s : State) (core n : Nat) (pc : Nat) : State :=
  s.setStream core n { s.stream core n with state := .ready, issued := false, pc := pc, readyAt := s.now }

/-- The stream goes on to the next descriptor. -/
def State.goOn (s : State) (core n : Nat) : State := s.goTo core n ((s.stream core n).pc + 64)

/-! ## The picker (R61, R73, R80, R81) -/

/-- Number of an engine in the record of the last context. -/
def engineNo : Engine → Nat
  | .matrix => 0 | .vector => 1 | .row => 2 | .attn => 3

/-- The engine may take a tile: an attention tile claims the pipe and the matrix array; a row tile may run beside an
attention tile, in the clocks that it leaves (R60, R61). -/
def State.engineFree (s : State) (core : Nat) (e : Engine) : Bool :=
  !s.core.tiles.any fun t => t.core == core && t.holds && (t.engine == e ||
    (e == .matrix && t.engine == .attn) || (e == .attn && t.engine == .matrix))

/-- A stream is a candidate of an engine (R73, R404). -/
def State.candidate (s : State) (core : Nat) (e : Engine) (n : Nat) : Bool :=
  s.headReady core n && classEngine (dClass (s.stream core n).head) == some e

/-- A descriptor works on a decode slot: an ATTN_DECODE, a KV operation or SEQ_DONE whose slot is one, or a BUCKET_SORT of
which an entry names one (R288). -/
def State.onDecode (s : State) (core c d : Nat) : Bool :=
  match dOpcode d with
  | 0x43 => true
  | 0x44 =>
    let b := sortBody d
    (List.range b.count).any fun i => s.slot ((s.lsByte core (s.lsAt c (b.src + 32 * i))).toNat % 128) |>.decode
  | 0x45 => (s.slot (fieldAt d 16 0 7)).decode
  | 0x4E => (s.slot (fieldAt d 40 0 7)).decode
  | 0x4F => (s.slot (fieldAt d 21 0 7)).decode
  | _ => false

/-- Stream `a` goes before stream `b` (R73, R288). -/
def State.before (s : State) (core a b : Nat) : Bool :=
  let x := s.stream core a
  let y := s.stream core b
  let lx := s.level x.ctx
  let ly := s.level y.ctx
  let px := x.prio || s.onDecode core x.ctx x.head
  let py := y.prio || s.onDecode core y.ctx y.head
  if lx ≠ ly then decide (ly < lx)
  else if px ≠ py then px
  else if x.readyAt ≠ y.readyAt then decide (x.readyAt < y.readyAt)
  else decide (a < b)

/-- The candidate that the picker prefers (R73). -/
def State.bestOf (s : State) (core : Nat) (e : Engine) : Option Nat :=
  (List.range 64).foldl (fun best n =>
    if s.candidate core e n then
      match best with
      | some b => if s.before core n b then some n else some b
      | none => some n
    else best) none

/-! Checkers of Assay (R462 to R468). -/

/-- The slab on which a tile's checker runs, and the local index from which it is sought (R465). -/
def State.checkerStart (s : State) (core : Nat) (count : BitVec 48) : Nat × Nat :=
  let slab := core / 40
  let k := core % 40
  if s.modeOf = 1 then (slab ^^^ 1, k)
  else if s.modeOf = 2 then (slab, (k + 20) % 40)
  else ((slab + 1 + count.toNat % 3) % 4, k)

/-- The checker of a core: the unfenced core at the lowest local index at or above k, wrapping (R465). -/
def State.checkerOf (s : State) (core : Nat) (count : BitVec 48) : Option Nat :=
  let st := s.checkerStart core count
  ((List.range 40).map fun i => 40 * st.1 + (st.2 + i) % 40).find? fun c => !s.coreFenced c

/-- One advance of the sampling value x (R468). -/
def assayNext (x : BitVec 32) : BitVec 32 :=
  let x := x ^^^ (x <<< 13)
  let x := x ^^^ (x >>> 17)
  x ^^^ (x <<< 5)

/-- Whether a tile is checked, and by which core (R464, R468). A tile of level 2 that is not eligible is counted. While
a replay runs, tiles that would be checked run unchecked and are counted (R472). -/
def State.assaySelect (s : State) (core c d : Nat) (count : BitVec 48) : State × Option Nat :=
  if s.err.level = 0 then (s, none)
  else if s.eligible core c d = false then (if s.err.level = 2 then s.bump Fld.assaySkip else s, none)
  else
    let x := assayNext (SMap.get (fun k => BitVec.ofNat 32 (k + 1)) s.core.assayX core)
    let s := if s.err.level = 1 then { s with core := { s.core with
        assayX := SMap.put (fun k => BitVec.ofNat 32 (k + 1)) s.core.assayX core x } } else s
    if s.err.level = 2 ∨ x.toNat % 2 ^ s.err.sampleLog2 = 0 then
      if s.flag Fld.replayBusy then (s.bump Fld.assaySkip, none) else (s, s.checkerOf core count)
    else (s, none)

/-- The unit kind whose ordinals count a tile: 0 where its epilogue runs, 1 for a KERNEL (R589). -/
def ordinalKind (d : Nat) : Option Nat :=
  match dOpcode d with
  | 0x11 => if (matBody d).epi then some 0 else none
  | 0x12 => some 0
  | 0x15 => some 0
  | 0x21 => some 1
  | _ => none

/-- The ordinal of a tile that a unit of a core starts, and the count after it (R141, R589). -/
def State.takeOrdinal (s : State) (core d : Nat) : Nat × State :=
  match ordinalKind d with
  | none => (0, s)
  | some k =>
    let now := (s.quarry (s.quarryOfCore core)).ticks
    let o := SMap.get (fun _ => (0, 0)) s.core.ordinals (2 * core + k)
    let n := if o.1 = now then o.2 else 0
    (n, { s with core := { s.core with
      ordinals := SMap.put (fun _ => (0, 0)) s.core.ordinals (2 * core + k) (now, n + 1) } })

/-- The local store of a core with its tags, of which a checker's copy of a tile's inputs is a part (R466). -/
def State.localCopy (s : State) (core : Nat) : List Host.Cell × SMap Bool :=
  (s.mem.ls.filter fun c => c.1 / 2 ^ 21 == core, s.mem.lsPoison.filter fun e => e.1 / 2 ^ 15 == core)

/-- The engine of a core starts a tile: its context, descriptor, resume point and home are given in `t` (R75, R76, R81). -/
def State.beginTile (s : State) (t : Tile) : State :=
  let o := s.takeOrdinal t.core t.desc
  let s := o.2
  let count := s.countOf t.ctx
  let r := s.assaySelect t.core t.ctx t.desc count
  let s := r.1
  let b := s.slab (t.core / 40)
  let t := { t with
    phase := .running, startAt := s.now, startClk := b.clk, startGuard := b.guard, startCount := count
    checker := r.2, full := s.err.level == 2, ordinal := o.1, startTicks := s.ticksOf t.ctx
    copy := if r.2.isSome then some (s.localCopy t.core) else none }
  { s with core := { s.core with
      tiles := s.core.tiles ++ [t]
      lastCtx := SMap.put (fun _ => 0) s.core.lastCtx (4 * t.core + engineNo t.engine) (t.ctx + 1) } }

/-- The engine starts a stream's tile; a tile that is replayed takes its wait no second time and goes on at its resume
point (R70, R274, log entry 31). DESIGN CHOICE: tiles of one context that use a slot without any order act on it in the order in
which the picker starts them, where R100 leaves the slot's contents undefined (log entry 166). -/
def State.startTile (s : State) (core n : Nat) (e : Engine) : State :=
  let st := s.stream core n
  let s := if st.resume.isSome then s else s.takeWait core st.head
  let s := s.setStream core n { s.stream core n with state := .busy, resume := none }
  s.beginTile { core := core, engine := e, stream := n, ctx := st.ctx, desc := st.head
                at_ := st.resume.getD {}, tally := (st.resume.getD {}).tally }

/-- A checked tile that has finished and whose checker's tile waits for an engine of a core: the one of the highest level, then
the one that has waited longest (R466). -/
def State.checkerFor (s : State) (core : Nat) (e : Engine) : Option Tile :=
  (s.core.tiles.filter fun t => t.phase == .checking && t.checker == some core && !t.checkerRan && t.engine == e && !s.displaced t.ctx).foldl
    (fun best t => match best with
      | some b => if s.level b.ctx < s.level t.ctx ∨ (s.level b.ctx = s.level t.ctx ∧ t.stopAt < b.stopAt) then some t else some b
      | none => some t) none

/-- A tile that waits for an engine outside its core's streams, with its prio and the moment since which it waits, goes before
stream `n` of the core (R73). -/
def State.beats (s : State) (core : Nat) (t : Tile) (prio : Bool) (since n : Nat) : Bool :=
  let x := s.stream core n
  let px := x.prio || s.onDecode core x.ctx x.head
  if s.level t.ctx ≠ s.level x.ctx then decide (s.level x.ctx < s.level t.ctx)
  else if prio ≠ px then prio
  else decide (since < x.readyAt)

/-- A checker's tile has the engine of a core next. -/
def State.checkerNext (s : State) (core : Nat) (e : Engine) : Option Tile :=
  match s.checkerFor core e with
  | none => none
  | some t => match s.bestOf core e with
    | some n => if s.beats core t true t.stopAt n then some t else none
    | none => some t

/-- The prio of the stream for which Flint has placed a tile on another core. -/
def State.placedPrio (s : State) (t : Tile) : Bool :=
  match t.home with
  | some h => (s.stream h.1 h.2).prio || s.onDecode t.core t.ctx t.desc
  | none => false

/-- The tile that Flint has placed on a core and that its engine has next: the one placed first of those of the highest level and
prio, if it goes before the streams of the core (R27, R73). -/
def State.placedNext (s : State) (core : Nat) (e : Engine) : Option Tile :=
  let first (a b : Tile) : Bool :=
    let x := s.level a.ctx
    let y := s.level b.ctx
    if x ≠ y then decide (y < x) else s.placedPrio a && !s.placedPrio b
  let l := s.core.tiles.filter fun t => t.phase == .placed && t.core == core && t.engine == e && !s.displaced t.ctx
  let best := l.foldl (fun (b : Option Tile) t => match b with
    | some u => if first t u then some t else some u
    | none => some t) none
  best.filter fun t => match s.bestOf core e with
    | some n => s.beats core t (s.placedPrio t) t.startAt n
    | none => true

/-- The engine starts a tile that Flint has placed on its core; its wait stays taken. -/
def State.startPlaced (s : State) (t : Tile) : State := (s.dropTile t.core t.stream).beginTile t

/-- A pattern replay that is due takes the engine of its tile's class at the next tile boundary, above every context (R472). -/
def State.replayClaims (s : State) (e : Engine) : Bool :=
  s.flag Fld.replayBusy && (List.range 8).any fun i =>
    let v := SMap.get (fun _ => ({} : Evid)) s.err.evid i
    v.use_ == .captured && classEngine (dClass v.descriptor) == some e

/-- New tiles are withheld for 1 µs in every 4 µs while the power stays above the ceiling (R537). -/
def State.withheld (s : State) : Bool := s.pwr.withhold && s.now / us 1 % 4 == 0

/-- Places of the queue of a class, and the entries of a core in it. -/
def State.queueRoom (s : State) (core cls : Nat) : Bool :=
  let count (l : List QEntry) : Nat := (l.filter fun q => q.core == core).length
  match cls with
  | 5 => decide (count s.core.dmaq < 32)
  | 6 => decide (count s.core.hubq < 16)
  | 8 => decide (count s.core.wsq < 16)
  | _ => false

/-- A head could be taken at this moment: its queue has room, or its engine is free and has it next (R70, R73, R74). -/
def State.takeable (s : State) (core n : Nat) : Bool :=
  let d := (s.stream core n).head
  match classEngine (dClass d) with
  | some e => s.engineFree core e && !s.withheld && s.bestOf core e == some n
  | none => dClass d == 7 || s.queueRoom core (dClass d)

/-- Of two heads that contend for a semaphore, each a core and a stream, the first is served first: in the order in which they came
to ask, and in one clock by stream number at a core semaphore and by core number at a hub semaphore (R70). -/
def State.servedFirst (s : State) (a b : Nat × Nat) : Bool :=
  let x := (s.stream a.1 a.2).readyAt
  let y := (s.stream b.1 b.2).readyAt
  if x ≠ y then decide (x < y) else if a.1 ≠ b.1 then decide (a.1 < b.1) else decide (a.2 < b.2)

/-- Another head that consumes from the semaphore of a head is served before it (R70). -/
def State.outranked (s : State) (core n : Nat) : Bool :=
  let d := (s.stream core n).head
  let key := semKey core (dWaitSem d)
  dWaitEn d && dConsume d && s.core.streams.any fun e =>
    let k := e.1 / 64
    let m := e.1 % 64
    e.2.waitsOn k key && dConsume e.2.head && s.headReady k m && s.waitMet k e.2.head && s.takeable k m
      && s.servedFirst (k, m) (core, n)

/-- The picker at a free engine: candidates in order, a candidate whose wait is unmet moving to Waiting (R70, R73). -/
def State.pickFrom (s : State) (core : Nat) (e : Engine) : Nat → State
  | 0 => s
  | fuel + 1 =>
    match s.bestOf core e with
    | none => s
    | some n =>
      let st := s.stream core n
      let k := semKey core (dWaitSem st.head)
      if st.resume.isSome then s.startTile core n e
      else if dWaitEn st.head && !(s.sem k).permits st.ctx then
        (s.ctxError st.ctx core 0x0204 st.head).pickFrom core e fuel
      else if s.waitMet core st.head then (if s.outranked core n then s else s.startTile core n e)
      else (s.waitOn core n k).pickFrom core e fuel

/-- TILE_PICK (R73). Where a checker's tile is next, ASSAY_CHECKER_START takes the engine; where a replay is due, PATTERN_REPLAY
does; a tile that a plan has placed on the core is a candidate beside its streams (R27). -/
def tilePick (at_ core : Nat) (engine : Engine) (s : State) : State :=
  let s := s.advanceTo at_
  if s.engineFree core engine ∧ s.withheld = false ∧ s.checkerNext core engine = none ∧ s.replayClaims engine = false then
    match s.placedNext core engine with
    | some t => s.startPlaced t
    | none => s.pickFrom core engine 64
  else s

def execTilePick (at_ core : Nat) (engine : Engine) (s : State) : Host.Outcome State Fault Refusal :=
  .next (tilePick at_ core engine s)

/-! ## The queues (R52, R74) -/

/-- A descriptor enters its queue (R60). -/
def State.enqueue (s : State) (core n : Nat) : State :=
  let st := s.stream core n
  let q : QEntry := { core := core, id := s.core.nextId, stream := n, ctx := st.ctx, desc := st.head
                      ticks := s.ticksOf st.ctx, startCount := s.countOf st.ctx }
  let b := { s.core with nextId := s.core.nextId + 1 }
  { s with core := match dClass st.head with
      | 5 => { b with dmaq := b.dmaq ++ [q] }
      | 6 => { b with hubq := b.hubq ++ [q] }
      | _ => { b with wsq := b.wsq ++ [q] } }

/-- QUEUE_ADMISSION: with a free place and the wait met, the descriptor is taken and the stream goes on; with the queue
full the stream waits, and nothing is subtracted (R70, R74). -/
def queueAdmission (at_ core stream : Nat) (s : State) : State :=
  let s := s.advanceTo at_
  let st := s.stream core stream
  let s := if st.state = .waiting ∧ st.waitFor = .queue ∧ s.queueRoom core (dClass st.head) then s.wake core stream else s
  let st := s.stream core stream
  if s.headReady core stream ∧ [5, 6, 8].contains (dClass st.head) then
    let k := semKey core (dWaitSem st.head)
    if s.queueRoom core (dClass st.head) = false then
      s.setStream core stream { st with state := .waiting, waitFor := .queue }
    else if dWaitEn st.head && !(s.sem k).permits st.ctx then s.ctxError st.ctx core 0x0204 st.head
    else if s.waitMet core st.head then
      if s.outranked core stream then s else ((s.takeWait core st.head).enqueue core stream).goOn core stream
    else s.waitOn core stream k
  else s

def execQueueAdmission (at_ core stream : Nat) (s : State) : Host.Outcome State Fault Refusal :=
  .next (queueAdmission at_ core stream s)

/-! ## Waking (R68, R70) -/

/-- A stream that waits on a semaphore, when the semaphore changes: Ready when its condition is met (R70), a fault of
its context when it may no longer use it (R68). -/
def State.rewait (s : State) (key sk : Nat) : State :=
  let core := sk / 64
  let n := sk % 64
  let st := s.stream core n
  if st.state = .waiting ∧ st.waitFor = .sem key then
    if (s.sem key).permits st.ctx = false then s.ctxError st.ctx core 0x0204 st.head
    else if s.waitMet core st.head then s.wake core n
    else s
  else s

/-- Every stream that waits on a semaphore looks again. -/
def State.rewaitAll (s : State) (key : Nat) : State := (s.core.streams.keys.foldl (fun t k => t.rewait key k) s).senseWaits key

/-- SEMAPHORE_WAKE (R70). -/
def semaphoreWake (at_ key : Nat) (s : State) : State := (s.advanceTo at_).rewaitAll key

def execSemaphoreWake (at_ key : Nat) (s : State) : Host.Outcome State Fault Refusal := .next (semaphoreWake at_ key s)

/-! ## The end of a job (R59, R147, R424, R432) -/

/-- The streams of a context, by stream number and then by core, with their keys. -/
def State.streamsOf (s : State) (c : Nat) : List (Nat × Stream) :=
  let mine := s.core.streams.filter fun e => e.2.ctx == c && e.2.state != .unbound
  (List.range 64).flatMap fun n => mine.filter fun e => e.1 % 64 == n

/-- The end_code of a job: the non-zero end_code of the lowest-numbered stream, or 0 (R424). -/
def State.jobEndCode (s : State) (c : Nat) : Nat :=
  match (s.streamsOf c).find? fun e => e.2.endCode != 0 with
  | some e => e.2.endCode.toNat
  | none => 0

/-- The OR of the job's sticky words (R147). -/
def State.jobSticky (s : State) (c : Nat) : Nat :=
  ((s.streamsOf c).foldl (fun (m : BitVec 6) e => m ||| e.2.sticky) 0).toNat

/-- The job-end completion of context `c` (R424). -/
def State.postJobEnd (s : State) (c status : Nat) : State :=
  let x := s.ctxAt c
  let first := match x.firstFailed with | some q => 128 + q | none => 0
  let tail := s.jobEndCode c + s.jobSticky c * 2 ^ 32 + sat8 x.failedSeqs * 2 ^ 40 + first * 2 ^ 48
    + (s.countOf c).toNat * 2 ^ 64
  s.post { cq := s.fld (Fld.sqCq x.startSq), sq := x.startSq, kind := 1
           body := complBody 0 x.startSq 1 (some c) status tail }

/-- The streams of a context return to Idle; what its waits have donated closes (R59, R400). -/
def State.idleStreams (s : State) (c : Nat) : State :=
  (s.closeDonations fun d => d.fromCtx == c).mapStreams fun _ st =>
    if st.ctx == c && st.state != .unbound then
      { st with state := .idle, waitFor := .nothing, issued := false, released := false, donationSpent := false } else st

/-- The job of context `c` ends with a status: its completions are posted and its streams return to Idle (R424, R432). -/
def State.endJob (s : State) (c status : Nat) : State :=
  if (s.ctxAt c).jobOn then
    let s := s.postJobEnd c status
    ((s.setCtx c { s.ctxAt c with jobOn := false }).endSequences c).idleStreams c
  else s.idleStreams c

/-- Every enabled stream of a context has reached END; streams of fenced cores are left out (R393, R447). -/
def State.allEnded (s : State) (c : Nat) : Bool :=
  s.core.streams.all fun e => e.2.ctx != c || s.coreFenced (e.1 / 64)
    || [StreamState.unbound, .idle, .ended].contains e.2.state

/-! ## Control descriptors (R65, R66) -/

/-- A control descriptor of operation `op` at the head of a stream: its wait, then its action on the descriptor (R65); one that
another head is served before waits for it (R70). -/
def State.control (s : State) (core n op : Nat) (act : Nat → State → State) : State :=
  let st := s.stream core n
  if s.headReady core n ∧ dOpcode st.head = op then
    let k := semKey core (dWaitSem st.head)
    if dWaitEn st.head && !(s.sem k).permits st.ctx then s.ctxError st.ctx core 0x0204 st.head
    else if s.waitMet core st.head then (if s.outranked core n then s else act st.head (s.takeWait core st.head))
    else s.waitOn core n k
  else s

/-- WAIT completes when its wait is met. -/
def waitCtl (at_ core stream : Nat) (s : State) : State :=
  (s.advanceTo at_).control core stream 0x71 fun _ t => t.goOn core stream

def execWait (at_ core stream : Nat) (s : State) : Host.Outcome State Fault Refusal := .next (waitCtl at_ core stream s)

/-- The signals of a list of targets (reference, value, set), in order; one that faults its context ends the list. -/
def State.signals (s : State) (c core desc : Nat) : List (Nat × Nat × Bool) → State × Bool
  | [] => (s, true)
  | t :: r =>
    let x := s.signalOne c core desc t.1 t.2.1 t.2.2
    if x.2 then x.1.signals c core desc r else x

/-- The targets of a SIGNAL: the header's, then targets 0 to n_extra − 1 (R65). -/
def sigTargets (d : Nat) : List (Nat × Nat × Bool) :=
  (if dSigEn d then [(dSigSem d, dSigVal d, sigMode d 3)] else []) ++
  (List.range (sigExtra d)).map fun i => ((sigTarget d i).1, (sigTarget d i).2, sigMode d i)

/-- SIGNAL. -/
def signalCtl (at_ core stream : Nat) (s : State) : State :=
  (s.advanceTo at_).control core stream 0x72 fun d t =>
    let r := t.signals (t.stream core stream).ctx core d (sigTargets d)
    if r.2 then r.1.goOn core stream else r.1

def execSignal (at_ core stream : Nat) (s : State) : Host.Outcome State Fault Refusal := .next (signalCtl at_ core stream s)

/-- Loop counter `k` of a stream. -/
def Stream.count (st : Stream) (k : Nat) : BitVec 32 :=
  if k = 0 then st.c0 else if k = 1 then st.c1 else if k = 2 then st.c2 else st.c3

/-- A stream with loop counter `k` replaced. -/
def Stream.setCount (st : Stream) (k : Nat) (v : BitVec 32) : Stream :=
  if k = 0 then { st with c0 := v } else if k = 1 then { st with c1 := v }
  else if k = 2 then { st with c2 := v } else { st with c3 := v }

/-- The program counter `off` descriptors from `pc`, as a 48-bit address. -/
def branchPc (pc : Nat) (off : Int) : Nat := (((pc : Int) + 64 * off) % (2 ^ 48 : Int)).toNat

/-- The rule of R66 on one counter: its new value. -/
def loopCount (c trips : BitVec 32) : BitVec 32 := if c = 0 then trips - 1 else c - 1

/-- LOOP (R66). -/
def loopCtl (at_ core stream : Nat) (s : State) : State :=
  (s.advanceTo at_).control core stream 0x73 fun d t =>
    let st := t.stream core stream
    let k := fieldAt d 16 0 2
    let c := loopCount (st.count k) (BitVec.ofNat 32 (fieldAt d 20 0 32))
    let t := t.setStream core stream (st.setCount k c)
    if c = 0 then t.goOn core stream else t.goTo core stream (branchPc st.pc (ctlOffset d))

def execLoop (at_ core stream : Nat) (s : State) : Host.Outcome State Fault Refusal := .next (loopCtl at_ core stream s)

/-- The condition of a BRANCH (R65). -/
def branchCond (cond value compare : Nat) : Bool :=
  match cond with
  | 0 => true
  | 1 => decide (compare ≤ value)
  | 2 => decide (value < compare)
  | _ => value == compare

/-- BRANCH: the semaphore is tested under R68. -/
def branchCtl (at_ core stream : Nat) (s : State) : State :=
  (s.advanceTo at_).control core stream 0x74 fun d t =>
    let st := t.stream core stream
    let cond := fieldAt d 16 0 8
    let m := t.sem (semKey core (fieldAt d 18 0 16))
    if cond ≠ 0 ∧ m.permits st.ctx = false then t.ctxError st.ctx core 0x0204 d
    else if branchCond cond m.value.toNat (fieldAt d 20 0 32) then t.goTo core stream (branchPc st.pc (ctlOffset d))
    else t.goOn core stream

def execBranch (at_ core stream : Nat) (s : State) : Host.Outcome State Fault Refusal := .next (branchCtl at_ core stream s)

/-- YIELD: the segment ends, the stream is Parked at the next descriptor. -/
def yieldCtl (at_ core stream : Nat) (s : State) : State :=
  (s.advanceTo at_).control core stream 0x75 fun _ t =>
    let st := t.stream core stream
    t.setStream core stream { st with state := .parked, issued := false, released := false, pc := st.pc + 64 }

def execYield (at_ core stream : Nat) (s : State) : Host.Outcome State Fault Refusal := .next (yieldCtl at_ core stream s)

/-- END: the stream is Ended and keeps its end_code; the job ends when every enabled stream has (R65, R393). -/
def endCtl (at_ core stream : Nat) (s : State) : State :=
  (s.advanceTo at_).control core stream 0x76 fun d t =>
    let st := t.stream core stream
    let t := t.setStream core stream { st with
      state := .ended, issued := false, released := false, endCode := BitVec.ofNat 32 (fieldAt d 16 0 32) }
    if t.allEnded st.ctx then (t.setFld (Fld.ctxState st.ctx) csEnded).endJob st.ctx 0 else t

def execEnd (at_ core stream : Nat) (s : State) : Host.Outcome State Fault Refusal := .next (endCtl at_ core stream s)

/-! ## The end of a tile (R54, R63, R75, R76, R82) -/

/-- The tile has run longer than 15,200 clocks of its slab (R75). A checked tile is measured at its own end: its wait for the
checker does not count. -/
def State.longTile (s : State) (t : Tile) : Bool :=
  if t.phase == .checking then t.long else decide (t.startClk + 1520000 < (s.slab (t.core / 40)).clk)

/-- The stream for which a tile runs. -/
def Tile.owner (t : Tile) : Nat × Nat := t.home.getD (t.core, t.stream)

/-- A tile finishes: its tally is absorbed; a trapped flag discards its signal and faults the context; otherwise the
signal is given and the stream goes on (R54, R63, R147 to R149, R153). -/
def State.finishTile (s : State) (t : Tile) : State :=
  let s := s.dropTile t.core t.stream
  let s := { s with kv := { s.kv with posted := s.kv.posted ++ t.posted.map fun va => (t.ctx, va) } }
  let o := t.owner
  let s := s.absorb t.ctx o.1 o.2 (dLayerTag t.desc) t.tally true (s.longTile t)
  match trapCode (s.ctxAt t.ctx).trapMask t.tally.flags with
  | some code =>
    s.raiseCtx { code := code, core := some t.core, flags := t.tally.flags, tileId := BitVec.ofNat 32 (dTileId t.desc),
                 layerTag := BitVec.ofNat 16 (dLayerTag t.desc) } t.ctx
  | none => (s.goOn o.1 o.2).signalHeader t.ctx t.core t.desc

/-- TILE_FINISH: a tile whose work is done finishes, or waits for its checker (R466); an engine that a fault stopped
comes free (R82). -/
def tileFinish (at_ core stream : Nat) (s : State) : State :=
  let s := s.advanceTo at_
  match s.tileOf core stream with
  | none => s
  | some t =>
    match t.phase with
    | .stopping => s.dropTile core stream
    | .worked =>
      if t.checker.isSome then
        let o := t.owner
        (s.setTile { t with phase := .checking, stopAt := s.now, long := s.longTile t }).setStream o.1 o.2
          { s.stream o.1 o.2 with waitFor := .checker }
      else s.finishTile t
    | _ => s

def execTileFinish (at_ core stream : Nat) (s : State) : Host.Outcome State Fault Refusal :=
  .next (tileFinish at_ core stream s)

/-- TILE_GUARD: 20 µs of counted time without finishing stop the tile and fault its context (R76). -/
def tileGuard (at_ core stream : Nat) (s : State) : State :=
  let s := s.advanceTo at_
  match s.tileOf core stream with
  | none => s
  | some t =>
    if (t.phase = .running ∨ t.phase = .worked ∨ t.phase = .recheck) ∧ t.startGuard + us 20 ≤ (s.slab (core / 40)).guard then
      let s := s.setTile { t with phase := .stopping, stopAt := s.now }
      s.ctxError t.ctx core 0x0203 t.desc
    else s

def execTileGuard (at_ core stream : Nat) (s : State) : Host.Outcome State Fault Refusal :=
  .next (tileGuard at_ core stream s)

/-- CORE_HANG: an engine of the core has not stopped within 2 µs of a guard or a fault. The error arises in handling the
context's record, so it opens an escalated record that fences the core (R76, R82, R453). -/
def coreHang (at_ core : Nat) (s : State) : State :=
  let s := s.advanceTo at_
  match s.core.tiles.find? fun t => t.core == core && t.phase == .stopping && decide (t.stopAt + us 2 ≤ s.now) with
  | none => s
  | some t =>
    let e : ErrInfo := { code := 0x0208, domain := domCore, index := core, ctx := some t.ctx, core := some core
                         tileId := BitVec.ofNat 32 (dTileId t.desc), layerTag := BitVec.ofNat 16 (dLayerTag t.desc) }
    match s.openRec domContext t.ctx with
    | some k => s.raiseInHandling k e
    | none => s.raise e

def execCoreHang (at_ core : Nat) (s : State) : Host.Outcome State Fault Refusal := .next (coreHang at_ core s)

/-! ## Running a tile's work -/

/-- The tile as it now stands, changed. -/
def putTile (t : Tile) (f : Tile → Tile) : Exec Unit :=
  Exec.doState fun s => s.setTile (f ((s.tileOf t.core t.stream).getD t))

/-- Output elements that a stage of a tile writes enter its tally, each once per flag over the whole tile (R146). -/
def noteElements (t : Tile) (count : Bool) (l : List (Nat × BitVec 6)) : Exec Unit :=
  putTile t fun u =>
    let z := Tally.once count (u.tally, u.at_.marks) l
    { u with tally := z.1, at_ := { u.at_ with marks := z.2 } }

/-- What a checked tile, and a tile of the attention pipe, writes and reads is logged while it runs (R467, R470). -/
def State.beginLog (s : State) (t : Tile) : State := if t.checker.isSome ∨ dClass t.desc = 4 then s.logged else s

/-- What a run of a tile has logged joins the logs of its earlier runs. -/
def State.endLog (s : State) (t : Tile) : State × Tile :=
  ({ s with core := { s.core with log := none } }, { t with wrote := t.wrote ++ s.accesses })

/-- The work of a tile of operation `op` in flight: what it does and raises, then Worked. A stop faults the context; a
stall leaves everything as it stands (R82, R485). `clean` is the work without the hardware's fault, by which the inputs of a tile whose
checksum failed are captured (R118, R470). -/
def State.runTile (s : State) (core stream op : Nat) (work : Tile → Exec Tally) (clean : Tile → Exec Tally := work) : State :=
  match s.tileOf core stream with
  | none => s
  | some t =>
    if t.phase = .running ∧ dOpcode t.desc = op ∧ s.coreFenced core = false then
      match (work t) (s.beginLog t) with
      | (.ok y, s') =>
        let z := s'.endLog ((s'.tileOf core stream).getD t)
        z.1.setTile { z.2 with phase := .worked, tally := t.tally.add y }
      | (.error (.fault code phys), s') =>
        let s' := ((s'.endLog t).1.setTile { t with phase := .stopping, stopAt := s'.now }).raiseCtx
          { code := code, core := some core, phys := phys, tileId := BitVec.ofNat 32 (dTileId t.desc)
            layerTag := BitVec.ofNat 16 (dLayerTag t.desc) } t.ctx
        if code = 0x0212 then
          s'.capture t 0 0xFFFF 0 0 ((clean t) s.logged).2.accesses ((work t) s.logged).2.accesses
        else s'
      | (.error _, _) => s
    else s

end Sys2Proof.Machine
end

