-- ==== Sys2Proof/Machine/Matrix.lean ====
section
/-! DEFINITION. The matrix array: MATMUL, EPILOGUE, SLOT_COMBINE, REDUCE, ELEMENTWISE, SPILL and FILL
(chapter The Matrix Array). -/

namespace Sys2Proof.Machine

/-! ## Parameters, masks and operands -/

/-- A number of `n` bytes of local store, consumed. -/
def lsNumber (core c off n : Nat) : Exec Nat := do
  let b ← readUse core c ⟨false, off⟩ n
  pure (leNat b)

/-- A vector of `n` binary32 values in local store. -/
def lsFloats (core c off n : Nat) : Exec (List Num) := do
  let b ← readUse core c ⟨false, off⟩ (4 * n)
  pure (unpack .f32 b n)

/-- The parameter record of a tile, read and checked when the tile starts (R122, R124). -/
def readMatParam (core c : Nat) (b : MatBody) (ew epi : Bool) : Exec MatParam := do
  Exec.check (decide (b.prm + 64 ≤ (← Exec.ask fun s => s.lsWindow c))) (.fault 0x0207 0)
  let r ← lsNumber core c b.prm 64
  Exec.check (matParamReserved r) (.fault 0x0202 0)
  let p := matParam r
  Exec.check (← Exec.ask fun s => s.matParamRange c b p ew epi) (.fault 0x0207 0)
  pure p

/-- The unmasked indices below `count`: those whose bit of a mask at `off` is 0 (R103, R121). -/
def liveOf (core c : Nat) (en : Bool) (off count : Nat) : Exec (List Nat) := do
  if en then
    let m ← lsNumber core c off ((count + 7) / 8)
    pure ((List.range count).filter fun i => !bit m i)
  else pure (List.range count)

/-- Indices of a block of 32. -/
def inBlock (l : List Nat) (k : Nat) : List Nat := l.filter fun i => i / 32 == k

/-- An operand: its base, stride, format, and the base and stride of its scales. -/
structure MatOperand where
  base : Addr
  stride : Nat
  fmt : Nat
  scale : Addr
  scaleStride : Nat

def MatBody.opA (b : MatBody) (p : MatParam) : MatOperand := ⟨b.a, b.aStride, b.aFmt, p.aScale, p.aScaleStride⟩
def MatBody.opB (b : MatBody) (p : MatParam) : MatOperand := ⟨b.b, b.bStride, b.bFmt, p.bScale, p.bScaleStride⟩

/-- The code of MATRIX_TIER. -/
def matTier : Option Nat := some 0x0211

/-- Elements `k0` to `k0 + n − 1` of one row (or column) of an operand, with their block scales applied, and the address of
a poisoned granule among them (R96, R104, R119). `k0` is a multiple of 32. -/
def fetchRow (core c : Nat) (o : MatOperand) (row k0 n : Nat) : Exec (List Num × Option Nat) := do
  let f := Fmt.ofCode o.fmt
  let r ← readTell core c (o.base.plus (row * o.stride + rowBytes o.fmt k0)) (packedLen f n) matTier
  let vals := unpack f r.1 n
  if fmtMx o.fmt then
    let q ← readTell core c (o.scale.plus (row * o.scaleStride + k0 / 32)) (scaleBytes n) matTier
    let at_ (i : Nat) : Nat := (q.1.getD i 0).toNat
    pure ((List.zip vals (List.range n)).map (fun (x : Num × Nat) => scaled (at_ (x.2 / 32)) x.1), r.2.or q.2)
  else pure (vals, r.2)

/-- The granules of an operand and its scales, looked at for their tier before any work (R121, R124). -/
def probeOperand (core c : Nat) (o : MatOperand) (rows : List Nat) (n : Nat) : Exec Unit :=
  Exec.each rows fun i => do
    probeTier core c (o.base.plus (i * o.stride)) (rowBytes o.fmt n) 0x0211
    if fmtMx o.fmt then probeTier core c (o.scale.plus (i * o.scaleStride)) (scaleBytes n) 0x0211

/-- The same for C. -/
def probeOut (core c : Nat) (b : MatBody) (p : MatParam) (rows : List Nat) : Exec Unit :=
  probeOperand core c ⟨b.c, b.cStride, p.dstFmt, p.dScale, p.dScaleStride⟩ rows b.n

/-! ## The sums of a lane (R91 to R97) -/

def a40Add : Num → Num → NumF := Fmt.a40.add

/-- The bfloat16 halves of a binary32 element (R95); a non-finite element takes no split. -/
def split32 (x : Num) : Num × Num :=
  let h := (Fmt.bf16.near x).1
  let h := if h.isFinite then h else Fmt.bf16.max x.isNeg
  match x, h with
  | .fin s m e, .fin t n g => (h, (Fmt.bf16.near (addExact s m e (!t) n g)).1)
  | _, _ => (x, .zero)

/-- The product of two elements: exact (R91), or by three terms at binary32 (R95). A product with a zero element is gated: a zero
with the sign of the exact product (R97). -/
def laneProduct (wide : Bool) (a b : Num) : NumF :=
  if wide && a.isFinite && b.isFinite && !a.isZero && !b.isZero then
    let x := split32 a
    let y := split32 b
    let t := a40Add (mulExact x.2 y.1).1 (mulExact x.1 y.2).1
    let u := a40Add t.1 (mulExact x.1 y.1).1
    (u.1, t.2 ||| u.2)
  else mulExact a b

/-- The sum of one pass of a lane: products, tree and ladder (R91 to R93). -/
def laneSum (cls : Nat) (a b : List Num) : NumF :=
  let p := (List.zip a b).map fun (x : Num × Num) => laneProduct (cls == 32) x.1 x.2
  let r := groupedSum a40Add (stepWidth cls) 6 (p.map (·.1))
  (r.1, p.foldl (fun f y => f ||| y.2) r.2)

/-! ## The checksum lanes (R115, R116) -/

/-- The A40 sum of values in their order. -/
def sumA40 : List Num → Num
  | [] => .zero
  | x :: r => r.foldl (fun a y => (a40Add a y).1) x

/-- What an edge injects into the checksum lanes: element by element, the sum over its unmasked vectors of `n` elements. -/
def edgeSum (l : List (List Num)) (n : Nat) : List Num := (List.range n).map fun k => sumA40 (l.map fun v => v.getD k .zero)

/-- A comparison of a checksum with a sum of results at magnitude sum `g`: none where it is skipped, else whether it fails (R116). -/
def compareSum (int8 : Bool) (c s g : Num) : Option Bool :=
  match c, s, g with
  | .fin a m e, .fin b n f, .fin _ k h =>
    let d := (addExact a m e (!b) n f).abs
    some ((if int8 then Num.zero else .fin false k (h - 16)).lt d)
  | _, _, _ => none

/-- A lane that comes out wrong, if it is the lane at `row` and `col` of the pass. -/
def laneOut (fault : Option LaneFault) (pass row col : Nat) (v : Num) : Num :=
  match fault with
  | some x => if x.pass = pass ∧ x.row = row ∧ x.col = col then Fmt.a40.decode x.value.toNat else v
  | none => v

/-- One checksum lane and its comparison: the edge sum and the sum of magnitudes run through the lane's tree and ladder against an
operand (R115). The magnitude sum takes the magnitudes at the edge (log entry 168). -/
def laneCheck (cls : Nat) (int8 : Bool) (edge mags x : List Num) (out : Num → Num) (results : List Num) : Option Bool :=
  compareSum int8 (out (laneSum cls edge x).1) (sumA40 results) (laneSum cls mags (x.map Num.abs)).1

/-- The comparisons of a pass: rows and columns with their lane numbers and operands, and each lane's result. -/
def passChecks (cls : Nat) (int8 : Bool) (fault : Option LaneFault) (pass n : Nat) (rows cols : List (Nat × List Num))
    (res : Nat → Nat → Num) : List (Option Bool) :=
  let a := rows.map (·.2)
  let b := cols.map (·.2)
  (cols.map fun y => laneCheck cls int8 (edgeSum a n) (edgeSum (a.map fun v => v.map Num.abs) n) y.2 (laneOut fault pass 32 y.1)
      (rows.map fun x => res x.1 y.1))
    ++ rows.map fun x => laneCheck cls int8 (edgeSum b n) (edgeSum (b.map fun v => v.map Num.abs) n) x.2 (laneOut fault pass x.1 32)
      (cols.map fun y => res x.1 y.1)

/-- Skipped comparisons (R116). -/
def skippedChecks (l : List (Option Bool)) : Nat := (l.filter Option.isNone).length

/-! ## The epilogue (R106 to R110) -/

/-- What the epilogue of a tile uses: body, parameters, scale and bias vectors, and the key of its draws. -/
structure Epi where
  b : MatBody
  p : MatParam
  v : List Num
  bias : List Num
  key : DrawKey

/-- The key of a tile's draws (R141). -/
def State.drawKey (s : State) (t : Tile) (kind : Nat) : DrawKey :=
  { seed := (s.ctxAt t.ctx).seed, source := t.core, ordinal := t.ordinal, stratum := t.startCount, kind := kind, ctx := t.ctx }

/-- The entries of a vector of `n` that an unmasked row or column uses. -/
def lsEntries (core c off n : Nat) (live : List Nat) : Exec (List Num) :=
  Exec.collect (List.range n) fun i =>
    if live.contains i then do
      let x ← lsFloats core c (off + 4 * i) 1
      pure (x.headD .zero)
    else pure .zero

/-- The vectors of the epilogue, read before it runs: the entries of unmasked rows and columns. -/
def readEpi (t : Tile) (b : MatBody) (p : MatParam) (rows cols : List Nat) : Exec Epi := do
  let v ← if p.vscale = 0 then pure []
    else if p.vscale = 1 then lsEntries t.core t.ctx p.vscaleOff b.m rows
    else lsEntries t.core t.ctx p.vscaleOff b.n cols
  let bias ← if p.bias then lsEntries t.core t.ctx p.biasOff b.n cols else pure []
  let key ← Exec.ask fun s => s.drawKey t 0
  pure { b := b, p := p, v := v, bias := bias, key := key }

/-- Scale, bias and activation of one element (R106 steps 1 to 3). -/
def epiElement (x : Epi) (i j : Nat) (acc : Num) (fl : BitVec 6) : Exec NumF := do
  let v := if x.p.vscale = 1 then x.v.getD i .one else if x.p.vscale = 2 then x.v.getD j .one else .one
  let y := Fmt.a40.mul acc v
  let z := Fmt.a40.mul y.1 (Fmt.f32.decode x.p.tscale)
  let w : NumF := if x.p.bias then a40Add z.1 (x.bias.getD j .zero) else (z.1, 0)
  let fl := fl ||| y.2 ||| z.2 ||| w.2
  if x.p.act = 0 then pure (w.1, fl)
  else
    let r := Fmt.f32.near w.1
    let q ← activate x.p.act r.1
    pure (q.1, fl ||| r.2 ||| q.2)

/-- The runs of successive indices of a rising list, with their values. -/
def runsOf {α : Type} : List (Nat × α) → List (Nat × List α)
  | [] => []
  | (j, v) :: r =>
    match runsOf r with
    | (k, l) :: t => if k = j + 1 then (j, v :: l) :: t else (j, [v]) :: (k, l) :: t
    | [] => [(j, [v])]

/-- One row of a block is converted and written: columns, values and flags; the flags after it (R106 step 5, R109, R110). -/
def epiRow (t : Tile) (x : Epi) (bn i : Nat) (l : List (Nat × NumF)) : Exec (List (BitVec 6)) := do
  let f := Fmt.ofCode x.p.dstFmt
  let row := x.b.c.plus (i * x.b.cStride)
  let rnd (j : Nat) : Rnd := rndOf x.key x.p.rnd (i * x.b.n + j)
  if fmtMx x.p.dstFmt then
    let y := mxBlock f (l.map fun e => e.2.1) (l.map fun e => rnd e.1)
    writeMem t.core t.ctx (row.plus (rowBytes x.p.dstFmt (32 * bn))) (pack f (y.2.map (·.1))) false matTier
    writeMem t.core t.ctx (x.p.dScale.plus (i * x.p.dScaleStride + bn)) [BitVec.ofNat 8 y.1] false matTier
    pure ((List.zip l y.2).map fun e => e.1.2.2 ||| e.2.2)
  else
    let y : List (Nat × NumF) := l.map fun e => (e.1, f.convert (rnd e.1) e.2.1)
    Exec.each (runsOf (y.map fun e => (e.1, e.2.1))) fun r =>
      writeMem t.core t.ctx (row.plus (rowBytes x.p.dstFmt r.1)) (pack f r.2) false matTier
    pure ((List.zip l y).map fun e => e.1.2.2 ||| e.2.2.2)

/-- The magnitude that amax takes of a value: rounded to binary32 (R106 step 4, R150). -/
def amaxTake (a x : Num) : Num := amaxOf a (Fmt.f32.near x).1

/-- The epilogue of one block: the accumulator values of its unmasked elements, row by row, with the flags that the work
before it raised (R106). -/
def epiBlock (t : Tile) (x : Epi) (bn : Nat) (rows cols : List Nat) (acc : Nat → Nat → NumF) (y : Tally × Num) :
    Exec (Tally × Num) :=
  Exec.fold rows y fun y i => do
    let l ← Exec.collect cols fun j => do
      let v ← epiElement x i j (acc i j).1 (acc i j).2
      pure (j, v)
    let fl ← epiRow t x bn i l
    pure (fl.foldl Tally.written y.1, l.foldl (fun a e => amaxTake a e.2.1) y.2)

/-- The amax cell takes the larger of its value and the tile's amax (R108, R176). Of a cell that holds a NaN the spec does not say what
max(old, new) is: it counts as 0 here (DESIGN CHOICE, log entry 169). -/
def writeAmax (core c off : Nat) (a : Num) : Exec Unit := do
  let old ← lsFloats core c off 1
  let new := amaxOf (if (old.headD .zero).isNan then .zero else old.headD .zero) a
  writeMem core c ⟨false, off⟩ (leBytes 4 (Fmt.f32.encode new)) false

/-- The tally of a tile that tracked amax, its cell written (R108, R150). -/
def endAmax (core c : Nat) (on : Bool) (off : Nat) (y : Tally × Num) : Exec Tally := do
  if on then
    writeAmax core c off y.2
    pure { y.1 with amax := Fmt.f32.encode y.2 }
  else pure y.1

/-! ## MATMUL (R90 to R97, R103 to R105, R115 to R119) -/

/-- The accumulator slot of a context's slot number (R98). -/
def State.slotOf (s : State) (c n : Nat) : Nat := s.fld (Fld.slotBase c) + n

/-- The value of an accumulator. -/
def State.accNum (s : State) (core slot i j : Nat) : Num := Fmt.a40.decode (s.acc core slot i j).toNat

/-- The state with an accumulator's value stored. -/
def State.setAccNum (s : State) (core slot i j : Nat) (v : Num) : State :=
  s.setAcc core slot i j (BitVec.ofNat 40 (Fmt.a40.encode v))

/-- What a MATMUL tile works with. -/
structure MatRun where
  t : Tile
  b : MatBody
  p : MatParam
  cls : Nat
  /-- Bounds of the passes. -/
  passes : List (Nat × Nat)
  fault : Option LaneFault

/-- Elements of a pass (R86). -/
def passExtent (cls : Nat) : Nat := 64 * stepWidth cls

/-- The first and last-but-one element of each pass over K. -/
def passesOf (cls k : Nat) : List (Nat × Nat) :=
  (List.range ((k + passExtent cls - 1) / passExtent cls)).map fun p =>
    (p * passExtent cls, min k ((p + 1) * passExtent cls))

/-- Rows `l` of a slot are flagged as poisoned, or cleared. -/
def State.flagRows (s : State) (core slot : Nat) (p : Bool) (l : List Nat) : State :=
  l.foldl (fun s i => s.setAccPoison core slot (i % 32) p) s

/-- Errors of a slot row not yet found are found as the row is read (R458). -/
def seeRows (core slot : Nat) (l : List Nat) : Exec Unit :=
  Exec.each l fun i => Exec.doState fun s =>
    s.localFound (2 ^ 33 + (128 * core + slot) * 32 + i % 32) core fun t => t.setAccPoison core slot (i % 32) true

/-- Rows of a slot are overwritten: their flags clear, and errors not yet found are gone. -/
def State.freshRows (s : State) (core slot : Nat) (l : List Nat) : State :=
  let key (i : Nat) : Nat := 2 ^ 33 + (128 * core + slot) * 32 + i % 32
  let m := l.foldl (fun m i => SMap.put (fun _ => false) m (key i) false) s.mem.localLatent
  { s with mem := { s.mem with localLatent := m } }.flagRows core slot false l

/-- One pass of a block: operands are fetched, each lane sums, the checksums are compared, and the results enter the slot
(R92 to R94, R115 to R119). `n` numbers the pass within the tile; the flags of each lane go on. A failed comparison stops the tile
before the pass is written (R118). -/
def matPass (r : MatRun) (rows cols : List Nat) (slot n p : Nat) (shared_ : Bool) (y : Tally × (Nat → Nat → BitVec 6)) :
    Exec (Tally × (Nat → Nat → BitVec 6)) := do
  let core := r.t.core
  let c := r.t.ctx
  let k := r.passes.getD p (0, 0)
  let a ← Exec.collect rows fun i => fetchRow core c (r.b.opA r.p) i k.1 (k.2 - k.1)
  let b ← Exec.collect cols fun j => fetchRow core c (r.b.opB r.p) j k.1 (k.2 - k.1)
  match (a ++ b).findSome? (·.2) with
  | some pa =>
    Exec.doState fun s => s.flagRows core slot true rows
    Exec.stop (.fault 0x0120 pa)
  | none =>
    let av (i : Nat) : List Num := (a.getD (rows.idxOf i) ([], none)).1
    let bv (j : Nat) : List Num := (b.getD (cols.idxOf j) ([], none)).1
    let res (i j : Nat) : NumF :=
      let v := laneSum r.cls (av i) (bv j)
      (laneOut r.fault n (i % 32) (j % 32) v.1, v.2)
    let i0 := rows.headD 0 / 32 * 32
    let j0 := cols.headD 0 / 32 * 32
    let checks := passChecks r.cls (r.b.aFmt == 9) r.fault n (k.2 - k.1) (rows.map fun i => (i % 32, av i))
      (cols.map fun j => (j % 32, bv j)) fun i j => (res (i0 + i) (j0 + j)).1
    let skipped := skippedChecks checks
    Exec.check (!checks.contains (some true)) (.fault 0x0212 0)
    if shared_ then
      Exec.doState fun s =>
        (rows.foldl (fun s i => cols.foldl (fun s j => s.setAccNum core slot (i % 32) (j % 32) (res i j).1) s) s).freshRows
          core slot rows
      pure ({ y.1 with checksSkipped := y.1.checksSkipped + skipped }, fun i j => y.2 i j ||| (res i j).2)
    else
      seeRows core slot rows
      let bad ← Exec.ask fun s => rows.any fun i => s.accPoison core slot (i % 32)
      Exec.check (!bad) (.fault 0x0120 0)
      let old ← Exec.ask fun s => fun i j => s.accNum core slot (i % 32) (j % 32)
      let sum (i j : Nat) : NumF := a40Add (old i j) (res i j).1
      Exec.doState fun s =>
        rows.foldl (fun s i => cols.foldl (fun s j => s.setAccNum core slot (i % 32) (j % 32) (sum i j).1) s) s
      pure ({ y.1 with checksSkipped := y.1.checksSkipped + skipped }, fun i j => y.2 i j ||| (res i j).2 ||| (sum i j).2)

/-- The flags of a block's accumulator elements enter a tally (R146). -/
def tallyElements (rows cols : List Nat) (fl : Nat → Nat → BitVec 6) (y : Tally) : Tally :=
  rows.foldl (fun y i => cols.foldl (fun y j => y.element (fl i j)) y) y

/-- One block: its passes in order of K, spread over its chains; then the epilogue, or the flags (R90, R94, R99). -/
def matBlock (r : MatRun) (x : Option Epi) (rows cols : List Nat) (bm bn : Nat) (y : Tally × Num) :
    Exec (Tally × Num) := do
  let fan := 2 ^ r.b.fan
  let blk := bm * r.b.nb + bn
  let base ← Exec.ask fun s => s.slotOf r.t.ctx (r.b.slot + blk * fan)
  let np := r.passes.length
  let rows := inBlock rows bm
  let cols := inBlock cols bn
  let z ← Exec.fold (List.range np) (y.1, fun _ _ _ => (0 : BitVec 6)) fun z p => do
    let w ← matPass r rows cols (base + p % fan) (blk * np + p) p (decide (p < fan) && !r.b.accAdd)
      (z.1, z.2 (p % fan))
    pure (w.1, fun q => if q = p % fan then w.2 else z.2 q)
  match x with
  | some x =>
    let acc ← Exec.ask fun s => fun i j => (s.accNum r.t.core base (i % 32) (j % 32), z.2 0 i j)
    epiBlock r.t x bn rows cols acc (z.1, y.2)
  | none => pure ((List.range (min fan np)).foldl (fun t q => tallyElements rows cols (z.2 q) t) z.1, y.2)

/-- Every block of a tile, row-major (R90). -/
def blocksOf (b : MatBody) : List (Nat × Nat) :=
  (List.range b.mb).flatMap fun bm => (List.range b.nb).map fun bn => (bm, bn)

/-- A parameter record of zeros, for a tile that reads none. -/
def matParamNone : MatParam := matParam 0

/-- MATMUL (R90), with a lane that a fault of the hardware may make come out wrong in one pass (R115, log entry 51). -/
def matmulWork (fault : Option LaneFault) (t : Tile) : Exec Tally := do
  let b := matBody t.desc
  let p ← if b.epi || fmtMx b.aFmt || fmtMx b.bFmt then readMatParam t.core t.ctx b false b.epi else pure matParamNone
  let rows ← liveOf t.core t.ctx b.rowMask b.mask b.m
  let cols ← liveOf t.core t.ctx b.colMask (b.mask + 512) b.n
  probeOperand t.core t.ctx (b.opA p) rows b.k
  probeOperand t.core t.ctx (b.opB p) cols b.k
  let cls := max (fmtClass b.aFmt) (fmtClass b.bFmt)
  let r : MatRun := { t := t, b := b, p := p, cls := cls, passes := passesOf cls b.k, fault := fault }
  let x : Option Epi ← if b.epi then do
      probeOut t.core t.ctx b p rows
      let x ← readEpi t b p rows cols
      pure (some x)
    else pure none
  let y ← Exec.fold (blocksOf b) ({}, Num.zero) fun y k => matBlock r x rows cols k.1 k.2 y
  endAmax t.core t.ctx (b.epi && p.amax) p.amaxOff y

def execMatmul (core stream : Nat) (fault : Option LaneFault) (s : State) : Host.Outcome State Fault Refusal :=
  .next (s.runTile core stream 0x11 (matmulWork fault) (matmulWork none))

/-- EPILOGUE: the slot of p = 0 of each block goes to C (R99, R106, R119, R120). Of an EPILOGUE with epi_en = 0 the spec says both that
it runs the epilogue (R120) and that its record is read only with epi_en = 1 (R122): here it reads the record and writes C, whatever
epi_en is (DESIGN CHOICE, log entry 170). -/
def epilogueWork (t : Tile) : Exec Tally := do
  let b := matBody t.desc
  let p ← readMatParam t.core t.ctx b false true
  let rows ← liveOf t.core t.ctx b.rowMask b.mask b.m
  let cols ← liveOf t.core t.ctx b.colMask (b.mask + 512) b.n
  probeOut t.core t.ctx b p rows
  let x ← readEpi t b p rows cols
  let y ← Exec.fold (blocksOf b) ({}, Num.zero) fun y k => do
    let slot ← Exec.ask fun s => s.slotOf t.ctx (b.slot + (k.1 * b.nb + k.2) * 2 ^ b.fan)
    let rows := inBlock rows k.1
    seeRows t.core slot rows
    let bad ← Exec.ask fun s => rows.any fun i => s.accPoison t.core slot (i % 32)
    Exec.check (!bad) (.fault 0x0120 0)
    let acc ← Exec.ask fun s => fun i j => ((s.accNum t.core slot (i % 32) (j % 32), 0) : NumF)
    epiBlock t x k.2 rows (inBlock cols k.2) acc y
  endAmax t.core t.ctx p.amax p.amaxOff y

def execEpilogue (core stream : Nat) (s : State) : Host.Outcome State Fault Refusal :=
  .next (s.runTile core stream 0x12 epilogueWork)

/-! ## ELEMENTWISE (R114) -/

/-- The operation of an ELEMENTWISE tile, in A40. -/
def ewOp (op : Nat) (a b : Num) : NumF :=
  match op with
  | 0 => Fmt.a40.mul a b
  | 1 => a40Add a b
  | _ => (a, 0)

/-- Element (row, j) of an operand of ELEMENTWISE, with its block scale: the bytes that hold it and its scale alone are read
(R104, R114, R119). -/
def fetchElem (core c : Nat) (o : MatOperand) (row j : Nat) : Exec Num := do
  let f := Fmt.ofCode o.fmt
  let at_ := j * f.width
  let b ← readUse core c (o.base.plus (row * o.stride + at_ / 8)) ((at_ + f.width - 1) / 8 - at_ / 8 + 1) matTier
  let v := f.decode (bits (leNat b) (at_ % 8) f.width)
  if fmtMx o.fmt then
    let q ← readUse core c (o.scale.plus (row * o.scaleStride + j / 32)) 1 matTier
    pure (scaled (leNat q) v)
  else pure v

/-- ELEMENTWISE: rows of A and B, block by block, through the epilogue. -/
def elementwiseWork (t : Tile) : Exec Tally := do
  let b := matBody t.desc
  let p ← readMatParam t.core t.ctx b true true
  let rows ← liveOf t.core t.ctx b.rowMask b.mask b.m
  let cols ← liveOf t.core t.ctx b.colMask (b.mask + 512) b.n
  probeOperand t.core t.ctx (b.opA p) rows b.n
  if b.ewOp ≠ 2 then probeOperand t.core t.ctx (b.opB p) rows b.n
  probeOut t.core t.ctx b p rows
  let x ← readEpi t b p rows cols
  let y ← Exec.fold (blocksOf b) ({}, Num.zero) fun y k => do
    let rows := inBlock rows k.1
    let cols := inBlock cols k.2
    let fetch (o : MatOperand) : Exec (List (List Num)) :=
      Exec.collect rows fun i => Exec.collect cols fun j => fetchElem t.core t.ctx o i j
    let va ← fetch (b.opA p)
    let vb ← if b.ewOp ≠ 2 then fetch (b.opB p) else pure []
    let val (l : List (List Num)) (i j : Nat) : Num := (l.getD (rows.idxOf i) []).getD (cols.idxOf j) .zero
    epiBlock t x k.2 rows cols (fun i j => ewOp b.ewOp (val va i j) (val vb i j)) y
  endAmax t.core t.ctx p.amax p.amaxOff y

def execElementwise (core stream : Nat) (s : State) : Host.Outcome State Fault Refusal :=
  .next (s.runTile core stream 0x15 elementwiseWork)

/-! ## Slots: SLOT_COMBINE, SPILL and FILL (R102, R119, R133) -/

/-- slot[d] = slot[d] + from, element by element: each element's place and flags (R102, R111); poison flags are ORed row by row. -/
def addSlots (core d : Nat) (src : Nat → Nat → Num) (bad : Nat → Bool) : Exec (List (Nat × BitVec 6)) := do
  let l ← Exec.collect (List.range 32) fun i => do
    Exec.doState fun s => if bad i then s.setAccPoison core d i true else s
    Exec.collect (List.range 32) fun j => do
      let old ← Exec.ask fun s => s.accNum core d i j
      let v := a40Add old (src i j)
      Exec.doState fun s => s.setAccNum core d i j v.1
      pure (32 * i + j, v.2)
  pure l.flatten

/-- SLOT_COMBINE (R102). -/
def combineWork (t : Tile) : Exec Tally := do
  let b := combineBody t.desc
  Exec.fold (List.range b.count) {} fun y i => do
    let d ← Exec.ask fun s => s.slotOf t.ctx (b.dst + i * b.stride)
    seeRows t.core d (List.range 32)
    seeRows t.core (d + b.step) (List.range 32)
    let src ← Exec.ask fun s => fun i j => s.accNum t.core (d + b.step) i j
    let bad ← Exec.ask fun s => fun i => s.accPoison t.core (d + b.step) i
    let l ← addSlots t.core d src bad
    pure (l.foldl (fun y e => y.element e.2) y)

def execSlotCombine (core stream : Nat) (s : State) : Host.Outcome State Fault Refusal :=
  .next (s.runTile core stream 0x13 combineWork)

/-- The image of a slot: accumulator (i, j) at 5 × (32 i + j) (R133). -/
def State.slotImage (s : State) (core slot : Nat) : List Byte :=
  (List.range 1024).flatMap fun k => leBytes 5 (s.acc core slot (k / 32) (k % 32)).toNat

/-- SPILL: slot images to memory; granules with part of a flagged row are written poisoned. A granule that two slots share
in part is written twice. -/
def spillWork (t : Tile) : Exec Tally := do
  let b := spillBody t.desc
  probeTier t.core t.ctx b.addr (5120 * b.count) 0x0211
  let n := 5120 * b.count
  Exec.each (List.range b.count) fun k => do
    let slot ← Exec.ask fun s => s.slotOf t.ctx (b.slot + k)
    seeRows t.core slot (List.range 32)
  let img ← Exec.ask fun s => (List.range b.count).flatMap fun k => s.slotImage t.core (s.slotOf t.ctx (b.slot + k))
  Exec.each (granPieces (pieceFuel n) b.addr.addr n) fun g => do
    let bad ← Exec.ask fun s => (List.range b.count).any fun k =>
      decide (g.1 < 5120 * (k + 1)) && decide (5120 * k < g.1 + g.2)
        && (List.range 32).any fun i => s.accPoison t.core (s.slotOf t.ctx (b.slot + k)) i
          && decide (5120 * k + 160 * i < g.1 + g.2) && decide (g.1 < 5120 * k + 160 * i + 160)
    writeMem t.core t.ctx (b.addr.plus g.1) ((img.drop g.1).take g.2) bad matTier
    if bad then settlePoison t.core t.ctx (b.addr.plus g.1) true
  pure {}

def execSpill (core stream : Nat) (s : State) : Host.Outcome State Fault Refusal :=
  .next (s.runTile core stream 0x16 spillWork)

/-- FILL: images into slots; a row with bytes in a poisoned granule is flagged (R119). -/
def fillSlotsWork (t : Tile) : Exec Tally := do
  let b := spillBody t.desc
  probeTier t.core t.ctx b.addr (5120 * b.count) 0x0211
  Exec.each (List.range b.count) fun k => do
    let slot ← Exec.ask fun s => s.slotOf t.ctx (b.slot + k)
    Exec.each (List.range 32) fun i => do
      let r ← readCopy t.core t.ctx (b.addr.plus (5120 * k + 160 * i)) 160 matTier
      Exec.doState fun s =>
        (((List.range 32).foldl (fun s j => s.setAcc t.core slot i j (BitVec.ofNat 40 (leNat ((r.1.drop (5 * j)).take 5)))) s).freshRows
          t.core slot [i]).setAccPoison t.core slot i r.2
  pure {}

def execFill (core stream : Nat) (s : State) : Host.Outcome State Fault Refusal :=
  .next (s.runTile core stream 0x17 fillSlotsWork)

/-! ## REDUCE (R111 to R113) -/

/-- The rounds of a member that need no partner pass by: the next round in which it receives or sends, from round `r` on;
none when the last round is over (R111). -/
def ReduceBody.nextRound (b : ReduceBody) : Nat → Nat → Option Nat
  | 0, _ => none
  | fuel + 1, r =>
    if b.n ≤ 2 ^ r then none
    else if b.rank % 2 ^ (r + 1) ≠ 0 ∨ b.rank + 2 ^ r < b.n then some r
    else b.nextRound fuel (r + 1)

/-- The member sends in round `r`. -/
def ReduceBody.sends (b : ReduceBody) (r : Nat) : Bool := b.rank % 2 ^ (r + 1) == 2 ^ r

/-- A member's tile goes on to its next round from `r`, or its work is done. -/
def State.reduceTo (s : State) (t : Tile) (r : Nat) : State :=
  match (reduceBody t.desc).nextRound 5 r with
  | some k => s.setTile { t with round := k + 1 }
  | none => s.setTile { t with phase := .worked }

/-- A REDUCE tile in flight on a stream of a core. -/
def State.reduceTile (s : State) (core stream : Nat) : Option Tile :=
  (s.tileOf core stream).filter fun t => t.phase == .running && dOpcode t.desc == 0x14 && !s.coreFenced core

/-- REDUCE: the member begins; it waits for its first partner inside its tile (R113). -/
def reduceStart (core stream : Nat) (s : State) : State :=
  match s.reduceTile core stream with
  | some t => if t.round = 0 then s.reduceTo t 0 else s
  | none => s

def execReduce (core stream : Nat) (s : State) : Host.Outcome State Fault Refusal := .next (reduceStart core stream s)

/-- What a pull request carries (R113). -/
def ReduceBody.pull (b : ReduceBody) : Nat × Nat × Nat × Nat := (b.tag, b.n, b.count, b.members)

/-- A REDUCE tile stops: it cannot take its partner's slots (R113). -/
def State.stopReduce (s : State) (x : Tile) : State :=
  (s.setTile { x with phase := .stopping, stopAt := s.now }).ctxError x.ctx x.core 0x0213 x.desc

/-- The slots that a tile takes from its partner's and adds to its own; each accumulator element counts once per flag over all
rounds (R111, R113, R146). -/
def pullWork (t : Tile) (b : ReduceBody) (u : Tile) (d : ReduceBody) : Exec Unit :=
  Exec.each (List.range b.count) fun k => do
    let dest ← Exec.ask fun s => s.slotOf t.ctx (b.slot + k)
    seeRows t.core dest (List.range 32)
    seeRows u.core ((← Exec.ask fun s => s.slotOf u.ctx (d.slot + k))) (List.range 32)
    let src ← Exec.ask fun s => fun i j => s.accNum u.core (s.slotOf u.ctx (d.slot + k)) i j
    let bad ← Exec.ask fun s => fun i => s.accPoison u.core (s.slotOf u.ctx (d.slot + k)) i
    let l ← addSlots t.core dest src bad
    noteElements t false (l.map fun e => (1024 * k + e.1, e.2))

/-- REDUCE_PULL: the member of a stream pulls the slots of its partner of the round, whose REDUCE runs on `sender`. The
sender checks what the request carries, and the context; on a difference both contexts fault (R111 to R113). -/
def reducePull (core stream sender : Nat) (s : State) : State :=
  match s.reduceTile core stream with
  | none => s
  | some t =>
    let b := reduceBody t.desc
    let r := t.round - 1
    if t.round = 0 ∨ b.sends r = true ∨ b.core (b.rank + 2 ^ r) ≠ sender then s
    else
      match s.core.tiles.find? fun u => u.core == sender && u.phase == .running && dOpcode u.desc == 0x14 && u.round != 0 with
      | none => s
      | some u =>
        let d := reduceBody u.desc
        if b.pull ≠ d.pull ∨ u.ctx ≠ t.ctx then
          (s.stopReduce u).stopReduce t
        else if d.sends (u.round - 1) = false ∨ u.round ≠ t.round then s
        else
          match (pullWork t b u d) s with
          | (.ok _, s') => (s'.setTile { u with phase := .worked }).reduceTo ((s'.tileOf core stream).getD t) (r + 1)
          | (.error _, _) => s

def execReducePull (core stream sender : Nat) (s : State) : Host.Outcome State Fault Refusal :=
  .next (reducePull core stream sender s)

end Sys2Proof.Machine
end

