-- ==== Sys2Proof/Machine/RowEngine.lean ====
section
/-! DEFINITION. The row engine and statistics memory: soft-maximum, LayerNorm and RMSNorm, forward and backward, and the
copies of records (chapter The Row Engine and Statistics Memory). -/

namespace Sys2Proof.Machine

/-- The code of ROW_TIER. -/
def rowTier : Option Nat := some 0x0232

/-! ## Statistics records (R187 to R192) -/

/-- A statistics record (R188). -/
structure StatRec where
  a : Num := .zero
  b : Num := .zero
  c : Num := .zero
  tag : Nat := 0
  chk : Nat := 0
  /-- 0 empty, 1 partial, 2 final. -/
  state : Nat := 0
  /-- 0 soft-maximum, 1 LayerNorm, 2 RMSNorm. -/
  kind : Nat := 0
  /-- 0 normal, 1 empty, 2 infinite, 3 NaN. -/
  cls : Nat := 0

/-- A record's 16 bytes as a little-endian number. -/
def StatRec.encode (r : StatRec) : Nat :=
  Fmt.f32.encode r.a + Fmt.f32.encode r.b * 2 ^ 32 + Fmt.f32.encode r.c * 2 ^ 64 + r.tag % 2 ^ 16 * 2 ^ 96
    + r.chk % 256 * 2 ^ 112 + (r.state % 4 * 64 + r.kind % 4 * 16 + r.cls % 4 * 4) * 2 ^ 120

def StatRec.decode (n : Nat) : StatRec :=
  { a := Fmt.f32.decode (fieldAt n 0 0 32), b := Fmt.f32.decode (fieldAt n 4 0 32), c := Fmt.f32.decode (fieldAt n 8 0 32)
    tag := fieldAt n 12 0 16, chk := fieldAt n 14 0 8, state := fieldAt n 15 6 2, kind := fieldAt n 15 4 2
    cls := fieldAt n 15 2 2 }

/-- One byte of a core's statistics memory. -/
def State.statByte (s : State) (core off : Nat) : Byte :=
  SMap.get s.mem.statDefault s.mem.stat (core * 2 ^ 18 + off % 2 ^ 18)

/-- The state with one byte of statistics memory stored. -/
def State.setStatByte (s : State) (core off : Nat) (b : Byte) : State :=
  { s with mem := { s.mem with stat := SMap.put s.mem.statDefault s.mem.stat (core * 2 ^ 18 + off % 2 ^ 18) b } }

/-- Record `k` of a core, as stored. -/
def State.statBytes (s : State) (core k : Nat) : List Byte := (List.range 16).map fun i => s.statByte core (16 * k + i)

/-- The state with a record's bytes stored. -/
def State.putStat (s : State) (core k : Nat) (b : List Byte) : State :=
  (List.zip (List.range 16) b).foldl (fun s (e : Nat × Byte) => s.setStatByte core (16 * k + e.1) e.2) s

/-- Poison flag of a record (R192). -/
def State.statBad (s : State) (core k : Nat) : Bool := SMap.get (fun _ => false) s.mem.statPoison (16384 * core + k)

/-- The state with a record's poison flag set or cleared. -/
def State.setStatBad (s : State) (core k : Nat) (p : Bool) : State :=
  { s with mem := { s.mem with statPoison := SMap.put (fun _ => false) s.mem.statPoison (16384 * core + k) p } }

/-- The record of a context's record number. -/
def State.statAt (s : State) (c n : Nat) : Nat := 256 * s.fld (Fld.statBase c) + n

/-- An error of a record not yet found is found as the record is read (R458). -/
def State.seeStat (s : State) (core k : Nat) : State :=
  s.localFound (2 ^ 34 + 16384 * core + k) core fun t => t.setStatBad core k true

/-- A record is written: its poison flag clears (R192). -/
def State.writeStat (s : State) (core k : Nat) (r : StatRec) : State :=
  let s := { s with mem := { s.mem with
    localLatent := SMap.put (fun _ => false) s.mem.localLatent (2 ^ 34 + 16384 * core + k) false } }
  (s.putStat core k (leBytes 16 r.encode)).setStatBad core k false

/-- A record as a row operation reads it: a flagged one is consumed (R192). -/
def readStat (core c n : Nat) : Exec StatRec := do
  let k ← Exec.ask fun s => s.statAt c n
  Exec.doState fun s => s.seeStat core k
  Exec.check (!(← Exec.ask fun s => s.statBad core k)) (.fault 0x0120 0)
  Exec.ask fun s => StatRec.decode (leNat (s.statBytes core k))

/-- Record `n` of a context is stored. -/
def storeStat (core c n : Nat) (r : StatRec) : Exec Unit :=
  Exec.doState fun s => (s.writeStat core (s.statAt c n) r).noteAccess 2 n (leBytes 16 r.encode)

/-- A record passes the key check (R189). -/
def StatRec.passes (r : StatRec) (state kind tag chk : Nat) : Bool :=
  r.state == state && r.kind == kind && r.tag == tag && r.chk == chk

/-- Low byte of a row's index. -/
def RowBody.chk (b : RowBody) (r : Nat) : Nat := (b.rowBase + r) % 256

/-- Kind of record that an operation keeps. -/
def rowKind (op : Nat) : Nat := if op ≤ 0x32 then 0 else if op ≤ 0x34 then 1 else 2

/-- The records of a tile, checked before any output when the tile reads them (R189). -/
def readStats (core c op : Nat) (b : RowBody) : Exec (List StatRec) := do
  let state := if b.mode = 2 then 2 else 1
  if b.mode = 2 ∨ (b.mode = 3 ∧ b.first = false) then
    Exec.collect (List.range b.rows) fun r => do
      let x ← readStat core c (b.stat + r)
      Exec.check (x.passes state (rowKind op) b.tag (b.chk r)) (.fault 0x0231 0)
      pure x
  else pure ((List.range b.rows).map (fun _ => {}))

/-! ## Sums with absent positions (R172, R185) -/

/-- One level of a balanced tree over positions, some of them absent. -/
def optLevel (op : Num → Num → NumF) : List (Option Num) → List (Option Num) × BitVec 6
  | some a :: some b :: r =>
    let x := op a b
    let y := optLevel op r
    (some x.1 :: y.1, x.2 ||| y.2)
  | a :: b :: r =>
    let y := optLevel op r
    (a.or b :: y.1, y.2)
  | l => (l, 0)

/-- The balanced tree over 64 positions. -/
def optTree (op : Num → Num → NumF) : Nat → List (Option Num) → Option Num × BitVec 6
  | 0, l => (l.headD none, 0)
  | n + 1, l =>
    let x := optLevel op l
    let y := optTree op n x.1
    (y.1, x.2 ||| y.2)

/-- The sum of the present positions of a row: a tree for each clock's 64 positions, and the ladder of ten levels over the
clocks that have one (R185). No present position sums to +0. -/
def rowSum (l : List (Option Num)) : NumF :=
  let g := (chunks 64 l.length l).map (optTree Fmt.f32.add 6)
  let x := ladderSum Fmt.f32.add 10 (g.filterMap (·.1))
  (x.1, g.foldl (fun f r => f ||| r.2) x.2)

/-! ## Operands -/

/-- A row tile's parameter record (R201, R204). -/
def readRowParam (core c op : Nat) (b : RowBody) : Exec RowParam := do
  let r ← lsNumber core c b.prm 64
  Exec.check (rowParamReserved r) (.fault 0x0202 0)
  let p := rowParam r
  Exec.check (← Exec.ask fun s => s.rowParamRange c op b p) (.fault 0x0207 0)
  pure p

/-- The masked columns of row `r` (R193). -/
def maskOf (core c : Nat) (b : RowBody) (p : RowParam) (r : Nat) : Exec (Nat → Bool) := do
  match b.maskMode with
  | 1 =>
    let n ← lsNumber core c (p.mask + 4 * r) 4
    pure fun k => decide (n ≤ b.colBase + k)
  | 2 =>
    let m ← lsNumber core c (p.mask + maskRow b.cols * r) ((b.cols + 7) / 8)
    pure fun k => bit m k
  | _ => pure fun _ => false

/-- A row of elements in binary32. A granule that holds only masked elements is not fetched (R192, R193). -/
def readRow (core c : Nat) (a : Addr) (f : Fmt) (n : Nat) (masked : Nat → Bool) : Exec (List Num) := do
  let w := f.width / 8
  let l ← Exec.collect (granPieces (pieceFuel (n * w)) a.addr (n * w)) fun p =>
    if (List.range (p.2 / w)).all fun i => masked (p.1 / w + i) then pure (List.replicate p.2 (0 : Byte))
    else readUse core c (a.plus p.1) p.2 rowTier
  pure (unpack f l.flatten n)

/-- A row of results, converted by nearest-even and written; the flags of each element (R184). -/
def writeRow (core c : Nat) (a : Addr) (f : Fmt) (l : List NumF) : Exec (List (BitVec 6)) := do
  let y : List NumF := l.map fun x =>
    let v := f.near x.1
    (v.1, x.2 ||| v.2)
  writeMem core c a (pack f (y.map (·.1))) false rowTier
  pure (y.map (·.2))

def f32Add : Num → Num → NumF := Fmt.f32.add
def f32Sub : Num → Num → NumF := Fmt.f32.sub
def f32Mul : Num → Num → NumF := Fmt.f32.mul

/-- A row count enters the tally (R194 to R196). -/
def Tally.rowClass (y : Tally) (cls : Nat) (norm : Bool) : Tally :=
  match cls with
  | 1 => if norm then y else { y with rowEmpty := y.rowEmpty + 1 }
  | 2 => { y with infInRow := y.infInRow + 1 }
  | 3 => { y with nanInRow := y.nanInRow + 1 }
  | _ => y

/-! ## Soft-maximum, forward (R194, R198) -/

/-- A row's scaled values: the product s·x, with the flags of a finite x (R194). A masked position, which need not be fetched, raises
none (DESIGN CHOICE, log entry 173). -/
def scaleRow (s : Num) (masked : Nat → Bool) (l : List Num) : List NumF :=
  (List.zip l (List.range l.length)).map fun (x : Num × Nat) =>
    let y := f32Mul s x.1
    (y.1, if x.1.isFinite && !masked x.2 then y.2 else 0)

/-- What one row or chunk of scaled values holds: NaN or not, the number of +∞, the live positions (R194). -/
structure RowView where
  z : List NumF
  masked : Nat → Bool

def RowView.items (v : RowView) : List (Num × Bool) :=
  (List.zip v.z (List.range v.z.length)).map fun (x : NumF × Nat) => (x.1.1, v.masked x.2)

def RowView.hasNan (v : RowView) : Bool := v.items.any fun x => !x.2 && x.1.isNan
def RowView.infs (v : RowView) : Nat := (v.items.filter fun x => !x.2 && x.1.isInf && !x.1.isNeg).length

/-- A position is live: neither masked nor −∞. -/
def liveItem (x : Num × Bool) : Bool := !x.2 && !(x.1.isInf && x.1.isNeg)

/-- The flags of the scaled values: all of a normal row's live positions, else OVERFLOW alone (R194). -/
def RowView.scaleFlags (v : RowView) (cls : Nat) : List (BitVec 6) :=
  (List.zip v.z v.items).map fun x => if cls == 0 && liveItem x.2 then x.1.2 else x.1.2 &&& fOverflow

/-- The same, together. -/
def RowView.scaleFlag (v : RowView) (cls : Nat) : BitVec 6 := (v.scaleFlags cls).foldl (fun f g => f ||| g) 0

/-- The live values by position. -/
def RowView.live (v : RowView) : List (Option Num) := v.items.map fun x => if liveItem x then some x.1 else none

/-- The larger of two values, +0 being above −0, so that a maximum does not depend on order (R185). -/
def maxOf (a x : Num) : Num := if a.lt x || (!x.lt a && a.isNeg) then x else a

/-- The largest live value, and Σ exp(z − it), with the flags of the sum's adds (R185, R198). Which of the flags of a row's shared work
an output element bears the spec does not say: forward, those of z − m and of exp(z − m) are dropped and those of the sum fall on every
element of a normal row; backward, those of every p_k·dy_k and of their sum do; a phase 1 tile, which writes no element, raises its flags
without counts (DESIGN CHOICE, log entry 174). -/
def RowView.maxSum (v : RowView) : Exec (Num × NumF) := do
  let m := (v.live.filterMap id).foldl maxOf (.inf true)
  let e ← Exec.collect v.live fun x =>
    match x with
    | some z => do
      let y ← expOp (f32Sub z m).1
      pure (some y.1)
    | none => pure none
  pure (m, rowSum e)

/-- One chunk folds into a row's record: the record, the factor exp(m_old − m_new) of what was summed before, and the flags
(R198, R273). -/
def foldScaled (r : StatRec) (v : RowView) : Exec (StatRec × Num × BitVec 6) := do
  if r.cls = 3 then pure (r, .one, 0)
  else if v.hasNan then pure ({ r with cls := 3 }, .one, 0)
  else if v.infs ≠ 0 then pure ({ r with cls := 2, c := (Fmt.f32.add r.c (.ofNat v.infs)).1 }, .one, 0)
  else if r.cls = 2 ∨ v.live.all Option.isNone then pure (r, .one, 0)
  else do
    let x ← v.maxSum
    if r.cls = 1 then pure ({ r with cls := 0, a := x.1, b := x.2.1 }, .zero, x.2.2)
    else
      let m := maxOf r.a x.1
      let e1 ← expOp (f32Sub r.a m).1
      let e2 ← expOp (f32Sub x.1 m).1
      let p := f32Mul r.b e1.1
      let q := f32Mul x.2.1 e2.1
      let t := f32Add p.1 q.1
      pure ({ r with a := m, b := t.1 }, e1.1, x.2.2 ||| e1.2 ||| e2.2 ||| p.2 ||| q.2 ||| t.2)

/-- The record and the flags alone. -/
def foldChunk (r : StatRec) (v : RowView) : Exec (StatRec × BitVec 6) := do
  let x ← foldScaled r v
  pure (x.1, x.2.2)

/-- A record of no chunk yet. -/
def StatRec.start : StatRec := { a := .inf true, cls := 1, state := 1 }

/-- The record of a whole row: lse by its class, state final (R194, R198). -/
def StatRec.finish (r : StatRec) : Exec (StatRec × BitVec 6) := do
  match r.cls with
  | 0 => do
    let l ← lnOp r.b
    let t := f32Add r.a l.1
    pure ({ r with b := t.1, c := .zero, state := 2 }, l.2 ||| t.2)
  | 1 => pure ({ r with a := .inf true, b := .inf true, c := .zero, state := 2 }, 0)
  | 2 => pure ({ r with a := .inf false, b := .inf false, state := 2 }, 0)
  | _ => pure ({ r with a := .nan, b := .nan, state := 2 }, 0)

/-- The outputs of a row by its final record (R194). `fl` are the row's own flags, which every element of a normal row
bears. -/
def softmaxOut (r : StatRec) (v : RowView) (fl : BitVec 6) : Exec (List NumF) :=
  Exec.collect (List.zip (v.scaleFlags r.cls) v.items) fun x => do
    match r.cls with
    | 3 => pure (.nan, x.1)
    | 2 =>
      let y := if !x.2.2 && x.2.1.isInf && !x.2.1.isNeg then (Fmt.f32.div .one r.c).1 else .zero
      pure (y, x.1 ||| fInf)
    | 1 => pure (.zero, x.1)
    | _ =>
      if liveItem x.2 then do
        let d := f32Sub x.2.1 r.b
        let e ← expOp d.1
        pure (e.1, x.1 ||| fl ||| d.2 ||| e.2)
      else pure (.zero, x.1)

/-- The scaled values of one row of x. -/
def rowView (core c : Nat) (b : RowBody) (p : RowParam) (r : Nat) : Exec RowView := do
  let m ← maskOf core c b p r
  let x ← readRow core c (b.x.plus (r * b.xStride)) (Fmt.ofCode b.xFmt) b.cols m
  pure { z := scaleRow (Fmt.f32.decode p.param) m x, masked := m }

/-- The flags of a list of written elements enter a tally. -/
def Tally.writtenAll (y : Tally) (l : List (BitVec 6)) : Tally := l.foldl Tally.written y

/-- The record of row `r` of a tile with its key. -/
def RowBody.key (b : RowBody) (op r : Nat) (x : StatRec) : StatRec :=
  { x with tag := b.tag, chk := b.chk r, kind := rowKind op }

/-- One row of SOFTMAX_FWD (R194, R198). -/
def softmaxFwdRow (t : Tile) (b : RowBody) (p : RowParam) (r : Nat) (old : StatRec) (y : Tally) : Exec Tally := do
  let v ← rowView t.core t.ctx b p r
  let out (rec : StatRec) (fl : BitVec 6) (y : Tally) : Exec Tally := do
    let l ← softmaxOut rec v fl
    let f ← writeRow t.core t.ctx (b.y.plus (r * b.yStride)) (Fmt.ofCode b.yFmt) l
    pure (y.writtenAll f)
  match b.phase with
  | 0 =>
    let a ← foldChunk .start v
    let z ← a.1.finish
    let y ← out z.1 (a.2 ||| z.2) (y.rowClass z.1.cls false)
    if b.mode = 1 then storeStat t.core t.ctx (b.stat + r) (b.key 0x31 r z.1)
    pure y
  | 1 =>
    let a ← foldChunk (if b.first then .start else old) v
    let carried := v.scaleFlag a.1.cls
    if b.last then
      let z ← a.1.finish
      storeStat t.core t.ctx (b.stat + r) (b.key 0x31 r z.1)
      pure { (y.rowClass z.1.cls false) with flags := y.flags ||| carried ||| a.2 ||| z.2 }
    else
      storeStat t.core t.ctx (b.stat + r) (b.key 0x31 r { a.1 with state := 1 })
      pure { y with flags := y.flags ||| carried ||| a.2 }
  | _ => out old 0 y

/-- The x operand, and y and dy where the tile uses them, looked at for their tier before any work (R204). -/
def probeRows (t : Tile) (op : Nat) (b : RowBody) : Exec Unit :=
  Exec.each (List.range b.rows) fun r => do
    probeTier t.core t.ctx (b.x.plus (r * b.xStride)) (rowBytes b.xFmt b.cols) 0x0232
    if rowBwd op then probeTier t.core t.ctx (b.dy.plus (r * b.dyStride)) (rowBytes b.dyFmt b.cols) 0x0232
    if b.writesY op then probeTier t.core t.ctx (b.y.plus (r * b.yStride)) (rowBytes b.yFmt b.cols) 0x0232

/-- The start of a row tile: its parameters, the tiers of its operands and its records. -/
def rowStart (t : Tile) (op : Nat) : Exec (RowBody × RowParam × List StatRec) := do
  let b := rowBody t.desc
  let p ← readRowParam t.core t.ctx op b
  probeRows t op b
  let l ← readStats t.core t.ctx op b
  pure (b, p, l)

/-- Every row of a tile in order, each with its record. -/
def eachRow {β : Type} (b : RowBody) (l : List StatRec) (y : β) (f : Nat → StatRec → β → Exec β) : Exec β :=
  Exec.fold (List.range b.rows) y fun y r => f r (l.getD r {}) y

def softmaxFwdWork (t : Tile) : Exec Tally := do
  let x ← rowStart t 0x31
  eachRow x.1 x.2.2 {} fun r old y => softmaxFwdRow t x.1 x.2.1 r old y

def execSoftmaxFwd (core stream : Nat) (s : State) : Host.Outcome State Fault Refusal :=
  .next (s.runTile core stream 0x31 softmaxFwdWork)

/-! ## Soft-maximum, backward (R183, R194, R199) -/

/-- dy of one row, in binary32. -/
def dyRow (t : Tile) (b : RowBody) (r : Nat) (m : Nat → Bool) : Exec (List Num) :=
  readRow t.core t.ctx (b.dy.plus (r * b.dyStride)) (Fmt.ofCode b.dyFmt) b.cols m

/-- p = exp(s·x − lse) at the live positions of a row. -/
def softmaxP (v : RowView) (lse : Num) : Exec (List (Option NumF)) :=
  Exec.collect (List.zip v.z v.items) fun x =>
    if liveItem x.2 then do
      let d := f32Sub x.2.1 lse
      let e ← expOp d.1
      pure (some (e.1, x.1.2 ||| d.2 ||| e.2))
    else pure none

/-- Σ p·dy over the live positions (R185). -/
def softmaxD (p : List (Option NumF)) (dy : List Num) : NumF :=
  let l : List (Option NumF) := (List.zip p dy).map fun (x : Option NumF × Num) =>
    x.1.map fun q =>
      let y := f32Mul q.1 x.2
      (y.1, q.2 ||| y.2)
  let z := rowSum (l.map fun x => x.map (·.1))
  (z.1, l.foldl (fun f x => f ||| (x.map (·.2)).getD 0) z.2)

/-- dx = s·p·(dy − D) at the live positions, +0 elsewhere; by the class of the row (R194). `scale` are the flags of the scaled values. -/
def softmaxDx (s : Num) (cls : Nat) (scale : List (BitVec 6)) (p : List (Option NumF)) (dy : List Num) (d : Num) (fl : BitVec 6) :
    List NumF :=
  (List.zip scale (List.zip p dy)).map fun (x : BitVec 6 × Option NumF × Num) =>
    if cls = 3 then (.nan, x.1)
    else if cls ≠ 0 then (.zero, if cls = 2 then x.1 ||| fInf else x.1)
    else match x.2.1 with
      | none => (.zero, x.1)
      | some q =>
        let a := f32Mul s q.1
        let g := f32Sub x.2.2 d
        let y := f32Mul a.1 g.1
        (y.1, x.1 ||| fl ||| q.2 ||| a.2 ||| g.2 ||| y.2)

/-- One row of SOFTMAX_BWD (R199). -/
def softmaxBwdRow (t : Tile) (b : RowBody) (p : RowParam) (r : Nat) (st : StatRec) (y : Tally) : Exec Tally := do
  let v ← rowView t.core t.ctx b p r
  let dy ← dyRow t b r v.masked
  let q ← if st.cls = 0 then softmaxP v st.b else pure (v.z.map (fun _ => none))
  let s := Fmt.f32.decode p.param
  let out (d : NumF) (y : Tally) : Exec Tally := do
    let f ← writeRow t.core t.ctx (b.y.plus (r * b.yStride)) (Fmt.ofCode b.yFmt) (softmaxDx s st.cls (v.scaleFlags st.cls) q dy d.1 d.2)
    pure (y.writtenAll f)
  match b.phase with
  | 0 => out (softmaxD q dy) (y.rowClass st.cls false)
  | 1 =>
    if st.cls = 0 then
      let old ← if b.first then pure [Num.zero] else lsFloats t.core t.ctx (p.dOff + 4 * r) 1
      let d := softmaxD q dy
      let z := f32Add (old.headD .zero) d.1
      writeMem t.core t.ctx ⟨false, p.dOff + 4 * r⟩ (leBytes 4 (Fmt.f32.encode z.1)) false
      pure { y with flags := y.flags ||| v.scaleFlag 0 ||| d.2 ||| z.2 }
    else
      if b.first then writeMem t.core t.ctx ⟨false, p.dOff + 4 * r⟩ (leBytes 4 0) false
      pure { y with flags := y.flags ||| v.scaleFlag st.cls }
  | _ =>
    let d ← lsFloats t.core t.ctx (p.dOff + 4 * r) 1
    out (d.headD .zero, 0) (if b.last then y.rowClass st.cls false else y)

def softmaxBwdWork (t : Tile) : Exec Tally := do
  let x ← rowStart t 0x32
  eachRow x.1 x.2.2 {} fun r st y => softmaxBwdRow t x.1 x.2.1 r st y

def execSoftmaxBwd (core stream : Nat) (s : State) : Host.Outcome State Fault Refusal :=
  .next (s.runTile core stream 0x32 softmaxBwdWork)

/-! ## Norms (R183, R195) -/

/-- Values with the OR of their flags. -/
def orFlags (l : List NumF) : BitVec 6 := l.foldl (fun f x => f ||| x.2) 0

/-- The mean of a list: its sum over n (R184). -/
def meanOf (l : List NumF) (n : Nat) : NumF :=
  let t := rowSum (l.map fun x => some x.1)
  let q := Fmt.f32.div t.1 (.ofNat n)
  (q.1, orFlags l ||| t.2 ||| q.2)

/-- The class of a norm row (R195). -/
def normClass (x : List Num) : Nat := if x.any Num.isNan then 3 else if x.any Num.isInf then 2 else 0

/-- μ and rstd of a row, with their flags (R183). -/
def normStats (rms : Bool) (eps : Num) (x : List Num) : Exec (Num × NumF) := do
  let mu : NumF := if rms then (.zero, 0) else meanOf (x.map fun v => (v, 0)) x.length
  let sq : List NumF := x.map fun v =>
    let d : NumF := if rms then (v, 0) else f32Sub v mu.1
    let q := f32Mul d.1 d.1
    (q.1, d.2 ||| q.2)
  let v := meanOf sq x.length
  let e := f32Add v.1 eps
  let r ← rsqrtOp e.1
  pure (mu.1, (r.1, mu.2 ||| v.2 ||| e.2 ||| r.2))

/-- A product of two values with flags. -/
def mulF (a : NumF) (b : Num) : NumF :=
  let y := f32Mul a.1 b
  (y.1, a.2 ||| y.2)

/-- x̂ of an element: (x − μ)·rstd, or x·rstd for RMSNorm. -/
def normHat (rms : Bool) (mu rstd x : Num) : NumF := mulF (if rms then (x, 0) else f32Sub x mu) rstd

/-- A γ or β vector, or its constant when the tile applies none (R183). -/
def rowVector (t : Tile) (on : Bool) (off cols : Nat) (d : Num) : Exec (List Num) :=
  if on then lsFloats t.core t.ctx off cols else pure (List.replicate cols d)

/-- One row of LNORM_FWD or RMSNORM_FWD. -/
def normFwdRow (t : Tile) (op : Nat) (b : RowBody) (eps : Num) (gamma beta : List Num) (r : Nat) (y : Tally) : Exec Tally := do
  let rms := op == 0x35
  let x ← readRow t.core t.ctx (b.x.plus (r * b.xStride)) (Fmt.ofCode b.xFmt) b.cols fun _ => false
  let cls := normClass x
  let st ← if cls = 0 then normStats rms eps x else pure (.nan, (.nan, 0))
  let out : List NumF := (List.zip x (List.zip gamma beta)).map fun (e : Num × Num × Num) =>
    if cls = 3 then (.nan, 0)
    else if cls = 2 then (.nan, fInf ||| fNan)
    else
      let h := mulF (normHat rms st.1 st.2.1 e.1) e.2.1
      let z : NumF := if rms then h else
        let s := f32Add h.1 e.2.2
        (s.1, h.2 ||| s.2)
      (z.1, z.2 ||| st.2.2)
  let f ← writeRow t.core t.ctx (b.y.plus (r * b.yStride)) (Fmt.ofCode b.yFmt) out
  if b.mode = 1 then
    storeStat t.core t.ctx (b.stat + r)
      (b.key op r { a := st.1, b := st.2.1, state := 2, cls := cls })
  pure ((y.rowClass cls true).writtenAll f)

/-- LNORM_FWD and RMSNORM_FWD. -/
def normFwdWork (op : Nat) (t : Tile) : Exec Tally := do
  let x ← rowStart t op
  let gamma ← rowVector t x.1.gamma x.2.1.gamma x.1.cols .one
  let beta ← rowVector t x.1.beta x.2.1.beta x.1.cols .zero
  eachRow x.1 x.2.2 {} fun r _ y => normFwdRow t op x.1 (Fmt.f32.decode x.2.1.param) gamma beta r y

def execLnormFwd (core stream : Nat) (s : State) : Host.Outcome State Fault Refusal :=
  .next (s.runTile core stream 0x33 (normFwdWork 0x33))

def execRmsnormFwd (core stream : Nat) (s : State) : Host.Outcome State Fault Refusal :=
  .next (s.runTile core stream 0x35 (normFwdWork 0x35))

/-- What a backward norm tile carries from row to row: its tally, dγ and dβ. -/
abbrev NormAcc := Tally × List NumF × List NumF

/-- One row of LNORM_BWD or RMSNORM_BWD (R183, R195). -/
def normBwdRow (t : Tile) (op : Nat) (b : RowBody) (gamma : List Num) (r : Nat) (st : StatRec) (y : NormAcc) :
    Exec NormAcc := do
  let rms := op == 0x36
  let x ← readRow t.core t.ctx (b.x.plus (r * b.xStride)) (Fmt.ofCode b.xFmt) b.cols fun _ => false
  let dy ← dyRow t b r fun _ => false
  let hat := x.map (normHat rms st.a st.b)
  let g : List NumF := (List.zip gamma dy).map fun (e : Num × Num) => f32Mul e.1 e.2
  let a : NumF := if rms then (.zero, 0) else meanOf g b.cols
  let bb := meanOf ((List.zip g hat).map fun (e : NumF × NumF) => (mulF e.1 e.2.1).1 |> fun v => (v, e.1.2 ||| e.2.2 ||| (mulF e.1 e.2.1).2)) b.cols
  let out : List NumF := (List.zip g hat).map fun (e : NumF × NumF) =>
    if st.cls = 3 then (.nan, 0)
    else if st.cls ≠ 0 then (.nan, fInf ||| fNan)
    else
      let u : NumF := if rms then e.1 else
        let s := f32Sub e.1.1 a.1
        (s.1, e.1.2 ||| s.2)
      let w := f32Mul e.2.1 bb.1
      let d := f32Sub u.1 w.1
      let z := f32Mul st.b d.1
      (z.1, u.2 ||| e.2.2 ||| w.2 ||| d.2 ||| z.2 ||| a.2 ||| bb.2)
  let f ← writeRow t.core t.ctx (b.y.plus (r * b.yStride)) (Fmt.ofCode b.yFmt) out
  let dg : List NumF := if b.pg then
      (List.zip y.2.1 (List.zip dy hat)).map fun (e : NumF × Num × NumF) =>
        let z := Fmt.f32.fma e.2.1 e.2.2.1 e.1.1
        (z.1, e.1.2 ||| z.2)
    else y.2.1
  let db : List NumF := if b.pg && b.beta then
      (List.zip y.2.2 dy).map fun (e : NumF × Num) =>
        let z := Fmt.f32.fma e.2 .one e.1.1
        (z.1, e.1.2 ||| z.2)
    else y.2.2
  pure ((y.1.rowClass st.cls true).writtenAll f, dg, db)

/-- LNORM_BWD and RMSNORM_BWD; dγ and dβ are accumulated over the rows in order and written back (R184, R201). -/
def normBwdWork (op : Nat) (t : Tile) : Exec Tally := do
  let x ← rowStart t op
  let b := x.1
  let gamma ← rowVector t b.gamma x.2.1.gamma b.cols .one
  let dg ← rowVector t b.pg x.2.1.dgamma b.cols .zero
  let db ← rowVector t (b.pg && b.beta) x.2.1.dbeta b.cols .zero
  let y ← eachRow b x.2.2 (({}, dg.map fun v => (v, 0), db.map fun v => (v, 0)) : NormAcc) fun r st y =>
    normBwdRow t op b gamma r st y
  if b.pg then writeMem t.core t.ctx ⟨false, x.2.1.dgamma⟩ (pack .f32 (y.2.1.map (·.1))) false
  if b.pg && b.beta then writeMem t.core t.ctx ⟨false, x.2.1.dbeta⟩ (pack .f32 (y.2.2.map (·.1))) false
  let z := if b.pg then y.1.writtenAll (y.2.1.map (·.2)) else y.1
  pure (if b.pg && b.beta then z.writtenAll (y.2.2.map (·.2)) else z)

def execLnormBwd (core stream : Nat) (s : State) : Host.Outcome State Fault Refusal :=
  .next (s.runTile core stream 0x34 (normBwdWork 0x34))

def execRmsnormBwd (core stream : Nat) (s : State) : Host.Outcome State Fault Refusal :=
  .next (s.runTile core stream 0x36 (normBwdWork 0x36))

/-! ## Copies of records (R191, R192) -/

/-- STATS_SPILL: records to memory; a granule with a flagged record is written poisoned. -/
def statsSpillWork (t : Tile) : Exec Tally := do
  let b := statsBody t.desc
  probeTier t.core t.ctx b.addr (16 * b.count) 0x0232
  let base ← Exec.ask fun s => s.statAt t.ctx b.stat
  Exec.each (List.range b.count) fun k => Exec.doState fun s => s.seeStat t.core (base + k)
  let img ← Exec.ask fun s => (List.range b.count).flatMap fun k => s.statBytes t.core (base + k)
  Exec.each (granPieces (pieceFuel (16 * b.count)) b.addr.addr (16 * b.count)) fun g => do
    let bad ← Exec.ask fun s => (List.range (g.2 / 16)).any fun i => s.statBad t.core (base + g.1 / 16 + i)
    writeMem t.core t.ctx (b.addr.plus g.1) ((img.drop g.1).take g.2) bad rowTier
    if bad then settlePoison t.core t.ctx (b.addr.plus g.1) true
  pure {}

def execStatsSpill (core stream : Nat) (s : State) : Host.Outcome State Fault Refusal :=
  .next (s.runTile core stream 0x37 statsSpillWork)

/-- STATS_FILL: any pattern is loaded; a record with bytes in a poisoned granule is flagged. -/
def statsFillWork (t : Tile) : Exec Tally := do
  let b := statsBody t.desc
  probeTier t.core t.ctx b.addr (16 * b.count) 0x0232
  Exec.each (List.range b.count) fun k => do
    let r ← readCopy t.core t.ctx (b.addr.plus (16 * k)) 16 rowTier
    Exec.doState fun s =>
      let n := s.statAt t.ctx (b.stat + k)
      ((s.writeStat t.core n {}).putStat t.core n r.1).setStatBad t.core n r.2
  pure {}

def execStatsFill (core stream : Nat) (s : State) : Host.Outcome State Fault Refusal :=
  .next (s.runTile core stream 0x38 statsFillWork)

end Sys2Proof.Machine
end

