-- ==== Sys2Proof/Machine/Kv.lean ====
section
/-! DEFINITION. The paged key-value cache: page records, KV_APPEND, KV_DEMOTE, KV-extend faults, replays and failed
sequences (chapter The Paged Key-Value Cache). -/

namespace Sys2Proof.Machine

/-! ## Pages and records (R244 to R252) -/

/-- Slot index of a page in a slot's split (R247). -/
def Slot.index (e : Slot) (layer group page : Nat) : Nat :=
  layer * 2 ^ (e.groupBits + e.pageBits) + group * 2 ^ e.pageBits + page

/-- Virtual address of a page slot (R247). -/
def pageVa (q idx : Nat) : Nat := windowBase + q * 2 ^ 40 + idx * 2 ^ 16

/-- Virtual address of a page's record (R251). -/
def Slot.record (e : Slot) (idx : Nat) : Nat := e.recBase + 32 * idx

/-- A page record (R251). -/
structure KvRec where
  kFmt : Nat := 0
  vFmt : Nat := 0
  count : Nat := 0
  poisoned : Bool := false
  firstPos : Nat := 0
  version : Nat := 0
  kScale : List Nat := []
  vScale : List Nat := []

def KvRec.decode (n : Nat) : KvRec :=
  { kFmt := fieldAt n 0 4 4, vFmt := fieldAt n 0 0 4, count := fieldAt n 1 0 8, poisoned := bit n 23
    firstPos := fieldAt n 4 0 32, version := fieldAt n 8 0 32
    kScale := (List.range 4).map fun i => fieldAt n (12 + i) 0 8
    vScale := (List.range 4).map fun i => fieldAt n (16 + i) 0 8 }

/-- A record's 32 bytes as a little-endian number. -/
def KvRec.encode (r : KvRec) : Nat :=
  r.vFmt % 16 + r.kFmt % 16 * 16 + r.count % 256 * 2 ^ 8 + b2n r.poisoned * 2 ^ 23 + r.firstPos % 2 ^ 32 * 2 ^ 32
    + r.version % 2 ^ 32 * 2 ^ 64
    + (List.range 4).foldl (fun a i => a + r.kScale.getD i 0 % 256 * 2 ^ (96 + 8 * i)
        + r.vScale.getD i 0 % 256 * 2 ^ (128 + 8 * i)) 0

/-- A page format of R244. -/
def kvFmt (f : Nat) : Bool := decide (f ≤ 3) || f == 8

/-- Scales that a region may have (R252). -/
def kvScales (f : Nat) (l : List Nat) : Bool := if f ≤ 1 then l.all (· == 127) else l.all (· != 255)

/-- A record that is not malformed; an empty page may hold anything else (R251, R252). -/
def recordOk (n : Nat) : Bool :=
  let r := KvRec.decode n
  r.count == 0 || (decide (r.count ≤ 128) && kvFmt r.kFmt && kvFmt r.vFmt && bits n 16 7 == 0 && fieldAt n 3 0 8 == 0
    && fieldAt n 20 0 96 == 0 && kvScales r.kFmt r.kScale && kvScales r.vFmt r.vScale)

/-- Class of a page format (R244). -/
def kvClass (f : Nat) : Nat := if f ≤ 1 then 16 else if f = 8 then 4 else 8

/-- Bytes of the key region, and offset of the value region (R245). -/
def KvRec.ks (r : KvRec) : Nat := 128 * kvRow r.kFmt

/-- Subslots that a page uses (R245). -/
def subslots (k v : Nat) : Nat := (128 * kvRow k + 128 * kvRow v + 16383) / 16384

/-! ## Accesses of the pipe (R233, R258, R294) -/

/-- The code of ATTN_TIER. -/
def pipeTier : Option Nat := some 0x0241

/-- A translation fault of an attention tile or a KV_APPEND on a window address is marked KV-extend (R233, R258). -/
def kvStop {α : Type} (a : Addr) (x : Exec α) : Exec α := fun s =>
  match x s with
  | (.error (.fault code pa), t) =>
    let va := a.addr % 2 ^ 48
    match (if a.space then windowOf va else none) with
    | none => (.error (.fault code pa), t)
    | some q =>
      if 0x0101 ≤ code ∧ code ≤ 0x0105 then (.error (.kvExtend q (va / 2 ^ 14 * 2 ^ 14) code), t)
      else (.error (.fault code pa), t)
  | r => r

/-- A read that tells of poison, under R258. -/
def pipeTell (core c : Nat) (a : Addr) (n : Nat) (tier : Option Nat) : Exec (List Byte × Option Nat) := do
  let l ← Exec.collect (granPieces (pieceFuel n) a.addr n) fun p =>
    kvStop (a.plus p.1) (readTell core c (a.plus p.1) p.2 tier)
  pure (l.flatMap (·.1), l.findSome? (·.2))

/-- A read that consumes poison, under R258. -/
def pipeUse (core c : Nat) (a : Addr) (n : Nat) (tier : Option Nat) : Exec (List Byte) := do
  let r ← pipeTell core c a n tier
  match r.2 with
  | some pa => Exec.stop (.fault 0x0120 pa)
  | none => pure r.1

/-- A write, under R258. -/
def pipeWrite (core c : Nat) (a : Addr) (b : List Byte) (poisoned : Bool) (tier : Option Nat) : Exec Unit :=
  Exec.each (granPieces (pieceFuel b.length) a.addr b.length) fun p =>
    kvStop (a.plus p.1) (writeMem core c (a.plus p.1) ((b.drop p.1).take p.2) poisoned tier)

/-- A page's record at an address of general space or of a block: a poisoned granule fails the sequence, a malformed record
faults the context, and a page that is poisoned as a whole fails the sequence (R251, R252, R262). -/
def readRecord (core c q idx va : Nat) (tier : Option Nat) : Exec KvRec := do
  let b ← readTell core c ⟨true, va⟩ 32 tier
  Exec.check b.2.isNone (.kvFail q 0x0502 idx)
  let n := leNat b.1
  Exec.check (recordOk n) (.fault 0x0504 0)
  let r := KvRec.decode n
  Exec.check (!r.poisoned) (.kvFail q 0x0502 idx)
  pure r

/-- A page's record is written. -/
def writeRecord (core c va : Nat) (r : KvRec) (tier : Option Nat) : Exec Unit :=
  writeMem core c ⟨true, va⟩ (leBytes 32 r.encode) false tier

/-- A poisoned granule of a page that a unit reads: the page's record, as it now stands, has poisoned = 1, and the sequence
fails (R251, R262). -/
def pagePoisoned (core c q idx va : Nat) (tier : Option Nat) : Exec Unit := do
  let old ← readTell core c ⟨true, va⟩ 32 tier
  writeMem core c ⟨true, va + 2⟩ [old.1.getD 2 0 ||| 0x80] false tier
  Exec.stop (.kvFail q 0x0502 idx)

/-! ## The pipe's stages and their stops -/

/-- A sequence fails at a page: the record of the error engine, and the slot's entry (R260 to R262). -/
def State.failPage (s : State) (c core q code idx : Nat) : State :=
  (s.raise { code := code, domain := domSequence, index := q, ctx := some c, core := some core, detail := idx }).failSequence
    q code idx

/-- A tile ends under R77: its engines go free, its stream waits and keeps the resume point. -/
def State.endForReplay (s : State) (t : Tile) (w : WaitFor) : State :=
  (s.dropTile t.core t.stream).setStream t.core t.stream { s.stream t.core t.stream with
    state := .waiting, waitFor := w, resume := some { t.at_ with tally := t.tally } }

/-- The context of a tile faults with a code that the tile met. -/
def State.raiseFor (s : State) (t : Tile) (code phys : Nat) : State :=
  s.raiseCtx { code := code, core := some t.core, phys := phys, tileId := BitVec.ofNat 32 (dTileId t.desc)
               layerTag := BitVec.ofNat 16 (dLayerTag t.desc) } t.ctx

/-- A KV-extend fault: counted, and the tile ends under R77. By its code Flint serves it in its turn within the slot's budget, fails
the sequence, whose tile replays, or faults the context (R258, R260, R262). -/
def State.extendFault (s : State) (t : Tile) (q va code : Nat) : State :=
  let e := s.slot q
  let s := s.setSlot q { e with extendFaults := sat32 (e.extendFaults + 1) }
  let n := if e.budget = 0 then 2 else e.budget
  let s := s.endForReplay t (.kvExtend q va)
  if code = 0x0101 then
    { s with kv := { s.kv with waits := s.kv.waits ++ [⟨t.core, t.stream, t.ctx, q, va, s.ticksOf t.ctx + n, false⟩] } }
  else if code = 0x0105 then (s.failPage t.ctx t.core q 0x0502 (bits va 16 24)).wake t.core t.stream
  else s.raiseFor t code 0

/-- A version that was odd, or has changed: counted, and replayed once the version is even, or at once (R254). -/
def State.versionFault (s : State) (t : Tile) (q va : Nat) (odd : Bool) : State :=
  let e := s.slot q
  let s := (s.setSlot q { e with versionReplays := sat32 (e.versionReplays + 1) }).endForReplay t (.kvVersion q va)
  if odd then s else s.wake t.core t.stream

/-- A stop that ends a tile of the pipe; `ins` is the log of what the tile reads (R118, R470). -/
def State.pipeStop (s : State) (t : Tile) (ins : List (Nat × Nat × List Byte)) : Stop → State
  | .fault code phys =>
    let s := (s.setTile { t with phase := .stopping, stopAt := s.now }).raiseFor t code phys
    if code = 0x0212 then s.capture t 0 0xFFFF 0 0 ins t.wrote else s
  | .kvExtend q va code => s.extendFault t q va code
  | .kvVersion q va odd => s.versionFault t q va odd
  | _ => s

/-- The stages of a tile of the pipe, one after the other on a state that is not the module's own, up to `n` of them, until the work is
done or a stop ends it; a sequence that fails ends its part alone. -/
def State.stagesRun (core stream : Nat) (stage : Tile → Exec Bool) : Nat → State → Except Stop Unit × State
  | 0, s => (.error .stall, s)
  | n + 1, s =>
    match s.tileOf core stream with
    | none => (.error .stall, s)
    | some t =>
      match (stage t) s with
      | (.ok true, s') => (.ok (), s')
      | (.ok false, s') => State.stagesRun core stream stage n s'
      | (.error (.kvFail q code idx), s') => State.stagesRun core stream stage n (s'.failPage t.ctx core q code idx)
      | (.error e, s') => (.error e, s')

/-- Stages that no tile of the pipe exceeds. -/
def stageBound : Nat := 2 ^ 20

/-- What a stage of a tile has logged joins the tile (R467). -/
def State.keepLog (s : State) (core stream : Nat) (t : Tile) : State :=
  let z := s.endLog ((s.tileOf core stream).getD t)
  z.1.setTile z.2

/-- A tile of the pipe goes on by up to `n` stages. Each stage answers whether the tile's work is done; a sequence that fails
ends its part of the tile alone; a stall undoes the stage (R261, R283, R485). `clean` is a stage without the hardware's fault, as in
`State.runTile`. -/
def State.pipeRun (op core stream : Nat) (stage clean : Tile → Exec Bool) : Nat → State → State
  | 0, s => s
  | n + 1, s =>
    match s.tileOf core stream with
    | none => s
    | some t =>
      if t.phase = .running ∧ dOpcode t.desc = op ∧ s.coreFenced core = false then
        match (stage t) (s.beginLog t) with
        | (.ok true, s') =>
          let z := s'.endLog ((s'.tileOf core stream).getD t)
          z.1.setTile { z.2 with phase := .worked }
        | (.ok false, s') => State.pipeRun op core stream stage clean n (s'.keepLog core stream t)
        | (.error .stall, _) => s
        | (.error (.kvFail q code idx), s') =>
          State.pipeRun op core stream stage clean n ((s'.keepLog core stream t).failPage t.ctx core q code idx)
        | (.error e, s') =>
          let s' := s'.keepLog core stream t
          s'.pipeStop ((s'.tileOf core stream).getD t)
            (t.wrote ++ (State.stagesRun core stream clean stageBound s.logged).2.accesses) e
      else s

/-- A sequence has failed since the tile began (R261). -/
def Tile.dead (t : Tile) (q : Nat) : Bool := t.at_.dead.contains q

/-- What a stage raises enters the tile's tally. -/
def addTally (t : Tile) (y : Tally) : Exec Unit := putTile t fun u => { u with tally := u.tally.add y }

/-! ## KV_APPEND (R255 to R257, R590) -/

/-- An element as an append stores it: divided by its block's scale and converted; in a 4-bit region by step 5 of R130, where
what is not finite becomes a zero of its sign (R257). -/
def storeElem (f scale : Nat) (neg : Bool) (x : Num) : NumF :=
  let y := match x with
    | .fin s m e => .fin s m (e - ((scale : Int) - 127))
    | z => z
  if f = 8 then
    match y with
    | .nan => (.fin neg 0 0, 0)
    | .inf s => (.fin s 0 0, fNan)
    | z => { Fmt.e2m1 with mx := true }.convert .nearest z
  else (Fmt.ofCode f).near y

/-- A source row of 128 elements with the sign of each, and whether a granule of it is poisoned (R590). -/
def readToken (core c : Nat) (a : Addr) (fmt : Nat) : Exec (List (Num × Bool) × Bool) := do
  let f := Fmt.ofCode fmt
  let r ← pipeTell core c a (128 * (f.width / 8)) pipeTier
  let l := (List.range 128).map fun e =>
    let w := packedAt f r.1 e
    (f.decode w, bit w (f.width - 1))
  pure (l, r.2.isSome)

/-- A row of a page: its bytes and the flags of its elements. -/
def tokenRow (f : Nat) (scale : Nat → Nat) (l : List (Num × Bool)) : List Byte × List (BitVec 6) :=
  let y := (List.zip l (List.range 128)).map fun (x : (Num × Bool) × Nat) => storeElem f (scale x.2) x.1.2 x.1.1
  (pack (Fmt.ofCode f) (y.map (·.1)), y.map (·.2))

/-- One token of an append (R257). -/
def appendToken (t : Tile) (b : AppendBody) (k : Nat) : Exec Unit := do
  let e ← Exec.ask fun s => s.slot b.slot
  let tok := b.t0 + k
  let off := tok % 128
  let pos := (b.pos0 + k) % 2 ^ 32
  let idx := e.index b.layer b.group (tok / 128)
  let va := e.record idx
  let old ← readRecord t.core t.ctx b.slot idx va none
  let opens := off == 0 && old.count == 0
  Exec.check (opens || (off == old.count && pos == (old.firstPos + old.count) % 2 ^ 32)) (.fault 0x0503 0)
  let r : KvRec := if opens then
      { kFmt := b.kFmt, vFmt := b.vFmt, firstPos := pos, version := old.version, kScale := b.kScale, vScale := b.vScale }
    else old
  let x ← readToken t.core t.ctx (b.k.plus (k * b.stride)) b.fmt
  let y ← readToken t.core t.ctx (b.v.plus (k * b.stride)) b.fmt
  let kr := tokenRow r.kFmt (fun d => r.kScale.getD (d / 32) 127) x.1
  let vr := tokenRow r.vFmt (fun _ => r.vScale.getD (off / 32) 127) y.1
  let page := pageVa b.slot idx
  pipeWrite t.core t.ctx ⟨true, page + off * kvRow r.kFmt⟩ kr.1 x.2 none
  pipeWrite t.core t.ctx ⟨true, page + r.ks + off * kvRow r.vFmt⟩ vr.1 y.2 none
  writeRecord t.core t.ctx va { r with count := off + 1 } none
  addTally t (({} : Tally).writtenAll (kr.2 ++ vr.2))

/-- One stage of KV_APPEND: the next token. A failed slot ends the tile (R257, R261). -/
def appendStage (t : Tile) : Exec Bool := do
  let b := appendBody t.desc
  Exec.check (t.dead b.slot || (← Exec.ask fun s => s.slotOwned b.slot t.ctx)) (.fault 0x0505 0)
  let e ← Exec.ask fun s => s.slot b.slot
  if e.status ≠ 0 ∨ t.dead b.slot = true then pure true
  else
    appendToken t b t.at_.group
    putTile t fun u => { u with at_ := { u.at_ with group := u.at_.group + 1 } }
    pure (decide (b.n ≤ t.at_.group + 1))

/-- KV_APPEND treats its tokens in order. -/
def execKvAppend (core stream : Nat) (s : State) : Host.Outcome State Fault Refusal :=
  .next (s.pipeRun 0x4E core stream appendStage appendStage 1025)

/-! ## KV_DEMOTE (R263 to R265) -/

/-- A region of a page: 128 rows of 128 elements with their scales applied; `key` regions have a scale for each 32 dimensions,
value regions one for each 32 tokens (R251). -/
def regionVals (key : Bool) (f : Nat) (scales : List Nat) (b : List Byte) : List (List Num) :=
  (List.range 128).map fun i =>
    (List.zip (unpack (Fmt.ofCode f) ((b.drop (i * kvRow f)).take (kvRow f)) 128) (List.range 128)).map
      fun (x : Num × Nat) => scaled (scales.getD (if key then x.2 / 32 else i / 32) 127) x.1

/-- The elements of block `j` of a region: 32 dimensions of all tokens, or 32 tokens of all dimensions. -/
def regionBlock (key : Bool) (v : List (List Num)) (j : Nat) : List Num :=
  if key then v.flatMap fun r => (r.drop (32 * j)).take 32 else ((v.drop (32 * j)).take 32).flatten

/-- A region narrowed to a format: its scales, its rows and the flags of its elements (R265 steps 3 and 4). -/
def narrow (key : Bool) (f : Nat) (v : List (List Num)) : List Nat × List (List Num) × List (BitVec 6) :=
  let y := (List.range 4).map fun j => mxBlock (Fmt.ofCode f) (regionBlock key v j) []
  let elem (i d : Nat) : NumF :=
    let j := if key then d / 32 else i / 32
    let k := if key then i * 32 + d % 32 else i % 32 * 128 + d
    ((y.getD j (0, [])).2).getD k (.zero, 0)
  (y.map (·.1), (List.range 128).map fun i => (List.range 128).map fun d => (elem i d).1,
    (List.range 128).flatMap fun i => (List.range 128).map fun d => (elem i d).2)

/-- A region after a demotion: its bytes, scales and flags. A region whose format stays keeps its bytes and scales. -/
def demoteRegion (key : Bool) (f new : Nat) (scales : List Nat) (b : List Byte) : List Byte × List Nat × List (BitVec 6) :=
  if f = new then (b, scales, [])
  else
    let y := narrow key new (regionVals key f scales b)
    (y.2.1.flatMap (pack (Fmt.ofCode new)), y.1, y.2.2)

/-- The whole page is read; a poisoned granule fails the sequence (R262, R265 step 2). A window fault of KV_DEMOTE faults the
context (R233). -/
def readPage (core c q idx va : Nat) (r : KvRec) : Exec (List Byte) := do
  let x ← readTell core c ⟨true, pageVa q idx⟩ (r.ks + 128 * kvRow r.vFmt)
  if x.2.isSome then pagePoisoned core c q idx va none
  pure x.1

/-- A page that a demotion has begun is rewritten (R265 steps 2 to 7). -/
def demotePage (t : Tile) (b : DemoteBody) (idx va start : Nat) : Exec Unit := do
  let r ← readRecord t.core t.ctx b.slot idx va none
  let old ← readPage t.core t.ctx b.slot idx va r
  writeMem t.core t.ctx ⟨false, b.stage⟩ old false
  let k := demoteRegion true r.kFmt b.kNew r.kScale (old.take r.ks)
  let v := demoteRegion false r.vFmt b.vNew r.vScale (old.drop r.ks)
  writeMem t.core t.ctx ⟨true, pageVa b.slot idx⟩ k.1 false
  writeMem t.core t.ctx ⟨true, pageVa b.slot idx + 128 * kvRow b.kNew⟩ v.1 false
  writeRecord t.core t.ctx va { r with
    kFmt := b.kNew, vFmt := b.vNew, kScale := k.2.1, vScale := v.2.1, version := start + 2 } none
  addTally t (({} : Tally).writtenAll (k.2.2 ++ v.2.2))
  let gone := (List.range 4).filter fun i => decide (subslots b.kNew b.vNew ≤ i) && decide (i < subslots r.kFmt r.vFmt)
  putTile t fun u => { u with posted := u.posted ++ gone.map fun i => pageVa b.slot idx + i * 2 ^ 14 }

/-- The tile goes on to its next page; whether that was the last. -/
def nextPage (t : Tile) (b : DemoteBody) : Exec Bool := do
  putTile t fun u => { u with held := [], at_ := { u.at_ with group := u.at_.group + 1 } }
  pure (decide (b.count ≤ t.at_.group + 1))

/-- One stage of KV_DEMOTE: step 1 of the next page, or steps 2 to 7 of the page begun (R264, R265). A page whose version is
odd makes the tile wait. -/
def demoteStage (t : Tile) : Exec Bool := do
  let b := demoteBody t.desc
  Exec.check (t.dead b.slot || (← Exec.ask fun s => s.slotOwned b.slot t.ctx)) (.fault 0x0505 0)
  let e ← Exec.ask fun s => s.slot b.slot
  if e.status ≠ 0 ∨ t.dead b.slot = true then pure true
  else
    let idx := e.index b.layer b.group (b.page0 + t.at_.group)
    let va := e.record idx
    match t.held with
    | start :: _ =>
      demotePage t b idx va start
      nextPage t b
    | [] =>
      let raw ← readTell t.core t.ctx ⟨true, va⟩ 32
      Exec.check (raw.2.isSome || (KvRec.decode (leNat raw.1)).version % 2 == 0) .stall
      let r ← readRecord t.core t.ctx b.slot idx va none
      Exec.check (r.count == 128 && decide (kvClass b.kNew ≤ kvClass r.kFmt) && decide (kvClass b.vNew ≤ kvClass r.vFmt))
        (.fault 0x0506 0)
      if r.kFmt = b.kNew ∧ r.vFmt = b.vNew then nextPage t b
      else
        writeRecord t.core t.ctx va { r with version := r.version + 1 } none
        putTile t fun u => { u with held := [r.version] }
        pure false

/-- KV_DEMOTE goes on by up to `stages` stages, two for each page it demotes. -/
def execKvDemote (core stream stages : Nat) (s : State) : Host.Outcome State Fault Refusal :=
  .next (s.pipeRun 0x4F core stream demoteStage demoteStage stages)

/-! ## Flint's part (R254, R258 to R260, R265) -/

/-- KV_FRAME_MAP: Flint serves the context's first waiting fault that is not lost, and every tile that waits on the subslot
replays (R258 to R260). -/
def kvFrameMap (at_ ctx : Nat) (s : State) : State :=
  let s := s.advanceTo at_
  match s.kv.waits.find? fun w => w.ctx == ctx && !w.lost && !s.err.flintDown with
  | none => s
  | some w => match s.serveFault ctx w.slot w.va with
    | none => s
    | some t => t.kvWake fun x => x.ctx == ctx && x.va == w.va && !x.lost

def execKvFrameMap (at_ ctx : Nat) (s : State) : Host.Outcome State Fault Refusal := .next (kvFrameMap at_ ctx s)

/-- KV_FULL: the budget of a fault of the slot has expired with no frame for it, so the sequence fails (R260). -/
def kvFull (at_ slot : Nat) (s : State) : State :=
  let s := s.advanceTo at_
  match s.kv.waits.find? fun w => w.slot == slot && w.lost with
  | none => s
  | some w => s.failPage w.ctx w.core slot 0x0501 (bits w.va 16 24)

def execKvFull (at_ slot : Nat) (s : State) : Host.Outcome State Fault Refusal := .next (kvFull at_ slot s)

/-- One posted subslot is released: its leaf is cleared and invalidated, and a pool frame goes back (R265). -/
def State.releaseSubslot (s : State) (c va : Nat) : State :=
  match s.kv.frames.find? fun f => f.ctx == c && f.va == va with
  | some f => s.unmapFrame f
  | none => s.unmapFrame ⟨c, 0, va, 0⟩

/-- KV_SUBSLOT_RELEASE: Flint releases the subslots that finished demotions have posted (R265). -/
def kvSubslotRelease (at_ : Nat) (s : State) : State :=
  let s := s.advanceTo at_
  let l := s.kv.posted
  if s.err.flintDown then s
  else l.foldl (fun s (p : Nat × Nat) => s.releaseSubslot p.1 p.2) { s with kv := { s.kv with posted := [] } }

def execKvSubslotRelease (at_ : Nat) (s : State) : Host.Outcome State Fault Refusal := .next (kvSubslotRelease at_ s)

/-- The version in the record at an address of a context; none where the record cannot be read. -/
def State.peekVersion (s : State) (core c va : Nat) : Option Nat :=
  match (readTell core c ⟨true, va⟩ 32) s with
  | (.ok (b, none), _) => some (KvRec.decode (leNat b)).version
  | _ => none

/-- KV_VERSION_REPLAY: the version is even, or its record cannot be read, so the stream is ready for its replay (R254). -/
def kvVersionReplay (at_ core stream : Nat) (s : State) : State :=
  let s := s.advanceTo at_
  let st := s.stream core stream
  match st.state, st.waitFor with
  | .waiting, .kvVersion _ va =>
    match s.peekVersion core st.ctx va with
    | some v => if v % 2 = 0 then s.wake core stream else s
    | none => s.wake core stream
  | _, _ => s

def execKvVersionReplay (at_ core stream : Nat) (s : State) : Host.Outcome State Fault Refusal :=
  .next (kvVersionReplay at_ core stream s)

end Sys2Proof.Machine
end

