-- ==== Sys2Proof/Machine/Attention.lean ====
section
/-! DEFINITION. The attention pipe: forward, backward and decode tiles, rotary coding, masks, BUCKET_SORT and SEQ_DONE
(chapter The Attention Pipe, Decode Channels and the KV Ring). -/

namespace Sys2Proof.Machine

/-! ## Sequence entries and block headers (R271, R290) -/

/-- An entry of the sequence table (R271). -/
structure SeqEntry where
  slot : Nat
  nq : Nat
  row0 : Nat
  pos0 : Nat
  kvLen : Nat
  window : Nat
  dkv : Nat
  dOff : Nat

def seqEntry (r : Nat) : SeqEntry :=
  { slot := fieldAt r 0 0 7, nq := fieldAt r 1 0 7 + 1, row0 := fieldAt r 2 0 7, pos0 := fieldAt r 4 0 32
    kvLen := fieldAt r 8 0 32, window := fieldAt r 12 0 32, dkv := fieldAt r 16 0 48, dOff := 4 * fieldAt r 24 2 19 }

/-- A null entry: nothing is read or written for it. -/
def SeqEntry.null (e : SeqEntry) : Bool := e.kvLen == 0

/-- Reserved fields of an entry are 0. -/
def entryReserved (r : Nat) : Bool :=
  recordOnly r [(0, 0, 7), (1, 0, 7), (2, 0, 7), (4, 0, 32), (8, 0, 32), (12, 0, 32), (16, 0, 48), (24, 2, 19)]

/-- The header of a ring block (R290). -/
structure BlockHdr where
  groups : Nat
  ppg : Nat
  stride : Nat
  recOff : Nat
  dataOff : Nat
  layer : Nat

def blockHdr (r : Nat) : BlockHdr :=
  { groups := fieldAt r 0 0 8, ppg := fieldAt r 1 0 8, stride := fieldAt r 2 0 3, recOff := fieldAt r 4 0 32
    dataOff := fieldAt r 8 0 32, layer := fieldAt r 12 0 16 }

def hdrReserved (r : Nat) : Bool :=
  recordOnly r [(0, 0, 8), (1, 0, 8), (2, 0, 3), (4, 0, 32), (8, 0, 32), (12, 0, 16), (14, 0, 12)]

/-- A header's own fields in range, and the tile's page range and group inside the block (R290, R294). -/
def BlockHdr.range (h : BlockHdr) (b : AttnBody) : Bool :=
  decide (1 ≤ h.groups) && decide (h.groups ≤ 16) && decide (1 ≤ h.ppg) && decide (h.ppg ≤ 64) && decide (1 ≤ h.stride)
    && decide (h.stride ≤ 4) && decide (h.recOff % 64 = 0) && decide (h.dataOff % 64 = 0)
    && decide (b.page0 + b.pages ≤ h.ppg) && decide (b.group < h.groups)

/-! ## The start of a tile (R189, R281, R287, R294) -/

/-- The first and the last-but-one pair R × H + h of an entry's rows (R272, R273). -/
def SeqEntry.pairs (e : SeqEntry) (heads : Nat) : Nat × Nat := (e.row0 * heads, (e.row0 + e.nq) * heads)

/-- The pairs of an entry in row blocks of 32 (R273). -/
def SeqEntry.blocks (e : SeqEntry) (heads : Nat) : List (List Nat) :=
  chunks 32 (e.nq * heads) ((List.range (e.nq * heads)).map (e.row0 * heads + ·))

/-- Bytes of an element. -/
def elemSize (f : Nat) : Nat := (Fmt.ofCode f).width / 8

/-- The fields of an entry in range (R271, R287, R294). -/
def State.entryRange (s : State) (c op : Nat) (b : AttnBody) (e : SeqEntry) : Bool :=
  let n := (e.pairs b.heads).2
  let q := s.slot e.slot
  e.null || (decide (e.row0 + e.nq ≤ 128)
    && (op == 0x42 || (e.dkv == 0 && e.dOff == 0))
    && decide (b.stat + n ≤ s.statWindow c)
    && s.lsFits c b.q (n * 128 * elemSize b.qFmt) && s.lsFits c b.acc (n * 512)
    && s.lsFits c b.out (n * 128 * elemSize b.outFmt)
    && (op != 0x42 || s.lsFits c ⟨false, e.dOff⟩ (4 * e.nq * b.heads))
    && (!s.slotOwned e.slot c || (q.decode == (op == 0x43)
      && (b.block || q.spans b.layer b.group b.page0 b.pages))))

/-- The rows of different entries do not overlap (R272). -/
def rowsApart : List SeqEntry → Bool
  | [] => true
  | e :: r => (e.null || r.all fun f => f.null || decide (e.row0 + e.nq ≤ f.row0) || decide (f.row0 + f.nq ≤ e.row0)) && rowsApart r

/-- An entry takes part: not null, and its sequence has not failed (R261, R271). -/
def State.entryLive (s : State) (t : Tile) (e : SeqEntry) : Bool := !e.null && !t.dead e.slot && (s.slot e.slot).status == 0

/-- The record of a pair when the tile opens it (R198, R281). -/
def AttnBody.fresh (b : AttnBody) (pair : Nat) : StatRec := { StatRec.start with tag := b.tag, chk := pair % 256, kind := 0 }

/-- The records of an entry: checked under R189, or opened. -/
def entryRecords (t : Tile) (op : Nat) (b : AttnBody) (e : SeqEntry) (opens : Bool) : Exec Unit :=
  Exec.each ((List.range (e.nq * b.heads)).map (e.row0 * b.heads + ·)) fun p => do
    if opens then storeStat t.core t.ctx (b.stat + p) (b.fresh p)
    else
      let r ← readStat t.core t.ctx (b.stat + p)
      Exec.check (r.passes (if op = 0x42 then 2 else 1) 0 b.tag (p % 256)) (.fault 0x0231 0)

/-- The rows of an entry are looked at for their tier before any work (R294). -/
def probeEntry (t : Tile) (op : Nat) (b : AttnBody) (e : SeqEntry) : Exec Unit := do
  let area (a : Addr) (size : Nat) : Exec Unit :=
    probeTier t.core t.ctx (a.plus ((e.pairs b.heads).1 * size)) (e.nq * b.heads * size) 0x0241
  area b.q (128 * elemSize b.qFmt)
  area b.acc 512
  if b.last || op == 0x42 then area b.out (128 * elemSize b.outFmt)

/-- The start of an attention tile: its sequence table, its block header, the tiers of its rows and its records. A tile that resumes
looks only at the entries from its resume point on, and opens no record again (R274). -/
def attnStart (t : Tile) (op : Nat) (b : AttnBody) : Exec Unit := do
  let raw ← Exec.collect (List.range b.seqs) fun i => lsNumber t.core t.ctx (b.seq + 32 * i) 32
  Exec.check (raw.all entryReserved) (.fault 0x0202 0)
  let l := raw.map seqEntry
  Exec.check (rowsApart l && (← Exec.ask fun s => l.all (s.entryRange t.ctx op b))) (.fault 0x0207 0)
  Exec.check (← Exec.ask fun s => l.all fun e => e.null || t.dead e.slot || s.slotOwned e.slot t.ctx) (.fault 0x0505 0)
  let hdr ← if b.block then do
      let h ← readUse t.core t.ctx ⟨true, b.kv⟩ 64 pipeTier
      let n := leNat h
      Exec.check (hdrReserved n) (.fault 0x0202 0)
      Exec.check ((blockHdr n).range b) (.fault 0x0207 0)
      Exec.check ((blockHdr n).layer == b.layer) (.fault 0x0242 0)
      pure n
    else pure 0
  let live ← Exec.ask fun s => (l.drop t.at_.entry).filter (s.entryLive t)
  Exec.each live fun e => probeEntry t op b e
  if b.first = false ∨ op = 0x42 then Exec.each live fun e => entryRecords t op b e false
  else if t.at_.opened = false then Exec.each live fun e => entryRecords t op b e true
  putTile t fun u => { u with table := raw ++ [hdr], at_ := { u.at_ with opened := true } }

/-! ## Pages (R253, R273, R274, R278) -/

/-- What a tile works with at one entry. -/
structure AttnRun where
  t : Tile
  op : Nat
  b : AttnBody
  e : SeqEntry
  hdr : BlockHdr
  slot : Slot

/-- Slot index of a page of the entry's sequence. -/
def AttnRun.idx (r : AttnRun) (page : Nat) : Nat := r.slot.index r.b.layer r.b.group page

/-- Addresses of a page's record and data (R245, R247, R251, R290). -/
def AttnRun.recVa (r : AttnRun) (page : Nat) : Nat :=
  if r.b.block then r.b.kv + r.hdr.recOff + 32 * (r.b.group * r.hdr.ppg + page) else r.slot.record (r.idx page)
def AttnRun.dataVa (r : AttnRun) (page : Nat) : Nat :=
  if r.b.block then r.b.kv + r.hdr.dataOff + 16384 * r.hdr.stride * (r.b.group * r.hdr.ppg + page)
  else pageVa r.e.slot (r.idx page)

/-- Records and pages of a block lie in Geode. -/
def AttnRun.kvTier (r : AttnRun) : Option Nat := if r.b.block then pipeTier else none

/-- The key at a token offset of a page is masked for query `q` of the entry (R278). -/
def AttnRun.masked (r : AttnRun) (page : Nat) (k : KvRec) (q off : Nat) : Bool :=
  let kp := k.firstPos + off
  let qp := r.e.pos0 + q
  decide (k.count ≤ off) || decide (r.e.kvLen ≤ 128 * page + off) || (r.b.causal && decide (qp < kp))
    || (r.e.window != 0 && decide (kp ≤ qp) && decide (kp + r.e.window ≤ qp))

/-- The tokens of a page that some query of the entry sees; a page without one is skipped (R278). -/
def AttnRun.seen (r : AttnRun) (page : Nat) (k : KvRec) : List Nat :=
  (List.range 128).filter fun off => (List.range r.e.nq).any fun q => !r.masked page k q off

/-- The pages of group `g` of the range (R273). -/
def AttnBody.group_ (b : AttnBody) (g : Nat) : List Nat :=
  ((List.range 2).map fun i => 2 * g + i).filter (decide <| · < b.pages) |>.map (b.page0 + ·)

/-- The records of a group as the tile first reads them: 0 for a page that is skipped, else one more than the record. A page of a
block must fit its place, and a page to be fed must have an even version (R253, R254, R262, R278, R294). -/
def readGroup (r : AttnRun) (pages : List Nat) : Exec (List Nat) :=
  Exec.collect pages fun p => do
    let k ← readRecord r.t.core r.t.ctx r.e.slot (r.idx p) (r.recVa p) r.kvTier
    Exec.check (!r.b.block || k.count == 0 || decide (subslots k.kFmt k.vFmt ≤ r.hdr.stride)) (.fault 0x0242 0)
    if (r.seen p k).isEmpty then pure 0
    else
      Exec.check (k.version % 2 == 0) (.kvVersion r.e.slot (r.recVa p) true)
      pure (k.encode + 1)

/-- A page as fetched: its record, the tokens seen, and the values of their key and value rows with the scales applied. -/
structure Page where
  page : Nat
  rec_ : KvRec
  seen : List Nat
  k : List (Nat × List Num)
  v : List (Nat × List Num)

/-- The row of a token, of zeros where it was not fetched. -/
def rowAt (l : List (Nat × List Num)) (off : Nat) : List Num :=
  ((l.find? fun x => x.1 == off).map (·.2)).getD (List.replicate 128 .zero)

/-- A row of a page is read; a poisoned granule of it marks the page and fails the sequence (R262). -/
def fetchKv (r : AttnRun) (page va f : Nat) : Exec (List Byte) := do
  let x ← if r.b.block then readTell r.t.core r.t.ctx ⟨true, va⟩ (kvRow f) pipeTier
    else pipeTell r.t.core r.t.ctx ⟨true, va⟩ (kvRow f) none
  if x.2.isSome then pagePoisoned r.t.core r.t.ctx r.e.slot (r.idx page) (r.recVa page) r.kvTier
  pure x.1

/-- A page is fetched: the rows that some query sees (R253, R262). -/
def fetchPage (r : AttnRun) (page : Nat) (k : KvRec) : Exec Page := do
  let seen := r.seen page k
  let va := r.dataVa page
  let ks ← Exec.collect seen fun i => do
    let x ← fetchKv r page (va + i * kvRow k.kFmt) k.kFmt
    let y := unpack (Fmt.ofCode k.kFmt) x 128
    pure (i, (List.zip y (List.range 128)).map fun (v : Num × Nat) => scaled (k.kScale.getD (v.2 / 32) 127) v.1)
  let vs ← Exec.collect seen fun i => do
    let x ← fetchKv r page (va + k.ks + i * kvRow k.vFmt) k.vFmt
    pure (i, (unpack (Fmt.ofCode k.vFmt) x 128).map (scaled (k.vScale.getD (i / 32) 127)))
  pure ⟨page, k, seen, ks, vs⟩

/-- The second version read: the version is still the one the tile started from (R254, R274). -/
def checkVersion (r : AttnRun) (p : Page) : Exec Unit := do
  let k ← readRecord r.t.core r.t.ctx r.e.slot (r.idx p.page) (r.recVa p.page) r.kvTier
  Exec.check (k.version == p.rec_.version) (.kvVersion r.e.slot (r.recVa p.page) false)

/-! ## Rotation and feed formats (R275 to R277) -/

/-- The rotary set-up in force for a tile: phase increments and pairing mode (R276). -/
def State.rotary (s : State) (t : Tile) : List Nat × Bool :=
  match (s.ctxAt t.ctx).rots.find? fun r => decide (r.1 ≤ t.startTicks) with
  | none => (List.replicate 64 0, false)
  | some r => ((List.range 64).map fun i => phaseInc r.2.1 (Fmt.f32.decode (leNat ((r.2.2.2.drop (4 * i)).take 4))) i, r.2.2.1)

/-- A row of 128 values rotated to a position, or back (R277, R284). -/
def rotate (inc : List Nat) (mode : Bool) (pos : Nat) (back : Bool) (x : List Num) : List NumF :=
  let cs := inc.map fun i => rotCoef (pos * i)
  (List.range 128).map fun d =>
    let i := if mode then d % 64 else d / 2
    let lower := if mode then decide (d < 64) else d % 2 == 0
    let a := x.getD (if mode then i else 2 * i) .zero
    let b := x.getD (if mode then i + 64 else 2 * i + 1) .zero
    let ct := cs.getD i (.one, .zero)
    let t := if back then ct.2.neg else ct.2
    if lower then
      let p := f32Mul b t
      let y := Fmt.f32.fma a ct.1 p.1.neg
      (y.1, p.2 ||| y.2)
    else
      let p := f32Mul b ct.1
      let y := Fmt.f32.fma a t p.1
      (y.1, p.2 ||| y.2)

/-- Blocks of 32 in a Microscaling element format: the values that feed, with the flags (R130, R275). -/
def feedMx (f : Fmt) (x : List Num) : List NumF :=
  (chunks 32 x.length x).flatMap fun l =>
    let y := mxBlock f l []
    y.2.map fun e => (scaled y.1 e.1, e.2)

/-- Values rounded once into the feed format of a class (R275). -/
def feedOwn (cls fmt : Nat) (x : List Num) : List NumF :=
  if cls = 16 then x.map (if fmt = 1 then Fmt.f16 else Fmt.bf16).near
  else feedMx (if fmt = 3 then .e5m2 else .e4m3) x

/-- P, dS and dO: bfloat16, or MXFP8 E4M3 in blocks of 32 (R275). -/
def feedP (cls : Nat) (x : List Num) : List NumF := feedOwn cls 0 x

/-- A query or key row as it feeds: exact without rotation, else rotated in binary32 and rounded once (R275). -/
def feedQk (rot : List Nat × Bool) (rope : Bool) (cls fmt pos : Nat) (x : List Num) : List NumF :=
  if rope then
    let y := rotate rot.1 rot.2 pos false (x.map fun v => (Fmt.f32.near v).1)
    (List.zip y (feedOwn cls fmt (y.map (·.1)))).map fun (p : NumF × NumF) => (p.2.1, p.1.2 ||| p.2.2)
  else x.map fun v => (v, 0)

/-- The 16-bit or 8-bit class of two operands (R275). -/
def widerClass (a b : Nat) : Nat := if a = 16 ∨ b = 16 then 16 else 8

/-- Flags of fed elements enter a tally. -/
def Tally.elements_ (y : Tally) (l : List NumF) : Tally := l.foldl (fun y (x : NumF) => y.element x.2) y

/-! ## Scores (R273, R278) -/

/-- A query row as read: its pair, its position within the entry, its values. -/
structure QRow where
  pair : Nat
  q : Nat
  x : List Num

/-- The query rows of a block (R272). -/
def readQ (r : AttnRun) (pairs : List Nat) : Exec (List QRow) :=
  Exec.collect pairs fun p => do
    let n := 128 * elemSize r.b.qFmt
    let x ← pipeUse r.t.core r.t.ctx (r.b.q.plus (p * n)) n pipeTier
    pure ⟨p, p / r.b.heads - r.e.row0, unpack (Fmt.ofCode r.b.qFmt) x 128⟩

/-- The keys of a page as they feed for queries of a format. -/
def AttnRun.keys (r : AttnRun) (rot : List Nat × Bool) (p : Page) : List (Nat × List NumF) :=
  let cls := widerClass (fmtClass r.b.qFmt) (kvClass p.rec_.kFmt)
  p.k.map fun x => (x.1, feedQk rot r.b.rope cls p.rec_.kFmt (p.rec_.firstPos + x.1) x.2)

/-- The class of the score product at a page. -/
def AttnRun.sClass (r : AttnRun) (p : Page) : Nat := widerClass (fmtClass r.b.qFmt) (kvClass p.rec_.kFmt)

/-- A query row as it feeds at a page: a plain FP8 query feeds as MXFP8 E4M3 (R275). -/
def AttnRun.qFeed (r : AttnRun) (rot : List Nat × Bool) (p : Page) (q : QRow) : List NumF :=
  feedQk rot r.b.rope (r.sClass p) (if r.b.qFmt = 3 then 2 else r.b.qFmt) (r.e.pos0 + q.q) q.x

/-- Comparisons that the checksum lanes skip in the passes of a product, in blocks of 32 rows and 32 columns (R115, R116). -/
def productSkips (cls : Nat) (rows cols : List (List Num)) : Nat :=
  let lanes (l : List (List Num)) : List (Nat × List Num) := List.zip (List.range l.length) l
  (chunks 32 rows.length rows).foldl (fun n a => (chunks 32 cols.length cols).foldl (fun n b =>
    n + skippedChecks (passChecks cls false none 0 (max (a.headD []).length (b.headD []).length) (lanes a) (lanes b) fun i j =>
      (laneSum cls (a.getD i []) (b.getD j [])).1)) n) 0

/-- The same, as a tally. -/
def skipTally (n : Nat) : Tally := { checksSkipped := n }

/-- Dimension `d` of the rows of 128 tokens. -/
def column (l : List (Nat × List Num)) (d : Nat) : List Num := (List.range 128).map fun i => (rowAt l i).getD d .zero

/-- The scaled scores of one row against a page, with its masks: S in A40, binary32 at the row engine (R194, R273). -/
def AttnRun.scores (r : AttnRun) (p : Page) (keys : List (Nat × List NumF)) (qf : List NumF) (q : Nat) : RowView × BitVec 6 :=
  let s := (List.range 128).map fun off =>
    match keys.find? fun k => k.1 == off with
    | some k =>
      let x := laneSum (r.sClass p) (qf.map (·.1)) (k.2.map (·.1))
      let y := Fmt.f32.near x.1
      (y.1, x.2 ||| y.2)
    | none => (.zero, 0)
  ({ z := scaleRow (Fmt.f32.decode r.b.scale) (r.masked p.page p.rec_ q) (s.map fun (x : NumF) => x.1)
     masked := r.masked p.page p.rec_ q },
   s.foldl (fun f (x : NumF) => f ||| x.2) 0)

/-! ## The forward pass (R273, R279) -/

/-- A row as the pipe carries it through a group: its record, and its running output. -/
structure RowRun where
  rec_ : StatRec
  o : List NumF

/-- Weights of the positions of a row: exp(z − m) in a normal row; 1 at each +∞ of an infinite row, else 0; and in a NaN row
exp(z − m) too, m being what it was, so that a NaN score weighs NaN (R273, R280, log entry 171). -/
def weights (v : RowView) (rec_ : StatRec) : Exec (List NumF) :=
  Exec.collect v.items fun x =>
    let weigh : Exec NumF := do
      let d := f32Sub x.1 rec_.a
      let e ← expOp d.1
      pure (e.1, d.2 ||| e.2)
    match rec_.cls with
    | 0 => if liveItem x then weigh else pure (.zero, 0)
    | 2 => pure (if !x.2 && x.1.isInf && !x.1.isNeg then .one else .zero, 0)
    | 3 => if x.2 then pure (.zero, 0) else weigh
    | _ => pure (.zero, 0)

/-- One row against one page: the fold, the weights as they feed, and the update of the output (R198, R275, R279, R280). -/
def forwardRow (r : AttnRun) (rot : List Nat × Bool) (p : Page) (keys : List (Nat × List NumF)) (q : QRow) (x : RowRun) :
    Exec (RowRun × List Num × Tally) := do
  let qf := r.qFeed rot p q
  let v := r.scores p keys qf q.q
  let f ← foldScaled x.rec_ v.1
  let w ← weights v.1 f.1
  let cls := widerClass 8 (kvClass p.rec_.vFmt)
  let pf := feedP cls (w.map (·.1))
  let row := v.2 ||| f.2.2 ||| v.1.scaleFlag f.1.cls ||| w.foldl (fun f (x : NumF) => f ||| x.2) 0
  let turns := f.1.cls == 2 && x.rec_.cls != 2
  let o := (List.zip x.o (List.range 128)).map fun (y : NumF × Nat) =>
    let s := laneSum cls (pf.map (·.1)) (column p.v y.2)
    let m : NumF := if turns then (.zero, 0) else Fmt.a40.mul y.1.1 f.2.1
    let a := a40Add m.1 s.1
    (a.1, y.1.2 ||| m.2 ||| s.2 ||| a.2)
  pure ({ rec_ := f.1, o := o }, pf.map (·.1), { (({} : Tally).elements_ qf).elements_ pf with flags := row ||| (({} : Tally).elements_ (qf ++ pf)).flags })

/-- The running outputs of a block: acc where the entry's state is open, else 0 (R273). -/
def readAcc (r : AttnRun) (isOpen : Bool) (pairs : List Nat) : Exec (List (List Num)) :=
  Exec.collect pairs fun p => do
    if isOpen then
      let x ← pipeUse r.t.core r.t.ctx (r.b.acc.plus (p * 512)) 512 pipeTier
      pure (unpack .f32 x 128)
    else pure (List.replicate 128 .zero)

/-- A row of running values is rounded to binary32 and written; the flags of each element. -/
def writeAcc (r : AttnRun) (a : Addr) (l : List NumF) : Exec (List (BitVec 6)) := do
  let y : List NumF := l.map fun x =>
    let v := Fmt.f32.near x.1
    (v.1, x.2 ||| v.2)
  pipeWrite r.t.core r.t.ctx a (pack .f32 (y.map (·.1))) false pipeTier
  pure (y.map (·.2))

/-- The elements of row `k` of 128 output elements of a tile, with their flags. -/
def rowElements (k : Nat) (fl : List (BitVec 6)) : List (Nat × BitVec 6) := List.zip ((List.range 128).map (128 * k + ·)) fl

/-- One row block of a forward or decode tile over the pages of a group (R273). The flags of an output element count once over all the
groups of a tile (R146). -/
def forwardBlock (r : AttnRun) (rot : List Nat × Bool) (isOpen : Bool) (pages : List (Page × List (Nat × List NumF)))
    (pairs : List Nat) : Exec Tally := do
  let qs ← readQ r pairs
  let acc ← readAcc r isOpen pairs
  let recs ← Exec.collect pairs fun p => readStat r.t.core r.t.ctx (r.b.stat + p)
  let rows := (List.zip recs acc).map fun (x : StatRec × List Num) => ({ rec_ := x.1, o := x.2.map fun v => (v, 0) } : RowRun)
  let z ← Exec.fold pages (rows, ({} : Tally)) fun z pg => do
    let l ← Exec.collect (List.zip qs z.1) fun x => forwardRow r rot pg.1 pg.2 x.1 x.2
    let skips := productSkips (r.sClass pg.1) (qs.map fun q => (r.qFeed rot pg.1 q).map (·.1)) (pg.2.map fun k => k.2.map (·.1))
      + productSkips (widerClass 8 (kvClass pg.1.rec_.vFmt)) (l.map fun x => x.2.1) ((List.range 128).map (column pg.1.v))
    pure (l.map (·.1), l.foldl (fun y x => y.add x.2.2) (z.2.add (skipTally skips)))
  Exec.each (List.zip pairs z.1) fun x => do
    storeStat r.t.core r.t.ctx (r.b.stat + x.1) x.2.rec_
    let fl ← writeAcc r (r.b.acc.plus (x.1 * 512)) x.2.o
    noteElements r.t false (rowElements x.1 fl)
  pure z.2

/-! ## The end of a row (R280, R281) -/

/-- The output row of a closing row by its class (R280). -/
def closeRow (r : AttnRun) (pair : Nat) (rec_ : StatRec) : Exec (List NumF) := do
  let o ← if rec_.cls = 0 ∨ rec_.cls = 2 then do
      let x ← pipeUse r.t.core r.t.ctx (r.b.acc.plus (pair * 512)) 512 pipeTier
      pure (unpack .f32 x 128)
    else pure []
  pure <| (List.range 128).map fun d =>
    match rec_.cls with
    | 0 => Fmt.f32.div (o.getD d .zero) rec_.b
    | 2 =>
      let x := Fmt.f32.div (o.getD d .zero) rec_.c
      (x.1, x.2 ||| fInf)
    | 1 => (.zero, 0)
    | _ => (.nan, 0)

/-- The rows of an entry close: the output is written, and the record becomes final, or empty in a decode tile
(R280, R281). -/
def closeEntry (r : AttnRun) : Exec Unit :=
  Exec.each ((List.range (r.e.nq * r.b.heads)).map (r.e.row0 * r.b.heads + ·)) fun p => do
    let rec_ ← readStat r.t.core r.t.ctx (r.b.stat + p)
    let l ← closeRow r p rec_
    let f := Fmt.ofCode r.b.outFmt
    let y : List NumF := l.map fun x =>
      let v := f.near x.1
      (v.1, x.2 ||| v.2)
    pipeWrite r.t.core r.t.ctx (r.b.out.plus (p * 128 * elemSize r.b.outFmt)) (pack f (y.map (·.1))) false pipeTier
    let z : StatRec × BitVec 6 ← if r.op = 0x43 then pure ({ rec_ with state := 0 }, 0) else rec_.finish
    storeStat r.t.core r.t.ctx (r.b.stat + p) z.1
    let t := (({} : Tally).rowClass rec_.cls false)
    addTally r.t { t with flags := t.flags ||| z.2 }
    noteElements r.t true (rowElements p (y.map (·.2)))

/-! ## The backward pass (R284, R285) -/

/-- A row of the backward pass: its query, its record, its dO row, its D, and its running dQ. -/
structure BackRow where
  q : QRow
  rec_ : StatRec
  dO : List NumF
  d : Num
  dQ : List NumF

/-- What one row gives at one page: the fed P and dS, and the fed query. -/
structure BackUse where
  p : List NumF
  dS : List NumF
  qf : List NumF

/-- P and dS of a row at a page (R284). -/
def backScores (r : AttnRun) (rot : List Nat × Bool) (pg : Page) (keys : List (Nat × List NumF)) (x : BackRow) :
    Exec BackUse := do
  let qf := r.qFeed rot pg x.q
  let v := r.scores pg keys qf x.q.q
  let s := Fmt.f32.decode r.b.scale
  let l ← Exec.collect (List.zip v.1.items (List.range 128)) fun it => do
    match x.rec_.cls with
    | 0 =>
      if liveItem it.1 then
        let d := f32Sub it.1.1 x.rec_.b
        let e ← expOp d.1
        let dp := laneSum 16 (x.dO.map (·.1)) (rowAt pg.v it.2)
        let dp32 := Fmt.f32.near dp.1
        let g := f32Sub dp32.1 x.d
        let sp := f32Mul s e.1
        let ds := f32Mul sp.1 g.1
        pure ((e.1, v.2 ||| d.2 ||| e.2), ((ds.1, dp.2 ||| dp32.2 ||| g.2 ||| sp.2 ||| ds.2) : NumF))
      else pure ((.zero, 0), ((.zero, 0) : NumF))
    | 3 => pure ((.nan, 0), ((.nan, 0) : NumF))
    | _ => pure ((.zero, 0), ((.zero, 0) : NumF))
  let pf := feedP 16 (l.map (·.1.1))
  let df := feedP (r.sClass pg) (l.map (·.2.1))
  let join (a b : List NumF) : List NumF := (List.zip a b).map fun (y : NumF × NumF) => (y.2.1, y.1.2 ||| y.2.2)
  pure ⟨join (l.map (·.1)) pf, join (l.map (·.2)) df, qf⟩

/-- A row that contributes +0 to every gradient: empty or infinite (R284). -/
def BackRow.void (x : BackRow) : Bool := x.rec_.cls == 1 || x.rec_.cls == 2

/-- The values of some rows, of zeros where a row contributes +0. -/
def voidRows (xs : List BackRow) (l : List (List NumF)) : List (List Num) :=
  (List.zip xs l).map fun (z : BackRow × List NumF) => if z.1.void then z.2.map fun _ => .zero else z.2.map (·.1)

/-- dQ of a row gains dS · K of a page (R284). -/
def backQ (r : AttnRun) (pg : Page) (u : BackUse) (x : BackRow) : BackRow :=
  { x with dQ := (List.zip x.dQ (List.range 128)).map fun (y : NumF × Nat) =>
      let s : NumF := if x.void then (.zero, 0) else laneSum (r.sClass pg) (u.dS.map (·.1)) (column pg.k y.2)
      let a := a40Add y.1.1 s.1
      (a.1, y.1.2 ||| s.2 ||| a.2) }

/-- What a row block gives to one token of a page: its dK, rotated back in binary32 with rope_en = 1, and its dV (R284). -/
def backToken (r : AttnRun) (rot : List Nat × Bool) (pg : Page) (us : List BackUse) (xs : List BackRow) (off : Nat) :
    List NumF × List NumF :=
  let ds := us.map fun u => (u.dS.getD off (.zero, 0)).1
  let ps := us.map fun u => (u.p.getD off (.zero, 0)).1
  let q := voidRows xs (us.map (·.qf))
  let o := voidRows xs (xs.map (·.dO))
  let dk := (List.range 128).map fun d => laneSum (r.sClass pg) ds (q.map fun x => x.getD d .zero)
  let dv := (List.range 128).map fun d => laneSum 16 ps (o.map fun x => x.getD d .zero)
  let dk := if r.b.rope then
      let dk := dk.map fun (x : NumF) =>
        let y := Fmt.f32.near x.1
        ((y.1, x.2 ||| y.2) : NumF)
      (List.zip dk (rotate rot.1 rot.2 (pg.rec_.firstPos + off) true (dk.map (·.1)))).map
        fun (y : NumF × NumF) => (y.2.1, y.1.2 ||| y.2.2)
    else dk
  (dk, dv)

/-- Sums element by element, the running value on the left. -/
def addRows (a b : List NumF) : List NumF :=
  (List.zip a b).map fun (x : NumF × NumF) =>
    let y := a40Add x.1.1 x.2.1
    (y.1, x.1.2 ||| x.2.2 ||| y.2)

/-- The rows of a block as the backward pass reads them (R272, R284, R285). -/
def readBack (r : AttnRun) (isOpen : Bool) (pairs : List Nat) : Exec (List BackRow) := do
  let qs ← readQ r pairs
  let dq ← readAcc r isOpen pairs
  Exec.collect (List.zip qs dq) fun x => do
    let rec_ ← readStat r.t.core r.t.ctx (r.b.stat + x.1.pair)
    let n := 128 * elemSize r.b.outFmt
    let o ← pipeUse r.t.core r.t.ctx (r.b.out.plus (x.1.pair * n)) n pipeTier
    let d ← lsFloats r.t.core r.t.ctx (r.e.dOff + 4 * (x.1.pair - r.e.row0 * r.b.heads)) 1
    pure { q := x.1, rec_ := rec_, dO := feedP 16 (unpack (Fmt.ofCode r.b.outFmt) o 128), d := d.headD .zero
           dQ := x.2.map fun v => (v, 0) }

/-- Address of the dK row of a token of a page, its dV row being 65,536 bytes further on (R285). -/
def AttnRun.dkvAt (r : AttnRun) (page off : Nat) : Addr := ⟨true, r.e.dkv + 131072 * (page - r.b.page0) + 512 * off⟩

/-- A row of 128 binary32 values in Geode. -/
def readFloats (r : AttnRun) (a : Addr) : Exec (List NumF) := do
  let x ← pipeUse r.t.core r.t.ctx a 512 pipeTier
  pure ((unpack .f32 x 128).map fun v => (v, 0))

/-- Comparisons that the checksum lanes skip in the passes of a row block against a page: S, dP, dQ, dK and dV (R115, R116). -/
def backSkips (r : AttnRun) (pg : Page) (keys : List (Nat × List NumF)) (us : List BackUse) (xs : List BackRow) : Nat :=
  let cls := r.sClass pg
  let q := us.map fun u => u.qf.map (·.1)
  let dims : List Nat := List.range 128
  let o := xs.map fun x => x.dO.map (·.1)
  let ds := us.map fun u => u.dS.map (·.1)
  let turn (l : List (List Num)) : List (List Num) := dims.map fun d => l.map fun v => v.getD d .zero
  productSkips cls q (keys.map fun k => k.2.map (·.1)) + productSkips 16 o (pg.v.map (·.2))
    + productSkips cls ds (dims.map (column pg.k)) + productSkips cls (turn ds) (turn (voidRows xs (us.map (·.qf))))
    + productSkips 16 (turn (us.map fun u => u.p.map (·.1))) (turn (voidRows xs (xs.map (·.dO))))

/-- The backward pass over a group: every row block in order, dQ committed by block, dK and dV at the end (R284, R285). -/
def backwardGroup (r : AttnRun) (rot : List Nat × Bool) (isOpen : Bool) (pages : List (Page × List (Nat × List NumF))) :
    Exec Tally := do
  let toks := pages.flatMap fun pg => pg.1.seen.map fun off => (pg, off)
  Exec.each toks fun x => do
    probeTier r.t.core r.t.ctx (r.dkvAt x.1.1.page x.2) 512 0x0241
    probeTier r.t.core r.t.ctx ((r.dkvAt x.1.1.page x.2).plus 65536) 512 0x0241
  let start ← Exec.collect toks fun x => do
    let a := r.dkvAt x.1.1.page x.2
    let k ← readFloats r a
    let v ← readFloats r (a.plus 65536)
    pure (k, v)
  let z ← Exec.fold (r.e.blocks r.b.heads) (start, ({} : Tally)) fun z pairs => do
    let xs ← readBack r isOpen pairs
    let w ← Exec.fold pages (xs, z.1, z.2) fun w pg => do
      let us ← Exec.collect w.1 fun x => backScores r rot pg.1 pg.2 x
      let rows := (List.zip us w.1).map fun (u : BackUse × BackRow) => backQ r pg.1 u.1 u.2
      let sums := (List.zip toks w.2.1).map fun x =>
        if x.1.1.1.page = pg.1.page then
          let g := backToken r rot pg.1 us w.1 x.1.2
          (addRows x.2.1 g.1, addRows x.2.2 g.2)
        else x.2
      let y := us.foldl (fun (y : Tally) u => (((y.elements_ u.qf).elements_ u.p).elements_ u.dS)) w.2.2
      pure (rows, sums, y.add (skipTally (backSkips r pg.1 pg.2 us w.1)))
    Exec.each w.1 fun x => do
      let fl ← writeAcc r (r.b.acc.plus (x.q.pair * 512)) x.dQ
      noteElements r.t true (rowElements x.q.pair fl)
    pure (w.2.1, xs.foldl (fun (y : Tally) x => y.elements_ x.dO) w.2.2)
  Exec.each (List.zip toks z.1) fun x => do
    let a := r.dkvAt x.1.1.1.page x.1.2
    let f ← writeAcc r a x.2.1
    let g ← writeAcc r (a.plus 65536) x.2.2
    let k := 2 ^ 24 * (r.t.at_.entry + 1) + 256 * (x.1.1.1.page - r.b.page0) + 2 * x.1.2
    noteElements r.t true (rowElements k f ++ rowElements (k + 1) g)
  pure z.2

/-! ## The tile (R273, R274, R282, R283) -/

/-- The contents of the tile's accumulator slots are undefined (R282). -/
def State.loseSlots (s : State) (core first n : Nat) : State :=
  let m := s.mem
  let n' := m.losses + 1
  let gone := (List.range n).map (128 * core + first + ·)
  { s with mem := { m with
      losses := n'
      acc := m.acc.filter fun e => !gone.contains (e.1 / 1024)
      accGone := gone.foldl (fun g i => SMap.put (fun _ => 0) g i n') m.accGone } }

/-- The run at an entry of a tile's table. -/
def attnRun (t : Tile) (op : Nat) (b : AttnBody) (i : Nat) : Exec AttnRun := do
  let e := seqEntry (t.table.getD i 0)
  let slot ← Exec.ask fun s => s.slot e.slot
  pure ⟨t, op, b, e, blockHdr (t.table.getD b.seqs 0), slot⟩

/-- A group whose records the tile holds is fetched, checked again and computed (R273, R274). `checkFail`: a fault of the hardware makes a
comparison of its passes fail, which stops the tile with nothing of the group written (R115 to R118, log entry 51). -/
def groupStage (r : AttnRun) (checkFail : Bool) : Exec Unit := do
  let pages := (List.zip (r.b.group_ r.t.at_.group) r.t.held).filter fun (x : Nat × Nat) => x.2 != 0
  let l ← Exec.collect pages fun x => fetchPage r x.1 (KvRec.decode (x.2 - 1))
  Exec.each l (checkVersion r)
  Exec.check (!checkFail) (.fault 0x0212 0)
  let rot ← Exec.ask fun s => s.rotary r.t
  let pk := l.map fun p => (p, r.keys rot p)
  let feeds := pk.foldl (fun (y : Tally) (x : Page × List (Nat × List NumF)) => x.2.foldl (fun y (k : Nat × List NumF) => y.elements_ k.2) y) ({} : Tally)
  let isOpen := !r.b.first || r.t.at_.fed
  let y ← if r.op = 0x42 then backwardGroup r rot isOpen pk
    else Exec.fold (r.e.blocks r.b.heads) ({} : Tally) fun y pairs => do
      let z ← forwardBlock r rot isOpen pk pairs
      pure (y.add z)
  addTally r.t (feeds.add y)

/-- One stage of an attention tile: its start; the records of the next page group; or the work of the group whose records it
holds. An entry that has none left closes when last = 1; a null entry, and one whose sequence failed, is passed over. -/
def attnStage (op : Nat) (checkFail : Bool) (t : Tile) : Exec Bool := do
  let b := attnBody t.desc
  let n := if op = 0x42 then 44 else 8
  Exec.doState fun s => s.loseSlots t.core (s.slotOf t.ctx b.slots) n
  if t.table = [] then
    attnStart t op b
    pure false
  else if b.seqs ≤ t.at_.entry then pure true
  else
    let r ← attnRun t op b t.at_.entry
    let live ← Exec.ask fun s => s.entryLive t r.e
    let next : Exec Bool := do
      putTile t fun u => { u with held := [], at_ := { u.at_ with entry := u.at_.entry + 1, group := 0, fed := false } }
      pure false
    if !live then next
    else if t.held ≠ [] then
      groupStage r checkFail
      putTile t fun u => { u with held := [], at_ := { u.at_ with group := u.at_.group + 1, fed := true } }
      pure false
    else if b.pages ≤ 2 * t.at_.group then
      if b.last && op != 0x42 then closeEntry r
      next
    else
      let l ← readGroup r (b.group_ t.at_.group)
      if l.all (· == 0) then putTile t fun u => { u with at_ := { u.at_ with group := u.at_.group + 1 } }
      else putTile t fun u => { u with held := l }
      pure false

/-- ATTN_FWD goes on by up to so many stages. -/
def execAttnFwd (core stream : Nat) (part : AttnPart) (s : State) : Host.Outcome State Fault Refusal :=
  .next (s.pipeRun 0x41 core stream (attnStage 0x41 part.checkFail) (attnStage 0x41 false) part.stages)

/-- ATTN_BWD goes on by up to so many stages. -/
def execAttnBwd (core stream : Nat) (part : AttnPart) (s : State) : Host.Outcome State Fault Refusal :=
  .next (s.pipeRun 0x42 core stream (attnStage 0x42 part.checkFail) (attnStage 0x42 false) part.stages)

/-- ATTN_DECODE goes on by up to so many stages. -/
def execAttnDecode (core stream : Nat) (part : AttnPart) (s : State) : Host.Outcome State Fault Refusal :=
  .next (s.pipeRun 0x43 core stream (attnStage 0x43 part.checkFail) (attnStage 0x43 false) part.stages)

/-! ## BUCKET_SORT (R286) -/

/-- Entry `a` goes before entry `b`: by kv_len, then by slot, then by its place in the input (log entry 34). -/
def seqBefore (a b : Nat × Nat) : Bool :=
  let x := seqEntry a.2
  let y := seqEntry b.2
  if x.kvLen ≠ y.kvLen then decide (x.kvLen < y.kvLen)
  else if x.slot ≠ y.slot then decide (x.slot < y.slot) else decide (a.1 < b.1)

/-- An entry enters a ranked list. -/
def rankInsert (a : Nat × Nat) : List (Nat × Nat) → List (Nat × Nat)
  | [] => [a]
  | b :: r => if seqBefore a b then a :: b :: r else b :: rankInsert a r

/-- The input entries are ranked and dealt into the bucket tables. -/
def bucketSortStage (t : Tile) : Exec Bool := do
  let b := sortBody t.desc
  let l ← Exec.collect (List.range b.count) fun i => do
    let r ← lsNumber t.core t.ctx (b.src + 32 * i) 32
    pure (i, r)
  Exec.check (l.all fun e => entryReserved e.2) (.fault 0x0202 0)
  let ranked := (l.filter fun e => !(seqEntry e.2).null).foldl (fun a e => rankInsert e a) []
  let n := ranked.length
  Exec.check (decide ((n + b.buckets - 1) / b.buckets ≤ 16)) (.fault 0x0207 0)
  Exec.each (List.range b.buckets) fun k => do
    let lo := k * n / b.buckets
    let mine := (ranked.drop lo).take ((k + 1) * n / b.buckets - lo)
    Exec.each (List.range 16) fun i =>
      writeMem t.core t.ctx ⟨false, b.dst + 512 * k + 32 * i⟩ (leBytes 32 ((mine.map (·.2)).getD i 0)) false
  pure true

def execBucketSort (core stream : Nat) (s : State) : Host.Outcome State Fault Refusal :=
  .next (s.pipeRun 0x44 core stream bucketSortStage bucketSortStage 1)

/-! ## SEQ_DONE (R289) -/

/-- The sequence completes with end_code. A sequence that has failed has completed already, with its status; a slot that is free
does nothing. -/
def seqDoneStage (t : Tile) : Exec Bool := do
  let q := fieldAt t.desc 16 0 7
  let e ← Exec.ask fun s => s.slot q
  if e.valid = false then pure true
  else
    Exec.check (e.ctx == t.ctx) (.fault 0x0505 0)
    Exec.check e.decode (.fault 0x0207 0)
    Exec.doState fun s =>
      if s.host.compls.any fun x => x.slot == some q then s else s.postSequence q e.seqStatus (if e.status = 0 then fieldAt t.desc 20 0 32 else 0)
    pure true

def execSeqDone (core stream : Nat) (s : State) : Host.Outcome State Fault Refusal :=
  .next (s.pipeRun 0x45 core stream seqDoneStage seqDoneStage 1)

end Sys2Proof.Machine
end

