-- ==== Sys2Proof/Machine/Crypto.lean ====
section
/-! DEFINITION. SHA-512 (FIPS 180-4) and Ed25519 (RFC 8032), as R511, R518 and R523 to R525 use them. -/

namespace Sys2Proof.Machine

/-! ## SHA-512 -/

/-- The primes below 410: there are 80. -/
def shaPrimes : List Nat :=
  (List.range 410).filter fun n => decide (2 ≤ n) && ([2, 3, 5, 7, 11, 13, 17, 19] : List Nat).all fun d => n % d != 0 || n == d

/-- The greatest number of `b` bits above `r` whose `k`-th power is at most `n`. -/
def rootFloor (k n : Nat) : Nat → Nat → Nat
  | 0, r => r
  | b + 1, r => rootFloor k n b (if (r + 2 ^ b) ^ k ≤ n then r + 2 ^ b else r)

/-- The first 64 bits of the fraction of the `k`-th root of a prime. -/
def rootFraction (k p : Nat) : BitVec 64 := BitVec.ofNat 64 (rootFloor k (p * 2 ^ (64 * k)) 70 0)

/-- The round constants come from the cube roots of the first 80 primes, the initial hash value from the square roots of the first 8. -/
def shaK : List (BitVec 64) := shaPrimes.map (rootFraction 3)
def shaH0 : List (BitVec 64) := (shaPrimes.take 8).map (rootFraction 2)

/-- Eight bytes as a big-endian word. -/
def beWord (l : List Byte) : BitVec 64 := BitVec.ofNat 64 (leNat l.reverse)

/-- The padded message: a 1 bit, zeros, and the length in bits as 128 bits. -/
def shaPad (m : List Byte) : List Byte :=
  let n := m.length
  m ++ [0x80#8] ++ List.replicate ((239 - n % 128) % 128) 0 ++ (leBytes 16 (8 * n)).reverse

/-- Consecutive pieces of `k` elements. -/
def pieces {α : Type} (k : Nat) : Nat → List α → List (List α)
  | 0, _ => []
  | _, [] => []
  | n + 1, l => l.take k :: pieces k n (l.drop k)

/-- A word xored with itself in several rotations. -/
def rotMix (x : BitVec 64) (l : List Nat) : BitVec 64 := l.foldl (fun y n => y ^^^ x.rotateRight n) 0

/-- One round with its constant: the eight working variables and the next 16 words of the message schedule, each moved on by one. -/
def shaRound (z : List (BitVec 64) × List (BitVec 64)) (k : BitVec 64) : List (BitVec 64) × List (BitVec 64) :=
  let var (i : Nat) : BitVec 64 := z.1.getD i 0
  let word (i : Nat) : BitVec 64 := z.2.getD i 0
  let choice := var 6 ^^^ (var 4 &&& (var 5 ^^^ var 6))
  let most := (var 0 &&& (var 1 ||| var 2)) ||| (var 1 &&& var 2)
  let t := k + word 0 + var 7 + choice + rotMix (var 4) [14, 18, 41]
  let vars := (t + most + rotMix (var 0) [28, 34, 39]) :: z.1.take 7
  let new := word 0 + (rotMix (word 1) [1, 8] ^^^ word 1 >>> 7) + word 9 + (rotMix (word 14) [19, 61] ^^^ word 14 >>> 6)
  (vars.set 4 (var 3 + t), z.2.drop 1 ++ [new])

/-- The hash value after one block of 128 bytes. -/
def shaBlock (h : List (BitVec 64)) (b : List Byte) : List (BitVec 64) :=
  let r := shaK.foldl shaRound (h, (pieces 8 16 b).map beWord)
  (List.range 8).map fun i => h.getD i 0 + r.1.getD i 0

/-- SHA-512: 64 bytes. -/
def sha512 (m : List Byte) : List Byte :=
  let p := shaPad m
  ((pieces 128 (p.length / 128) p).foldl shaBlock shaH0).flatMap fun w => (leBytes 8 w.toNat).reverse

/-! ## Ed25519 -/

/-- The field prime, the order of the group, and the curve constant. -/
def edP : Nat := 2 ^ 255 - 19
def edL : Nat := 2 ^ 252 + 27742317777372353535851937790883648493
def edD : Nat := 37095705934669439343138083508754565189542113879843219016388785533085940283555

/-- Power modulo the prime: `bits` bits of the exponent, from the top down. -/
def edPow (b e : Nat) : Nat → Nat
  | 0 => 1
  | n + 1 =>
    let r := edPow b (e / 2) n
    if e % 2 = 1 then r * r % edP * b % edP else r * r % edP

/-- The inverse modulo the prime. -/
def edInv (x : Nat) : Nat := edPow (x % edP) (edP - 2) 255

/-- A point in extended coordinates. -/
structure EdPoint where
  x : Nat
  y : Nat
  z : Nat
  t : Nat

/-- The neutral element and the base point. -/
def edZero : EdPoint := ⟨0, 1, 1, 0⟩
def edBase : EdPoint :=
  let x := 15112221349535400772501151409588531511454012693041857206046113283949847762202
  let y := 46316835694926478169428394003475163141307993866256225615783033603165251855960
  ⟨x, y, 1, x * y % edP⟩

/-- A difference modulo the prime. -/
def edSub (a b : Nat) : Nat := (a + edP - b % edP) % edP

/-- The sum of two points (RFC 8032, 5.1.4). -/
def EdPoint.add (p q : EdPoint) : EdPoint :=
  let a := edSub p.y p.x * edSub q.y q.x % edP
  let b := (p.y + p.x) * (q.y + q.x) % edP
  let c := p.t * 2 * edD % edP * q.t % edP
  let d := p.z * 2 * q.z % edP
  let e := edSub b a
  let f := edSub d c
  let g := (d + c) % edP
  let h := (b + a) % edP
  ⟨e * f % edP, g * h % edP, f * g % edP, e * h % edP⟩

/-- A multiple of a point: `n` bits of the scalar. -/
def edMul (k : Nat) (p : EdPoint) : Nat → EdPoint
  | 0 => edZero
  | n + 1 =>
    let r := edMul (k / 2) p n
    let r := r.add r
    if k % 2 = 1 then r.add p else r

/-- Two points are equal. -/
def EdPoint.same (p q : EdPoint) : Bool :=
  p.x * q.z % edP == q.x * p.z % edP && p.y * q.z % edP == q.y * p.z % edP

/-- The 32 bytes of a point, as a number (RFC 8032, 5.1.2). -/
def EdPoint.encode (p : EdPoint) : Nat :=
  let i := edInv p.z
  p.y * i % edP + p.x * i % edP % 2 * 2 ^ 255

/-- The point that a number of 32 bytes encodes (RFC 8032, 5.1.3). -/
def edDecode (n : Nat) : Option EdPoint :=
  let y := n % 2 ^ 255
  let sign := n / 2 ^ 255 % 2
  if edP ≤ y then none
  else
    let u := edSub (y * y) 1
    let v := (edD * (y * y % edP) + 1) % edP
    let x2 := u * edInv v % edP
    let r := edPow x2 ((edP + 3) / 8) 255
    let r := if r * r % edP = x2 then r else r * edPow 2 ((edP - 1) / 4) 255 % edP
    if r * r % edP ≠ x2 then none
    else if r = 0 ∧ sign = 1 then none
    else
      let x := if r % 2 = sign then r else edP - r
      some ⟨x, y, 1, x * y % edP⟩

/-- A hash as a number, first byte least significant. -/
def shaNat (m : List Byte) : Nat := leNat (sha512 m)

/-- The pruned scalar and the prefix of a 32-byte seed (RFC 8032, 5.1.5). -/
def edSecret (seed : List Byte) : Nat × List Byte :=
  let h := sha512 seed
  let a := leNat (h.take 32)
  (a % 2 ^ 254 / 8 * 8 + 2 ^ 254, h.drop 32)

/-- The public key of a seed, as 32 bytes. -/
def edPublic (seed : List Byte) : List Byte := leBytes 32 (edMul (edSecret seed).1 edBase 256).encode

/-- The signature of a message: 64 bytes (RFC 8032, 5.1.6). -/
def edSign (seed m : List Byte) : List Byte :=
  let k := edSecret seed
  let r := shaNat (k.2 ++ m) % edL
  let rb := leBytes 32 (edMul r edBase 256).encode
  let h := shaNat (rb ++ edPublic seed ++ m) % edL
  rb ++ leBytes 32 ((r + h * k.1) % edL)

/-- A signature verifies under a public key (RFC 8032, 5.1.7). -/
def edVerify (key sig m : List Byte) : Bool :=
  let s := leNat ((sig.drop 32).take 32)
  match edDecode (leNat key), edDecode (leNat (sig.take 32)) with
  | some a, some r =>
    let h := shaNat (sig.take 32 ++ key ++ m) % edL
    decide (s < edL) && (edMul 8 (edMul s edBase 256) 4).same (edMul 8 (r.add (edMul h a 256)) 4)
  | _, _ => false

end Sys2Proof.Machine
end

