-- ==== Sys2Proof/Machine/Hub.lean ====
section
/-! DEFINITION. Accesses of the hub for a context: it walks the context's tables for each granule that it reads or writes
(R229, R307). -/

namespace Sys2Proof.Machine

/-- The walk that serves the hub for a context: the walker of the first slab of the context's quarry makes it (log entry 9). -/
def State.hubWalk (s : State) (c va : Nat) : Except Nat Leaf × State :=
  s.walk (some (walkUnit ((slabsOf s.modeOf (s.ctxQuarry c)).headD 0))) c va

/-- The leaf that translates an address for the hub (R229, R250). -/
def hubLeaf (c va : Nat) (write : Bool) : Exec Leaf := do
  let va := va % 2 ^ 48
  match windowOf va with
  | some q => Exec.check (← Exec.ask fun s => s.slotOwned q c) (.fault 0x0505 0)
  | none => pure ()
  match (← Exec.ofState fun s => s.hubWalk c va) with
  | .error e => Exec.stop (.fault e 0)
  | .ok l =>
    Exec.check (!write || l.write) (.fault 0x0102 0)
    pure l

/-- The physical address of a context virtual address. -/
def hubTranslate (c va : Nat) (write : Bool) : Exec Nat := do
  let l ← hubLeaf c va write
  pure (l.pa + (va % 2 ^ 48 - l.va))

/-- A read that tells of poison: the bytes, and the address of the first poisoned granule. -/
def hubTell (c va n : Nat) (tier : Option Nat := none) : Exec (List Byte × Option Nat) := do
  let l ← Exec.collect (granPieces (pieceFuel n) va n) fun p => do
    let pa ← hubTranslate c (va + p.1) false
    tierCheck tier pa
    let r ← Exec.ofState fun s => s.readGran pa
    pure ((r.1.drop (pa % 64)).take p.2, r.2, granOf pa * 64)
  pure (l.flatMap (·.1), (l.find? (·.2.1)).map (·.2.2))

/-- A read that consumes poison (R456). -/
def hubUse (c va n : Nat) (tier : Option Nat := none) : Exec (List Byte) := do
  let r ← hubTell c va n tier
  match r.2 with
  | some pa => Exec.stop (.fault 0x0120 pa)
  | none => pure r.1

/-- A write, granule by granule, with the poison of its source. -/
def hubWrite (c va : Nat) (b : List Byte) (poisoned : Bool) (tier : Option Nat := none) : Exec Unit :=
  Exec.each (granPieces (pieceFuel b.length) va b.length) fun p => do
    let pa ← hubTranslate c (va + p.1) true
    tierCheck tier pa
    storePhys pa ((b.drop p.1).take p.2) poisoned

end Sys2Proof.Machine
end

