-- ==== Sys2Proof/Machine/Whetstone.lean ====
section
/-! DEFINITION. Whetstone: parameter updates beside each memory stack, the step record, version stamps and leases
(chapter Backward Pass, Whetstone and Parameter Versions). -/

namespace Sys2Proof.Machine

/-! ## Op lists (R316 to R320) -/

/-- A micro-operation (R317). -/
structure WsOp where
  op : Nat
  dst : Nat
  sa : Nat
  sb : Nat
  sc : Nat
  reserved : Nat
  kidx : Nat
  imm : Nat

def wsOp (w : Nat) : WsOp :=
  { op := bits w 56 8, dst := bits w 52 4, sa := bits w 48 4, sb := bits w 44 4, sc := bits w 40 4, reserved := bits w 36 4
    kidx := bits w 32 4, imm := bits w 0 32 }

/-- Operands that an operation uses; none for a reserved one (R319). -/
def wsArity : Nat → Option Nat
  | 0x01 | 0x02 | 0x03 | 0x05 | 0x06 => some 2
  | 0x04 | 0x0B => some 3
  | 0x07 | 0x08 | 0x09 | 0x0C | 0x12 | 0x13 | 0x14 | 0x30 => some 1
  | _ => none

/-- The program of an op list: its words up to the first that is 0 (log entry 37). -/
def wsProgram (lists : List Byte) (n : Nat) : List WsOp :=
  (((List.range 24).map fun i => leNat ((lists.drop (192 * n + 8 * i)).take 8)).takeWhile (· != 0)).map wsOp

/-- Selectors that an operation uses. -/
def WsOp.sels (o : WsOp) : List Nat := [o.sa, o.sb, o.sc].take ((wsArity o.op).getD 0)

/-- The check of a program against a descriptor's modes: none, or the code of the fault (R318, R320, R332). -/
def wsCheck (b : WsBody) (p : List WsOp) : Option Nat :=
  if p.any fun o => (wsArity o.op).isNone then some 0x0201
  else if p.any fun o => o.reserved != 0 || ([o.sa, o.sb, o.sc].drop ((wsArity o.op).getD 0)).any (· != 0) then some 0x0202
  else if p.any (fun o => decide (0xA < o.dst) || (o.dst == 9 && b.s1 == 0) || (o.dst == 0xA && b.s2 == 0)
      || o.sels.any fun x => (x == 0xA && b.s1 == 0) || (x == 0xB && b.s2 == 0)) || !(p.any fun o => o.dst == 8) then some 0x0207
  else none

/-- √a, correctly rounded (R319). -/
def sqrtOp (a : Num) : NumF :=
  match a with
  | .nan => (.nan, 0)
  | .inf false => (.inf false, fInf)
  | .inf true => (.nan, fInf ||| fNan)
  | .fin s m e =>
    if m = 0 then (a, 0)
    else if s then (.nan, fNan)
    else
      let x := (if e % 2 = 0 then m else 2 * m) * 2 ^ 128
      let r := isqrt x
      let g := if e % 2 = 0 then e else e - 1
      Fmt.f32.near (.fin false (2 * r + (if r * r = x then 0 else 1)) (g / 2 - 65))

/-- SIGN (R319). -/
def signOp (a : Num) : NumF :=
  match a with
  | .nan => (.nan, 0)
  | .inf s => (.fin s 1 0, fInf)
  | .fin s m e => (if m = 0 then .fin s m e else .fin s 1 0, 0)

/-- A lane of a unit: temporaries, outputs and flags. -/
structure WsLane where
  t : List Num := List.replicate 8 .zero
  m : Option Num := none
  s1 : Option Num := none
  s2 : Option Num := none
  fl : BitVec 6 := 0

/-- What the lanes of a granule read. -/
structure WsIn where
  g : List Num
  m : List Num
  s1 : List Num
  s2 : List Num
  p : List Num
  k : List Num
  kappa : Num

/-- The value of a selector in lane `l` (R318). -/
def wsValue (x : WsIn) (o : WsOp) (l : Nat) (e : WsLane) (sel : Nat) : Num :=
  match sel with
  | 0x8 => x.g.getD l .zero
  | 0x9 => x.m.getD l .zero
  | 0xA => x.s1.getD l .zero
  | 0xB => x.s2.getD l .zero
  | 0xC => x.p.getD l .zero
  | 0xD => x.k.getD o.kidx .zero
  | 0xE => x.kappa
  | 0xF => Fmt.f32.decode o.imm
  | n => e.t.getD n .zero

/-- One operation in one lane (R319). -/
def wsOne (op : Nat) (a b c : Num) : Exec NumF :=
  match op with
  | 0x01 => pure (Fmt.f32.add a b)
  | 0x02 => pure (Fmt.f32.sub a b)
  | 0x03 => pure (Fmt.f32.mul a b)
  | 0x04 => pure (Fmt.f32.fma a b c)
  | 0x05 => pure (numMin a b)
  | 0x06 => pure (numMax a b)
  | 0x08 => pure (a.abs, 0)
  | 0x09 => pure (a.neg, 0)
  | 0x0B => pure (if a.eqv .zero then c else b, 0)
  | 0x0C => pure (signOp a)
  | 0x12 => rcpOp a
  | 0x13 => rsqrtOp a
  | 0x14 => pure (sqrtOp a)
  | _ => pure (a, 0)

/-- A lane takes a result. -/
def WsLane.take (e : WsLane) (dst : Nat) (v : NumF) : WsLane :=
  let e := { e with fl := e.fl ||| v.2 }
  match dst with
  | 0x8 => { e with m := some v.1 }
  | 0x9 => { e with s1 := some v.1 }
  | 0xA => { e with s2 := some v.1 }
  | n => { e with t := e.t.set n v.1 }

/-- One operation over the 32 lanes of a granule. -/
def wsStep (x : WsIn) (o : WsOp) (es : List WsLane) : Exec (List WsLane) := do
  let lanes := List.zip es (List.range 32)
  if o.op = 0x30 then
    let s := treeSum Fmt.f32.add 5 (lanes.map fun (e : WsLane × Nat) => wsValue x o e.2 e.1 o.sa)
    pure (es.map fun e => e.take o.dst s)
  else
    Exec.collect lanes fun e => do
      let v (sel : Nat) : Num := wsValue x o e.2 e.1 sel
      let r ← wsOne o.op (v o.sa) (v o.sb) (v o.sc)
      pure (e.1.take o.dst r)

/-! ## Granules and blocks (R306, R307, R321, R322) -/

/-- Bytes at a physical address; a poisoned granule is consumed (R330). -/
def physUse (pa n : Nat) : Exec (List Byte) := do
  let l ← Exec.collect (granPieces (pieceFuel n) pa n) fun p => do
    let r ← Exec.ofState fun s => s.readGran (pa + p.1)
    Exec.check (!r.2) (.fault 0x0120 (granOf (pa + p.1) * 64))
    pure ((r.1.drop ((pa + p.1) % 64)).take p.2)
  pure l.flatten

/-- Bytes written at a physical address. -/
def physWrite (pa : Nat) (b : List Byte) : Exec Unit :=
  Exec.each (granPieces (pieceFuel b.length) pa b.length) fun p => storePhys (pa + p.1) ((b.drop p.1).take p.2) false

/-- A moment array of a granule: none, binary32, bfloat16, or one binary32 for all lanes. -/
def readMoment (mode pa : Nat) : Exec (List Num) :=
  match mode with
  | 0 => pure []
  | 1 => do pure (unpack .f32 (← physUse pa 128) 32)
  | 2 => do pure (unpack .bf16 (← physUse pa 64) 32)
  | _ => do pure (List.replicate 32 (Fmt.f32.decode (leNat (← physUse pa 4))))

/-- A moment array as it is written; what was not written stays (R320, R321). -/
def writeMoment (mode pa : Nat) (l : List (Option Num)) : Exec (List (BitVec 6)) := do
  match l.mapM id, mode with
  | none, _ => pure []
  | some _, 0 => pure []
  | some v, 1 =>
    physWrite pa (pack .f32 v)
    pure []
  | some v, 2 =>
    let y := v.map Fmt.bf16.near
    physWrite pa (pack .bf16 (y.map (·.1)))
    pure (y.map (·.2))
  | some v, _ =>
    physWrite pa (pack .f32 (v.take 1))
    pure []

/-- The sums of a unit, in A40 (R322). -/
structure Sums where
  w : Num := .zero
  g : Num := .zero
  u : Num := .zero

/-- The squares of a granule, by a balanced tree (R322). -/
def squares (l : List Num) : Num := (treeSum a40Add 5 (l.map fun x => (Fmt.a40.mul x x).1)).1

/-- What the unit works with at a block. -/
structure WsRun where
  b : WsBody
  prog : List WsOp
  k : List Num
  kappa : Num
  key : DrawKey

/-- One granule of 32 parameters: read, run, written back (R318 to R322). `pa` is the block's address, `blk` its number. -/
def wsGranule (r : WsRun) (pa blk g : Nat) (y : Tally × Sums) : Exec (Tally × Sums) := do
  let o := r.b.layout
  let z := r.b.sizes
  let at_ (i : Nat) : Nat := pa + o.getD i 0 + z.getD i 0 * g
  let pf := if r.b.f16 then Fmt.f16 else Fmt.bf16
  let gv ← if r.b.gHalf then do pure (unpack .bf16 (← physUse (at_ 2) 64) 32) else do pure (unpack .f32 (← physUse (at_ 2) 128) 32)
  let mv ← physUse (at_ 1) 128
  let s1 ← readMoment r.b.s1 (at_ 3)
  let s2 ← readMoment r.b.s2 (at_ 4)
  let p ← if r.prog.any fun q => q.sels.contains 0xC then do pure (unpack pf (← physUse (at_ 0) 64) 32) else pure []
  let m := unpack .f32 mv 32
  let x : WsIn := ⟨gv, m, s1, s2, p, r.k, r.kappa⟩
  let es ← Exec.fold r.prog (List.replicate 32 ({} : WsLane)) fun es op => wsStep x op es
  let m' := es.map fun e => e.m.getD .zero
  physWrite (at_ 1) (pack .f32 m')
  let f1 ← writeMoment r.b.s1 (at_ 3) (es.map (·.s1))
  let f2 ← writeMoment r.b.s2 (at_ 4) (es.map (·.s2))
  let pn := (List.zip m' (List.range 32)).map fun (v : Num × Nat) =>
    pf.convert (rndOf r.key true (blk * 32 * r.b.gpb + 32 * g + v.2)) v.1
  physWrite (at_ 0) (pack pf (pn.map (·.1)))
  let t := (List.zip es (List.range 32)).foldl (fun (t : Tally) (e : WsLane × Nat) =>
    t.written (e.1.fl ||| f1.getD e.2 0 ||| f2.getD e.2 0 ||| (pn.getD e.2 (.zero, 0)).2)) y.1
  let du := (List.zip m' m).map fun (v : Num × Num) => (a40Add v.1 v.2.neg).1
  pure (t, { w := (a40Add y.2.w (squares m')).1, g := (a40Add y.2.g (squares gv)).1, u := (a40Add y.2.u (squares du)).1 })

/-- The Whetstone unit beside the stack of an address (R4, R209, R210, R306). -/
def State.wsUnit (s : State) (pa : Nat) : Option Nat := (s.place pa).channel.map (· / 16)

/-- A block translates through a large leaf to main memory, on a stack whose unit is in service (R307, R330, R332). -/
def wsBlock (c va : Nat) (update : Bool) : Exec (Nat × Nat) := do
  Exec.check (decide (va % 32768 = 0)) (.fault 0x0251 0)
  let l ← hubLeaf c va true
  let pa := l.pa + (va - l.va)
  match (← Exec.ask fun s => s.wsUnit pa) with
  | none => Exec.stop (.fault 0x0251 pa)
  | some u =>
    Exec.check (decide (2 ^ 21 ≤ l.size)) (.fault 0x0251 pa)
    Exec.check (!(update && (← Exec.ask fun s => s.whetstoneFenced u))) (.fault 0x0257 pa)
    pure (pa, u)

/-! ## Accepting an update (R300, R311, R312, R315, R332) -/

/-- κ (R312). -/
def clipFactor (b : WsBody) (gsq k11 : Num) : Num :=
  if b.clip && !gsq.isZero then (numMin .one (Fmt.f32.div k11 (sqrtOp gsq).1).1).1 else .one

/-- The outcome by the step record: 0 Repeat, 1 Skip, 2 Update (R311). -/
def wsOutcome (b : WsBody) (rec_ : List Num) : Nat :=
  let cell (i : Nat) : Num := rec_.getD i .zero
  if Num.zero.lt (cell 6) then 0
  else if !(cell 0).isFinite || (List.range 5).any fun i => bit b.skip i && Num.zero.lt (cell (i + 1)) then 1
  else 2

/-- bwd_mode of a layer (R298). -/
def Ctx.bwdMode (x : Ctx) (layer : Nat) : Nat := bits (leNat ((x.layerTable.drop (16 * layer)).take 1)) 0 2

/-- The hub accepts a WS_UPDATE: its checks, its records, its outcome (R311, R315, R332). -/
def wsAccept (q : QEntry) (b : WsBody) : Exec WsJob := do
  let c := q.ctx
  let sh ← Exec.ask fun s => s.shard c b.shard
  let x ← Exec.ask fun s => s.ctxAt c
  Exec.check (!x.frozen sh.layer) (.fault 0x0252 0)
  Exec.check (sh.state == (if b.first then 0 else 2)) (.fault 0x0256 0)
  match wsCheck b (wsProgram x.opLists b.list) with
  | some code => Exec.stop (.fault code 0)
  | none => pure ()
  let st ← hubUse c b.step 64 (some 0x0207)
  let sc ← hubUse c b.scal 64 (some 0x0207)
  let rec_ := unpack .f32 st 16
  let k := unpack .f32 sc 16
  let out := wsOutcome b rec_
  Exec.each (List.range b.blocks) fun i => do
    let _ ← wsBlock c (b.blk + 32768 * i) (out == 2)
  pure { id := q.id, core := q.core, ctx := c, shard := b.shard, outcome := out
         kappa := Fmt.f32.encode (clipFactor b (rec_.getD 0 .zero) (k.getD 11 .zero)), scalars := leNat sc }

/-- The ordinal of a descriptor at a unit, and the count after it (R321, R589). -/
def State.wsOrdinal (s : State) (n : Nat) : Nat × State :=
  let now := (s.quarry 0).ticks
  let o := SMap.get (fun _ => (0, 0)) s.core.ordinals (1000 + n)
  let k := if o.1 = now then o.2 else 0
  (k, { s with core := { s.core with ordinals := SMap.put (fun _ => (0, 0)) s.core.ordinals (1000 + n) (now, k + 1) } })

/-- The blocks of an Update, each at its unit (R306, R315, R321). -/
def wsBlocks (q : QEntry) (j : WsJob) (b : WsBody) : Exec WsJob := do
  let x ← Exec.ask fun s => s.ctxAt q.ctx
  let stratum ← Exec.ask fun s => s.countOf q.ctx
  let k := unpack .f32 (leBytes 64 j.scalars) 16
  let places ← Exec.collect (List.range b.blocks) fun i => wsBlock q.ctx (b.blk + 32768 * i) true
  let units := (List.range 32).filter fun u => places.any fun p => p.2 == u
  let r ← Exec.collect units fun u => do
    let o ← Exec.ofState fun s => s.wsOrdinal u
    let run : WsRun :=
      { b := b, prog := wsProgram x.opLists b.list, k := k, kappa := Fmt.f32.decode j.kappa
        key := { seed := x.seed, source := 160 + u, ordinal := o, stratum := stratum, kind := 2, ctx := q.ctx } }
    let mine := (List.zip places (List.range b.blocks)).filter fun (p : (Nat × Nat) × Nat) => p.1.2 == u
    let y ← Exec.fold mine (({} : Tally), ({} : Sums)) fun y p =>
      Exec.fold (List.range b.gpb) y fun y g => wsGranule run p.1.1 p.2 g y
    let e : Num → Nat := Fmt.a40.encode
    pure (y.1, (u, e y.2.w, e y.2.g, e y.2.u))
  pure { j with tally := r.foldl (fun t e => t.add e.1) {}, norms := r.map (·.2) }

/-- The state with an accepted update replaced. -/
def State.setWsJob (s : State) (j : WsJob) : State :=
  { s with ws := { s.ws with jobs := s.ws.jobs.map fun x => if x.id = j.id then j else x } }

/-- A class 0x8 descriptor ends in a fault of its context. -/
def State.wsFault (s : State) (q : QEntry) (code phys : Nat) : State :=
  let s := { s with core := { s.core with wsq := s.core.wsq.filter fun x => x.id != q.id } }
  s.raiseCtx { code := code, core := some q.core, phys := phys, tileId := BitVec.ofNat 32 (dTileId q.desc)
               layerTag := BitVec.ofNat 16 (dLayerTag q.desc) } q.ctx

/-- An accepted update whose shard is in state updating treats its blocks; a block on a protected page waits (R315, R331). -/
def State.wsGo (s : State) (q : QEntry) (j : WsJob) : State :=
  if j.ran ∨ (s.shard j.ctx j.shard).state ≠ 2 then s
  else if j.outcome ≠ 2 then s.setWsJob { j with ran := true }
  else match (wsBlocks q j (wsBody q.desc)) s with
    | (.ok j', s') => s'.setWsJob { j' with ran := true }
    | (.error (.fault code phys), s') => s'.wsFault q code phys
    | (.error _, _) => s

/-- A class 0x8 descriptor of a core in the Whetstone queue. -/
def State.wsEntry (s : State) (core id op : Nat) : Option QEntry :=
  s.core.wsq.find? fun q => q.core == core && q.id == id && dOpcode q.desc == op

/-- A shard whose leases read 0 leaves draining (R315, R327). -/
def State.drain (s : State) (c n : Nat) : State :=
  let x := s.shard c n
  if x.state = 1 ∧ x.leases = 0 then s.setShard c n { x with state := 2 } else s

/-- WS_UPDATE: the hub accepts the descriptor, decides its outcome, and lets its blocks run once the shard is updating
(R311, R315). -/
def wsUpdate (core id : Nat) (s : State) : State :=
  match s.wsEntry core id 0x81 with
  | none => s
  | some q =>
    match s.ws.jobs.find? fun j => j.id == id with
    | some j => s.wsGo q j
    | none =>
      let b := wsBody q.desc
      match (wsAccept q b) s with
      | (.ok j, s') =>
        let x := { s'.shard q.ctx b.shard with pFmt := some (BitVec.ofNat 1 (b2n b.f16)) }
        let s' := if b.first then
            (s'.setShard q.ctx b.shard { x with state := 1, drainAt := s'.ticksOf q.ctx }).setFld Fld.fosUpdated 1
          else s'.setShard q.ctx b.shard x
        let s' := s'.drain q.ctx b.shard
        { s' with ws := { s'.ws with jobs := s'.ws.jobs ++ [j] } }.wsGo q j
      | (.error (.fault code phys), s') => s'.wsFault q code phys
      | (.error _, _) => s

def execWsUpdate (core id : Nat) (s : State) : Host.Outcome State Fault Refusal := .next (wsUpdate core id s)

/-- SHARD_DRAIN_COMPLETE: the leases of a draining shard have reached 0, and the updates that wait on it run (R315, R327). -/
def shardDrainComplete (at_ ctx shard : Nat) (s : State) : State :=
  let s := s.advanceTo at_
  if (s.shard ctx shard).state = 1 ∧ (s.shard ctx shard).leases = 0 then
    let s := s.drain ctx shard
    (s.ws.jobs.filter fun j => j.ctx == ctx && j.shard == shard).foldl (fun s j =>
      match s.wsEntry j.core j.id 0x81 with
      | some q => s.wsGo q j
      | none => s) s
  else s

def execShardDrainComplete (at_ ctx shard : Nat) (s : State) : Host.Outcome State Fault Refusal :=
  .next (shardDrainComplete at_ ctx shard s)

/-! ## Writing back (R315, R322, R323) -/

/-- Entry `i` of the norm table of a context. -/
def State.norm (s : State) (c i : Nat) : Norm := SMap.get (fun _ => {}) s.ws.norms (4096 * c + i)

/-- The state with a norm table entry replaced. -/
def State.setNorm (s : State) (c i : Nat) (n : Norm) : State :=
  { s with ws := { s.ws with norms := SMap.put (fun _ => {}) s.ws.norms (4096 * c + i) n } }

/-- The sum of a binary32 pattern and an A40 pattern rounded to binary32. -/
def normAdd (old sum : Nat) : Nat :=
  Fmt.f32.encode (Fmt.f32.add (Fmt.f32.decode old) (Fmt.f32.near (Fmt.a40.decode sum)).1).1

/-- Each unit's sums enter the norm table (R322). -/
def State.addNorms (s : State) (j : WsJob) (tag : Nat) : State :=
  j.norms.foldl (fun s (u : Nat × Nat × Nat × Nat) =>
    let n := s.norm j.ctx (teleIndex tag)
    s.setNorm j.ctx (teleIndex tag)
      { n with sqW := normAdd n.sqW u.2.1, sqG := normAdd n.sqG u.2.2.1, sqU := normAdd n.sqU u.2.2.2 }) s

/-- A saturating 16-bit count. -/
def sat16 (n : Nat) : Nat := min n 0xFFFF

/-- The shards of the layers that are not frozen are stable at one version (R482). -/
def State.shardsAgree (s : State) (c : Nat) : Bool := s.liveShards c == [] || (s.stepVersion c).isSome

/-- The shard's step is over: it is stable, and its version has advanced unless the step repeats (R311, R315). The step's seal
ends when every shard stands at one version again (log entry 35). -/
def State.closeShard (s : State) (c n outcome : Nat) : State :=
  let x := s.shard c n
  let s := s.setShard c n { x with state := 0, closing := 0, version := if outcome = 0 then x.version else x.version + 1 }
  if s.shardsAgree c then s.setCtx c { s.ctxAt c with sealed_ := false } else s

/-- A shard after one of its updates has written back (R315). -/
def State.afterUpdate (s : State) (j : WsJob) (last : Bool) (tag : Nat) : State :=
  let others := s.ws.jobs.any fun x => x.ctx == j.ctx && x.shard == j.shard
  let x := s.shard j.ctx j.shard
  let s := if last then
      let n := s.norm j.ctx (teleIndex tag)
      if j.outcome = 2 then s.setNorm j.ctx (teleIndex tag) { n with updates := sat16 (n.updates + 1) }
      else if j.outcome = 1 then s.setNorm j.ctx (teleIndex tag) { n with skips := sat16 (n.skips + 1) }
      else s
    else s
  let closing := if last then j.outcome + 1 else x.closing
  if closing = 0 then s
  else if others then s.setShard j.ctx j.shard { x with closing := closing }
  else s.closeShard j.ctx j.shard (closing - 1)

/-- Flags of work that is no tile are absorbed; a trapped flag discards the signal and faults the context (R147 to R149). -/
def State.finishEntry (s : State) (q : QEntry) (t : Tally) : State :=
  let s := s.absorb q.ctx q.core q.stream (dLayerTag q.desc) t false false
  match trapCode (s.ctxAt q.ctx).trapMask t.flags with
  | some code =>
    s.raiseCtx { code := code, core := some q.core, flags := t.flags, tileId := BitVec.ofNat 32 (dTileId q.desc),
                 layerTag := BitVec.ofNat 16 (dLayerTag q.desc) } q.ctx
  | none => s.signalHeader q.ctx q.core q.desc

/-- WS_UPDATE_WRITEBACK: the descriptor's blocks have been written back: norms, version, flags and signal (R315, R322). -/
def wsUpdateWriteback (at_ core id : Nat) (s : State) : State :=
  let s := s.advanceTo at_
  match s.wsEntry core id 0x81, s.ws.jobs.find? (fun j => j.id == id && j.ran) with
  | some q, some j =>
    let s := { s with
      core := { s.core with wsq := s.core.wsq.filter fun x => x.id != id }
      ws := { s.ws with jobs := s.ws.jobs.filter fun x => x.id != id } }
    let s := s.addNorms j (dLayerTag q.desc)
    let s := s.afterUpdate j (wsBody q.desc).last (dLayerTag q.desc)
    s.finishEntry q j.tally
  | _, _ => s

def execWsUpdateWriteback (at_ core id : Nat) (s : State) : Host.Outcome State Fault Refusal :=
  .next (wsUpdateWriteback at_ core id s)

/-- LEASE_HELD: two strata of draining have passed with leases outstanding: the update is refused, the shard is stable as it was,
and the context faults (R327). -/
def leaseHeld (at_ ctx shard : Nat) (s : State) : State :=
  let s := s.advanceTo at_
  let x := s.shard ctx shard
  if x.state = 1 ∧ 0 < x.leases ∧ x.drainAt + 2 ≤ s.ticksOf ctx then
    let s := s.setShard ctx shard { x with state := 0 }
    match s.ws.jobs.find? fun j => j.ctx == ctx && j.shard == shard with
    | some j => match s.wsEntry j.core j.id 0x81 with
      | some q => s.wsFault q 0x0253 0
      | none => s.raiseCtx { code := 0x0253 } ctx
    | none => s.raiseCtx { code := 0x0253 } ctx
  else s

def execLeaseHeld (at_ ctx shard : Nat) (s : State) : Host.Outcome State Fault Refusal := .next (leaseHeld at_ ctx shard s)

/-! ## WS_SEAL (R309, R310) -/

/-- Cells 1 to 15 of the step record: the flags, the repeat bit, and +0 in the reserved cells (R309, log entry 36). -/
def sealBytes (flags : BitVec 5) (rep : Bool) : List Byte :=
  let cell (b : Bool) : List Byte := leBytes 4 (if b then 0x3F800000 else 0)
  ((List.range 5).flatMap fun i => cell (flags.getLsbD i)) ++ cell rep ++ List.replicate 36 0

/-- WS_SEAL: the flags and the repeat bit enter the step record, and are cleared in the same step (R310). -/
def wsSeal (core id : Nat) (s : State) : State :=
  match s.wsEntry core id 0x83 with
  | none => s
  | some q =>
    let x := s.ctxAt q.ctx
    match (hubWrite q.ctx (fieldAt q.desc 16 0 48 + 4) (sealBytes x.stepFlags x.repeatBit) false (some 0x0207)) s with
    | (.ok _, s') =>
      let s' := s'.setCtx q.ctx { s'.ctxAt q.ctx with stepFlags := 0, repeatBit := false, sealed_ := true }
      let s' := { s' with core := { s'.core with wsq := s'.core.wsq.filter fun y => y.id != id } }
      s'.signalHeader q.ctx core q.desc
    | (.error (.fault code phys), s') => s'.wsFault q code phys
    | (.error _, _) => s

def execWsSeal (core id : Nat) (s : State) : Host.Outcome State Fault Refusal := .next (wsSeal core id s)

/-! ## Leases (R324 to R328) -/

/-- Reserved fields of a lease-list entry are 0 (R324). -/
def leaseReserved (r : Nat) : Bool := recordOnly r [(0, 0, 48), (8, 0, 32), (12, 0, 2)]

/-- The lease list is read, and the headers it names, by a unit that consumes no poison; the messages to send (R324, R325,
R456). -/
def leaseMessages (q : QEntry) (b : LeaseBody) : Exec (List LeaseMsg) := do
  let l ← Exec.collect (List.range b.count) fun i => do
    let r ← readTell q.core q.ctx (b.list.plus (16 * i)) 16
    pure (i, leNat r.1)
  Exec.check (l.all fun e => leaseReserved e.2) (.fault 0x0202 0)
  let m ← Exec.collect l fun e => do
    if b.mode = 0 ∨ fieldAt e.2 12 0 2 = 1 then
      let h ← hubTell q.ctx (fieldAt e.2 0 0 48) 64
      let n := leNat h.1
      pure [({ id := q.id, core := q.core, entry := e.1, ctx := q.ctx, home := fieldAt n 2 0 12, shard := fieldAt n 0 0 12
               mode := b.mode, version := fieldAt n 4 0 32, held := fieldAt e.2 8 0 32 } : LeaseMsg)]
    else pure []
  pure m.flatten

/-- A WS_LEASE whose every entry holds its reply has written back, and signals (R324). -/
def State.leaseDone (s : State) (q : QEntry) : State :=
  if s.ws.asked.any fun m => m.id == q.id then s
  else
    let s := { s with core := { s.core with wsq := s.core.wsq.filter fun x => x.id != q.id } }
    s.signalHeader q.ctx q.core q.desc

/-- Fields of the body of a lease message and of its reply; their layout is the model's (log entry 40). -/
def leaseWord (reply : Bool) (shard mode version held result : Nat) : Nat :=
  b2n reply + mode % 4 * 2 ^ 8 + shard % 4096 * 2 ^ 16 + version % 2 ^ 32 * 2 ^ 32 + held % 2 ^ 32 * 2 ^ 64 + result % 256 * 2 ^ 96

/-- A lease packet of context `c` leaves for another module (R324, R344). -/
def State.leaseSend (s : State) (c dst body : Nat) : State :=
  if dst = s.moduleId then s
  else s.routeOut { dst := dst, src := s.moduleId, job := s.fld (Fld.jobId c), vc := vcControl, escape := false, type := 4, xfer := 0
                    offset := 0, body := body, data := [] }

/-- WS_LEASE: a message to the home module of each entry (R324). -/
def wsLease (core id : Nat) (s : State) : State :=
  match s.wsEntry core id 0x82 with
  | none => s
  | some q =>
    if q.moved then s
    else match (leaseMessages q (leaseBody q.desc)) s with
      | (.ok l, s') =>
        let s' := { s' with
          ws := { s'.ws with asked := s'.ws.asked ++ l }
          core := { s'.core with wsq := s'.core.wsq.map (fun (x : QEntry) => if x.id = id then { x with moved := true } else x) } }
        let s' := l.foldl (fun s m => s.leaseSend m.ctx m.home (leaseWord false m.shard m.mode m.version m.held 0)) s'
        s'.leaseDone q
      | (.error (.fault code phys), s') => s'.wsFault q code phys
      | (.error _, _) => s

def execWsLease (core id : Nat) (s : State) : Host.Outcome State Fault Refusal := .next (wsLease core id s)

/-! Results of a lease message: held; refused; refused with the lease count full; released; released with another version;
not permitted (R325, R326). -/
def lrHeld : Nat := 0
def lrRefused : Nat := 1
def lrFull : Nat := 2
def lrReleased : Nat := 3
def lrStale : Nat := 4
def lrRange : Nat := 5

/-- What the home module answers, and the shard after it: R325 row by row, and R326. -/
def leaseAnswer (x : Shard) (bwd mode version held : Nat) : Nat × Shard :=
  if mode = 0 then
    if x.valid = false ∨ x.state ≠ 0 ∨ x.version.toNat ≠ version then (lrRefused, x)
    else if x.leases < 65535 then (lrHeld, { x with leases := x.leases + 1 })
    else (lrFull, x)
  else if mode = 2 ∧ bwd = 1 then (lrRange, x)
  else if x.leases = 0 then (lrReleased, x)
  else if mode = 1 ∧ version ≠ held then (lrStale, { x with leases := x.leases - 1 })
  else (lrReleased, { x with leases := x.leases - 1 })

/-- LEASE_MESSAGE: this module, the home of a shard of context `ctx`, answers a gatherer (R325, R326). -/
def leaseMessage (at_ ctx gatherer shard mode version held : Nat) (s : State) : State :=
  let s := s.advanceTo at_
  let x := s.shard ctx shard
  let r := leaseAnswer x ((s.ctxAt ctx).bwdMode x.layer) mode version held
  let s := if mode ≠ 0 ∧ r.1 = lrReleased ∧ x.leases = 0 then
      s.setCtx ctx { s.ctxAt ctx with verStray := sat32 ((s.ctxAt ctx).verStray + 1) }
    else s.setShard ctx shard r.2
  let s := { s with ws := { s.ws with replies := s.ws.replies ++ [({ gatherer := gatherer, shard := shard, result := r.1 } : LeaseOut)] } }
  s.leaseSend ctx gatherer (leaseWord true shard 0 0 0 r.1)

def execLeaseMessage (at_ ctx gatherer shard mode version held : Nat) (s : State) : Host.Outcome State Fault Refusal :=
  .next (leaseMessage at_ ctx gatherer shard mode version held s)

/-- The bytes of a list entry that a reply changes: version on a take that is held, and the state (R324, R325). -/
def leaseWrite (m : LeaseMsg) (result : Nat) (a : Addr) : Exec Unit := do
  if result = lrHeld then writeMem m.core m.ctx (a.plus 8) (leBytes 4 m.version) false
  let st := if result = lrHeld then 1 else if result = lrRefused ∨ result = lrFull then 2 else 3
  writeMem m.core m.ctx (a.plus 12) [BitVec.ofNat 8 st] false

/-- SHARD_VERSION: the context's repeat bit, or after the step's seal the fault of the context (R328). -/
def State.shardVersion (s : State) (c core desc : Nat) : State :=
  if (s.ctxAt c).sealed_ then s.ctxError c core 0x0255 desc
  else (s.setCtx c { s.ctxAt c with repeatBit := true }).report { code := 0x0254, ctx := some c, core := some core }

/-- The reply to an entry of a WS_LEASE waits: the entry lies in the Geode share of a context that is displaced (R402). -/
def State.leaseWaits (s : State) (q : QEntry) (entry : Nat) : Bool :=
  let a := (leaseBody q.desc).list.plus (16 * entry)
  s.displaced q.ctx && a.space && (match (hubTranslate q.ctx a.addr true) s with
    | (.ok pa, _) => decide (geodeBase ≤ pa)
    | _ => false)

/-- LEASE_REPLY: the reply to entry `entry` of a WS_LEASE (R324 to R328); a list in the Geode share of a displaced context takes
it when the context is resident (R402). -/
def leaseReply (at_ core id entry result : Nat) (s : State) : State :=
  let s := s.advanceTo at_
  match s.wsEntry core id 0x82, s.ws.asked.find? (fun m => m.id == id && m.entry == entry) with
  | some q, some m =>
    if result = lrRange then s.wsFault q 0x0207 0
    else if s.leaseWaits q entry then s
    else match (leaseWrite m result ((leaseBody q.desc).list.plus (16 * entry))) s with
      | (.ok _, s') =>
        let s' := { s' with ws := { s'.ws with asked := s'.ws.asked.filter fun x => !(x.id == id && x.entry == entry) } }
        let s' := if result = lrFull then s'.wsFault q 0x0256 0
          else if result = lrRefused ∨ result = lrStale then s'.shardVersion q.ctx core q.desc else s'
        if s'.ctxState q.ctx = csFaulted then s' else s'.leaseDone q
      | (.error (.fault code phys), s') => s'.wsFault q code phys
      | (.error _, _) => s
  | _, _ => s

def execLeaseReply (at_ core id entry result : Nat) (s : State) : Host.Outcome State Fault Refusal :=
  .next (leaseReply at_ core id entry result s)

/-- The message that a lease reply packet answers: the first to its sender that asks of its shard (R324). -/
def State.leaseAsked (s : State) (k : Packet) : Option LeaseMsg :=
  s.ws.asked.find? fun m => m.home == k.src && m.shard == bits k.body 16 12

/-- A lease reply packet must wait in its pool (R402). -/
def State.leaseHeld (s : State) (k : Packet) : Bool :=
  bit k.body 0 && (match s.leaseAsked k with
    | some m => (match s.wsEntry m.core m.id 0x82 with
      | some q => s.leaseWaits q m.entry
      | none => false)
    | none => false)

/-- A lease packet for this module: a message is answered by a packet, a reply enters its list (R324, R325). -/
def State.leasePacket (s : State) (c : Nat) (k : Packet) : State :=
  if bit k.body 0 then
    (match s.leaseAsked k with
    | some m => leaseReply s.now m.core m.id m.entry (bits k.body 96 8) s
    | none => s)
  else leaseMessage s.now c k.src (bits k.body 16 12) (bits k.body 8 2) (bits k.body 32 32) (bits k.body 64 32) s

end Sys2Proof.Machine
end

