-- ==== Sys2Proof/Machine/Collective.lean ====
section
/-! DEFINITION. The collective engines: groups, all-gather, reduce-scatter, all-reduce, all-to-all, SHIFT, the expert directory,
dispatch and combine, end markers and timeouts (chapter Collectives and Expert Routing). -/

namespace Sys2Proof.Machine

/-! ## Groups and the directory (R367, R380, R381) -/

/-- Group entry `g` as its 8 bytes. -/
def State.groupRaw (s : State) (g : Nat) : Nat := SMap.get (fun _ => 0) s.coll.groups g

/-- Fields of a group entry. -/
def grpValid (r : Nat) : Bool := bit r 7
def grpCtx (r : Nat) : Nat := bits r 4 3
def grpTimeout (r : Nat) : Nat := fieldAt r 1 0 8
def grpN (r : Nat) : Nat := fieldAt r 2 0 9
def grpRank (r : Nat) : Nat := fieldAt r 4 0 8
def grpBase (r : Nat) : Nat := fieldAt r 6 0 12

/-- The module at a rank of a group. -/
def State.member (s : State) (g rank : Nat) : Nat := SMap.get (fun _ => 0) s.coll.members (grpBase (s.groupRaw g) + rank)

/-- The members of a group, by rank. -/
def State.membersOf (s : State) (g : Nat) : List Nat := (List.range (grpN (s.groupRaw g))).map (s.member g)

/-- The rank of a module in a group. -/
def State.rankOf (s : State) (g m : Nat) : Option Nat :=
  (List.range (grpN (s.groupRaw g))).find? fun r => s.member g r == m

/-- Layer header and entry of the directory. -/
def State.layerHeader (s : State) (l : Nat) : Nat := SMap.get (fun _ => 0) s.coll.headers l
def State.dirEntry (s : State) (e : Nat) : Nat := SMap.get (fun _ => 0) s.coll.entries e

/-- Fields of a layer header. -/
def hdrExperts (h : Nat) : Nat := bits h 0 9
def hdrBase (h : Nat) : Nat := bits h 9 13
def hdrPolicy (h : Nat) : Nat := bits h 22 2
def hdrGroup (h : Nat) : Nat := bits h 24 6

/-- Fields of a directory entry. -/
def entHome (e : Nat) : Nat := bits e 0 12
def entSlot (e : Nat) : Nat := bits e 12 4
def entSecValid (e : Nat) : Bool := bit e 16
def entSec (e : Nat) : Nat := bits e 20 12
def entSecSlot (e : Nat) : Nat := bits e 32 4
def entCap (e : Nat) : Nat := bits e 36 12
def entSecCap (e : Nat) : Nat := bits e 48 12

/-- The entries of the layer of a header. -/
def State.entriesOf (s : State) (h : Nat) : List Nat := (List.range (hdrExperts h)).map fun i => s.dirEntry (hdrBase h + i)

/-- need_rows of a slot of this module, for the header and the entries of a layer (R381). -/
def State.needRows (s : State) (h : Nat) (es : List Nat) (slot : Nat) : Nat :=
  let own := s.moduleId
  let sum := es.foldl (fun n e =>
    n + (if entHome e = own ∧ entSlot e = slot then entCap e else 0)
      + (if entSecValid e ∧ entSec e = own ∧ entSecSlot e = slot then entSecCap e else 0)) 0
  sum * grpN (s.groupRaw (hdrGroup h))

/-- The slots that the entries of a layer use at this module. -/
def State.slotsHere (s : State) (es : List Nat) : List Nat :=
  let own := s.moduleId
  (List.range 16).filter fun n => es.any fun e =>
    (entHome e == own && entSlot e == n) || (entSecValid e && entSec e == own && entSecSlot e == n)

/-! ## Segments (R370) -/

/-- Units below segment `r`. -/
def segBase (c : List Nat) (r : Nat) : Nat := (c.take r).foldl (· + ·) 0

/-- The sum of a counts table. -/
def segTotal (c : List Nat) : Nat := c.foldl (· + ·) 0

/-- The segment that holds unit `o` of the full vector. -/
def segOf (c : List Nat) (o : Nat) : Option Nat :=
  (List.range c.length).find? fun r => decide (segBase c r ≤ o) && decide (o < segBase c r + c.getD r 0)

/-- The address of unit `u` of a buffer, or of the own segment in block form (R370). -/
def blkAddr (b : CollBody) (addr u : Nat) : Nat := addr + 32768 * (u / b.blkLen) + 64 * b.blkOff + 64 * (u % b.blkLen)

/-! ## Units of 64 bytes -/

/-- A unit of a buffer is read; its poison goes with it (R378). -/
def readGranule (c va : Nat) (tier : Option Nat := none) : Exec Gran := do
  let r ← hubTell c va 64 tier
  pure (leNat r.1, r.2.isSome)

/-- Units from an address on. -/
def readGrans (c va n : Nat) (tier : Option Nat := none) : Exec (List Gran) :=
  Exec.collect (List.range n) fun i => readGranule c (va + 64 * i) tier

/-- A landing in the Geode share of a displaced context waits (R402). -/
def landable (c pa : Nat) : Exec Unit := do
  Exec.check (!(decide (geodeBase ≤ pa) && (← Exec.ask fun s => s.displaced c))) .stall

/-- Bytes inside one granule land. -/
def landBytes (c va : Nat) (b : List Byte) (poisoned : Bool) (tier : Option Nat := none) : Exec Unit := do
  let pa ← hubTranslate c va true
  tierCheck tier pa
  landable c pa
  storePhys pa b poisoned

/-- A unit lands. -/
def landGran (c va : Nat) (g : Gran) (tier : Option Nat := none) : Exec Unit := landBytes c va (leBytes 64 g.1) g.2 tier

/-- Units land from an address on. -/
def landGrans (c va : Nat) (l : List Gran) (tier : Option Nat := none) : Exec Unit :=
  Exec.each (List.zip l (List.range l.length)) fun (g : Gran × Nat) => landGran c (va + 64 * g.2) g.1 tier

/-! ## Packets (R343, R359, R365) -/

/-- Four units as a data flit with its poison bits. -/
def flitOf (l : List Gran) : Nat × Nat :=
  (List.zip l (List.range 4)).foldl (fun (f : Nat × Nat) (g : Gran × Nat) =>
    (f.1 + g.1.1 * 2 ^ (512 * g.2), f.2 + b2n g.1.2 * 2 ^ g.2)) (0, 0)

/-- The data flits of some units. -/
def flitsOf (l : List Gran) : List (Nat × Nat) := (chunks 4 l.length l).map flitOf

/-- The units of some data flits. -/
def gransOf (l : List (Nat × Nat)) : List Gran :=
  l.flatMap fun f => (List.range 4).map fun i => (bits f.1 (512 * i) 512, bit f.2 i)

/-- The transfer identifier (R365). -/
def xferWord (op group tag : Nat) : Nat := op % 8 * 2 ^ 29 + group % 64 * 2 ^ 23 + tag % 65536

/-- Packet type and virtual channel of a transfer (R363). -/
def Xfer.kind (x : Xfer) : Nat × Nat :=
  if x.op = 4 then (if (shiftBody x.desc).vc = 0 then (1, 0) else (2, 1))
  else if x.op < 4 then (2, 1) else (3, 2)

/-- A packet of a transfer. -/
def State.xferPacket (s : State) (x : Xfer) (dst offset body : Nat) (data : List (Nat × Nat)) : Packet :=
  { dst := dst, src := s.moduleId, job := s.fld (Fld.jobId x.ctx), vc := x.kind.2, escape := false, type := x.kind.1
    xfer := xferWord x.op x.group x.tag, offset := offset, body := body, data := data }

/-- The most data flits of a packet on the way to a module: a packet fits its pool (R343, R348). -/
def State.maxFlits (s : State) (x : Xfer) (dst : Nat) : Nat :=
  match s.routePort dst with
  | some p => max 1 (min 512 (s.poolSize p (4 * x.ctx + x.kind.2) - 1))
  | none => 512

/-- The packets that carry some units to a module, from an offset on. -/
def State.unitPackets (s : State) (x : Xfer) (dst offset : Nat) (l : List Gran) : List Packet :=
  let k := 4 * s.maxFlits x dst
  let parts := chunks k l.length l
  (List.zip parts (List.range parts.length)).map fun (p : List Gran × Nat) =>
    s.xferPacket x dst (offset + k * p.2) 0 (flitsOf p.1)

/-- An end marker (R366). -/
def State.markerPacket (s : State) (x : Xfer) (dst amount : Nat) : Packet :=
  s.xferPacket x dst 0 (amount % 2 ^ 40 + 2 ^ 64) []

/-- The units of a packet. -/
def pktGrans (p : Packet) : List Gran := gransOf p.data

/-! ## Who serves whom (R366, R371, R372) -/

/-- This module's rank and the number of members. -/
def State.xRank (s : State) (x : Xfer) : Nat := grpRank (s.groupRaw x.group)
def State.xN (s : State) (x : Xfer) : Nat := grpN (s.groupRaw x.group)

/-- The ring algorithm. -/
def Xfer.ring (x : Xfer) : Bool := decide (x.op < 3) && !(collBody x.desc).direct

/-- The rank `k` ahead of a rank. -/
def rankAhead (n r : Nat) (k : Int) : Nat := (((r : Int) + k) % (n : Int)).toNat

/-- The rank after this module's, and the rank before. -/
def State.nextRank (s : State) (x : Xfer) : Nat := rankAhead (s.xN x) (s.xRank x) 1
def State.prevRank (s : State) (x : Xfer) : Nat := rankAhead (s.xN x) (s.xRank x) (-1)

/-- Every other rank. -/
def State.others (s : State) (x : Xfer) : List Nat := (List.range (s.xN x)).filter (· != s.xRank x)

/-- The ranks that this module serves. -/
def State.receivers (s : State) (x : Xfer) : List Nat :=
  if x.op = 4 then [rankAhead (s.xN x) (s.xRank x) (shiftBody x.desc).dist]
  else if x.ring then [s.nextRank x] else s.others x

/-- The ranks that serve this module. -/
def State.senders (s : State) (x : Xfer) : List Nat :=
  if x.op = 4 then [rankAhead (s.xN x) (s.xRank x) (-(shiftBody x.desc).dist)]
  else if x.ring then [s.prevRank x] else s.others x

/-- Count of a rank. -/
def Xfer.cnt (x : Xfer) (r : Nat) : Nat := x.counts.getD r 0

/-- The sum of the counts of every rank but one. -/
def Xfer.butOne (x : Xfer) (r : Nat) : Nat := segTotal x.counts - x.cnt r

/-- Receive count of a rank in an all-to-all (R370). -/
def State.recvCnt (s : State) (x : Xfer) (r : Nat) : Nat := x.cnt (s.xN x + r)

/-- Rows that a rank has landed here. -/
def Xfer.got (x : Xfer) (r : Nat) : Nat := SMap.get (fun _ => 0) x.gotG r
def Xfer.gotRed (x : Xfer) (r : Nat) : Nat := SMap.get (fun _ => 0) x.gotR r

/-- What a sender's end marker should state here (R366). -/
def State.expected (s : State) (x : Xfer) (r : Nat) : Nat :=
  let me := s.xRank x
  match x.op with
  | 0 => if x.ring then x.butOne me else x.cnt r
  | 1 => if x.ring then x.butOne r else x.cnt me
  | 2 => if x.ring then x.butOne r + x.butOne me else x.cnt me + x.cnt r
  | 3 => s.recvCnt x r
  | 4 => (shiftBody x.desc).recvLen
  | _ => x.got r

/-- What this module's end marker states to a rank; rows sent are kept by the sender (R366). -/
def State.delivered (s : State) (x : Xfer) (sent : SMap Nat) (r : Nat) : Nat :=
  let me := s.xRank x
  match x.op with
  | 0 => if x.ring then x.butOne r else x.cnt me
  | 1 => if x.ring then x.butOne me else x.cnt r
  | 2 => if x.ring then x.butOne me + x.butOne r else x.cnt r + x.cnt me
  | 3 => x.cnt r
  | 4 => (shiftBody x.desc).sendLen
  | _ => SMap.get (fun _ => 0) sent r

/-- The own end markers. -/
def State.markers (s : State) (x : Xfer) (sent : SMap Nat) : List Packet :=
  (s.receivers x).map fun r => s.markerPacket x (s.member x.group r) (s.delivered x sent r)

/-! ## What has come (R371, R383) -/

/-- The contributions to reduce have all come. -/
def State.reduced (s : State) (x : Xfer) : Bool :=
  let me := s.xRank x
  if x.ring then (s.others x ++ [me]).all fun j => j == s.prevRank x || x.gotRed j == x.cnt j
  else (s.others x).all fun r => x.gotRed r == x.cnt me

/-- The own segment is reduced. -/
def State.ownReduced (s : State) (x : Xfer) : Bool :=
  if x.ring then x.gotRed (s.xRank x) == x.cnt (s.xRank x) else s.reduced x

/-- All that this module forwards or sends has gone out, so that its end markers may follow. -/
def State.allSent (s : State) (x : Xfer) : Bool :=
  let me := s.xRank x
  let nx := s.nextRank x
  match x.op with
  | 0 => !x.ring || (s.others x).all fun r => r == nx || x.got r == x.cnt r
  | 1 => !x.ring || (s.others x).all fun j => j == s.prevRank x || x.gotRed j == x.cnt j
  | 2 => x.gathered && (!x.ring || ((s.others x).all fun j => (j == s.prevRank x || x.gotRed j == x.cnt j)
      && (j == nx || x.got j == x.cnt j)))
  | _ => let _ := me; true

/-- All data has landed. -/
def State.allLanded (s : State) (x : Xfer) : Bool :=
  match x.op with
  | 0 => (s.others x).all fun r => x.got r == x.cnt r
  | 1 => s.reduced x
  | 2 => s.reduced x && x.gathered && (s.others x).all fun r => x.got r == x.cnt r
  | 3 => (s.others x).all fun r => x.got r == s.recvCnt x r
  | 4 => (s.senders x).all fun r => x.got r == (shiftBody x.desc).recvLen
  | _ => true

/-- Packets of a transfer that wait for a port of this module. -/
def State.unsent (s : State) (x : Xfer) : Bool :=
  s.vein.ports.any fun e => e.2.sendsAny fun k =>
    k.src == s.moduleId && k.xfer == xferWord x.op x.group x.tag && k.job == s.fld (Fld.jobId x.ctx)

/-- The transfer is complete (R366, R383). -/
def State.complete (s : State) (x : Xfer) : Bool :=
  x.engine.isSome && s.allLanded x && x.marked && ((s.senders x).all fun r => x.marks.any fun m => m.1 == r)
    && !(x.op == 5 && s.unsent x)

/-! ## Adds (R373, R378) -/

/-- One add, rounded to red_fmt. -/
def redAdd (bf : Bool) (key : DrawKey) (i : Nat) (a b : Num) : NumF :=
  match bf, a, b with
  | true, .fin s m e, .fin t n g => Fmt.bf16.convert (rndOf key true i) (addExact s m e t n g)
  | true, _, _ => Fmt.bf16.add a b
  | false, _, _ => Fmt.f32.add a b

/-- Elements of a unit. -/
def redCount (bf : Bool) : Nat := if bf then 32 else 16

/-- The tally of a transfer with what each of its output elements has raised (R146). -/
abbrev Seen := Tally × SMap (BitVec 7)

/-- Two units added element by element; `u` is the unit's place in the full vector. An element counts once, however often it is
added to (R146, R152). -/
def redGran (bf : Bool) (key : DrawKey) (u : Nat) (a b : Gran) (t : Seen) : Gran × Seen :=
  let f := if bf then Fmt.bf16 else Fmt.f32
  let n := redCount bf
  let va := unpack f (leBytes 64 a.1) n
  let vb := unpack f (leBytes 64 b.1) n
  let r := (List.range n).map fun i => redAdd bf key (u * n + i) (va.getD i .zero) (vb.getD i .zero)
  ((leNat (pack f (r.map (·.1))), a.2 || b.2), Tally.once true t ((List.zip (List.range n) r).map fun e => (u * n + e.1, e.2.2)))

/-- Units added in order. -/
def redGrans (bf : Bool) (key : DrawKey) : Nat → List Gran → List Gran → Seen → List Gran × Seen
  | u, a :: ra, b :: rb, t =>
    let h := redGran bf key u a b t
    let r := redGrans bf key (u + 1) ra rb h.2
    (h.1 :: r.1, r.2)
  | _, _, _, t => ([], t)

/-- Where the draws of a transfer come from (R373). -/
def State.redKey (s : State) (x : Xfer) : DrawKey :=
  { seed := (s.ctxAt x.ctx).seed, source := 192 + x.group, ordinal := x.ordinal, stratum := x.startCount, kind := 3, ctx := x.ctx }

/-! ## Accepting a descriptor (R364, R386) -/

/-- Ports that the routes name for a transfer's sends (R354). -/
def State.sendPorts (s : State) (x : Xfer) : List Nat := (x.dests.filterMap s.routePort).eraseDups

/-- A packet of a transfer has arrived by a port: the first one tells the port of its receives (R354). -/
def Xfer.hear (x : Xfer) (port : Option Nat) : Xfer :=
  if x.heard then x
  else { x with heard := true, ports := match port with | some p => if x.ports.contains p then x.ports else x.ports ++ [p] | none => x.ports }

/-- A packet of a transfer that came before the descriptor is its first. -/
def State.firstPort (s : State) (x : Xfer) : Xfer :=
  match s.coll.held.find? fun h => h.ctx == x.ctx && h.pkt.xfer == xferWord x.op x.group x.tag with
  | some h => x.hear h.port
  | none => x

/-- Is module `m` a valid group's member and so on: the checks that the hub makes. A failed check sends nothing. -/
def collAccept (q : QEntry) : Exec Xfer := do
  let d := q.desc
  let op := xferOp d
  let layer := (expertBody d).layer
  let hdr ← Exec.ask fun s => s.layerHeader layer
  let es ← Exec.ask fun s => s.entriesOf hdr
  let group := if op < 4 then fieldAt d 40 0 6 else if op = 4 then fieldAt d 36 0 6 else hdrGroup hdr
  let bad : Stop := .fault 0x0207 0
  if 4 < op then
    Exec.check (hdrExperts hdr != 0) bad
    Exec.check (← Exec.ask fun s => s.flag Fld.dirValid && s.fld Fld.dirCtx == q.ctx) bad
    Exec.check (← Exec.ask fun s => (s.slotsHere es).all fun n => decide (s.needRows hdr es n ≤ (expertBody d).slotRows)) bad
  let g ← Exec.ask fun s => s.groupRaw group
  Exec.check (grpValid g && grpCtx g == q.ctx) bad
  if op = 4 then Exec.check (decide ((shiftBody d).dist.natAbs < grpN g)) bad
  let b := collBody d
  if op < 4 then
    Exec.check (!b.shardHdr || (← Exec.ask fun s => (s.shard q.ctx b.shard).valid)) bad
  let counts ← if op < 4 then do
      let r ← hubTell q.ctx b.counts (4 * grpN g * (if op = 3 then 2 else 1)) (some 0x0207)
      pure ((chunks 4 r.1.length r.1).map leNat)
    else pure []
  let x : Xfer :=
    { id := q.id, core := q.core, stream := q.stream, ctx := q.ctx, desc := d, group := group, op := op, tag := xferTag d
      tickBound := dTickBound d, ticks := q.ticks, left := grpTimeout g, dests := [], counts := counts
      header := if 4 < op then hdr else 0, entries := if 4 < op then es else [] }
  let dests ← Exec.ask fun s => (s.receivers x).map (s.member group)
  let x := { x with dests := dests }
  Exec.ask fun s => s.firstPort { x with ports := s.sendPorts x }

/-! ## Expert rows (R382 to R384) -/

/-- A multiple of 64. -/
def up64 (n : Nat) : Nat := (n + 63) / 64 * 64

/-- Bytes of a landing slot (R382). -/
def ExpertBody.slotSize (b : ExpertBody) : Nat := up64 (64 + b.slotRows * (64 * b.rowUnits + 8))

/-- Address of row `k` of slot `n`, and of its source record. -/
def ExpertBody.slotRow (b : ExpertBody) (n k : Nat) : Nat := b.land + n * b.slotSize + 64 + k * (64 * b.rowUnits)
def ExpertBody.slotRec (b : ExpertBody) (n k : Nat) : Nat :=
  b.land + n * b.slotSize + 64 + b.slotRows * (64 * b.rowUnits) + 8 * k

/-- Address of row `k` and of record `k` of a defer area. -/
def ExpertBody.deferRow (b : ExpertBody) (area k : Nat) : Nat := area + 64 + up64 (16 * b.deferMax) + k * (64 * b.rowUnits)
def deferRec (area k : Nat) : Nat := area + 64 + 16 * k

/-- The code of a Geode operand that lies elsewhere. -/
def geodeOnly : Option Nat := some 0x0207

/-- The offset of a row's packet (R383, R384). -/
def rowOffset (idx choice slot : Nat) (deferred back : Bool) : Nat :=
  idx % 65536 + choice % 8 * 2 ^ 16 + slot % 16 * 2 ^ 20 + b2n deferred * 2 ^ 24 + b2n back * 2 ^ 25

/-- A row lands in a slot at its row count, with its source record; a row beyond slot_rows is not kept (R383). -/
def landRow (x : Xfer) (slot src idx choice : Nat) (deferred : Bool) (row : List Gran) : Exec Xfer := do
  let b := expertBody x.desc
  let k := SMap.get (fun _ => 0) x.rows slot
  if k < b.slotRows then
    landGrans x.ctx (b.slotRow slot k) (row.take b.rowUnits) geodeOnly
    landBytes x.ctx (b.slotRec slot k) (leBytes 8 (src % 4096 + idx % 65536 * 2 ^ 12 + choice % 8 * 2 ^ 28 + b2n deferred * 2 ^ 31))
      false geodeOnly
    pure { x with rows := SMap.put (fun _ => 0) x.rows slot (k + 1) }
  else pure x

/-- The row × gate products of one unit, added to the running unit where there is one (R384). `at_` is the number of its first output
element, which counts once, however many rows are added into it (R146, R152); `bad` says that the gate is poisoned (R378). -/
def foldGran (f : Fmt) (gate : Num) (bad : Bool) (at_ : Nat) (old : Option Gran) (g : Gran) (t : Seen) : Gran × Seen :=
  let n := 512 / f.width
  let v := unpack f (leBytes 64 g.1) n
  let w := match old with | some o => unpack f (leBytes 64 o.1) n | none => []
  let r := (List.range n).map fun i =>
    let p := Fmt.f32.mul gate (v.getD i .zero)
    match old with
    | some _ => let y := f.add (w.getD i .zero) p.1
                (y.1, p.2 ||| y.2)
    | none => let y := f.near p.1
              (y.1, p.2 ||| y.2)
  ((leNat (pack f (r.map (·.1))), bad || g.2 || (match old with | some o => o.2 | none => false)),
   Tally.once true t ((List.zip (List.range n) r).map fun e => (at_ + e.1, e.2.2)))

/-- The units of a row folded one by one; `row` numbers the output row among those of the descriptor. -/
def foldGrans (f : Fmt) (gate : Num) (bad : Bool) (row : Nat) (l : List (Option Gran × Gran)) (t : Seen) : List Gran × Seen :=
  let n := 512 / f.width
  (List.zip (List.range l.length) l).foldl (fun (y : List Gran × Seen) e =>
    let h := foldGran f gate bad ((row * l.length + e.1) * n) e.2.1 e.2.2 y.2
    (y.1 ++ [h.1], h.2)) ([], t)

/-- A returned row is folded at its source (R384). -/
def foldRow (x : Xfer) (idx choice : Nat) (deferred : Bool) (row : List Gran) : Exec Xfer := do
  let b := expertBody x.desc
  let f := Fmt.ofCode b.outFmt
  let c := x.ctx
  let row := row.take b.rowUnits
  if deferred then
    if b.deferMax ≤ idx then pure x
    else
      let r ← hubTell c (deferRec b.deferIn idx) 16 geodeOnly
      let gate := Fmt.f32.decode (fieldAt (leNat r.1) 8 0 32)
      let y := foldGrans f gate r.2.isSome (b.nTok + idx) (row.map fun g => (none, g)) (x.tally, x.seen)
      landGrans c (b.deferRow b.deferIn idx) y.1 geodeOnly
      landBytes c (deferRec b.deferIn idx + 6) [BitVec.ofNat 8 (fieldAt (leNat r.1) 6 1 7 * 2 + 1)] false geodeOnly
      pure { x with tally := y.2.1, seen := y.2.2 }
  else if b.nTok ≤ idx then pure x
  else
    let r ← hubTell c (b.route + 64 * idx + 16 + 4 * choice) 4 geodeOnly
    let gate := Fmt.f32.decode (leNat r.1)
    let at_ := b.tok + idx * (64 * b.rowUnits)
    let old ← readGrans c at_ b.rowUnits geodeOnly
    let y := foldGrans f gate r.2.isSome idx ((List.zip old row).map fun g => (some g.1, g.2)) (x.tally, x.seen)
    landGrans c at_ y.1 geodeOnly
    pure { x with tally := y.2.1, seen := y.2.2 }

/-! ## Dispatch (R383) -/

/-- What a dispatch carries along: the transfer, deferred records, and what it sends. -/
structure Disp where
  x : Xfer
  deferred : Nat := 0
  sent : SMap Nat := []
  out : List Packet := []

/-- One more under a key. -/
def bumpKey (m : SMap Nat) (k : Nat) : SMap Nat := SMap.put (fun _ => 0) m k (SMap.get (fun _ => 0) m k + 1)

/-- A counter of an expert in the counter table: 0 home, 1 redirected, 2 deferred, 3 dropped (R385). -/
def Disp.count (y : Disp) (entry field : Nat) : Disp := { y with x := { y.x with expert := bumpKey y.x.expert (4 * entry + field) } }

/-- A row goes to a slot of a module: over Vein, or straight into this module's slot. -/
def sendRow (y : Disp) (dst slot idx choice : Nat) (deferred : Bool) (row : List Gran) : Exec Disp := do
  let own ← Exec.ask fun s => s.moduleId
  if dst = own then
    let x ← landRow y.x slot own idx choice deferred row
    pure { y with x := x }
  else
    let r ← Exec.ask fun s => (s.rankOf y.x.group dst).getD 0
    let p ← Exec.ask fun s => s.xferPacket y.x dst (rowOffset idx choice slot deferred false) 0 (flitsOf row)
    pure { y with sent := bumpKey y.sent r, out := y.out ++ [p] }

/-- Rows that a home or secondary count of the present stratum holds (R383). -/
def State.rowsSent (s : State) (c k : Nat) : Nat :=
  let o := SMap.get (fun _ => (0, 0)) s.coll.rowCounts k
  if o.1 = s.ticksOf c then o.2 else 0

/-- One more. -/
def countRow (c k : Nat) : Exec Unit :=
  Exec.doState fun s => { s with coll := { s.coll with
    rowCounts := SMap.put (fun _ => (0, 0)) s.coll.rowCounts k (s.ticksOf c, s.rowsSent c k + 1) } }

/-- One choice: home, secondary, deferred or dropped; the directory is that of the acceptance (R381, R383). `bad` says that its record is
poisoned. -/
def dispatchOne (idx choice expert rowVa token gate : Nat) (deferred bad : Bool) (y : Disp) : Exec Disp := do
  let b := expertBody y.x.desc
  let c := y.x.ctx
  let hdr := y.x.header
  Exec.check (decide (expert < hdrExperts hdr)) (.fault 0x0207 0)
  let entry := hdrBase hdr + expert
  let e := y.x.entries.getD expert 0
  let p := hdrPolicy hdr
  if (← Exec.ask fun s => s.rowsSent c (2 * entry)) < entCap e then
    let row ← readGrans c rowVa b.rowUnits geodeOnly
    countRow c (2 * entry)
    sendRow (y.count entry 0) (entHome e) (entSlot e) idx choice deferred row
  else if 2 ≤ p ∧ entSecValid e ∧ (← Exec.ask fun s => s.rowsSent c (2 * entry + 1)) < entSecCap e then
    let row ← readGrans c rowVa b.rowUnits geodeOnly
    countRow c (2 * entry + 1)
    sendRow (y.count entry 1) (entSec e) (entSecSlot e) idx choice deferred row
  else if (p = 1 ∨ p = 3) ∧ deferred = false ∧ y.deferred < b.deferMax then
    let row ← readGrans c rowVa b.rowUnits geodeOnly
    landGrans c (b.deferRow b.deferOut y.deferred) row geodeOnly
    landBytes c (deferRec b.deferOut y.deferred)
      (leBytes 16 (token % 65536 + choice % 8 * 2 ^ 16 + expert % 65536 * 2 ^ 32 + gate % 2 ^ 32 * 2 ^ 64)) bad geodeOnly
    pure ({ y with deferred := y.deferred + 1 }.count entry 2)
  else pure (y.count entry 3)

/-- EXPERT_DISPATCH: the records of the previous stratum first, then the choices of the tokens, in order. -/
def dispatchAll (x : Xfer) : Exec Disp := do
  let b := expertBody x.desc
  let c := x.ctx
  let n ← if b.deferMax = 0 then pure 0 else do pure (leNat (← hubTell c b.deferIn 4 geodeOnly).1)
  let y ← Exec.fold (List.range (min n b.deferMax)) ({ x := x } : Disp) fun y i => do
    let e ← hubTell c (deferRec b.deferIn i) 16 geodeOnly
    let r := leNat e.1
    dispatchOne i (fieldAt r 2 0 3) (fieldAt r 4 0 16) (b.deferRow b.deferIn i) (fieldAt r 0 0 16) (fieldAt r 8 0 32) true e.2.isSome y
  let y ← Exec.fold (List.range b.nTok) y fun y t => do
    let r ← hubTell c (b.route + 64 * t) 64 geodeOnly
    let e := leNat r.1
    Exec.fold (List.range b.k) y fun y k =>
      let expert := fieldAt e (2 * k) 0 16
      if expert = 0xFFFF then pure y
      else dispatchOne t k expert (b.tok + t * (64 * b.rowUnits)) t (fieldAt e (16 + 4 * k) 0 32) false r.2.isSome y
  if b.deferMax ≠ 0 then landBytes c b.deferOut (leBytes 4 y.deferred) false geodeOnly
  pure y

/-- The end of a dispatch: the counts of its slots, and +0 in the rows at or above them (R383). -/
def dispatchEnd (x : Xfer) : Exec Unit := do
  let b := expertBody x.desc
  let slots ← Exec.ask fun s => s.slotsHere x.entries
  Exec.each slots fun n => do
    let k := SMap.get (fun _ => 0) x.rows n
    landBytes x.ctx (b.land + n * b.slotSize) (leBytes 4 k) false geodeOnly
    Exec.each (List.range (b.slotRows - k)) fun i => landGrans x.ctx (b.slotRow n (k + i)) (List.replicate b.rowUnits (0, false)) geodeOnly

/-! ## Combine (R384) -/

/-- EXPERT_COMBINE: the output rows start at +0; every counted row goes back to the source that its record names. -/
def combineAll (x : Xfer) : Exec Disp := do
  let b := expertBody x.desc
  let c := x.ctx
  Exec.each (List.range b.nTok) fun t =>
    landGrans c (b.tok + t * (64 * b.rowUnits)) (List.replicate b.rowUnits (0, false)) geodeOnly
  let slots ← Exec.ask fun s => s.slotsHere x.entries
  let own ← Exec.ask fun s => s.moduleId
  Exec.fold slots ({ x := x } : Disp) fun y n => do
    let k := leNat (← hubTell c (b.land + n * b.slotSize) 4 geodeOnly).1
    Exec.fold (List.range (min k b.slotRows)) y fun y i => do
      let r := leNat (← hubTell c (b.slotRec n i) 8 geodeOnly).1
      let row ← readGrans c (b.slotRow n i) b.rowUnits geodeOnly
      let idx := bits r 12 16
      let choice := bits r 28 3
      let deferred := bit r 31
      let dst := bits r 0 12
      if dst = own then
        let x ← foldRow y.x idx choice deferred row
        pure { y with x := x }
      else
        let rank ← Exec.ask fun s => (s.rankOf x.group dst).getD 0
        let p ← Exec.ask fun s => s.xferPacket x dst (rowOffset idx choice n deferred true) 0 (flitsOf row)
        pure { y with sent := bumpKey y.sent rank, out := y.out ++ [p] }

/-! ## The own part of a transfer (R370 to R375) -/

/-- The shard header that the hub writes ahead of a home shard's parameters (R304, R305). The format bit of the
parameters is that of the shard's last update; before any it is a free value (log entry 42). -/
def shardHeader (x : Xfer) (b : CollBody) : Exec Gran := do
  let sh ← Exec.ask fun s => s.shard x.ctx b.shard
  let own ← Exec.ask fun s => s.moduleId
  let me ← Exec.ask fun s => s.xRank x
  let tag ← Exec.ask fun s => leNat (((s.ctxAt x.ctx).layerTable.drop (16 * sh.layer + 6)).take 2)
  let fmt ← match sh.pFmt with
    | some f => pure f.toNat
    | none => Exec.free 2
  pure (b.shard + own * 2 ^ 16 + sh.version.toNat * 2 ^ 32 + (x.cnt me - 1) * 32 % 2 ^ 32 * 2 ^ 64 + fmt * 2 ^ 96 + tag * 2 ^ 128, false)

/-- The own segment of an all-gather. -/
def ownSegment (x : Xfer) : Exec (List Gran) := do
  let b := collBody x.desc
  let n ← Exec.ask fun s => x.cnt (s.xRank x)
  if b.shardHdr ∧ n ≠ 0 then
    let h ← shardHeader x b
    let l ← Exec.collect (List.range (n - 1)) fun u => readGranule x.ctx (blkAddr b b.src u)
    pure (h :: l)
  else Exec.collect (List.range n) fun u => readGranule x.ctx (if b.blkSrc then blkAddr b b.src u else b.src + 64 * u)

/-- Where unit `u` of the own reduced segment lies in dst. -/
def State.ownDst (s : State) (x : Xfer) (u : Nat) : Nat :=
  let b := collBody x.desc
  if x.op = 2 then b.dst + 64 * (segBase x.counts (s.xRank x) + u)
  else if b.blkDst then blkAddr b b.dst u else b.dst + 64 * u

/-- The own segment in dst: written, and read. -/
def landOwn (x : Xfer) (u : Nat) (l : List Gran) : Exec Unit :=
  Exec.each (List.zip l (List.range l.length)) fun (g : Gran × Nat) => do
    landGran x.ctx (← Exec.ask fun s => s.ownDst x (u + g.2)) g.1

def readOwn (x : Xfer) (u n : Nat) : Exec (List Gran) :=
  Exec.collect (List.range n) fun i => do readGranule x.ctx (← Exec.ask fun s => s.ownDst x (u + i))

/-- Units of segment `j` of src. -/
def readSegment (x : Xfer) (j u n : Nat) : Exec (List Gran) :=
  readGrans x.ctx ((collBody x.desc).src + 64 * (segBase x.counts j + u)) n

/-- The packets that carry units to each of some ranks. -/
def toRanks (x : Xfer) (ranks : List Nat) (offset : Nat) (l : List Gran) : Exec (List Packet) :=
  Exec.ask fun s => ranks.flatMap fun r => s.unitPackets x (s.member x.group r) offset l

/-- What a transfer does when it starts: the transfer, rows sent by rank, and the packets to send. -/
def xferBegin (x : Xfer) : Exec Disp := do
  let b := collBody x.desc
  let me ← Exec.ask fun s => s.xRank x
  let others ← Exec.ask fun s => s.others x
  match x.op with
  | 0 =>
    let l ← ownSegment x
    landGrans x.ctx (b.dst + 64 * segBase x.counts me) l
    let p ← toRanks x (← Exec.ask fun s => s.receivers x) (segBase x.counts me) l
    pure { x := x, out := p }
  | 3 =>
    let n ← Exec.ask fun s => s.xN x
    let send := x.counts.take n
    let recv := x.counts.drop n
    Exec.check (send.getD me 0 == recv.getD me 0) (.fault 0x0313 0)
    let l ← readGrans x.ctx (b.src + 64 * segBase send me) (send.getD me 0)
    landGrans x.ctx (b.dst + 64 * segBase recv me) l
    let p ← Exec.collect others fun j => do
      let l ← readGrans x.ctx (b.src + 64 * segBase send j) (send.getD j 0)
      toRanks x [j] 0 l
    pure { x := x, out := p.flatten }
  | 4 =>
    let h := shiftBody x.desc
    let l ← readGrans x.ctx h.src h.sendLen
    let p ← toRanks x (← Exec.ask fun s => s.receivers x) 0 l
    pure { x := x, out := p }
  | 5 => dispatchAll x
  | 6 => combineAll x
  | _ =>
    if x.ring then
      let j ← Exec.ask fun s => s.prevRank x
      let l ← readSegment x j 0 (x.cnt j)
      let p ← toRanks x [← Exec.ask fun s => s.nextRank x] (segBase x.counts j) l
      pure { x := x, out := p }
    else
      let l ← readSegment x me 0 (x.cnt me)
      landOwn x 0 l
      let p ← Exec.collect others fun j => do
        let l ← readSegment x j 0 (x.cnt j)
        toRanks x [j] (segBase x.counts j) l
      pure { x := x, out := p.flatten }

/-! ## Landing (R371, R372) -/

/-- Units added under a key. -/
def addKey (m : SMap Nat) (k n : Nat) : SMap Nat := SMap.put (fun _ => 0) m k (SMap.get (fun _ => 0) m k + n)

/-- A data packet of a running COLL of ops 0 to 2 lands: the transfer and what it sends on. -/
def landVector (x : Xfer) (r : Nat) (k : Packet) : Exec (Xfer × List Packet) := do
  let b := collBody x.desc
  let me ← Exec.ask fun s => s.xRank x
  let nx ← Exec.ask fun s => s.nextRank x
  let pv ← Exec.ask fun s => s.prevRank x
  match segOf x.counts k.offset with
  | none => pure (x, [])
  | some j =>
    let u := k.offset - segBase x.counts j
    let l := (pktGrans k).take (x.cnt j - u)
    let red := x.op == 1 || (x.op == 2 && (if x.ring then j != pv && decide (x.gotRed j < x.cnt j) else j == me))
    if red then
      let key ← Exec.ask fun s => s.redKey x
      if x.ring then
        let own ← readSegment x j u l.length
        let y := redGrans b.bf16 key k.offset l own (x.tally, x.seen)
        let x := { x with tally := y.2.1, seen := y.2.2, gotR := addKey x.gotR j l.length }
        if j = me then
          landOwn x u y.1
          pure (x, [])
        else pure (x, ← toRanks x [nx] k.offset y.1)
      else if j = me then
        let run ← readOwn x u l.length
        let y := redGrans b.bf16 key k.offset run l (x.tally, x.seen)
        landOwn x u y.1
        pure ({ x with tally := y.2.1, seen := y.2.2, gotR := addKey x.gotR r l.length }, [])
      else pure (x, [])
    else
      landGrans x.ctx (b.dst + 64 * k.offset) l
      let x := { x with gotG := addKey x.gotG j l.length }
      if x.ring ∧ nx ≠ j then pure (x, ← toRanks x [nx] k.offset l) else pure (x, [])

/-- A data packet of a running transfer lands. -/
def landData (x : Xfer) (r : Nat) (k : Packet) : Exec (Xfer × List Packet) := do
  match x.op with
  | 3 =>
    let n ← Exec.ask fun s => s.xN x
    let recv := x.counts.drop n
    let l := (pktGrans k).take (recv.getD r 0 - k.offset)
    landGrans x.ctx ((collBody x.desc).dst + 64 * (segBase recv r + k.offset)) l
    pure ({ x with gotG := addKey x.gotG r l.length }, [])
  | 4 =>
    let h := shiftBody x.desc
    let l := (pktGrans k).take (h.recvLen - k.offset)
    landGrans x.ctx (h.dst + 64 * k.offset) l
    pure ({ x with gotG := addKey x.gotG r l.length }, [])
  | 5 =>
    let x ← landRow x (bits k.offset 20 4) k.src (bits k.offset 0 16) (bits k.offset 16 3) (bit k.offset 24) (pktGrans k)
    pure ({ x with gotG := addKey x.gotG r 1 }, [])
  | 6 =>
    let x ← foldRow x (bits k.offset 0 16) (bits k.offset 16 3) (bit k.offset 24) (pktGrans k)
    pure ({ x with gotG := addKey x.gotG r 1 }, [])
  | _ => landVector x r k

/-- The own segment of an all-reduce is reduced, and goes on to the others (R371). -/
def gatherOwn (x : Xfer) : Exec (Xfer × List Packet) := do
  if x.op = 2 ∧ x.gathered = false then
    if (← Exec.ask fun s => s.ownReduced x) then
      let me ← Exec.ask fun s => s.xRank x
      let l ← readOwn x 0 (x.cnt me)
      let p ← toRanks x (← Exec.ask fun s => s.receivers x) (segBase x.counts me) l
      pure ({ x with gathered := true }, p)
    else pure (x, [])
  else pure (x, [])

/-! ## The transfers of the hub (R364, R376, R377) -/

/-- The state with a transfer replaced. -/
def State.setXfer (s : State) (x : Xfer) : State := s.setXfers (s.coll.xfers.map fun y => if y.id = x.id then x else y)

/-- A transfer that still runs. -/
def State.xfer (s : State) (id : Nat) : Option Xfer := s.coll.xfers.find? fun x => x.id == id

/-- Packets of a transfer go out, as long as it lives. -/
def State.sendAll (s : State) (id : Nat) (l : List Packet) : State :=
  l.foldl (fun s k => if (s.xfer id).isSome then s.routeOut k else s) s

/-- A transfer ends without its signal, and its context faults (R377). -/
def State.xferFault (s : State) (x : Xfer) (code phys : Nat) : State :=
  let s := s.setXfers (s.coll.xfers.filter fun y => y.id != x.id)
  let s := { s with core := { s.core with hubq := s.core.hubq.filter fun q => q.id != x.id } }
  s.raiseCtx { code := code, core := some x.core, phys := phys, tileId := BitVec.ofNat 32 (dTileId x.desc)
               layerTag := BitVec.ofNat 16 (dLayerTag x.desc) } x.ctx

/-- The own end markers follow once everything has been sent (R366). -/
def State.markNow (s : State) (id : Nat) (sent : SMap Nat) : State :=
  match s.xfer id with
  | some x =>
    if x.marked = false ∧ s.allSent x then
      let l := s.markers x sent
      (s.setXfer { x with marked := true }).sendAll id l
    else s
  | none => s

/-- A piece of a transfer's work, and the own segment that goes on once it is reduced. -/
def thenGather (work : Exec (Xfer × SMap Nat × List Packet)) : Exec (Xfer × SMap Nat × List Packet) := do
  let y ← work
  let z ← gatherOwn y.1
  pure (z.1, y.2.1, y.2.2 ++ z.2)

/-- A step of a running transfer: its work, what it sends, and what follows from it. `none` where the work must wait. -/
def State.xferStep (s : State) (x : Xfer) (work : Exec (Xfer × SMap Nat × List Packet)) : Option State :=
  match (thenGather work) s with
  | (.ok y, s') => some (((s'.setXfer y.1).sendAll x.id y.2.2).markNow x.id y.2.1)
  | (.error .stall, _) => none
  | (.error (.fault code phys), s') => some (s'.xferFault x code phys)
  | (.error _, _) => none

/-- The ordinal of a group's descriptor, and the count after it (R373, R589). -/
def State.collOrdinal (s : State) (x : Xfer) : Nat × State :=
  let now := s.ticksOf x.ctx
  let o := SMap.get (fun _ => (0, 0)) s.coll.ordinals x.group
  let n := if o.1 = now then o.2 else 0
  (n, { s with coll := { s.coll with ordinals := SMap.put (fun _ => (0, 0)) s.coll.ordinals x.group (now, n + 1) } })

/-- A transfer may start: it is the first of its group, its context is in place, an engine is free, and its home shard is
not being updated (R305, R364). -/
def State.mayStart (s : State) (x : Xfer) : Bool :=
  let before := s.coll.xfers.takeWhile fun y => y.id != x.id
  x.engine.isNone && !(before.any fun y => y.group == x.group) && !s.displaced x.ctx
    && [0, 1, 2, 3].any (fun e => !s.coll.xfers.any fun y => y.engine == some e)
    && !(decide (x.op < 4) && (collBody x.desc).shardHdr && (s.shard x.ctx (collBody x.desc).shard).state == 2)

/-- A transfer starts on the lowest free engine. -/
def State.startXfer (s : State) (x : Xfer) : Option State :=
  let e := ([0, 1, 2, 3].find? fun e => !s.coll.xfers.any fun y => y.engine == some e).getD 0
  let o := s.collOrdinal x
  let x := { x with engine := some e, ports := (s.sendPorts x ++ x.ports).eraseDups, ordinal := o.1, startCount := s.countOf x.ctx }
  (o.2.setXfer x).xferStep x (do
    let y ← xferBegin x
    pure (y.x, y.sent, y.out))

/-- The norm of the own segment enters gsq (R374). -/
def addNorm (x : Xfer) : Exec Unit := do
  let b := collBody x.desc
  let f := if b.bf16 then Fmt.bf16 else Fmt.f32
  let n ← Exec.ask fun s => x.cnt (s.xRank x)
  let l ← readOwn x 0 n
  let sum := l.foldl (fun (a : Num) (g : Gran) =>
    if g.2 then a else (unpack f (leBytes 64 g.1) (redCount b.bf16)).foldl (fun a v => (a40Add a (Fmt.a40.mul v v).1).1) a) .zero
  let old ← hubTell x.ctx b.norm 4 geodeOnly
  landBytes x.ctx b.norm (leBytes 4 (normAdd (leNat old.1) (Fmt.a40.encode sum))) false geodeOnly

/-- The expert counters of a dispatch (R385). -/
def State.addExperts (s : State) (x : Xfer) : State :=
  x.expert.foldl (fun s (e : Nat × Nat) => { s with coll := { s.coll with
    counters := SMap.put (fun _ => 0) s.coll.counters e.1 (sat32 (SMap.get (fun _ => 0) s.coll.counters e.1 + e.2)) } }) s

/-- What a complete transfer still writes: its norm, or the counts of its slots (R374, R383). -/
def xferEnd (x : Xfer) : Exec Unit := do
  if x.op < 4 ∧ (collBody x.desc).normEn then addNorm x
  if x.op = 5 then dispatchEnd x

/-- A complete transfer ends: norm, slot counts and expert counters, then its flags and its signal (R63, R374, R383). -/
def State.finishXfer (s : State) (x : Xfer) : Option State :=
  match (xferEnd x) s with
  | (.error .stall, _) => none
  | (.error (.fault code phys), s') => some (s'.xferFault x code phys)
  | (.error _, _) => none
  | (.ok _, s') =>
    let q := s'.core.hubq.find? fun q => q.id == x.id
    let s' := s'.setXfers (s'.coll.xfers.filter fun y => y.id != x.id)
    let s' := { s' with core := { s'.core with hubq := s'.core.hubq.filter fun q => q.id != x.id } }
    let s' := if x.op = 5 then s'.addExperts x else s'
    match q with
    | some q => some (s'.finishEntry q x.tally)
    | none => some s'

/-! ## Packets that arrive (R345, R365, R402) -/

/-- The running transfer to which a packet of a context belongs. -/
def State.xferFor (s : State) (c : Nat) (k : Packet) : Option Xfer :=
  s.coll.xfers.find? fun x => x.engine.isSome && x.ctx == c && xferWord x.op x.group x.tag == k.xfer

/-- An end marker arrives: it must state what this module expects (R366). -/
def State.takeMarker (s : State) (x : Xfer) (r amount : Nat) : State :=
  if amount ≠ s.expected x r then s.xferFault x 0x0313 0
  else s.setXfer { x with marks := x.marks ++ [(r, amount)] }

/-- A packet is taken by its running transfer; `none` where it must wait. A packet of no sender of the group is discarded. -/
def State.takePacket (s : State) (x : Xfer) (port : Option Nat) (k : Packet) : Option State :=
  match s.rankOf x.group k.src with
  | none => some s
  | some r =>
    let x := x.hear port
    if k.data = [] then some ((s.setXfer x).takeMarker x r (bits k.body 0 40))
    else (s.setXfer x).xferStep x (do
      let y ← landData x r k
      pure (y.1, [], y.2))

/-- Bytes that a packet takes in the staging area. -/
def stagedSize (k : Packet) : Nat := 256 * (1 + k.data.length)

/-- There is room for a packet in the staging area of a context (R365). -/
def State.stagingRoom (s : State) (c : Nat) (k : Packet) : Bool :=
  decide ((s.ctxAt c).stagingUsed + stagedSize k ≤ (s.ctxAt c).stagingMib * 2 ^ 20)

/-- A waiting packet leaves its place: its pool is freed, or its bytes of the staging area. -/
def State.leavePlace (s : State) (h : Held) : State :=
  match h.port, h.pool with
  | some p, some n => s.freePool p n (1 + h.pkt.data.length)
  | _, none => let x := s.ctxAt h.ctx
               s.setCtx h.ctx { x with stagingUsed := x.stagingUsed - stagedSize h.pkt }
  | _, _ => s

/-- The list without its first element that equals `h`. -/
def State.dropOneHeld (s : State) (h : Held) : State := { s with coll := { s.coll with held := s.coll.held.erase h } }

/-- One waiting packet goes on: into its transfer or the lease list, or from its pool into the staging area. -/
def State.heldStep (s : State) (h : Held) (earlier : List Held) : Option State :=
  if h.pkt.type = 4 then
    (if s.leaseHeld h.pkt then none else some (((s.dropOneHeld h).leavePlace h).leasePacket h.ctx h.pkt))
  else if earlier.any fun g => g.ctx == h.ctx && g.pkt.xfer == h.pkt.xfer && g.pkt.src == h.pkt.src then none
  else match s.xferFor h.ctx h.pkt with
    | some x => ((s.dropOneHeld h).leavePlace h).takePacket x h.port h.pkt
    | none =>
      if h.pool.isSome ∧ s.stagingRoom h.ctx h.pkt then
        let s := s.leavePlace h
        let c := s.ctxAt h.ctx
        let s := s.setCtx h.ctx { c with stagingUsed := c.stagingUsed + stagedSize h.pkt }
        some { s with coll := { s.coll with held := s.coll.held.map fun g => if g = h then { h with pool := none } else g } }
      else none

/-- The first waiting packet that can go on does. -/
def State.heldNext (s : State) : List Held → List Held → Option State
  | _, [] => none
  | earlier, h :: r => match s.heldStep h earlier with
    | some t => some t
    | none => s.heldNext (earlier ++ [h]) r

/-- The next thing that the collective engines can do: take a waiting packet, end a transfer, start one. -/
def State.collNext (s : State) : Option State :=
  match s.heldNext [] s.coll.held with
  | some t => some t
  | none => match s.coll.xfers.findSome? fun x => if s.complete x then s.finishXfer x else none with
    | some t => some t
    | none => s.coll.xfers.findSome? fun x => if s.mayStart x then s.startXfer x else none

/-- The engines go on as far as they can. -/
def State.collRun (s : State) : Nat → State
  | 0 => s
  | n + 1 => match s.collNext with
    | some t => t.collRun n
    | none => s

/-- Each packet moves at most twice, and each transfer starts and ends once. -/
def State.collSweep (s : State) : State := s.collRun (2 * (s.coll.held.length + s.coll.xfers.length) + 2)

/-- A packet for a local context arrives: its running transfer takes it, or it is staged, or it waits in its pool; a packet whose port
is not named waits in a place of its own. -/
def State.collReceive (s : State) (port : Option Nat) (pool c : Nat) (k : Packet) : State :=
  let h : Held := { port := port, pool := some pool, ctx := c, pkt := k }
  { s with coll := { s.coll with held := s.coll.held ++ [h] } }.collSweep

/-! ## Commands -/

/-- A class 0x6 descriptor of a core in the hub transfer queue. -/
def State.hubEntry (s : State) (core id op : Nat) : Option QEntry :=
  s.core.hubq.find? fun q => q.core == core && q.id == id && dOpcode q.desc == op

/-- The hub accepts a descriptor and its engines go on (R364, R386). -/
def State.acceptXfer (s : State) (core id op : Nat) : State :=
  match s.hubEntry core id op with
  | none => s
  | some q =>
    if (s.xfer id).isSome then s.collSweep
    else match (collAccept q) s with
      | (.ok x, s') => (s'.setXfers (s'.coll.xfers ++ [x])).collSweep
      | (.error (.fault code phys), s') =>
        let s' := { s' with core := { s'.core with hubq := s'.core.hubq.filter fun y => y.id != id } }
        s'.raiseCtx { code := code, core := some core, phys := phys, tileId := BitVec.ofNat 32 (dTileId q.desc)
                      layerTag := BitVec.ofNat 16 (dLayerTag q.desc) } q.ctx
      | (.error _, _) => s

/-- COLL (R369 to R374). -/
def coll (core id : Nat) (s : State) : State := s.acceptXfer core id 0x61
def execColl (core id : Nat) (s : State) : Host.Outcome State Fault Refusal := .next (coll core id s)

/-- SHIFT (R375). -/
def shift (core id : Nat) (s : State) : State := s.acceptXfer core id 0x62
def execShift (core id : Nat) (s : State) : Host.Outcome State Fault Refusal := .next (shift core id s)

/-- EXPERT_DISPATCH (R383). -/
def expertDispatch (core id : Nat) (s : State) : State := s.acceptXfer core id 0x63
def execExpertDispatch (core id : Nat) (s : State) : Host.Outcome State Fault Refusal := .next (expertDispatch core id s)

/-- EXPERT_COMBINE (R384). -/
def expertCombine (core id : Nat) (s : State) : State := s.acceptXfer core id 0x64
def execExpertCombine (core id : Nat) (s : State) : Host.Outcome State Fault Refusal := .next (expertCombine core id s)

/-- END_MARKER_RECEIVED: an end marker of a job from a module, as its packet's body states it (R366). -/
def endMarkerReceived (at_ job src xfer amount : Nat) (s : State) : State :=
  let s := s.advanceTo at_
  match s.jobCtx job with
  | none => s
  | some c =>
    let vc := if 5 ≤ bits xfer 29 3 then 2 else 1
    s.collReceive none (4 * c + vc) c { dst := s.moduleId, src := src, job := job, vc := vc, escape := false, type := vc + 1, xfer := xfer
                                        offset := 0, body := amount % 2 ^ 40 + 2 ^ 64, data := [] }

def execEndMarkerReceived (at_ job src xfer amount : Nat) (s : State) : Host.Outcome State Fault Refusal :=
  .next (endMarkerReceived at_ job src xfer amount s)

/-- COLL_TIMEOUT: the armed tick has been reached with no port held (R376, R377). -/
def collTimeout (at_ id : Nat) (s : State) : State :=
  let s := s.advanceTo at_
  match s.xfer id with
  | some x => if x.left = 0 then s.xferFault x 0x0311 0 else s
  | none => s

def execCollTimeout (at_ id : Nat) (s : State) : Host.Outcome State Fault Refusal := .next (collTimeout at_ id s)

end Sys2Proof.Machine
end

