-- ==== Sys2Proof/Machine/Commands.lean ====
section
/-! DEFINITION. Host commands that Flint has read: when one may start (R423, R426). -/

namespace Sys2Proof.Machine

/-! ## Fields of a command (R423) -/

def Cmd.opcode (c : Cmd) : Nat := bits c.raw 0 8
def Cmd.fence (c : Cmd) : Bool := bit c.raw 14
/-- `w` bits from bit `lo` of byte `b`. -/
def Cmd.at_ (c : Cmd) (b lo w : Nat) : Nat := fieldAt c.raw b lo w
/-- The context, or 0 where none is named. -/
def Cmd.c (c : Cmd) : Nat := bits c.raw 8 3
/-- The host DMA queue of a DMA command (R433). -/
def Cmd.queue (c : Cmd) : Nat := c.at_ 28 0 2
/-- A host DMA command (R434). -/
def Cmd.dma (c : Cmd) : Bool := c.opcode == 5 || c.opcode == 6

/-- Command `c` need not wait for command `e`, read earlier: the previous command of its SQ has started, and under a fence it
has completed; a command that names the same context has taken effect, unless one of them is a DMA. A fill takes effect when
it completes, and a destroy waits for none (R426, R430). -/
def Cmd.after (c e : Cmd) : Bool :=
  (e.sq != c.sq || (e.started && !c.fence))
    && (c.ctx.isNone || e.ctx != c.ctx || c.dma || e.dma || (e.started && (e.opcode != 9 || c.opcode == 2)))

/-- The command under a number, when it has the opcode and may start (R426). -/
def State.cmdReady (s : State) (id op : Nat) : Option Cmd :=
  match s.cmd id with
  | some c =>
    if c.opcode = op ∧ c.started = false ∧ s.err.flintDown = false ∧ s.host.cmds.all fun e => decide (id ≤ e.id) || c.after e then
      some c
    else none
  | none => none

/-- The state with a command replaced. -/
def State.setCmd (s : State) (c : Cmd) : State :=
  { s with host := { s.host with cmds := s.host.cmds.map fun x => if x.id == c.id then c else x } }

/-- The command has started. -/
def State.startCmd (s : State) (c : Cmd) : State := s.setCmd { c with started := true }

end Sys2Proof.Machine
end

