-- ==== Sys2Proof/Machine/Fossil.lean ====
section
/-! DEFINITION. Fossils: the fossil set, the image, copy on first touch, streaming, commit, the buddy service, the fill of a
spare and the held inputs (chapter Fossils, Buddies and Repeating a Step). -/

namespace Sys2Proof.Machine

/-! ## Pages -/

/-- The bytes of granules as the store holds them: a poisoned granule is 64 zero bytes (R481). -/
def storeBytes (l : List Gran) : List Byte := l.flatMap fun g => leBytes 64 (if g.2 then 0 else g.1)

/-- Poisoned granules of a page. -/
def poisonCount (l : List Gran) : Nat := (l.filter fun g => g.2).length

/-- Granules that spell a list of bytes. -/
def gransOfBytes (l : List Byte) : List Gran := (chunks 64 l.length l).map fun b => (leNat b, false)

/-! ## The fossil set (R478) -/

/-- The list of regions lies at a context virtual address. -/
def State.fosListAt (s : State) : Nat := (s.rd Reg.fosSetLo).toNat / 16 * 16 + bits (s.rd Reg.fosSetHi).toNat 0 16 * 2 ^ 32

/-- A region of the list: address and pages. -/
def readRegion (c a : Nat) : Exec (Nat × Nat) := do
  let n := leNat (← hubUse c a 16)
  pure (bits n 0 48, bits n 64 32)

/-- A page of a region: it lies in main memory, inside the context's shares, under a leaf of 2 MiB or 1 GiB. -/
def fosSetPage (c va : Nat) : Exec FosPage := do
  let l ← hubLeaf c va false
  let pa := l.pa + (va - l.va)
  Exec.check (decide (fosPage ≤ l.size) && (← Exec.ask fun s => s.mainFirewall c pa fosPage)) (.status 0x0903)
  pure { va := va, pa := pa }

/-- No two regions overlap. -/
def regionsApart : List (Nat × Nat) → Bool
  | [] => true
  | r :: rest => rest.all (fun q => decide (r.1 + r.2 * fosPage ≤ q.1) || decide (q.1 + q.2 * fosPage ≤ r.1)) && regionsApart rest

/-- The pages of the fossil set in region order, or the set is bad. -/
def fosSet (c : Nat) : Exec (List FosPage) := do
  let a ← Exec.ask State.fosListAt
  let n ← Exec.ask fun s => s.fld Fld.fosSetCnt
  let rs ← Exec.collect (List.range n) fun i => readRegion c (a + 16 * i)
  let total := rs.foldl (fun m r => m + r.2) 0
  Exec.check (rs.all (fun r => r.1 % fosPage == 0 && decide (1 ≤ r.2) && decide (r.1 + r.2 * fosPage ≤ windowBase))
    && regionsApart rs && decide (total ≤ 245760)) (.status 0x0903)
  Exec.collect (rs.flatMap fun r => (List.range r.2).map fun i => r.1 + i * fosPage) (fosSetPage c)

/-! ## Destinations (R489 to R492) -/

/-- FEED_ID of this module (R562). -/
def State.feedId (s : State) : Nat := bits (s.rd Reg.glbStraps).toNat 12 4

/-- A pairing is co-fed (R491, R563). -/
def State.coFedWith (s : State) (feed : Nat) : Bool := feed == s.feedId || feed == 15 || s.feedId == 15

/-- The route that fossil data takes to a module. -/
def State.fosRoute (s : State) (dst : Nat) : Option Nat :=
  s.routeFor { dst := dst, src := s.moduleId, job := 0, vc := 1, escape := false, type := 9, xfer := 0, offset := 0, body := 0, data := [] }

/-- The epoch with a change. -/
def State.mapEpoch (s : State) (f : Epoch → Epoch) : State := { s with fos := { s.fos with epoch := s.fos.epoch.map f } }

/-- The store destination ends (R489). -/
def State.loseStore (s : State) : State :=
  if s.fos.epoch.any fun e => e.storeLive then
    (s.mapEpoch fun e => { e with storeLive := false, lost := 0x090B }).report { code := 0x0912 }
  else s

/-- A message that has no packet layout leaves for another module. -/
def State.tell (s : State) (m : FosMsg) : State := { s with fos := { s.fos with sent := s.fos.sent ++ [m] } }

/-- The packets of an image page for a module: they fit the hub pool of the port. Bit 47 of the offset tells the pages of a fill from
those of an image that lands (R343, R349; log entry 130). -/
def State.fosPackets (s : State) (fill : Bool) (dst epoch page : Nat) (l : List Gran) : List Packet :=
  let n := match s.routePort dst with
    | some p => max 1 (min 512 (s.poolSize p poolHub - 1))
    | none => 512
  let parts := chunks (4 * n) l.length l
  (List.zip parts (List.range parts.length)).map fun (p : List Gran × Nat) =>
    { dst := dst, src := s.moduleId, job := 0, vc := 1, escape := false, type := 9, xfer := epoch
      offset := b2n fill * 2 ^ 47 + page * 32768 + 4 * n * p.2, body := 0, data := flitsOf p.1 }

/-- Image page `k` goes to every live destination (R488, R489). -/
def State.sendImagePage (s : State) (e : Epoch) (k : Nat) (l : List Gran) : State :=
  let s := if e.toStore ∧ e.storeLive then
      (if s.hostAborts (e.store + k * fosPage) fosPage then s.loseStore else s.putHost (e.store + k * fosPage) (storeBytes l))
    else s
  if e.toBuddy ∧ e.buddyLive then
    (s.fosPackets false e.buddy e.epoch k l).foldl (fun t p => if t.fos.epoch.any fun e => e.buddyLive then t.routeOut p else t) s
  else s

/-! ## Beginning an epoch (R483, R484, R490) -/

/-- A context that may take a fossil: it holds a job with a layer table (R483). -/
def State.mayFossil (s : State) (c : Nat) : Bool :=
  s.modeOf == 0 && (s.ctxAt c).layerTable != [] && [csLoaded, csRunning, csEnded].contains (s.ctxState c)

/-- The epoch is Armed (R484). -/
def State.armEpoch (s : State) : State :=
  match s.fos.epoch with
  | some e => (s.setFld Fld.fosState fosArmed).setFld Fld.fosEpoch e.epoch
  | none => s

/-- The status with which FOSSIL_BEGIN is refused, or 0: the rows of R483 in order. -/
def State.beginStatus (s : State) (q : Cmd) (pages : Option (List FosPage)) : Nat :=
  let toStore := bit (q.at_ 26 0 8) 0
  let toBuddy := bit (q.at_ 26 0 8) 1
  if s.fos.epoch.isSome then 0x0901
  else match pages with
    | none => 0x0903
    | some l =>
      if q.at_ 16 0 64 < (l.length + 1) * fosPage then 0x0904
      else if toStore = false ∧ toBuddy = false then 0x0012
      else if (s.liveShards q.c).any fun x => decide (q.at_ 28 0 32 < x.version.toNat) then 0x0902
      else 0

/-- A new epoch of a command. -/
def newEpoch (q : Cmd) (pages : List FosPage) : Epoch :=
  let toStore := bit (q.at_ 26 0 8) 0
  let toBuddy := bit (q.at_ 26 0 8) 1
  { ctx := q.c, epoch := q.at_ 28 0 32, begin_ := some q.id, asked := toBuddy, toStore := toStore, toBuddy := toBuddy
    storeLive := toStore, buddyLive := toBuddy, store := q.at_ 8 0 64, queue := q.at_ 27 0 2, buddy := q.at_ 24 0 12, pages := pages }

/-- An epoch begins: it is Armed at once, or the buddy is asked (R483, R490, R492). -/
def State.beginEpoch (s : State) (e : Epoch) : State :=
  let s := { s with fos := { s.fos with epoch := some e, abandoned := s.fos.abandoned.filter (· != e.epoch) } }
  if e.toBuddy = false then s.armEpoch
  else if (s.fosRoute e.buddy).isNone then s.loseBuddy.armEpoch
  else s.tell (.open_ e.buddy s.moduleId e.epoch e.pages.length)

/-- FOSSIL_BEGIN: the epoch becomes Armed, once the buddy has accepted where one is named; a route to the buddy that has
failed ends that destination (R483, R490, R492). -/
def fossilBegin (at_ id : Nat) (s : State) : State :=
  let s := s.advanceTo at_
  match s.cmdReady id 0x07 with
  | none => s
  | some q =>
    let s := s.startCmd q
    if s.mayFossil q.c = false then s.completeCmd id 0x0013 0
    else
      let r := fosSet q.c s
      let pages : Option (List FosPage) := match r.1 with | .ok l => some l | .error _ => none
      let st := s.beginStatus q pages
      if st ≠ 0 then s.completeCmd id st 0
      else
        r.2.beginEpoch (newEpoch q (pages.getD []))

def execFossilBegin (at_ id : Nat) (s : State) : Host.Outcome State Fault Refusal := .next (fossilBegin at_ id s)

/-- BUDDY_OPEN_REPLY: the buddy has accepted, and the epoch is Armed, or it has refused (R483, R490, R491). -/
def buddyOpenReply (at_ : Nat) (accept : Bool) (feed : Nat) (s : State) : State :=
  let s := s.advanceTo at_
  match s.fos.epoch with
  | some e =>
    if e.asked then
      if accept then (s.mapEpoch fun e => { e with asked := false, coFed := s.coFedWith feed }).armEpoch
      else ({ s with fos := { s.fos with epoch := none } }.completeSome e.begin_ 0x0905 0).completeSome e.commit 0x0902 0
    else s
  | none => s

def execBuddyOpenReply (at_ : Nat) (accept : Bool) (feed : Nat) (s : State) : Host.Outcome State Fault Refusal :=
  .next (buddyOpenReply at_ accept feed s)

/-! ## Copy on first touch (R485, R486) -/

/-- FIRST_TOUCH_COPY: a write has met the page at an address (R485; log entry 182). -/
def firstTouchCopy (at_ pa : Nat) (s : State) : State := (s.advanceTo at_).touchPage pa

def execFirstTouchCopy (at_ pa : Nat) (s : State) : Host.Outcome State Fault Refusal := .next (firstTouchCopy at_ pa s)

/-! ## Streaming (R479 to R481, R486 to R488) -/

/-- A page may be streamed now: Bounced pages go before Protected ones (R486). -/
def Epoch.mayStream (e : Epoch) (p : FosPage) : Bool :=
  p.state == 1 || (p.state == 0 && e.pages.all fun (q : FosPage) => q.state != 1)

/-- The engine has read the last granule of the live page that it was reading: the page is Copied (R485, R488). It has done so before
it reads another, and by the next idle step (log entry 182). -/
def State.endStreaming (s : State) : State :=
  let done (p : FosPage) : FosPage := if p.state = 3 then { p with state := 2 } else p
  if s.fos.epoch.any fun e => e.pages.any fun (p : FosPage) => p.state == 3 then
    s.mapEpoch fun e => { e with pages := e.pages.map done } else s

/-- The queue of the store path is free for an image page: it runs its commands in the order of acceptance (R434, R489). -/
def State.storeReady (s : State) (e : Epoch) : Bool :=
  !(e.toStore && e.storeLive) || !s.host.cmds.any fun c => c.dma && !c.dmaDone && c.queue == e.queue

/-- A page is read once and goes to every live destination. Read from its bounce frame it is Copied and its frame is free; a live
page is Streaming until its last granule is read (R485, R486, R488). -/
def State.streamPage (s : State) (e : Epoch) (k : Nat) (p : FosPage) : State :=
  let r := s.readFosPage (if p.state = 1 then p.frame else p.pa)
  let s := if p.state = 1 then r.2.fossilField p.frame 0 else r.2
  let p' := { p with state := if p.state = 1 then 2 else 3, crc := crc32 (storeBytes r.1), poisoned := poisonCount r.1 }
  let s := { s with fos := { s.fos with epoch := some (e.setPage p') } }
  (s.countBounced).sendImagePage e k r.1

/-- A directory entry (R480). -/
def FosPage.entry (p : FosPage) : Nat := p.crc % 2 ^ 32 * 2 ^ 32 + b2n (p.poisoned != 0) * 2 ^ 31 + p.va / fosPage % 2 ^ 27

/-- The header page (R479). The version entries are those of the opening tick. -/
def State.headerPage (s : State) (e : Epoch) : List Gran :=
  let poisoned := e.pages.any fun (p : FosPage) => p.poisoned != 0
  let head := e.epoch % 2 ^ 32 + s.moduleId * 2 ^ 32 + s.fld (Fld.jobId e.ctx) * 2 ^ 48 + e.pages.length % 2 ^ 32 * 2 ^ 64
    + s.feedId * 2 ^ 96 + b2n poisoned * 2 ^ 104 + e.stratum.toNat * 2 ^ 128
  let versions := e.versions.flatMap (leBytes 8)
  let dir := e.pages.flatMap fun (p : FosPage) => leBytes 8 p.entry
  let b := leBytes 65536 head ++ versions ++ leBytes (131072 - 65536 - versions.length) 0 ++ dir
  gransOfBytes (b ++ leBytes (fosPage - b.length) 0)

/-- FOSSIL_PAGE_STREAM: image page `page` goes out; page 0 is the header, after every other (R481, R488). The slower destination sets
the pace. -/
def fossilPageStream (at_ page : Nat) (s : State) : State :=
  let s := (s.advanceTo at_).endStreaming
  match s.fos.epoch with
  | some e =>
    if s.fld Fld.fosState ≠ fosOpen ∨ s.storeReady e = false then s
    else if page = 0 then
      if e.headerSent = false ∧ e.pages.all (fun (p : FosPage) => p.state == 2) then
        let l := s.headerPage e
        (s.mapEpoch fun e => { e with headerSent := true }).sendImagePage e 0 l
      else s
    else match e.pages[page - 1]? with
      | some p => if e.mayStream p then s.streamPage e page p else s
      | none => s
  | none => s

def execFossilPageStream (at_ page : Nat) (s : State) : Host.Outcome State Fault Refusal :=
  .next (fossilPageStream at_ page s)

/-- FOSSIL_STORE_FAILED: host memory refuses the store path (R489). -/
def fossilStoreFailed (at_ : Nat) (s : State) : State :=
  let s := s.advanceTo at_
  match s.fos.epoch with
  | some e =>
    if s.fld Fld.fosState = fosOpen ∧ s.hostAborts e.store ((e.pages.length + 1) * fosPage) then s.loseStore else s
  | none => s

def execFossilStoreFailed (at_ : Nat) (s : State) : Host.Outcome State Fault Refusal := .next (fossilStoreFailed at_ s)

/-- FOSSIL_BUDDY_LOST: the route to the buddy has failed (R492). -/
def fossilBuddyLost (at_ : Nat) (s : State) : State :=
  let s := s.advanceTo at_
  match s.fos.epoch with
  | some e => if e.buddyLive ∧ (s.fosRoute e.buddy).isNone then s.loseBuddy else s
  | none => s

def execFossilBuddyLost (at_ : Nat) (s : State) : Host.Outcome State Fault Refusal := .next (fossilBuddyLost at_ s)

/-! ## Commit (R484, R493, R494) -/

/-- Channel of a numbered flit. -/
def flitVc : WireFlit → Nat
  | .header _ _ _ k => k.vc
  | .data _ vc _ _ => vc
  | _ => 4

/-- Fossil data for a module has not left the port on its route, or its flits are not acknowledged. -/
def State.fosInFlight (s : State) (dst : Nat) : Bool :=
  match s.routePort dst with
  | some p =>
    let b := s.port p
    b.sendsAny (fun k => k.type == 9 && k.dst == dst) || b.replay.any fun f => flitVc f == 1
  | none => false

/-- The page counts and flags of a FOSSIL_COMMIT completion (R493). -/
def Epoch.tail (e : Epoch) : Nat :=
  let poison := e.pages.foldl (fun n (p : FosPage) => n + p.poisoned) 0
  (e.pages.length + 1) % 2 ^ 32 + poison % 2 ^ 32 * 2 ^ 32
    + (b2n (e.toStore && e.storeLive) + b2n (e.toBuddy && e.buddyLive) * 2 + b2n e.coFed * 4 + b2n (e.bounces != 0) * 8) * 2 ^ 64
    + e.bounces % 2 ^ 32 * 2 ^ 96

/-- The rows of R494: the status, and whether the epoch is committed. -/
def Epoch.outcome (e : Epoch) : Nat × Bool :=
  let store := e.toStore && e.storeLive
  let buddy := e.toBuddy && e.buddyLive
  let poison := e.pages.any fun (p : FosPage) => p.poisoned != 0
  if store == e.toStore && buddy == e.toBuddy then (b2n poison, true)
  else if store || buddy then (0, true)
  else (e.lost, false)

/-- A Streamed epoch ends under its commit (R494). -/
def State.commitEpoch (s : State) (e : Epoch) (id : Nat) : State :=
  let o := e.outcome
  let s := (s.endEpoch.releaseHold e.epoch).setFld Fld.fosEpoch e.epoch
  let s := if o.2 then s.setFld Fld.fosCommitted e.epoch else s
  let s := if o.2 ∧ e.toBuddy ∧ e.buddyLive then s.tell (.commit e.buddy e.epoch) else s
  s.completeCmd id o.1 e.tail

/-- EPOCH_STREAMED: every page and the header have landed at every live destination; a commit that waits is carried out
(R484, R493). -/
def epochStreamed (at_ : Nat) (s : State) : State :=
  let s := (s.advanceTo at_).endStreaming.pumpAll
  match s.fos.epoch with
  | some e =>
    let live := (e.toStore && e.storeLive) || (e.toBuddy && e.buddyLive)
    if s.fld Fld.fosState = fosOpen ∧ (live = false ∨ (e.headerSent ∧ (e.buddyLive = false ∨ s.fosInFlight e.buddy = false))) then
      let s := s.setFld Fld.fosState fosStreamed
      match e.commit with
      | some id => s.commitEpoch e id
      | none => s
    else s
  | none => s

def execEpochStreamed (at_ : Nat) (s : State) : Host.Outcome State Fault Refusal := .next (epochStreamed at_ s)

/-- FOSSIL_COMMIT: it waits until its epoch leaves Open (R493, R494). -/
def fossilCommit (at_ id : Nat) (s : State) : State :=
  let s := s.advanceTo at_
  match s.cmdReady id 0x08 with
  | none => s
  | some q =>
    let n := q.at_ 28 0 32
    match s.fos.epoch with
    | some e =>
      if e.epoch = n ∧ e.ctx = q.c then
        if e.commit.isSome then s
        else
          let s := s.startCmd q
          if s.fld Fld.fosState = fosStreamed then s.commitEpoch e id
          else s.mapEpoch fun e => { e with commit := some id }
      else (s.startCmd q).completeCmd id (if s.fos.abandoned.contains n then 0x0907 else 0x0902) 0
    | none => (s.startCmd q).completeCmd id (if s.fos.abandoned.contains n then 0x0907 else 0x0902) 0

def execFossilCommit (at_ id : Nat) (s : State) : Host.Outcome State Fault Refusal := .next (fossilCommit at_ id s)

/-- A context is destroyed: its epoch that is not Streamed is abandoned, and, where it is the training context, every hold is released
(R484, R497). -/
def State.epochDestroy (s : State) (c : Nat) : State :=
  let s := match s.fos.epoch with
    | some e => if e.ctx = c ∧ s.fld Fld.fosState ≠ fosStreamed then s.abandonEpoch e else s
    | none => s
  if s.trainCtx = some c then { s with fos := { s.fos with holds := [] } } else s

/-! ## Serving as a buddy (R490, R494, R500) -/

/-- Pages of a half of the buddy reserve, and their place (R490). -/
def State.halfPages (s : State) : Nat := 2048 * (s.fld Fld.buddyGib / 2)
def State.buddyPageAt (s : State) (half k : Nat) : Nat :=
  k % 4 * sliceSpan + s.buddyOff + half * (s.fld Fld.buddyGib / 2) * gib + k / 4 * fosPage

/-- The fossil field of an epoch's parity (R487). -/
def parityField (epoch : Nat) : Nat := 2 + epoch % 2

/-- BUDDY_OPEN_MESSAGE: this module accepts to hold an image, or refuses (R490). -/
def buddyOpenMessage (at_ sender epoch pages : Nat) (s : State) : State :=
  let s := s.advanceTo at_
  if s.flag Fld.buddyEn ∧ s.fld Fld.buddySender = sender ∧ s.flag Fld.buddyFilling = false ∧ pages + 1 ≤ s.halfPages then
    let s := { s with fos := { s.fos with
      landing := some (sender, epoch, pages), arriving := s.fos.arriving.filter fun a => a.fill } }.setFld Fld.buddyLanding 1
    s.tell (.reply sender true s.feedId)
  else s.tell (.reply sender false s.feedId)

def execBuddyOpenMessage (at_ sender epoch pages : Nat) (s : State) : Host.Outcome State Fault Refusal :=
  .next (buddyOpenMessage at_ sender epoch pages s)

/-- An image page lands in the half that does not hold the committed image, with the parity of its epoch (R490). -/
def State.landImage (s : State) (src page : Nat) (data : List (Nat × Nat)) : State :=
  match s.fos.landing with
  | some (from_, epoch, pages) =>
    if from_ = src ∧ page ≤ pages then
      let pa := s.buddyPageAt (1 - s.fos.half) page
      (s.writeFosPage pa (gransOf data)).fossilField pa (parityField epoch)
    else s
  | none => s

/-- BUDDY_IMAGE_PAGE. -/
def buddyImagePage (at_ src page : Nat) (data : List (Nat × Nat)) (s : State) : State := (s.advanceTo at_).landImage src page data

def execBuddyImagePage (at_ src page : Nat) (data : List (Nat × Nat)) (s : State) : Host.Outcome State Fault Refusal :=
  .next (buddyImagePage at_ src page data s)

/-- COMMIT_MARKER_RECEIVED: the image that has landed replaces the committed one (R490, R494). -/
def commitMarkerReceived (at_ sender epoch : Nat) (s : State) : State :=
  let s := s.advanceTo at_
  match s.fos.landing with
  | some (from_, e, pages) =>
    if from_ = sender ∧ e = epoch then
      let s := { s with fos := { s.fos with
        landing := none, arriving := s.fos.arriving.filter (fun a => a.fill), half := 1 - s.fos.half } }
      (((s.setFld Fld.buddyLanding 0).setFld Fld.buddyEpoch epoch).setFld Fld.buddyValid 1).setFld Fld.buddyPages pages
    else s
  | none => s

def execCommitMarkerReceived (at_ sender epoch : Nat) (s : State) : Host.Outcome State Fault Refusal :=
  .next (commitMarkerReceived at_ sender epoch s)

/-- Granules of a page with the poison that a fossil field of another epoch gives them; these are counted (R500). -/
def markGrans (pa f : Nat) (r : List Gran × State) : List Gran × State :=
  let other (i : Nat) : Bool := (SMap.get (fun _ => 0) r.2.mem.fossil (pa / 64 + i)).toNat != f
  let n := ((List.range r.1.length).filter other).length
  ((List.zip r.1 (List.range r.1.length)).map fun (g : Gran × Nat) => (g.1.1, g.1.2 || other g.2),
   { r.2 with fos := { r.2.fos with parityMisses := r.2.fos.parityMisses + n } })

/-- A page of the committed image as the buddy sends it: a granule with another fossil field goes out poisoned (R500). -/
def State.committedPage (s : State) (k : Nat) : List Gran × State :=
  let pa := s.buddyPageAt s.fos.half k
  markGrans pa (parityField (s.fld Fld.buddyEpoch)) (s.readFosPage pa)

/-- FILL_REQUEST_RECEIVED: the committed image goes to the requester, the header first, or the request is refused
(R500). -/
def fillRequestReceived (at_ requester epoch : Nat) (s : State) : State :=
  let s := s.advanceTo at_
  if s.flag Fld.buddyValid = false ∨ s.fld Fld.buddyEpoch ≠ epoch then s.tell (.refused requester 0x0909)
  else if s.fld Fld.buddySender ≠ requester then s.tell (.refused requester 0x0905)
  else
    let s := s.setFld Fld.buddyFilling 1
    let s := (List.range (s.fld Fld.buddyPages + 1)).foldl (fun t k =>
      let r := t.committedPage k
      (r.2.fosPackets true requester epoch k r.1).foldl State.routeOut r.2) s
    s.endFillRead

def execFillRequestReceived (at_ requester epoch : Nat) (s : State) : Host.Outcome State Fault Refusal :=
  .next (fillRequestReceived at_ requester epoch s)

/-! ## Filling a spare (R500 to R502) -/

/-- The request of a fill goes to the buddy once there is a route (R500, R501; log entry 183). -/
def State.askFill (s : State) : State :=
  match s.fos.fill with
  | some f =>
    if f.asked ∨ (s.fosRoute f.buddy).isNone then s
    else { s with fos := { s.fos with fill := some { f with asked := true } } }.tell (.request f.buddy s.moduleId f.epoch)
  | none => s

/-- FILL_FROM_BUDDY: the request goes to the buddy (R500). -/
def fillFromBuddy (at_ id : Nat) (s : State) : State :=
  let s := s.advanceTo at_
  match s.cmdReady id 0x09 with
  | none => s
  | some q =>
    if s.fos.fill.isSome then s
    else
      let s := s.startCmd q
      if s.ctxState q.c ≠ csLoaded ∨ s.modeOf ≠ 0 ∨ s.flag Fld.moduleValid = false then s.completeCmd id 0x0013 0
      else
        let f : Fill := { cmd := id, ctx := q.c, buddy := q.at_ 24 0 12, epoch := q.at_ 28 0 32 }
        { s with fos := { s.fos with fill := some f } }.askFill

def execFillFromBuddy (at_ id : Nat) (s : State) : Host.Outcome State Fault Refusal := .next (fillFromBuddy at_ id s)

/-- The eight 8-byte words of a granule. -/
def granWords (g : Gran) : List Nat := (List.range 8).map fun i => bits g.1 (64 * i) 64

/-- Every part of a page translates for writing. -/
def pageTranslates (s : State) (c va : Nat) : Bool :=
  (List.range 128).all fun i => match (hubTranslate c (va + i * 2 ^ 14) true s).1 with | .ok _ => true | .error _ => false

/-- The pages of a fill that arrive are of no use any more. -/
def State.dropArriving (s : State) : State := { s with fos := { s.fos with arriving := s.fos.arriving.filter fun a => !a.fill } }

/-- A fill stops with DEVICE_ADDRESS (R500). -/
def State.stopFill (s : State) (f : Fill) : State := { s with fos := { s.fos with fill := none } }.dropArriving.completeCmd f.cmd 0x0015 0

/-- The header has landed: every directory entry is translated before any page is written (R500). -/
def State.fillHeader (s : State) (f : Fill) (l : List Gran) : State :=
  let n := bits (l.headD (0, false)).1 64 32
  let dir := (((l.drop 2048).flatMap granWords).take n).map fun w => bits w 0 27 * fosPage
  let versions := ((l.drop 1024).take 512).flatMap granWords
  if dir.all (pageTranslates s f.ctx) then
    { s with fos := { s.fos with fill := some { f with header := true, dir := dir, versions := versions } } }
  else s.stopFill f

/-- The header's versions enter the version table of the spare's context (R500). -/
def State.loadVersions (s : State) (c : Nat) (l : List Nat) : State :=
  (s.shardsOf c).foldl (fun t n => t.setShard c n { t.shard c n with version := BitVec.ofNat 32 (l.getD n 0) }) s

/-- The last page has been written: the versions are loaded, and the fill completes (R500 to R502). -/
def State.endFill (s : State) (f : Fill) : State :=
  let s := (s.loadVersions f.ctx f.versions).setFld Fld.partial_ 0
  let s := { s with fos := { s.fos with fill := none, owed := [] } }.dropArriving
  s.completeCmd f.cmd (b2n (f.poisoned != 0)) 0

/-- One page of the image is written at its address (R500). -/
def fillWrite (c va : Nat) (l : List Gran) : Exec Unit :=
  Exec.each (List.zip l (List.range l.length)) fun (g : Gran × Nat) => do
    let pa ← hubTranslate c (va + 64 * g.2) true
    Exec.doState fun s => s.touchPage pa
    storePhys pa (leBytes 64 g.1.1) g.1.2

/-- Page `page` of the image reaches the spare: the pages arrive in order. `none` where a page that an epoch protects keeps it
waiting (R485). -/
def State.fillPage (s : State) (page : Nat) (l : List Gran) : Option State :=
  match s.fos.fill with
  | some f =>
    if f.header = false then
      if page = 0 then
        let s := s.fillHeader f l
        match s.fos.fill with
        | some f => some (if f.dir = [] then s.endFill f else s)
        | none => some s
      else some s
    else if page = f.landed + 1 then
      match f.dir[f.landed]? with
      | some va =>
        match fillWrite f.ctx va l s with
        | (.ok _, t) =>
          let f := { f with landed := page, poisoned := f.poisoned + poisonCount l }
          let t := { t with fos := { t.fos with fill := some f } }
          some (if f.landed = f.dir.length then t.endFill f else t)
        | (.error .stall, _) => none
        | (.error _, t) => some (t.stopFill f)
      | none => some s
    else some s
  | none => some s

/-- FILL_PAGE_RECEIVED: a page, or the buddy's refusal with its status (R500). -/
def fillPageReceived (at_ refused page : Nat) (data : List (Nat × Nat)) (s : State) : State :=
  let s := s.advanceTo at_
  match s.fos.fill with
  | some f =>
    if refused = 0 then (s.fillPage page (gransOf data)).getD s
    else if f.header = false then { s with fos := { s.fos with fill := none } }.completeCmd f.cmd refused 0
    else s
  | none => s

def execFillPageReceived (at_ refused page : Nat) (data : List (Nat × Nat)) (s : State) : Host.Outcome State Fault Refusal :=
  .next (fillPageReceived at_ refused page data s)

/-- FILL_SOURCE_LOST: the route to the buddy has failed after the request (R501). -/
def fillSourceLost (at_ : Nat) (s : State) : State :=
  let s := s.advanceTo at_
  match s.fos.fill with
  | some f => if f.asked ∧ (s.fosRoute f.buddy).isNone then s.loseFill else s
  | none => s

def execFillSourceLost (at_ : Nat) (s : State) : Host.Outcome State Fault Refusal := .next (fillSourceLost at_ s)

/-! ## Fossil packets (R344, R490, R500) -/

/-- A page of the list is this one. -/
def Arriving.same (a b : Arriving) : Bool := a.src == b.src && a.epoch == b.epoch && a.fill == b.fill

/-- The pages that are whole go where they belong: into the spare, or into the buddy reserve. -/
def State.landWhole (s : State) (a : Arriving) : State :=
  let t := { s with fos := { s.fos with arriving := s.fos.arriving.filter fun b => !a.same b } }
  if a.flits.length < 8192 then s
  else if a.fill then (t.fillPage a.page (gransOf a.flits)).getD s
  else t.landImage a.src a.page a.flits

/-- Pages that had to wait land (R485). -/
def State.landWaiting (s : State) : State := s.fos.arriving.foldl State.landWhole s

/-- A packet of type 0x09 reaches this module: its flits join those of the page that arrives; a page has 8,192 of them. -/
def State.fossilPacket (s : State) (k : Packet) : State :=
  let isFill := bit k.offset 47
  let wanted := if isFill then s.fos.fill.any fun f => f.buddy == k.src && f.epoch == k.xfer
    else s.fos.landing.any fun l => l.1 == k.src && l.2.1 == k.xfer
  if wanted = false then s
  else
    let new : Arriving := { src := k.src, epoch := k.xfer, fill := isFill, page := bits k.offset 15 32, flits := [] }
    let old := match s.fos.arriving.find? new.same with
      | some a => if a.page = new.page then a else new
      | none => new
    let rest := s.fos.arriving.filter fun a => !new.same a
    if 4 * old.flits.length ≠ k.offset % 32768 then { s with fos := { s.fos with arriving := rest } }
    else
      let a := { old with flits := old.flits ++ k.data }
      { s with fos := { s.fos with arriving := rest ++ [a] } }.landWhole a

/-! ## Step inputs and the state partial (R497, R502) -/

/-- Two ranges of addresses meet. -/
def rangesMeet (a n b m : Nat) : Bool := decide (a < b + m) && decide (b < a + n)

/-- A host write to a range would reach the window or a held half of the training context (R497). -/
def State.inputHeld (s : State) (c va n : Nat) : Bool :=
  let len := s.fld Fld.fosInPages * fosPage
  s.trainCtx == some c && (rangesMeet va n s.inWindow len || s.fos.holds.any fun h => rangesMeet va n (s.inHalf h.1) len)

/-- The same for a write to physical addresses, by the pages to which the window and the held halves translate (R497). -/
def State.inputHeldAt (s : State) (c pa n : Nat) : Bool :=
  let pages := List.range (s.fld Fld.fosInPages)
  s.trainCtx == some c && ((s.inWindow :: s.fos.holds.map fun h => s.inHalf h.1).any fun va => pages.any fun i =>
    match (hubTranslate c (va + i * fosPage) false s).1 with
    | .ok a => rangesMeet pa n a fosPage
    | .error _ => false)

/-- What is left of the owed ranges when a range has been written (R502). -/
def payRange (l : List (Nat × Nat)) (a n : Nat) : List (Nat × Nat) :=
  (l.flatMap fun r => [(r.1, min (r.1 + r.2) a - r.1), (max r.1 (a + n), r.1 + r.2 - max r.1 (a + n))]).filter fun r => r.2 != 0

/-- The state with a written range paid. -/
def State.payOwed (s : State) (a n : Nat) : State := { s with fos := { s.fos with owed := payRange s.fos.owed a n } }

/-! ## Registers (R503, R583) -/

/-- The FOS registers that the host driver writes. -/
def fosSetRegs : List Nat := [Reg.fosSetLo, Reg.fosSetHi, Reg.fosSetCnt, Reg.fosInWin, Reg.fosInH0, Reg.fosInH1, Reg.fosInSize]

/-- A write of a FOS register is refused (R503). -/
def State.fosRefuses (s : State) (off v : Nat) : Bool :=
  if off = Reg.fosBuddyIn then s.flag Fld.buddyLanding || s.flag Fld.buddyFilling
  else fosSetRegs.contains off && (s.fld Fld.fosState != fosNone || (off == Reg.fosSetCnt && decide (4096 < bits v 0 13)))

/-- A write of a FOS register: applied, or ignored with cfg_reject (R503). -/
def State.fosWrite (s : State) (off : Nat) (v : Word) : State :=
  if s.fosRefuses off v.toNat then s.setFld Fld.fosCfgReject 1 else s.plainWrite off v

/-- FOS_REG_WRITE: both parties write the FOS block as the access codes say (R503, R575). -/
def fosRegWrite (at_ : Nat) (party : Party) (off : Nat) (value : Word) (s : State) : State :=
  let s := s.advanceTo at_
  if Reg.fos ≤ off ∧ off < Reg.pwr ∧ s.admits party off then s.fosWrite off value else s

def execFosRegWrite (at_ : Nat) (party : Party) (off : Nat) (value : BitVec 32) (s : State) :
    Host.Outcome State Fault Refusal := .next (fosRegWrite at_ party off value s)

end Sys2Proof.Machine
end

