-- ==== Sys2Proof/Machine/Vein.lean ====
section
/-! DEFINITION. Vein ports: flit groups, packets, transit, link control, retry episodes, degrading, training, and the route
and pool registers (chapter Vein Links). -/

namespace Sys2Proof.Machine

/-! ## Local delivery (R344 to R346) -/

/-- A symbol reaches the tick logic (R33). -/
def State.symbolIn (s : State) (port : Nat) (k : Packet) : State :=
  match k.type with
  | 5 => tickSymbolReceived s.now port k.src k.domain k.count k.abort s
  | 6 => doneSymbolReceived s.now port k.domain k.count s
  | _ => stretchSymbolReceived s.now port k.src k.domain k.count s

/-- A packet for this module is delivered: it leaves its pool as the hub moves it out (R345, R348). A lease reply whose list entry
cannot take it yet waits in its pool (R402). -/
def State.deliver (s : State) (port : Nat) (k : Packet) : State :=
  let pool := s.poolIn k
  let n := 1 + k.data.length
  if k.symbol then s.symbolIn port k
  else if k.type = 8 then (s.freePool port pool n).routeFail (bits k.body 0 12) (bits k.body 16 12)
  else if k.type = 9 then (s.freePool port pool n).fossilPacket k
  else if k.job = 0 then s.freePool port pool n
  else match s.jobCtx k.job with
    | none => (s.freePool port pool n).dropPacket k
    | some c =>
      if k.type = 1 ∨ k.type = 2 ∨ k.type = 3 ∨ (k.type = 4 ∧ s.leaseHeld k) then s.collReceive (some port) pool c k
      else
        let s := s.freePool port pool n
        if k.type = 4 then s.leasePacket c k else s

/-- A packet is for this module (R343, R346). -/
def State.forMe (s : State) (k : Packet) : Bool := k.dst == dstNeighbour || k.dst == s.moduleId

/-- A transit packet begins, with `more` data flits to come: it goes on by the route table as its flits arrive, out of the buffer
of this module's own pool of the same job, or it is dropped (R346, R348). -/
def State.forward (s : State) (port more : Nat) (k : Packet) : RxTo × State :=
  let pool := s.poolIn k
  let src := if k.symbol then none else some (port, pool)
  let m := { k with escape := false }
  match s.routeFor m with
  | some p => (.out p, s.enterPort p { pkt := m, pool := s.poolOf m, src := src, more := more })
  | none => (.gone, (if k.symbol then s else s.freePool port pool (1 + k.data.length)).dropPacket k)

/-- A whole packet has arrived at a port: it is delivered here, or it goes on (R346, R348). -/
def State.receivePacket (s : State) (port : Nat) (k : Packet) : State :=
  if s.forMe k then s.deliver port k else (s.forward port 0 k).2

/-- PACKET_RECEIVED (R346). -/
def packetReceived (at_ port : Nat) (pkt : Packet) (s : State) : State :=
  let s := s.advanceTo at_
  if s.carries port then (s.receivePacket port pkt).collSweep else s

def execPacketReceived (at_ port : Nat) (pkt : Packet) (s : State) : Host.Outcome State Fault Refusal :=
  .next (packetReceived at_ port pkt s)

/-- ROUTE_FAIL_RECEIVED: a notice for this module's engines (R346, R377). -/
def routeFailReceived (at_ dst job : Nat) (s : State) : State := ((s.advanceTo at_).routeFail dst job).collSweep

def execRouteFailReceived (at_ dst job : Nat) (s : State) : Host.Outcome State Fault Refusal :=
  .next (routeFailReceived at_ dst job s)

/-! ## Flit groups (R340 to R343, R351, R352) -/

/-- A header flit in order opens a packet on its channel; one without data flits is whole. A transit packet goes on from here. -/
def State.takeHeader (s : State) (p nData : Nat) (k : Packet) : State :=
  let k := { k with data := [] }
  if nData = 0 then s.receivePacket p k
  else
    let r := if s.forMe k then (.here, s) else s.forward p nData k
    let b := r.2.port p
    r.2.setPort p { b with partials := (b.partials.filter fun f => f.vc != k.vc) ++ [⟨k.vc, nData, r.1, k⟩] }

/-- A data flit of a transit packet joins what waits to leave. -/
def OutPkt.join (port vc : Nat) (d : Nat × Nat) (o : OutPkt) : OutPkt :=
  if o.more ≠ 0 ∧ o.pkt.vc = vc ∧ o.src.any (fun i => i.1 == port) then
    { o with more := o.more - 1, pkt := { o.pkt with data := o.pkt.data ++ [d] } } else o

/-- What is left of the packet that channel `vc` of a port is receiving. -/
def State.keepFlow (s : State) (p vc : Nat) (g : RxFlow) : State :=
  let b := s.port p
  let rest := b.partials.filter fun f => f.vc != vc
  s.setPort p { b with partials := if g.left = 0 then rest else rest ++ [g] }

/-- A data flit in order joins the packet of its channel. -/
def State.takeData (s : State) (p vc poison body : Nat) : State :=
  let b := s.port p
  let d := (body % 2 ^ 2048, poison % 16)
  match b.partials.find? fun f => f.vc == vc with
  | none => s
  | some f =>
    let f := { f with left := f.left - 1 }
    match f.dest with
    | .here =>
      let f := { f with pkt := { f.pkt with data := f.pkt.data ++ [d] } }
      if f.left = 0 then (s.keepFlow p vc f).receivePacket p f.pkt else s.keepFlow p vc f
    | .out q =>
      let s := (s.keepFlow p vc f).pump q
      let o := s.port q
      s.setPort q { o with queue := o.queue.map (OutPkt.join p vc d), cur := o.cur.map (OutPkt.join p vc d) }
    | .gone => (s.keepFlow p vc f).freePool p (s.poolIn f.pkt) 1

/-- The receiver asks for a replay: it discards numbered flits until the expected one comes (R351, R352). -/
def State.askReplay (s : State) (p : Nat) : State :=
  (s.setPort p { s.port p with discard := true }).sendControl p true

/-- A numbered flit: in order it is taken, and the first of a replay is acknowledged at once; a failed header or another number
asks for a replay (R343, R351, R352). -/
def State.numbered (s : State) (p num : Nat) (ok : Bool) (take : State → State) : State :=
  let b := s.port p
  if num ≠ b.rxNext then (if b.discard then s else s.askReplay p)
  else if ok = false then s.askReplay p
  else
    let s := s.setPort p { b with rxNext := (b.rxNext + 1) % 4096, discard := false, owed := true }
    let s := if b.discard then s.sendControl p false else s
    take s

/-- One wire flit of a good group. -/
def State.wireFlit (s : State) (p : Nat) (f : WireFlit) : State :=
  match f with
  | .idle => s
  | .control c => s.portControl p c
  | .header n crc nd k => s.numbered p n (crc == headerCrc n nd k) fun t => t.takeHeader p nd k
  | .data n vc poison body => s.numbered p n true fun t => t.takeData p vc poison body

/-- A bad group is counted, with the symbols that each lane carried, and asks for a replay; a good one ends a run of bad ones
(R341, R357). -/
def State.badGroup (s : State) (p : Nat) (lanes : List Nat) : State :=
  let s := s.bump (Fld.badGroups p)
  (s.setPort p { s.port p with bad := (lanes :: (s.port p).bad).take 3 }).askReplay p
def State.goodGroup (s : State) (p : Nat) : State := if (s.port p).bad = [] then s else s.setPort p { s.port p with bad := [] }

/-- FLIT_GROUP_RECEIVED: a group whose codewords decoded with at most 12 corrected symbols each is accepted; any other is a bad
group (R341). A codeword that did not decode counts more than 12. `lanes` are the corrected and uncorrectable symbols by lane. -/
def flitGroupReceived (at_ port c0 c1 : Nat) (lanes : List Nat) (flits : List WireFlit) (s : State) : State :=
  let s := s.advanceTo at_
  if s.carries port then
    if c0 ≤ 12 ∧ c1 ≤ 12 then ((flits.take 5).foldl (fun t f => t.wireFlit port f) (s.goodGroup port)).collSweep
    else s.badGroup port lanes
  else s

def execFlitGroupReceived (at_ port c0 c1 : Nat) (group : FlitGroup) (s : State) :
    Host.Outcome State Fault Refusal := .next (flitGroupReceived at_ port c0 c1 group.lanes group.flits s)

/-- LINK_CONTROL_RECEIVED (R351 to R353). -/
def linkControlReceived (at_ port : Nat) (control : LinkControl) (s : State) : State :=
  ((s.advanceTo at_).portControl port control).collSweep

def execLinkControlReceived (at_ port : Nat) (control : LinkControl) (s : State) : Host.Outcome State Fault Refusal :=
  .next (linkControlReceived at_ port control s)

/-- LINK_CONTROL_DUE: acks or credits are owed, and the last link control flit is a microsecond old (R351). -/
def linkControlDue (at_ port : Nat) (s : State) : State :=
  let s := s.advanceTo at_
  if (s.port port).owed ∧ (s.port port).ctlAt + us 1 ≤ s.now then s.sendControl port false else s

def execLinkControlDue (at_ port : Nat) (s : State) : Host.Outcome State Fault Refusal := .next (linkControlDue at_ port s)

/-- ACK_TIMEOUT: no ack has advanced for 4 µs while flits are unacknowledged: a replay from the oldest (R352). -/
def ackTimeout (at_ port : Nat) (s : State) : State :=
  let s := (s.advanceTo at_).pump port
  match (s.port port).replay with
  | f :: _ =>
    if s.carries port ∧ (s.port port).ackAt + us 4 ≤ s.now then
      match f.num with
      | some n => s.startReplay port n
      | none => s
    else s
  | [] => s

def execAckTimeout (at_ port : Nat) (s : State) : Host.Outcome State Fault Refusal := .next (ackTimeout at_ port s)

/-! ## Failing and degrading (R353, R356, R357, R361) -/

/-- A port fails with a code: it enters Failed, its transfers end, and the error is recorded. -/
def State.loseLink (s : State) (p code : Nat) : State :=
  let s := s.failPort p
  let s := s.setPort p { s.port p with failCode := code }
  (s.raise { code := code, domain := domPort, index := p }).collSweep

/-- LINK_FAILED: the open episode has lasted longer than the budget (R353). -/
def linkFailed (at_ port : Nat) (s : State) : State :=
  let s := s.advanceTo at_
  if s.flag (Fld.episode port) ∧ us (s.fld (Fld.retryBudget port)) < s.now - (s.port port).epStart then s.loseLink port 0x0303
  else s

def execLinkFailed (at_ port : Nat) (s : State) : Host.Outcome State Fault Refusal := .next (linkFailed at_ port s)

/-- LINK_DOWN: loss of signal that leaves no whole half, or the peer in electrical idle (R356). -/
def linkDown (at_ port : Nat) (s : State) : State :=
  let s := s.advanceTo at_
  if [psUp, psDegrading, psDegraded].contains (s.fld (Fld.portState port)) then s.loseLink port 0x0302 else s

def execLinkDown (at_ port : Nat) (s : State) : Host.Outcome State Fault Refusal := .next (linkDown at_ port s)

/-- The lanes of the half that does not hold a lane. -/
def otherHalf (lane : Nat) : Nat := if lane % 8 < 4 then 0xF0 else 0x0F

/-- Over 3 consecutive bad groups a lane carried more than half of the corrected and uncorrectable symbols (R357). -/
def Port.laneBad (b : Port) (lane : Nat) : Bool :=
  let mine := b.bad.foldl (fun n l => n + l.getD (lane % 8) 0) 0
  b.bad.length == 3 && decide (b.bad.foldl (fun n l => n + (l.take 8).sum) 0 < 2 * mine)

/-- LANE_DEGRADE: during an episode a lane has lost lock, or carries most of the bad symbols of three bad groups; with a whole
half left the port degrades (R357). -/
def laneDegrade (at_ port lane : Nat) (lost : Bool) (s : State) : State :=
  let s := (s.advanceTo at_).pump port
  if s.fld (Fld.portState port) = psUp ∧ s.flag (Fld.episode port) ∧ s.flag (Fld.degradeEn port)
      ∧ (lost ∨ (s.port port).laneBad lane) ∧ s.fld (Fld.lanesOk port) &&& otherHalf lane = otherHalf lane then
    (s.setPort port { s.port port with lostLane := lane % 8 }).setFld (Fld.portState port) psDegrading
  else s

def execLaneDegrade (at_ port : Nat) (sign : LaneSign) (s : State) : Host.Outcome State Fault Refusal :=
  .next (laneDegrade at_ port sign.lane sign.lost s)

/-- A port carries traffic from now on, at its width. -/
def State.runs (s : State) (p : Nat) : State := s.setPort p { s.port p with upAt := s.now, groups := 0 }

/-- LINK_DEGRADED: both ends have retrained on the other half; the port runs at ×4 (R356, R357, R361). -/
def linkDegraded (at_ port : Nat) (s : State) : State :=
  let s := s.advanceTo at_
  if s.fld (Fld.portState port) = psDegrading then
    let s := (s.setFld (Fld.portState port) psDegraded).setFld (Fld.lanesOk port) (otherHalf (s.port port).lostLane)
    ((s.runs port).report { code := 0x0304, index := port }).collSweep
  else s

def execLinkDegraded (at_ port : Nat) (s : State) : Host.Outcome State Fault Refusal := .next (linkDegraded at_ port s)

/-! ## Training (R338, R356) -/

/-- A port that trained: whether it reaches Up, Degraded or neither. -/
def trainedState (lanes : Nat) (degrade : Bool) : Option Nat :=
  if lanes % 256 = 255 then some psUp
  else if degrade ∧ (lanes &&& 0x0F = 0x0F ∨ lanes &&& 0xF0 = 0xF0) then some psDegraded
  else none

/-- LINK_UP: training has ended with these lanes and this peer (R338, R356). -/
def linkUp (at_ port peer lanes : Nat) (s : State) : State :=
  let s := s.advanceTo at_
  if s.fld (Fld.portState port) = psTraining ∧ s.flag Fld.moduleValid then
    match trainedState lanes (s.flag (Fld.degradeEn port)) with
    | some st =>
      let s := (((s.setFld (Fld.portState port) st).setFld (Fld.lanesOk port) lanes).setFld (Fld.portPeer port) peer).runs port
      let s := s.report { code := 0x0301, index := port }
      if st = psDegraded then s.report { code := 0x0304, index := port } else s
    | none => s.setFld (Fld.lanesOk port) lanes
  else s

def execLinkUp (at_ port peer lanes : Nat) (s : State) : Host.Outcome State Fault Refusal := .next (linkUp at_ port peer lanes s)

/-- A port begins to train. What it holds stays: a failed or disabled port holds nothing (R356). -/
def State.train (s : State) (p : Nat) : State :=
  (s.setPort p { s.port p with trainAt := s.now, failCode := 0 }).setFld (Fld.portState p) psTraining

/-- TRAINING_RETRY: a port in Training tries again every 100 ms (R356). -/
def trainingRetry (at_ port : Nat) (s : State) : State :=
  let s := s.advanceTo at_
  if s.fld (Fld.portState port) = psTraining ∧ (s.port port).trainAt + ms 100 ≤ s.now then s.train port else s

def execTrainingRetry (at_ port : Nat) (s : State) : Host.Outcome State Fault Refusal := .next (trainingRetry at_ port s)

/-- Flint may retrain a port: under the default policy, or policy 0x05, a failed one after 1 s, and a degraded one when it likes; a
port that FENCE_UNIT took out stays out (R356, R441, R448). -/
def State.mayRetrain (s : State) (port : Nat) : Bool :=
  let b := s.port port
  let p := s.policy b.failCode
  !s.fenceBit domPort port && s.flag (Fld.portEnable port) && !s.err.flintDown
    && (s.fld (Fld.portState port) == psDegraded
      || (s.fld (Fld.portState port) == psFailed && b.failCode != 0 && (p == 0 || p == 5) && decide (b.failedAt + ms 1000 ≤ s.now)))

/-- PORT_RETRAIN (R356). -/
def portRetrain (at_ port : Nat) (s : State) : State :=
  let s := (s.advanceTo at_).pump port
  if s.mayRetrain port then s.train port else s

def execPortRetrain (at_ port : Nat) (s : State) : Host.Outcome State Fault Refusal := .next (portRetrain at_ port s)

/-- Flint writes VEI_PORT_CFG: enable opens training, or takes the port to Disabled (R356). -/
def State.portConfig (s : State) (p : Nat) (v : Word) : State :=
  let was := s.flag (Fld.portEnable p)
  if bits v.toNat 0 10 < 5 ∨ 1000 < bits v.toNat 0 10 then s.setFld Fld.veiCfgReject 1 else
  let s := s.wr (Reg.portCfg p) (keepBits (bitMask 31 30 + bitMask 9 0) v)
  if s.flag (Fld.portEnable p) then
    (if was ∨ s.fld (Fld.portState p) ≠ psDisabled ∨ s.fenceBit domPort p then s else s.train p)
  else (((((s.closeEpisode p).cutTransit p).setPort p {}).setFld (Fld.portState p) psDisabled).setFld (Fld.lanesOk p) 0).endFillRead

/-! ## Routes and pools (R349, R360, R575, R576) -/

/-- A Flint write of VEI_ROUTE_DATA. -/
def State.routeWrite (s : State) (dst : Nat) (v : Word) : State :=
  { s with vein := { s.vein with routes := SMap.put (fun _ => 0) s.vein.routes dst (keepBits (bitMask 31 31 + bitMask 3 0) v) } }

/-- VEI_ROUTE_DATA_WRITE: the entry that Flint's VEI_ROUTE_IDX names; a host write is ignored (R360, R575). -/
def veiRouteDataWrite (party : Party) (value : Word) (s : State) : State :=
  if s.admits party Reg.vei = false then s else
  match party with
  | .host => s.setFld Fld.hostWrReject 1
  | .flint => s.routeWrite (bits (s.rd Reg.veiRouteIdx).toNat 0 12) value

def execVeiRouteDataWrite (party : Party) (value : BitVec 32) (s : State) : Host.Outcome State Fault Refusal :=
  .next (veiRouteDataWrite party value s)

/-- The pools of a port together, but for one. -/
def State.poolSum (s : State) (p but : Nat) : Nat :=
  (List.range 33).foldl (fun n i => if i = but then n else n + s.poolSize p i) 0

/-- The port and the pool that an index names (R360). -/
def poolIndex (idx : Nat) : Nat × Nat := (bits idx 5 4, if bit idx 9 then poolHub else bits idx 0 5)

/-- A pool size may be set: 0 or 64 to 4,096 flits, at most 4,096 for the port, and no change of a pool of a context that takes
part (R348, R349, R360). -/
def State.poolOk (s : State) (p pool n : Nat) : Bool :=
  (n == 0 || (decide (64 ≤ n) && decide (n ≤ 4096))) && decide (s.poolSum p pool + n ≤ 4096)
    && (pool == poolHub || n == s.poolSize p pool || !s.flag (Fld.jobValid (pool / 4)))

/-- The state with a pool size set, or the write refused. -/
def State.poolWrite (s : State) (p pool n : Nat) : State :=
  if s.poolOk p pool n then
    { s with vein := { s.vein with pools := SMap.put (fun _ => 0) s.vein.pools (64 * p + pool) n } }
  else s.setFld Fld.veiCfgReject 1

/-- VEI_POOL_DATA_WRITE. -/
def veiPoolDataWrite (party : Party) (value : Word) (s : State) : State :=
  if s.admits party Reg.vei = false then s else
  match party with
  | .host => s.setFld Fld.hostWrReject 1
  | .flint =>
    let i := poolIndex (s.rd Reg.veiPoolIdx).toNat
    s.poolWrite i.1 i.2 (bits value.toNat 0 13)

def execVeiPoolDataWrite (party : Party) (value : BitVec 32) (s : State) : Host.Outcome State Fault Refusal :=
  .next (veiPoolDataWrite party value s)

end Sys2Proof.Machine
end

