-- ==== Sys2Proof/Machine/Power.lean ====
section
/-! DEFINITION. Power: the sequence of the supply, resets, the limits on the arithmetic clocks, droop, reference clocks and
weathering (chapter Power, Clocks and Ageing; R562, R569, R570, R578). -/

namespace Sys2Proof.Machine

/-! ## What a reset leaves (R527, R535, R536, R562, R570, R578) -/

/-- One byte of the boot flash (R509). -/
def State.flashByte (s : State) (a : Nat) : Byte := SMap.get Config.flash s.fw.flash a

/-- Bytes written to the boot flash. -/
def State.putFlash (s : State) : Nat → List Byte → State
  | _, [] => s
  | a, b :: r => State.putFlash { s with fw := { s.fw with flash := SMap.put Config.flash s.fw.flash a b } } (a + 1) r

/-- First byte of a slot, and of its record (R509). -/
def slotBase (slot : Nat) : Nat := slot * 2 ^ 25
def slotRecord (slot : Nat) : Nat := slotBase slot + 0x1FFF000

/-- The slot that an update writes: the one that does not hold the running image (R526). -/
def State.otherSlot (s : State) : Nat := 1 - s.fld Fld.bootSlot

/-- A slot's record no longer says valid (R512). -/
def State.invalidate (s : State) (slot : Nat) : State :=
  let a := slotRecord slot + 4
  s.putFlash a [s.flashByte a &&& 0xFE]

/-- An update that a reset or a loss of power interrupts leaves its slot without valid (R527). -/
def State.dropUpdate (s : State) : State := if s.fw.update.isSome then s.invalidate s.otherSlot else s

/-- The fused minimum svn and owner key, with what has been burned since (R520, R529, R578). -/
def State.minSvn (s : State) : Nat := max Config.fusedMinSvn.toNat s.fw.burnedSvn
def State.ownerKey (s : State) : Option Nat := (Config.fusedOwner.map fun k => k.toNat).or s.fw.owner

/-- The fused fields and the straps stand in their registers (R562, R578). -/
def State.loadFuses (s : State) : State :=
  let s := s.wr Reg.glbStraps s.pins.straps
  let s := (s.setFld Fld.minSvn s.minSvn).setFld Fld.ownerEnrolled (b2n s.ownerKey.isSome)
  (List.range 8).foldl (fun t n => t.wr (Reg.secOwnerKey n) (BitVec.ofNat 32 (s.ownerKey.getD 0 / 2 ^ (32 * n)))) s

/-- The module starts anew: only time, the boot flash, the fuses, the pins named, host memory and the queue of commands are
kept. What the memories held is lost (R536, R570, R578). -/
def State.anew (s : State) (phase : Phase) (en good : Bool) : State :=
  let s := s.dropUpdate
  let t : State :=
    { now := s.now
      mem := { mainEpoch := s.mem.mainEpoch + 1, sramEpoch := s.mem.sramEpoch + 1, losses := s.mem.losses
               host := s.mem.host, hostBad := s.mem.hostBad }
      fw := { flash := s.fw.flash, burnedSvn := s.fw.burnedSvn, owner := s.fw.owner }
      pwr := { lockout := s.pwr.lockout, lowSince := s.pwr.lowSince }
      pins := { phase := phase, pwrEn := en, pwrGood := good, perst := true, straps := s.pins.straps }
      freeCtr := s.freeCtr
      pending := s.pending }
  t.loadFuses

/-- The regulators turn off of themselves: PWR_GOOD falls, and they stay off until PWR_EN has been low for 100 ms (R536). -/
def State.regulatorsOff (s : State) : State :=
  if s.pins.phase = .unpowered ∨ s.pins.phase = .powerUp then s
  else ({ s with pwr := { s.pwr with lockout := true } }).anew .powerUp true false

/-! ## Sequencing (R533, R535, R536, R562, R569, R570) -/

/-- PWR_EN_RISE. -/
def pwrEnRise (at_ : Nat) (s : State) : State :=
  let s := s.advanceTo at_
  if s.pins.phase = .unpowered ∧ s.deaf = false then
    let s := { s with pins := { s.pins with phase := .powerUp, pwrEn := true } }
    if s.pwr.lowSince + ms 100 ≤ s.now then { s with pwr := { s.pwr with lockout := false } } else s
  else s

def execPwrEnRise (at_ : Nat) (s : State) : Host.Outcome State Fault Refusal := .next (pwrEnRise at_ s)

/-- PWR_GOOD_RISE: every rail is in regulation; the straps are latched as the board ties them (R535, R562). -/
def pwrGoodRise (at_ feed node slot : Nat) (s : State) : State :=
  let s := s.advanceTo at_
  if s.pins.phase = .powerUp ∧ s.pwr.lockout = false then
    let w := strapsWord (BitVec.ofNat 4 feed, BitVec.ofNat 3 node, BitVec.ofNat 6 slot)
    { s with pins := { s.pins with phase := .reset, pwrGood := true, straps := w } }.loadFuses
  else s

def execPwrGoodRise (at_ feed node slot : Nat) (s : State) : Host.Outcome State Fault Refusal :=
  .next (pwrGoodRise at_ feed node slot s)

/-- PWR_EN_FALL: the rails turn off (R535, R536). -/
def pwrEnFall (at_ : Nat) (s : State) : State :=
  let s := s.advanceTo at_
  if s.pins.pwrEn ∧ s.deaf = false then ({ s with pwr := { s.pwr with lowSince := s.now } }).anew .unpowered false false else s

def execPwrEnFall (at_ : Nat) (s : State) : Host.Outcome State Fault Refusal := .next (pwrEnFall at_ s)

/-- PERST_ASSERT: in any phase after power-up the module enters the reset phase, and every context ends without a completion
(R570, R578). -/
def perstAssert (at_ : Nat) (s : State) : State :=
  let s := s.advanceTo at_
  if s.pins.phase = .unpowered ∨ s.pins.phase = .powerUp ∨ s.deaf then s else s.anew .reset true true

def execPerstAssert (at_ : Nat) (s : State) : Host.Outcome State Fault Refusal := .next (perstAssert at_ s)

/-- INPUT_UNDERVOLTAGE and INPUT_OVERVOLTAGE (R533). -/
def execInputUndervoltage (at_ : Nat) (s : State) : Host.Outcome State Fault Refusal := .next ((s.advanceTo at_).regulatorsOff)
def execInputOvervoltage (at_ : Nat) (s : State) : Host.Outcome State Fault Refusal := .next ((s.advanceTo at_).regulatorsOff)

/-- The module is powered and out of reset: its controllers act. -/
def State.up (s : State) : Bool := s.pins.phase == .boot || s.pins.phase == .running || s.pins.phase == .fatal

/-- INPUT_VOLTAGE: the input stands at `mv`; outside 44–58 V it sets input_range and raises the event once per excursion
(R533, R549). -/
def inputVoltage (at_ mv : Nat) (s : State) : State :=
  let s := s.advanceTo at_
  if s.up then
    let s := s.setFld Fld.inputMv mv
    if mv < 44000 ∨ 58000 < mv then
      (if s.flag Fld.inputRange then s else (s.setFld Fld.inputRange 1).report { code := 0x0705 })
    else s.setFld Fld.inputRange 0
  else s

def execInputVoltage (at_ mv : Nat) (s : State) : Host.Outcome State Fault Refusal := .next (inputVoltage at_ mv s)

/-! ## Ceiling and cap (R537, R540) -/

/-- The slowest clock that a request leaves, halved, but not below the floor. -/
def State.halvedClock (s : State) : Nat :=
  max 950 (([0, 1, 2, 3] : List Nat).foldl (fun m i => min m (s.requested i)) 1900 / 2)

/-- The ceiling in W at an input voltage: 2,200 W or 50 A (R537). -/
def ceilingW (mv : Nat) : Nat := min 2200 (50 * mv / 1000)

/-- POWER_SAMPLE: input voltage, current and the two averages as measured. A 1 ms average above the ceiling halves the clock;
with every slab at the floor tiles are withheld until it is below 2,100 W. Once it is within the ceiling the request is
dropped (R537, R548, R549). -/
def powerSample (at_ mv ca avg1ms avgWin : Nat) (s : State) : State :=
  let s := s.advanceTo at_
  if s.up then
    let s := (((s.setFld Fld.inputMv mv).setFld Fld.inputCa ca).setFld Fld.avg1ms avg1ms).setFld Fld.avgWin avgWin
    let above := decide (ceilingW mv < avg1ms)
    let atFloor := ([0, 1, 2, 3] : List Nat).all fun i => s.permitted i == 950
    let tell := above && atFloor && !s.pwr.withhold
    let s := { s with pwr := { s.pwr with
      withhold := (above && atFloor) || (s.pwr.withhold && decide (2100 ≤ avg1ms))
      ceilReq := if above then s.halvedClock else 0 } }
    let s := s.setClocks
    if tell then s.report { code := 0x0701 } else s
  else s

def execPowerSample (at_ mv ca avg1ms avgWin : Nat) (s : State) : Host.Outcome State Fault Refusal :=
  .next (powerSample at_ mv ca avg1ms avgWin s)

/-- CAP_STEP: every 50 µs the cap lowers or raises its request by 25 MHz (R537). -/
def capStep (at_ : Nat) (s : State) : State :=
  let s := s.advanceTo at_
  if s.up ∧ s.pwr.capAt + us 50 ≤ s.now then
    let cap := s.fld Fld.capW
    let avg := s.fld Fld.avgWin
    let now := if s.pwr.capReq = 0 then 1900 else s.pwr.capReq
    let req :=
      if s.flag Fld.capEn = false then 0
      else if cap < avg then max 950 (now - 25)
      else if 100 * avg < 98 * cap then (if 1900 ≤ now + 25 then 0 else now + 25)
      else s.pwr.capReq
    ({ s with pwr := { s.pwr with capReq := req, capAt := s.now } }).setClocks
  else s

def execCapStep (at_ : Nat) (s : State) : Host.Outcome State Fault Refusal := .next (capStep at_ s)

/-! ## Temperature (R538, R549) -/

/-- The temperature last sensed of a unit. -/
def State.temp (s : State) (u : Nat) : Nat := SMap.get (fun _ => 0) s.pwr.temps u

/-- A unit is in an excursion above its throttle threshold. -/
def State.isHot (s : State) (u : Nat) : Bool := SMap.get (fun _ => false) s.pwr.hot u

/-- The hottest of some units. -/
def State.hottest (s : State) (l : List Nat) : Nat := l.foldl (fun m u => max m (s.temp u)) 0

/-- A temperature is sensed: PWR_TEMP shows the hottest sensor of each kind. -/
def State.sense (s : State) (u temp : Nat) : State :=
  let s := { s with pwr := { s.pwr with temps := SMap.put (fun _ => 0) s.pwr.temps u temp } }
  ((s.setFld Fld.slabC (s.hottest [0, 1, 2, 3])).setFld Fld.hubC (s.temp 4)).setFld Fld.stackC (s.hottest ((List.range 32).map (5 + ·)))

/-- 50 MHz less, but not below the floor. -/
def lowered (req : Nat) : Nat := max 950 ((if req = 0 then 1900 else req) - 50)

/-- The thermal request of a unit set: of its slab, or of all slabs for the hub. A stack has none. -/
def State.setThermal (s : State) (u : Nat) (f : Nat → Nat) : State :=
  if u < 4 then s.setSlab u { s.slab u with thermReq := f (s.slab u).thermReq }
  else if u = 4 then { s with pwr := { s.pwr with hubReq := f s.pwr.hubReq } }
  else s

/-- A unit enters or goes on in an excursion, or leaves it, at this moment. -/
def State.setHot (s : State) (u : Nat) (b : Bool) : State :=
  { s with pwr := { s.pwr with hot := SMap.put (fun _ => false) s.pwr.hot u b, hotAt := SMap.put (fun _ => 0) s.pwr.hotAt u s.now } }

/-- The next step of a unit's excursion is due: 100 µs have passed since the last (R538). -/
def State.hotDue (s : State) (u : Nat) : Bool := decide (SMap.get (fun _ => 0) s.pwr.hotAt u + us 100 ≤ s.now)

/-- THERMAL_THROTTLE: slab 0–3, hub 4 or stack 5–36 reads `temp`. Above its threshold an excursion begins, with the event; each
step of one, 100 µs after the last, lowers the request by 50 MHz, and a stack's channels are held to half their bandwidth; at 2 °C below the threshold
it ends (R538). -/
def thermalThrottle (at_ unit temp : Nat) (s : State) : State :=
  let s := s.advanceTo at_
  if s.up ∧ unit < 37 then
    let s := s.sense unit temp
    let lim := s.fld (if unit < 5 then Fld.throttleC else Fld.stackThrottleC)
    if lim < temp ∧ s.isHot unit = false then (((s.setHot unit true).setThermal unit lowered).setClocks).report { code := 0x0702 }
    else if s.isHot unit then
      if temp + 2 ≤ lim then ((s.setHot unit false).setThermal unit fun _ => 0).setClocks
      else if s.hotDue unit then ((s.setHot unit true).setThermal unit lowered).setClocks else s
    else s
  else s

def execThermalThrottle (at_ unit temp : Nat) (s : State) : Host.Outcome State Fault Refusal :=
  .next (thermalThrottle at_ unit temp s)

/-- THERMAL_TRIP: a sensor above trip_c turns the regulators off (R538). -/
def thermalTrip (at_ unit temp : Nat) (s : State) : State :=
  let s := s.advanceTo at_
  if s.up ∧ unit < 37 ∧ s.fld Fld.tripC < temp then (s.sense unit temp).regulatorsOff else s

def execThermalTrip (at_ unit temp : Nat) (s : State) : Host.Outcome State Fault Refusal := .next (thermalTrip at_ unit temp s)

/-! ## THROTTLE_IN# (R539) -/

/-- THROTTLE_IN_ASSERT: recognised; every slab runs at the floor clock. -/
def throttleInAssert (at_ : Nat) (s : State) : State :=
  let s := s.advanceTo at_
  if s.up ∧ s.deaf = false ∧ s.flag Fld.throttleIn = false then
    let s := { s with pwr := { s.pwr with throttleAt := some s.now, throttleTold := false, throttleRamp := none } }
    ((s.setFld Fld.throttleIn 1).bump Fld.assertions).setClocks
  else s

def execThrottleInAssert (at_ : Nat) (s : State) : Host.Outcome State Fault Refusal := .next (throttleInAssert at_ s)

/-- THROTTLE_IN_RELEASE: recognised; the clocks return in 8 equal steps over 80 µs. -/
def throttleInRelease (at_ : Nat) (s : State) : State :=
  let s := s.advanceTo at_
  if s.up ∧ s.deaf = false ∧ s.flag Fld.throttleIn then
    let s := { s with pwr := { s.pwr with throttleAt := none, throttleRamp := some s.now } }
    (s.setFld Fld.throttleIn 0).setClocks
  else s

def execThrottleInRelease (at_ : Nat) (s : State) : Host.Outcome State Fault Refusal := .next (throttleInRelease at_ s)

/-- THROTTLE_IN_PULSE: a change that did not hold for 10 µs is counted and ignored. -/
def throttleInPulse (at_ : Nat) (s : State) : State :=
  let s := s.advanceTo at_
  if s.up ∧ s.deaf = false then s.bump Fld.filtered else s

def execThrottleInPulse (at_ : Nat) (s : State) : Host.Outcome State Fault Refusal := .next (throttleInPulse at_ s)

/-- THROTTLE_HELD: the assertion has lasted 1 s. -/
def throttleHeld (at_ : Nat) (s : State) : State :=
  let s := s.advanceTo at_
  match s.pwr.throttleAt with
  | some t =>
    if s.pwr.throttleTold = false ∧ t + ms 1000 ≤ s.now then
      ({ s with pwr := { s.pwr with throttleTold := true } }).report { code := 0x0703 }
    else s
  | none => s

def execThrottleHeld (at_ : Nat) (s : State) : Host.Outcome State Fault Refusal := .next (throttleHeld at_ s)

/-! ## Droop and canaries (R541, R543, R544) -/

/-- V_min, V_max and V_0 of a voltage group in mV (R544, R546). -/
def groupMin (g : Nat) : Nat := (Config.groupLimits g).1
def groupMax (g : Nat) : Nat := (Config.groupLimits g).2

/-- The weathering index of a group at a voltage (R546). -/
def groupIndex (g mv : Nat) : Nat := min 100 (100 * (groupMax g - mv) / (groupMax g - Config.groupV0 g))

/-- A group's voltage and index stand in its register; the module's index is the least, and WEAR_LOW is raised once per boot
below the threshold (R546, R548). -/
def State.setVolt (s : State) (g mv : Nat) : State := (s.setFld (Fld.grpMv g) mv).setFld (Fld.grpIndex g) (groupIndex g mv)
def State.checkWear (s : State) : State :=
  let i := (List.range 24).foldl (fun m g => min m (s.fld (Fld.grpIndex g))) 100
  let s := s.setFld Fld.wearIndex i
  if i < s.fld Fld.wearLow ∧ s.pwr.wearLowTold = false then
    ({ s with pwr := { s.pwr with wearLowTold := true } }).report { code := 0x0707 }
  else s

/-- A storm of droops raises a slab's group voltages by one step of 5 mV, never above V_max (R541). -/
def State.raiseGroups (s : State) (slab : Nat) : State :=
  ((List.range 6).foldl (fun t r =>
    let g := 6 * slab + r
    t.setVolt g (max (t.fld (Fld.grpMv g)) (min (groupMax g) (t.fld (Fld.grpMv g) + 5)))) s).checkWear

/-- A slab's clock is halved; each stretch is counted, and more than storm_per_ms of them in a millisecond are a storm
(R541, R543). -/
def State.stretch (s : State) (slab : Nat) : State :=
  if s.up ∧ slab < 4 then
    let b := s.slab slab
    let l := (b.droopAt.filter fun t => decide (s.now < t + ms 1)) ++ [s.now]
    let storm := decide (s.fld Fld.stormPerMs < l.length)
    let s := s.setSlab slab { b with drooped := true, droopRamp := none, droopAt := if storm then [] else l }
    let s := (s.bump (Fld.droops slab)).setClocks
    if storm then (s.report { code := 0x0704, index := slab }).raiseGroups slab else s
  else s

/-- DROOP and CANARY_STRETCH. -/
def execDroop (at_ slab : Nat) (s : State) : Host.Outcome State Fault Refusal := .next ((s.advanceTo at_).stretch slab)
def execCanaryStretch (at_ slab : Nat) (s : State) : Host.Outcome State Fault Refusal := .next ((s.advanceTo at_).stretch slab)

/-- DROOP_RECOVERY: the rails have stood above the threshold for 100 ns; the clock returns in 8 steps (R541). -/
def droopRecovery (at_ slab : Nat) (s : State) : State :=
  let s := s.advanceTo at_
  if slab < 4 ∧ (s.slab slab).drooped then
    (s.setSlab slab { s.slab slab with drooped := false, droopRamp := some s.now }).setClocks
  else s

def execDroopRecovery (at_ slab : Nat) (s : State) : Host.Outcome State Fault Refusal := .next (droopRecovery at_ slab s)

/-! ## Reference clocks (R542) -/

/-- REFCLK_LOST: without REFCLK 100 the module is fatal; without REFCLK 156 every Vein port that is not Disabled fails with
LINK_DOWN. -/
def refclkLost (at_ mhz : Nat) (s : State) : State :=
  let s := s.advanceTo at_
  if s.up = false then s
  else if mhz = 100 then (s.report { code := 0x0706, detail := 100 }).makeFatal 0x0706
  else
    let s := (s.setFld Fld.ref156Lost 1).report { code := 0x0706, detail := 156 }
    (List.range 16).foldl (fun t p =>
      if t.fld (Fld.portState p) = psDisabled ∨ t.fld (Fld.portState p) = psFailed then t else t.loseLink p 0x0302) s

def execRefclkLost (at_ mhz : Nat) (s : State) : Host.Outcome State Fault Refusal := .next (refclkLost at_ mhz s)

/-- REFCLK_RESTORED: REFCLK 156 is back. -/
def execRefclkRestored (at_ : Nat) (s : State) : Host.Outcome State Fault Refusal :=
  .next ((s.advanceTo at_).setFld Fld.ref156Lost 0)

/-! ## Weathering (R544 to R547) -/

/-- Nothing of the present stratum runs on the cores of a voltage group (R545). -/
def State.groupIdle (s : State) (g : Nat) : Bool :=
  let mine (core : Nat) : Bool := core / 40 == g / 6 && siteOfCore core / 7 == g % 6
  s.core.streams.all (fun e => !(mine (e.1 / 64) && e.2.released)) && s.core.tiles.all fun (t : Tile) => !mine t.core

/-- An idle stratum: every group is idle. -/
def State.idleStratum (s : State) : Bool := (List.range 24).all s.groupIdle

/-- Moment at which the periodic plan came due (R544). -/
def State.planDueAt (s : State) : Option Nat := s.pwr.wearAt.map fun t => t + s.fld Fld.wearPeriod * 3600 * ms 1000

/-- A plan is due: none has been made in this boot, the period has passed, or one has been asked for (R544, R545). -/
def State.planDue (s : State) : Bool :=
  s.pwr.planNow || match s.planDueAt with | some t => decide (t ≤ s.now) | none => true

/-- A group takes the lowest step that the canaries allow, or V_max where none does; it is lowered only while idle
(R544, R545). -/
def State.planGroup (s : State) (g step : Nat) : State :=
  let v := if step = 0 then groupMax g else max (groupMin g) (min (groupMax g) step)
  if v < s.fld (Fld.grpMv g) ∧ s.groupIdle g = false then s else s.setVolt g v

/-- The units that no clock serves are fenced: cores, and then slabs, each in rising order (R455, R547). -/
def State.planFences (s : State) (failed failedSlabs : List Nat) : State :=
  let cores := (List.range 160).filter fun c => failed.contains c && !failedSlabs.contains (c / 40)
  let s := cores.foldl (fun t c =>
    if t.coreFenced c then t else t.raise { code := 0x0264, domain := domCore, index := c, core := some c, detail := 0x0708 }) s
  (([0, 1, 2, 3] : List Nat).filter failedSlabs.contains).foldl (fun t i =>
    if t.fenceBit domSlab i then t else t.raise { code := 0x0264, domain := domSlab, index := i, detail := 0x0708 }) s

/-- The weathering maximum of a slab, lower where a group of it needs that (R547). -/
def State.planSlab (s : State) (slab mhz : Nat) : State :=
  let f := max 950 (min 1900 (mhz / 25 * 25))
  if f < s.fld (Fld.wearMhz slab) then (s.setFld (Fld.wearMhz slab) f).report { code := 0x0708, index := slab }
  else s.setFld (Fld.wearMhz slab) f

/-- WEAR_PLAN. What the canaries show is given: for each group the lowest step in mV at which all show 20 ps at 1.9 GHz, 0
where none does; for each slab the highest 25 MHz step at V_max; the cores whose own canaries fail at every clock; the slabs
whose canaries do (R544 to R547). -/
def wearPlan (at_ : Nat) (steps mhz failed failedSlabs : List Nat) (s : State) : State :=
  let s := s.advanceTo at_
  if s.pins.phase = .running ∧ s.err.flintDown = false ∧ s.planDue then
    let s := (List.range 24).foldl (fun t g => t.planGroup g (steps.getD g 0)) s
    let s := ([0, 1, 2, 3] : List Nat).foldl (fun t i =>
      let short := (List.range 6).any fun r => steps.getD (6 * i + r) 0 == 0
      t.planSlab i (if short then mhz.getD i 950 else 1900)) s
    let s := s.planFences failed failedSlabs
    let s := { s with pwr := { s.pwr with wearAt := some s.now, planNow := false } }
    (s.setFld Fld.wearPlanDue 0).checkWear.setClocks
  else s

def execWearPlan (at_ : Nat) (steps mhz failed failedSlabs : List Nat) (s : State) : Host.Outcome State Fault Refusal :=
  .next (wearPlan at_ steps mhz failed failedSlabs s)

/-- PLAN_NOW: a write of PWR_WEAR_CTRL.plan_now (R545). -/
def State.askPlan (s : State) : State := { s with pwr := { s.pwr with planNow := true } }

def execPlanNow (at_ : Nat) (s : State) : Host.Outcome State Fault Refusal :=
  .next (let s := s.advanceTo at_; if s.up then s.askPlan else s)

/-- WEAR_PLAN_DUE: a periodic plan has found no idle stratum within 24 hours (R545). -/
def wearPlanDue (at_ : Nat) (s : State) : State :=
  let s := s.advanceTo at_
  match s.planDueAt with
  | some t =>
    if s.pins.phase = .running ∧ t + 24 * 3600 * ms 1000 ≤ s.now ∧ s.flag Fld.wearPlanDue = false then
      (s.setFld Fld.wearPlanDue 1).report { code := 0x0709 }
    else s
  | none => s

def execWearPlanDue (at_ : Nat) (s : State) : Host.Outcome State Fault Refusal := .next (wearPlanDue at_ s)

end Sys2Proof.Machine
end

