-- ==== Sys2Proof/Machine/Firmware.lean ====
section
/-! DEFINITION. Boot, the protection set-up, owner enrolment, debug, firmware update and attestation (chapter Flint Firmware,
Boot and Attestation). -/

namespace Sys2Proof.Machine

/-! ## Images (R509 to R513) -/

/-- The header of an image as bytes, with accessors for its fields (R510). -/
abbrev Header := List Byte
/-- `n` bytes from byte `b` on. -/
def Header.sub (h : Header) (b n : Nat) : List Byte := (h.drop b).take n
def Header.num (h : Header) (b n : Nat) : Nat := leNat (h.sub b n)
def Header.flags (h : Header) : Nat := h.num 4 1
def Header.enroll (h : Header) : Bool := bit h.flags 6
def Header.debugOpen (h : Header) : Bool := bit h.flags 5
def Header.ownerSig (h : Header) : Bool := bit h.flags 4
def Header.keyIdx (h : Header) : Nat := h.flags % 4
def Header.svn (h : Header) : Nat := h.num 5 1 % 64
def Header.bodyLen (h : Header) : Nat := h.num 8 4
def Header.enrollKey (h : Header) : List Byte := h.sub 32 32

/-- The layout of R510: the fixed fields, the ranges, and zeros in every reserved place. -/
def Header.wellFormed (h : Header) : Bool :=
  h.num 0 2 == 1 && h.num 2 2 == 0x2560 && bit h.flags 7 == false && bits h.flags 2 2 == 0 && decide (h.num 5 1 < 64)
    && h.num 6 2 == 0 && h.bodyLen % 64 == 0 && decide (64 ≤ h.bodyLen) && decide (h.bodyLen ≤ 33546240)
    && decide (h.num 12 4 < h.bodyLen) && h.num 16 16 == 0 && h.num 64 64 == 0 && (h.drop 256).all (· == 0)

/-- The digest (R511). -/
def imageDigest (h : Header) (body : List Byte) : List Byte := sha512 (h.take 128 ++ body)

/-- The owner's part of R513, under an enrolled key or none. -/
def ownerAccepts (owner : Option Nat) (h : Header) (digest : List Byte) : Bool :=
  let sig := h.sub 192 64
  match owner with
  | some k => h.ownerSig && edVerify (leBytes 32 k) sig digest && (!h.enroll || h.enrollKey == leBytes 32 k)
  | none => !h.enroll || (h.ownerSig && edVerify h.enrollKey sig digest)

/-- An image is acceptable (R513). -/
def State.imageOk (s : State) (h : Header) (body : List Byte) : Bool :=
  let digest := imageDigest h body
  h.wellFormed && !Config.keyRevoked h.keyIdx && edVerify (leBytes 32 (Config.kuermouKey h.keyIdx).toNat) (h.sub 128 64) digest
    && decide (s.minSvn ≤ h.svn) && ownerAccepts s.ownerKey h digest

/-- The header and the body in a slot of the flash; a body longer than a slot holds is not read (R509). -/
def State.flashBytes (s : State) (a n : Nat) : List Byte := (List.range n).map fun i => s.flashByte (a + i)
def State.slotHeader (s : State) (slot : Nat) : Header := s.flashBytes (slotBase slot) 4096
def State.slotBody (s : State) (slot : Nat) : List Byte :=
  s.flashBytes (slotBase slot + 4096) (min (s.slotHeader slot).bodyLen 33546240)

/-- The slot record (R512). -/
def State.slotSeq (s : State) (slot : Nat) : Nat := leNat (s.flashBytes (slotRecord slot) 4)
def State.slotBits (s : State) (slot : Nat) : Nat := (s.flashByte (slotRecord slot + 4)).toNat
def State.slotValid (s : State) (slot : Nat) : Bool := bit (s.slotBits slot) 0
def State.slotTrial (s : State) (slot : Nat) : Bool := bit (s.slotBits slot) 1
def State.slotTried (s : State) (slot : Nat) : Bool := bit (s.slotBits slot) 2

/-- The state with the bits of a slot record replaced. -/
def State.setSlotBits (s : State) (slot v : Nat) : State := s.putFlash (slotRecord slot + 4) [BitVec.ofNat 8 v]

/-! ## The image copy region (R514, R517) -/

/-- The first 32 MiB of slice 0's firmware area. -/
def State.copyRegion (s : State) : Nat := s.firmwareOff

/-- Header and body as the region holds them. -/
def State.copyHeader (s : State) : Header := s.physBytes s.copyRegion 4096
def State.copyBody (s : State) : List Byte := s.physBytes (s.copyRegion + 4096) (min s.copyHeader.bodyLen 33546240)

/-- The copy passes the check of R517. -/
def State.copyOk (s : State) : Bool := s.imageOk s.copyHeader s.copyBody

/-! ## Boot (R514 to R516, R518) -/

/-- The candidates: valid slots, the higher sequence number first. -/
def State.candidates (s : State) : List Nat :=
  let l := if s.slotSeq 0 < s.slotSeq 1 then [1, 0] else [0, 1]
  l.filter s.slotValid

/-- The words of a register as bytes (R518). -/
def State.regBytes (s : State) (off : Nat) : List Byte := leBytes 4 (s.rd off).toNat

/-- boot_lock is set: debug closes, and M_setup is computed from the words as they stand (R518). -/
def State.lockBoot (s : State) : State :=
  let m := sha512 (s.regBytes Reg.secProt ++ s.regBytes Reg.hifBar4 ++ s.regBytes Reg.secBootStat)
  let s := (s.setFld Fld.bootLock 1).setFld Fld.debugOpen 0
  { s with fw := { s.fw with mSetup := m } }

/-- Recovery: the most restrictive protection set-up, locked (R516). -/
def State.recover (s : State) : State :=
  let s := (((s.setFld Fld.ctxEnable 0).setFld Fld.quarryModes 1).setFld Fld.bar4Enable 0).setFld Fld.debugOpen 0
  s.lockBoot.setFld Fld.bootState 3

/-- A slot's image is in the copy region and acceptable: its boot code runs (R514). -/
def State.bootSlotNow (s : State) (slot : Nat) (first : Bool) : State :=
  let h := s.slotHeader slot
  let trial := s.slotTrial slot
  let digest := imageDigest h (s.slotBody slot)
  let enrolls := s.ownerKey.isNone && h.enroll
  let s := if trial then s.setSlotBits slot (putBits (s.slotBits slot) 2 1 1) else s
  let s := { s with fw := { s.fw with
    digest := digest, debugImage := h.debugOpen, enrollKey := if enrolls then some (leNat h.enrollKey) else none } }
  let s := ((s.setFld Fld.keyIdx h.keyIdx).setFld Fld.svn h.svn).setFld Fld.trial (b2n trial)
  ((s.setFld Fld.bootSlot slot).setFld Fld.fallback (b2n !first)).setFld Fld.bootState 1

/-- The boot ROM tries the candidates in turn; each one tried fills the copy region (R514). -/
def State.bootFrom (s : State) (first : Nat) : List Nat → State
  | [] => s.recover
  | slot :: rest =>
    if s.slotTrial slot ∧ s.slotTried slot then s.bootFrom first rest
    else
      let h := s.slotHeader slot
      let body := s.slotBody slot
      let s := s.putPhys s.copyRegion (h ++ body)
      if s.imageOk h body then s.bootSlotNow slot (slot == first) else s.bootFrom first rest

/-- BOOT_ROM_START: PERST# has been deasserted; the boot ROM trains the channels and boots an image, or recovers (R514 to
R516). -/
def bootRomStart (at_ : Nat) (s : State) : State :=
  let s := s.advanceTo at_
  if s.pins.phase = .reset ∧ s.pins.pwrGood ∧ s.deaf = false then
    let s := ({ s with mem := { s.mem with resetAt := s.now }
                       pins := { s.pins with phase := .boot, perst := false } }.setClocks).setFld Fld.hifWidth (if Config.hostX8 then 1 else 2)
    s.bootFrom (s.candidates.headD 0) s.candidates
  else s

def execBootRomStart (at_ : Nat) (s : State) : Host.Outcome State Fault Refusal := .next (bootRomStart at_ s)

/-- Boot code runs, before BOOT_LOCK. -/
def State.bootCode (s : State) : Bool := s.pins.phase == .boot && s.fld Fld.bootState == 1 && !s.flag Fld.bootLock

/-- BOOT_LOCK: boot code locks the protection set-up, and Flint's service starts (R515, R518, R531). -/
def bootLock (at_ : Nat) (s : State) : State :=
  let s := s.advanceTo at_
  if s.bootCode then
    let s := s.lockBoot.setFld Fld.bootState 2
    let s := { s with pins := { s.pins with phase := .running }, err := { s.err with lastAck := s.now } }
    if s.flag Fld.fallback then s.report { code := 0x0821 } else s
  else s

def execBootLock (at_ : Nat) (s : State) : Host.Outcome State Fault Refusal := .next (bootLock at_ s)

/-- A write of SEC_OWNER_CTRL: the fuse controller burns the latched key, or the write is ignored (R520). -/
def State.enrollWrite (s : State) (v : Nat) : State :=
  match s.fw.enrollKey with
  | some k =>
    if bit v 0 ∧ s.bootCode ∧ s.ownerKey.isNone then
      ({ s with fw := { s.fw with owner := some k, enrollKey := none } }).loadFuses.setFld Fld.enroll 1
    else s
  | none => s

/-- OWNER_ENROLL. The host's writes of RWL fields never arrive (R575). -/
def ownerEnroll (at_ : Nat) (party : Party) (value : Word) (s : State) : State :=
  let s := s.advanceTo at_
  match party with
  | .host => s
  | .flint => s.enrollWrite value.toNat

def execOwnerEnroll (at_ : Nat) (party : Party) (value : BitVec 32) (s : State) : Host.Outcome State Fault Refusal :=
  .next (ownerEnroll at_ party value s)

/-- A write of SEC_DEBUG: 1 only where the image allows it (R521, R522). -/
def State.debugWrite (s : State) (v : Nat) : State :=
  if s.bootCode = false then s
  else if bit v 0 = false then s.setFld Fld.debugOpen 0
  else if s.fw.debugImage then (s.setFld Fld.debugOpen 1).setFld Fld.debugOpened 1
  else s

/-- DEBUG_OPEN. -/
def debugOpen (at_ : Nat) (party : Party) (value : Word) (s : State) : State :=
  let s := s.advanceTo at_
  match party with
  | .host => s
  | .flint => s.debugWrite value.toNat

def execDebugOpen (at_ : Nat) (party : Party) (value : BitVec 32) (s : State) : Host.Outcome State Fault Refusal :=
  .next (debugOpen at_ party value s)

/-! ## Update and rollback (R526 to R529) -/

/-- The boot ROM serves updates in recovery, Flint otherwise. -/
def State.servesUpdate (s : State) : Bool :=
  (s.pins.phase == .running && !s.err.flintDown) || (s.pins.phase == .boot && s.fld Fld.bootState == 3)

/-- The events of an update are Flint's, once its service has started (R531). -/
def State.tellUpdate (s : State) (code : Nat) : State := if s.pins.phase = .running then s.report { code := code } else s

/-- An update ends with a status other than 2 (R527). -/
def State.failUpdate (s : State) (status : Nat) : State :=
  let s := { s with fw := { s.fw with update := none, updAborted := false } }
  (s.setFld Fld.updStatus status).tellUpdate 0x0823

/-- SEC_UPD_CTRL.go (R526, R527). -/
def State.updateGo (s : State) : State :=
  if s.fld Fld.updStatus = 1 then s
  else if s.flag Fld.trial then s.failUpdate 4
  else
    let a := (s.rd Reg.secUpdLo).toNat / 64 * 64 + (s.rd Reg.secUpdHi).toNat * 2 ^ 32
    ({ s with fw := { s.fw with update := some (a, bits (s.rd Reg.secUpdLen).toNat 0 26), updAborted := false } }).setFld Fld.updStatus 1

def execFwUpdate (at_ : Nat) (s : State) : Host.Outcome State Fault Refusal :=
  .next (let s := s.advanceTo at_; if s.servesUpdate then s.updateGo else s)

/-- The other slot is written: valid = 0, the body, the header, and last the record (R526). -/
def State.writeSlot (s : State) (slot : Nat) (image : List Byte) : State :=
  let seq := s.slotSeq (s.fld Fld.bootSlot) + 1
  let s := s.invalidate slot
  let s := s.putFlash (slotBase slot + 4096) (image.drop 4096)
  let s := s.putFlash (slotBase slot) (image.take 4096)
  s.putFlash (slotRecord slot) (leBytes 4 seq ++ [3#8] ++ List.replicate 59 0)

/-- FW_UPDATE_DONE: the staged image has been read and judged, and the slot written (R526, R527). -/
def fwUpdateDone (at_ : Nat) (s : State) : State :=
  let s := s.advanceTo at_
  match s.fw.update with
  | none => s
  | some (a, n) =>
    if s.servesUpdate = false then s
    else if s.fw.updAborted then s.failUpdate 6
    else if s.hostAborts a n ∨ s.hostPoisons a n then s.failUpdate 5
    else
      let image := s.hostBytes a n
      let h : Header := image.take 4096
      if n = 4096 + h.bodyLen ∧ s.imageOk h (image.drop 4096) then
        let s := s.writeSlot s.otherSlot image
        let s := { s with fw := { s.fw with update := none } }
        (s.setFld Fld.updStatus 2).tellUpdate 0x0822
      else s.failUpdate 3

def execFwUpdateDone (at_ : Nat) (s : State) : Host.Outcome State Fault Refusal := .next (fwUpdateDone at_ s)

/-- SEC_UPD_CTRL.confirm: trial clears in the running slot's record (R528). -/
def State.confirm (s : State) : State :=
  if s.fld Fld.bootState = 2 then
    let slot := s.fld Fld.bootSlot
    (s.setSlotBits slot (putBits (s.slotBits slot) 1 1 0)).setFld Fld.trial 0
  else s

def execFwConfirm (at_ : Nat) (s : State) : Host.Outcome State Fault Refusal :=
  .next (let s := s.advanceTo at_; if s.servesUpdate then s.confirm else s)

/-- SEC_UPD_CTRL.burn_svn: min_svn rises to the running image's svn (R529). -/
def State.burn (s : State) : State :=
  if s.flag Fld.trial then s.setFld Fld.updStatus 4
  else if s.minSvn < s.fld Fld.svn then ({ s with fw := { s.fw with burnedSvn := s.fld Fld.svn } }).setFld Fld.minSvn (s.fld Fld.svn)
  else s

def execBurnSvn (at_ : Nat) (s : State) : Host.Outcome State Fault Refusal :=
  .next (let s := s.advanceTo at_; if s.servesUpdate then s.burn else s)

/-! ## Attestation (R522 to R525) -/

/-- The identity seed (R523). -/
def identitySeed : List Byte := (sha512 (leBytes 32 Config.uniqueSecret.toNat ++ [1#8])).take 32

/-- SEC_ATT_CTRL.go: the key unit takes the address and the nonce, or refuses once debug has been open (R522, R524). -/
def State.attestGo (s : State) : State :=
  if s.fld Fld.attStatus = 1 then s
  else if s.flag Fld.debugOpened then s.setFld Fld.attStatus 3
  else
    let a := (s.rd Reg.secAttLo).toNat / 64 * 64 + (s.rd Reg.secAttHi).toNat * 2 ^ 32
    let nonce := (List.range 8).flatMap fun n => s.regBytes (Reg.secAttNonce n)
    ({ s with fw := { s.fw with report := some (a, nonce) } }).setFld Fld.attStatus 1

def execAttestationRequest (at_ : Nat) (s : State) : Host.Outcome State Fault Refusal :=
  .next (let s := s.advanceTo at_; if s.up then s.attestGo else s)

/-- Bytes 0–319 of the report (R525). -/
def State.reportBody (s : State) (nonce : List Byte) : List Byte :=
  let recovery := s.fld Fld.bootState == 3
  let flags := b2n (s.flag Fld.ownerEnrolled) + 2 * b2n (s.flag Fld.fallback) + 4 * b2n (s.flag Fld.trial) + 8 * b2n recovery
  leBytes 2 1 ++ leBytes 2 0x2560 ++ leBytes 1 0xA1 ++ leBytes 1 flags
    ++ leBytes 1 (if recovery then 0 else s.fld Fld.svn) ++ leBytes 1 (s.fld Fld.minSvn)
    ++ leBytes 8 Config.serial.toNat ++ leBytes 6 (s.quarry 0).count.toNat ++ leBytes 2 0 ++ nonce ++ leBytes 8 0
    ++ leBytes 64 Config.romMeasure.toNat
    ++ (if recovery then leBytes 64 0 else s.fw.digest) ++ s.fw.mSetup
    ++ edPublic identitySeed ++ leBytes 32 (s.ownerKey.getD 0)

/-- The signed report (R525). -/
def State.attestation (s : State) (nonce : List Byte) : List Byte :=
  let b := s.reportBody nonce
  b ++ edSign identitySeed (sha512 b)

/-- ATTESTATION_REPORT_WRITTEN: the report reaches the host. Where host memory refuses it, the spec names no status: it is free
between done and refused, and nothing is written. -/
def attestationReportWritten (at_ : Nat) (s : State) : State :=
  let s := s.advanceTo at_
  match s.fw.report with
  | some (a, nonce) =>
    let l := s.attestation nonce
    let s := { s with fw := { s.fw with report := none } }
    if s.hostAborts a 384 then
      let r := s.fresh 2
      r.2.setFld Fld.attStatus (2 + r.1)
    else (s.putHost a l).setFld Fld.attStatus 2
  | none => s

def execAttestationReportWritten (at_ : Nat) (s : State) : Host.Outcome State Fault Refusal :=
  .next (attestationReportWritten at_ s)

end Sys2Proof.Machine
end

