-- ==== Sys2Proof/Machine/Memory.lean ====
section
/-! DEFINITION. The DMA engine, scrub, frame retirement, channel bursts, TLB invalidation and the memory layout
(chapter Geode, Main Memory and Translation). -/

namespace Sys2Proof.Machine

/-! ## DMA descriptors (R234 to R239) -/

/-- Entry `id` of a core's DMA queue, when it is one of the 4 that may run and has not moved its granules (R237). -/
def State.dmaEntry (s : State) (core id : Nat) : Option QEntry :=
  ((s.core.dmaq.filter fun q => q.core == core).take 4).find? fun q => q.id == id && !q.moved

/-- The physical or local units of 32 bytes of a region, as far as they translate; local units are kept apart by 2⁶⁰. -/
def State.regionUnits (s : State) (core c : Nat) (a : Addr) (rows stride len : Nat) : List Nat :=
  (List.range rows).flatMap fun r => (List.range ((len + 31) / 32)).flatMap fun k =>
    let a := a.plus (r * stride + 32 * k)
    if a.space then
      match (translate core c a.addr false) s with
      | (.ok pa, _) => [pa / 32]
      | _ => []
    else [2 ^ 60 + (core * 2 ^ 21 + s.lsAt c a.addr % 2 ^ 21) / 32]

/-- Source and destination of a descriptor share bytes, the destination being `rows` rows of `len` bytes (R238). -/
def State.overlaps (s : State) (core c : Nat) (b : DmaBody) (srcLen rows len : Nat) : Bool :=
  let src := s.regionUnits core c b.src b.rows b.srcStride srcLen
  (s.regionUnits core c b.dst rows b.dstStride len).any src.contains

/-- A list of `n` free bytes (log entry 3). -/
def Exec.freeBytes (n : Nat) : Exec (List Byte) := do
  let l ← Exec.collect (List.range n) fun _ => Exec.free 256
  pure (l.map fun v => BitVec.ofNat 8 v)

/-- COPY: rows × row_len bytes, granule by granule, poison carried with each (R222, R234). Where source and destination
overlap, what the destination holds is free (R238). -/
def copyWork (core c : Nat) (b : DmaBody) : Exec Unit := do
  let shared_ ← Exec.ask fun s => s.overlaps core c b b.rowLen b.rows b.rowLen
  Exec.each (List.range b.rows) fun r => Exec.each (List.range (b.rowLen / 64)) fun k => do
    let x ← readCopy core c (b.src.plus (r * b.srcStride + 64 * k)) 64
    let data ← if shared_ then Exec.freeBytes 64 else pure x.1
    writeMem core c (b.dst.plus (r * b.dstStride + 64 * k)) data x.2

/-- FILL: the 4-byte pattern over every row; the granules written are unpoisoned (R222, R234). -/
def fillWork (core c : Nat) (b : DmaBody) : Exec Unit :=
  Exec.each (List.range b.rows) fun r => Exec.each (List.range (b.rowLen / 64)) fun k =>
    writeMem core c (b.dst.plus (r * b.dstStride + 64 * k))
      ((List.range 16).flatMap fun _ => leBytes 4 b.fill) false

/-- Both ends of a transposed block translate before any of it is written (R236). -/
def touchAddr (core c : Nat) (a : Addr) (write : Bool) : Exec Unit :=
  if a.space then do let _ ← translate core c a.addr write else pure ()

/-- One 32 × 32 block of a TRANSPOSE, at source row `r0` and column `c0` (R236). A poisoned source granule poisons every granule
that receives an element; the 32-byte rows of 8-bit elements are partial writes, which clear no poison (R222). Where source and
destination overlap, what the destination holds is free (R238). -/
def transposeBlock (core c : Nat) (b : DmaBody) (shared_ : Bool) (r0 c0 : Nat) : Exec Unit := do
  let e := b.elem
  let srcAt (r : Nat) : Addr := b.src.plus ((r0 + r) * b.srcStride + c0 * e)
  let dstAt (k : Nat) : Addr := b.dst.plus ((c0 + k) * b.dstStride + r0 * e)
  Exec.each (List.range 32) fun r => touchAddr core c (srcAt r) false
  Exec.each (List.range 32) fun k => touchAddr core c (dstAt k) true
  let rows ← Exec.collect (List.range 32) fun r => readCopy core c (srcAt r) (32 * e)
  let bad := rows.any (·.2)
  Exec.each (List.range 32) fun k => do
    let data ← if shared_ then Exec.freeBytes (32 * e) else pure (rows.flatMap fun r => (r.1.drop (k * e)).take e)
    writeMem core c (dstAt k) data bad
    if e = 1 ∧ bad = true then settlePoison core c (dstAt k) true

/-- TRANSPOSE, block row by block row (R236). -/
def transposeWork (core c : Nat) (b : DmaBody) : Exec Unit := do
  let shared_ ← Exec.ask fun s => s.overlaps core c b (b.rowLen * b.elem) b.rowLen (b.rows * b.elem)
  Exec.each (List.range (b.rows / 32)) fun i => Exec.each (List.range (b.rowLen / 32)) fun j =>
    transposeBlock core c b shared_ (32 * i) (32 * j)

/-- A DMA descriptor of operation `op` runs: its granules move; a translation fault stops it and faults the context,
what is written standing (R239). -/
def State.runDma (s : State) (core id op : Nat) (work : Nat → Nat → DmaBody → Exec Unit) : State :=
  match s.dmaEntry core id with
  | none => s
  | some q =>
    if dOpcode q.desc = op ∧ s.coreFenced core = false then
      match (work core q.ctx (dmaBody q.desc)) s with
      | (.ok _, s') =>
        let mark (x : QEntry) : QEntry := if x.id = q.id then { x with moved := true } else x
        { s' with core := { s'.core with dmaq := s'.core.dmaq.map mark } }
      | (.error (.fault code phys), s') =>
        let s' := { s' with core := { s'.core with dmaq := s'.core.dmaq.filter fun x => x.id != q.id } }
        s'.raiseCtx { code := code, core := some core, phys := phys, tileId := BitVec.ofNat 32 (dTileId q.desc)
                      layerTag := BitVec.ofNat 16 (dLayerTag q.desc) } q.ctx
      | (.error _, _) => s
    else s

def execCopy (core id : Nat) (s : State) : Host.Outcome State Fault Refusal := .next (s.runDma core id 0x51 copyWork)

def execTranspose (core id : Nat) (s : State) : Host.Outcome State Fault Refusal :=
  .next (s.runDma core id 0x52 transposeWork)

def execDmaFill (core id : Nat) (s : State) : Host.Outcome State Fault Refusal := .next (s.runDma core id 0x53 fillWork)

/-- DMA_LANDED: the last granule has landed; the place frees and the descriptor signals (R63, R237). -/
def dmaLanded (at_ core id : Nat) (s : State) : State :=
  let s := s.advanceTo at_
  match s.core.dmaq.find? fun q => q.core == core && q.id == id && q.moved with
  | none => s
  | some q =>
    let s := { s with core := { s.core with dmaq := s.core.dmaq.filter fun x => x.id != id } }
    s.signalHeader q.ctx core q.desc

def execDmaLanded (at_ core id : Nat) (s : State) : Host.Outcome State Fault Refusal := .next (dmaLanded at_ core id s)

/-! ## Scrub and retirement (R223 to R225) -/

/-- One hour. -/
def hours (n : Nat) : Nat := n * 3600 * 10 ^ 8

/-- A scrub pass begins: every frame's count restarts (R224). -/
def State.beginPass (s : State) : State :=
  let s := s.setFld Fld.scrubActive 1
  { s with mem := { s.mem with frameCe := [], scrubStart := s.now } }

/-- The granule of an address exists and is in service. -/
def State.scrubbable (s : State) (pa : Nat) : Bool := s.place pa != .unmapped && !s.cellFenced pa

/-- PATROL_SCRUB: one granule is read, corrected and written back; a pass begins when none runs or its period is over,
and ends with its last granule (R223, R224). -/
def patrolScrub (at_ pa : Nat) (last : Bool) (s : State) : State :=
  let s := s.advanceTo at_
  if s.flag Fld.scrubEn ∧ s.scrubbable pa then
    let s := if s.flag Fld.scrubActive = false ∨ s.mem.scrubStart + hours (s.fld Fld.scrubPeriod) ≤ s.now
      then s.beginPass else s
    let s := s.readCheck pa fun _ => true
    if last then s.setFld Fld.scrubActive 0 else s
  else s

def execPatrolScrub (at_ pa : Nat) (last : Bool) (s : State) : Host.Outcome State Fault Refusal :=
  .next (patrolScrub at_ pa last s)

/-- Whole periods of period_h hours from PERST# to a moment. -/
def State.periodsTo (s : State) (t : Nat) : Nat := (t - s.mem.resetAt) / hours (s.fld Fld.scrubPeriod)

/-- FRAME_COUNT_RESTART: with scrub disabled, every count restarts every period_h hours from PERST# (R224). -/
def frameCountRestart (at_ : Nat) (s : State) : State :=
  let s := s.advanceTo at_
  if s.flag Fld.scrubEn = false ∧ s.periodsTo s.mem.scrubStart < s.periodsTo s.now then
    { s with mem := { s.mem with frameCe := [], scrubStart := s.now } }
  else s

def execFrameCountRestart (at_ : Nat) (s : State) : Host.Outcome State Fault Refusal := .next (frameCountRestart at_ s)

/-! ## Channel bursts (R588) -/

/-- CHANNEL_BURST: more than 64 corrected errors within 1 s, once until the count has fallen; by policy the channel is
retrained, only reported, or fenced. -/
def channelBurst (at_ channel : Nat) (s : State) : State :=
  let s := s.advanceTo at_
  if 64 < s.burstCount channel ∧ SMap.get (fun _ => false) s.mem.bursting channel = false ∧ channel < 512 then
    let s := { s with mem := { s.mem with bursting := SMap.put (fun _ => false) s.mem.bursting channel true } }
    let p := s.policy 0x0113
    if p = 6 then s.raise { code := 0x0113, domain := domChannel, index := channel }
    else
      let s := s.report { code := 0x0113, index := channel }
      if p = 0 then { s with mem := { s.mem with retraining := s.mem.retraining ++ [(channel, s.now)] } } else s
  else s

def execChannelBurst (at_ channel : Nat) (s : State) : Host.Outcome State Fault Refusal :=
  .next (channelBurst at_ channel s)

/-- CHANNEL_RETRAIN_DONE: the requests that the retrain held go on. -/
def channelRetrainDone (at_ channel : Nat) (s : State) : State :=
  let s := s.advanceTo at_
  { s with mem := { s.mem with retraining := s.mem.retraining.filter fun e => e.1 != channel } }

def execChannelRetrainDone (at_ channel : Nat) (s : State) : Host.Outcome State Fault Refusal :=
  .next (channelRetrainDone at_ channel s)

/-! ## Invalidation (R231, R241) -/

/-- A leaf or pointer that an invalidation removes (R231). -/
def invalidates (v : Nat × Nat × Nat) (e : TlbEntry) : Bool :=
  v.1 == 2 || (e.ctx == v.2.1 && (v.1 == 1 || (decide (e.base ≤ v.2.2) && decide (v.2.2 < e.base + e.size))))

/-- A write of MEM_TLB_INV_HI by Flint: go starts an invalidation unless one runs; a reserved scope rejects the write
(R241, R583). -/
def State.invalidateWrite (s : State) (v : Nat) : State :=
  if bits v 29 2 = 3 then s.setFld Fld.memCfgReject 1
  else if bit v 31 ∧ s.flag Fld.invBusy = false then
    let va := bits v 0 2 * 2 ^ 46 + (s.rd Reg.memTlbInvLo).toNat * 2 ^ 14
    let s := s.setFld Fld.invBusy 1
    { s with mem := { s.mem with inval := some (bits v 29 2, bits v 26 3, va) } }
  else s

/-- TLB_INVALIDATE. A host write is ignored (R575). -/
def tlbInvalidate (party : Party) (value : Word) (s : State) : State :=
  if s.admits party Reg.mem = false then s else
  match party with
  | .host => s.setFld Fld.hostWrReject 1
  | .flint => s.invalidateWrite value.toNat

def execTlbInvalidate (party : Party) (value : BitVec 32) (s : State) : Host.Outcome State Fault Refusal :=
  .next (tlbInvalidate party value s)

/-- INVALIDATE_DONE: the entries are gone and inv_busy clears (R231). -/
def invalidateDone (at_ : Nat) (s : State) : State :=
  let s := s.advanceTo at_
  match s.mem.inval with
  | none => s
  | some v =>
    let s := { s with mem := { s.mem with tlb := s.mem.tlb.filter fun e => !invalidates v e, inval := none } }
    s.setFld Fld.invBusy 0

def execInvalidateDone (at_ : Nat) (s : State) : Host.Outcome State Fault Refusal := .next (invalidateDone at_ s)

/-! ## Layout (R212, R214) -/

/-- A layout that R214 and its field ranges admit. -/
def layoutOk (v : Nat) : Bool :=
  decide (bits v 0 10 ≤ 512) && decide (bits v 16 10 ≤ 512) && decide (bits v 0 10 + bits v 16 10 ≤ 633)

/-- A write of MEM_LAYOUT: an accepted change loses the contents of main memory but for the firmware areas, which are kept
under keys of their own, and clears FOS_BUDDY_STAT.valid (R214). -/
def State.layoutWrite (s : State) (value : Word) : State :=
  let v := value &&& BitVec.ofNat 32 (bitMask 25 16 + bitMask 9 0)
  if v = s.rd Reg.memLayout then s
  else if s.anyCtx = true ∨ layoutOk v.toNat = false then s.setFld Fld.memCfgReject 1
  else
    let main (k : Nat) : Bool := decide (k < 2 ^ 44)
    let mainGran (k : Nat) : Bool := decide (k < 2 ^ 38)
    let s := s.wr Reg.memLayout v
    let s := { s with mem := { s.mem with
      phys := SMap.drop main s.mem.phys, mainEpoch := s.mem.mainEpoch + 1
      poison := SMap.drop mainGran s.mem.poison, fossil := SMap.drop mainGran s.mem.fossil
      latent := SMap.drop (fun k => mainGran (k / 8)) s.mem.latent } }
    s.setFld Fld.buddyValid 0

/-- MEM_LAYOUT_WRITE. A host write is ignored (R575). -/
def memLayoutWrite (party : Party) (value : Word) (s : State) : State :=
  if s.admits party Reg.mem = false then s else
  match party with
  | .host => s.setFld Fld.hostWrReject 1
  | .flint => s.layoutWrite value

def execMemLayoutWrite (party : Party) (value : BitVec 32) (s : State) : Host.Outcome State Fault Refusal :=
  .next (memLayoutWrite party value s)

end Sys2Proof.Machine
end

