-- ==== Sys2Proof/Machine/Contexts.lean ====
section
/-! DEFINITION. Contexts and their shares, donations, the all-blocked swap, and the commands that create, load, start and destroy
(chapter Jobs, Resident Contexts and Quarries; R429 to R432). -/

namespace Sys2Proof.Machine

/-! ## Priority and donation (R288, R398, R400) -/

/-- A context owns a decode channel (R287). -/
def State.ownsDecode (s : State) (c : Nat) : Bool := (s.ctxAt c).decodeMask != 0

/-- The contexts whose level is Flint's own to give: the host has set none for them. -/
def State.unranked (s : State) : List Nat := ctxNumbers.filter fun c => s.ctxState c != csFree && !(s.ctxAt c).prioSet

/-- Flint gives each context that owns a decode channel a level above that of every resident context that owns none; a level that the
host has set for either stands (R288). Above level 7 there is none, so what stood there makes room (log entry 186). -/
def State.rankDecode (s : State) : State :=
  let decode := s.unranked.filter s.ownsDecode
  let plain := s.unranked.filter fun c => !s.ownsDecode c && s.flag (Fld.resident c)
  if decode = [] then s
  else
    let s := plain.foldl (fun t c => t.setFld (Fld.ctxPrio c) (min 6 (t.fld (Fld.ctxPrio c)))) s
    let top := plain.foldl (fun m c => max m (s.fld (Fld.ctxPrio c) + 1)) 0
    decode.foldl (fun t c => t.setFld (Fld.ctxPrio c) (max (t.fld (Fld.ctxPrio c)) top)) s

/-- DONATION_EXHAUSTED: the budget of the waiting stream's donation is spent; it closes, and the wait opens no other (R400). -/
def donationExhausted (at_ core stream : Nat) (s : State) : State :=
  let s := s.advanceTo at_
  let w := 64 * core + stream
  match s.ctx.donations.find? fun d => d.waiter == w && decide (s.fld (Fld.donateStrata d.fromCtx) ≤ d.used) with
  | none => s
  | some d =>
    let s := s.closeDonations fun x => x.waiter == w
    let s := s.setStream core stream { s.stream core stream with donationSpent := true }
    s.report { code := 0x0612, ctx := some d.fromCtx, core := some core }

def execDonationExhausted (at_ core stream : Nat) (s : State) : Host.Outcome State Fault Refusal :=
  .next (donationExhausted at_ core stream s)

/-! ## The swap (R395, R403 to R409) -/

/-- A spilled context of a quarry with a Ready stream (R403). -/
def State.runnable (s : State) (q c : Nat) : Bool :=
  s.ctxState c != csFree && s.ctxQuarry c == q && !s.flag (Fld.resident c) && s.flag (Fld.partnerValid c)
    && s.core.streams.any fun e => e.2.ctx == c && e.2.state == .ready

/-- Context `a` comes in before context `b` (R406). -/
def State.inBefore (s : State) (a b : Nat) : Bool :=
  let owner (c : Nat) : Bool := s.ctx.donations.any fun d => d.toCtx == c
  let pa := s.fld (Fld.ctxPrio a)
  let pb := s.fld (Fld.ctxPrio b)
  if owner a ≠ owner b then owner a
  else if pa ≠ pb then decide (pb < pa)
  else if (s.ctxAt a).spilledAt ≠ (s.ctxAt b).spilledAt then decide ((s.ctxAt a).spilledAt < (s.ctxAt b).spilledAt)
  else decide (a < b)

/-- The context that Flint chooses to bring in (R406). -/
def State.incoming (s : State) (q : Nat) : Option Nat :=
  (ctxNumbers.filter (s.runnable q)).foldl (fun best c => match best with
    | some b => if s.inBefore c b then some c else some b
    | none => some c) none

/-- A swap begins: the victim's swapping bit is set, and its work has until the second tick from now to land (R407). -/
def State.startSwap (s : State) (incoming victim : Nat) : State :=
  let q := s.ctxQuarry victim
  if (s.quarry q).swap.isSome then s
  else (s.setFld (Fld.swapping victim) 1).setQuarry q { s.quarry q with swap := some (incoming, victim, (s.quarry q).ticks + 2, false) }

/-- Flint answers ALL_BLOCKED under the default policy (R406). -/
def State.swapBlocked (s : State) (q : Nat) : State :=
  match s.incoming q with
  | some c => s.startSwap c (s.fld (Fld.partner c))
  | none => s

/-- ALL_BLOCKED: every resident context of a quarry has been blocked for one period, and a spilled one is runnable (R405). -/
def allBlocked (at_ quarry : Nat) (s : State) : State :=
  let s := s.advanceTo at_
  let due := match SMap.get (fun _ => none) s.blk.since quarry with
    | some t => decide (t + us (s.fld Fld.periodUs) ≤ s.now)
    | none => false
  if due = true ∧ quarry < quarryCount s.modeOf ∧ s.quarryBlocked quarry ∧ (s.incoming quarry).isSome
      ∧ (SMap.get (fun _ => none) s.blk.told quarry).isNone then
    let told := some ((s.ctxsOf quarry).filter s.blocked)
    let s := { s with blk := { s.blk with told := SMap.put (fun _ => none) s.blk.told quarry told } }
    let s := s.report { code := 0x0611, index := quarry }
    if s.policy 0x0611 = 1 then s
    else if s.err.flintDown then { s with err := { s.err with deferred := s.err.deferred ++ [(0x0611, quarry)] } }
    else s.swapBlocked quarry
  else s

def execAllBlocked (at_ quarry : Nat) (s : State) : Host.Outcome State Fault Refusal := .next (allBlocked at_ quarry s)

/-- Every class 0x5, 0x6 and 0x8 operation that a context has started has landed or written back (R407). -/
def State.landedAll (s : State) (c : Nat) : Bool :=
  !(s.core.dmaq.any fun e => e.ctx == c) && !(s.core.wsq.any fun e => e.ctx == c)
    && !s.coll.xfers.any fun x => x.ctx == c && x.engine.isSome

/-- Two granules change places, each with its poison; a fenced bank gives poisoned granules and takes none (R222, R407). -/
def State.exchange (s : State) (a b : Nat) : State :=
  let x := s.readGran a
  let y := x.2.readGran b
  (y.2.writeGran a 0 y.1.1 y.1.2).writeGran b 0 x.1.1 x.1.2

/-- The spill engine exchanges the share of a context with the spill slots of its quarry (R407). -/
def State.exchangeShare (s : State) (c : Nat) : State :=
  let lo := s.fld (Fld.geodeBase c) * 2 ^ 20
  (coresOf s.modeOf (s.ctxQuarry c)).foldl (fun t core =>
    (List.range (s.fld (Fld.geodeSize c) * 2 ^ 14)).foldl (fun t i =>
      t.exchange (geodeBase + core * 2 ^ 26 + lo + 64 * i) (t.spillSlot core + lo + 64 * i)) t) s

/-- SWAP_EXCHANGE: the victim's work has landed (R407 steps 2 and 3). -/
def swapExchange (at_ quarry : Nat) (s : State) : State :=
  let s := s.advanceTo at_
  match (s.quarry quarry).swap with
  | some (i, v, lim, false) =>
    if s.landedAll v then
      let s := s.exchangeShare v
      s.setQuarry quarry { s.quarry quarry with swap := some (i, v, lim, true) }
    else s
  | _ => s

def execSwapExchange (at_ quarry : Nat) (s : State) : Host.Outcome State Fault Refusal := .next (swapExchange at_ quarry s)

/-- A fault that waited for the end of a swap strikes now (R408). -/
def State.applyPend (s : State) (c : Nat) : State :=
  let code := (s.ctxAt c).pendFault
  if code = 0 then s else (s.setCtx c { s.ctxAt c with pendFault := 0 }).faultCtx c code

/-- The swap of a quarry is over. -/
def State.endSwap (s : State) (q victim : Nat) : State :=
  let s := (s.setQuarry q { s.quarry q with swap := none }).setFld (Fld.swapping victim) 0
  { s with blk := { s.blk with told := SMap.put (fun _ => none) s.blk.told q none } }

/-! ## A context leaves, and the function-level reset (R415, R430) -/

/-- The commands of a context that Flint read before a number end with ABORTED (R430). -/
def State.abortCommands (s : State) (c before : Nat) : State :=
  (s.host.cmds.filter fun q => q.ctx == some c && decide (q.id < before)).foldl (fun t q => t.completeCmd q.id 0x0002 q.dmaTail) s

/-- The semaphores of a context become invalid, and what waits on them is looked at (R67, R68). -/
def State.dropSems (s : State) (c : Nat) : State :=
  let mine := (s.core.sems.filter fun e => e.2.owner == c && e.2.valid).map fun e => e.1
  let s := mine.foldl (fun t k => t.setSem k { t.sem k with valid := false }) s
  mine.foldl (fun t k => t.rewaitAll k) s

/-- Every slot of a context is released; a completion that kept one bound no longer does (R250). -/
def State.dropSlots (s : State) (c : Nat) : State :=
  let mine := s.slotsOf c
  let free (x : Compl) : Compl := if x.slot.any mine.contains then { x with slot := none } else x
  let s := { s with host := { s.host with compls := s.host.compls.map free } }
  mine.foldl State.releaseSlot s

/-- The keys of a map that belong to a context, by blocks of `n` keys, are gone. -/
def dropCtx {α : Type} (c n : Nat) (m : SMap α) : SMap α := SMap.drop (fun k => k / n == c) m

/-- The partner of a context that leaves is alone, and so always resident: its image comes in (R395). -/
def State.loosePartner (s : State) (c : Nat) : State :=
  if s.flag (Fld.partnerValid c) then
    let d := s.fld (Fld.partner c)
    let s := (s.setFld (Fld.partnerValid d) 0).setFld (Fld.partner d) 0
    if s.flag (Fld.resident d) then s else (s.exchangeShare d).setFld (Fld.resident d) 1
  else s

/-- The streams of a context are unbound. -/
def State.unbind (s : State) (c : Nat) : State :=
  s.core.streams.foldl (fun t e => if e.2.ctx = c then t.setStream (e.1 / 64) (e.1 % 64) {} else t) s

/-- The tiles of a context and its telemetry are gone. -/
def State.dropTiles (s : State) (c : Nat) : State :=
  { s with core := { s.core with
    tiles := s.core.tiles.filter (fun (t : Tile) => t.ctx != c), tele := dropCtx c 4096 s.core.tele } }

/-- The tables of a context, its translations, its groups and a fill for it are gone. -/
def State.dropTables (s : State) (c : Nat) : State :=
  { s with
    ws := { s.ws with shards := dropCtx c 4096 s.ws.shards, norms := dropCtx c 4096 s.ws.norms }
    ctx := { s.ctx with plans := dropCtx c 160 s.ctx.plans, streamCfg := dropCtx c 10240 s.ctx.streamCfg }
    mem := { s.mem with tlb := s.mem.tlb.filter fun e => e.ctx != c }
    coll := { s.coll with
      groups := s.coll.groups.filter fun e => !(grpCtx e.2 == c)
      nextDir := if s.coll.nextDir.any (fun d => d.1 == c) then none else s.coll.nextDir }
    fos := { s.fos with
      fill := if s.fos.fill.any (fun f => f.ctx == c) then none else s.fos.fill
      train := if s.fos.train = some c then none else s.fos.train
      nextMap := if s.fos.nextMap.any (fun m => m.1 == c) then none else s.fos.nextMap } }

/-- The expert directory is gone where context `c` owns it. -/
def State.dropDirectory (s : State) (c : Nat) : State :=
  if s.flag Fld.dirValid ∧ s.fld Fld.dirCtx = c then
    let s := { s with coll := { s.coll with headers := [], entries := [], counters := [] } }
    (s.setFld Fld.dirValid 0).setFld Fld.dirCtx 0
  else s

/-- A context's holdings outside its registers are gone (R53, R303, R345, R367, R380, R400). -/
def State.dropHoldings (s : State) (c : Nat) : State :=
  let s := (((s.unbind c).closeDonations fun d => d.fromCtx == c || d.toCtx == c).dropQueues c).dropTiles c
  (((s.dropWaits c).endCtxTransfers c).dropTables c).dropDirectory c

/-- A context returns to Free: its job ends, VEI_JOB_c clears, and its slots and semaphores go (R430). -/
def State.destroy (s : State) (c : Nat) : State :=
  let s := ((s.epochDestroy c).dropHoldings c).wr (Reg.veiJob c) 0
  let s := ((s.dropSlots c).dropSems c).loosePartner c
  let s := s.setCtx c { life := (s.ctxAt c).life }
  let s := [0x00, 0x04, 0x08, 0x0C, 0x10, 0x14].foldl (fun t o => t.wr (Reg.ctxState c + o) (Reg.resetWord (Reg.ctxState c + o))) s
  s.setFld (Fld.ctxExists c) 0

/-- The HIF registers return to their reset values, but HIF_BAR4 (R415, R578). -/
def State.resetHif (s : State) : State :=
  { s with regs := SMap.drop (fun k => decide (Reg.hif ≤ k) && decide (k < Reg.str) && k != Reg.hifBar4) s.regs }

/-- The rings and the MSI-X table as they are after reset. -/
def HostSt.resetRings (h : HostSt) : HostSt :=
  { h with
    cmds := [], compls := [], sqTail := [], cqHead := [], cqPhase := [], unsignalled := [], oldest := [], nextSq := 0, msixTable := [] }

/-- A function-level reset goes on: it destroys every context that no swap holds, and, once none is left, resets the host
interface (R408, R415). -/
def State.flrStep (s : State) : State :=
  if s.host.flr then
    let s := ctxNumbers.foldl (fun t c => if t.ctxState c = csFree ∨ t.swapHolds c then t else t.destroy c) s
    if s.anyCtx then s
    else ({ s with host := { s.host.resetRings with flr := false } } : State).resetHif
  else s

/-- SWAP_ABANDONED: the victim's work has not landed within 2 strata (R407). It is resident, and what waited for that lands
(R402). -/
def swapAbandoned (at_ quarry : Nat) (s : State) : State :=
  let s := s.advanceTo at_
  match (s.quarry quarry).swap with
  | some (i, v, lim, false) =>
    if lim ≤ (s.quarry quarry).ticks ∧ s.landedAll v = false ∧ s.err.flintDown = false then
      ((((s.endSwap quarry v).report { code := 0x0613, index := quarry }).applyPend v).applyPend i).flrStep.collSweep
    else s
  | _ => s

def execSwapAbandoned (at_ quarry : Nat) (s : State) : Host.Outcome State Fault Refusal := .next (swapAbandoned at_ quarry s)

/-- SWAP_DONE: the incoming context is resident, and the packets that waited for it land (R402, R407 step 4). -/
def swapDone (at_ quarry : Nat) (s : State) : State :=
  let s := s.advanceTo at_
  match (s.quarry quarry).swap with
  | some (i, v, _, true) =>
    if s.err.flintDown then s else
    let s := ((s.endSwap quarry v).setFld (Fld.resident v) 0).setFld (Fld.resident i) 1
    let s := (s.bump (Fld.swaps v)).bump (Fld.swaps i)
    let s := s.setCtx v { s.ctxAt v with spilledAt := s.now }
    (((s.rankDecode.report { code := 0x0614, index := quarry }).applyPend v).applyPend i).flrStep.collSweep
  | _ => s

def execSwapDone (at_ quarry : Nat) (s : State) : Host.Outcome State Fault Refusal := .next (swapDone at_ quarry s)

/-! ## CTX_CREATE (R394 to R397, R429) -/

/-- Two ranges overlap; an empty one overlaps nothing. -/
def clash (a n b m : Nat) : Bool := decide (0 < n) && decide (0 < m) && decide (a < b + m) && decide (b < a + n)

/-- The shares of a create lie in range (R394, R410). -/
def shareRange (q : Cmd) : Bool :=
  decide (q.at_ 9 0 6 + q.at_ 10 0 7 ≤ 64) && decide (q.at_ 11 0 7 + q.at_ 12 0 8 ≤ 128)
    && decide (q.at_ 13 0 6 + q.at_ 14 0 7 ≤ 64) && decide (q.at_ 15 0 5 + q.at_ 16 0 6 ≤ 32)
    && decide (q.at_ 17 0 6 + q.at_ 18 0 7 ≤ 64) && decide (q.at_ 26 0 11 ≤ 2048)

/-- The fields of a create lie in range (R394, R410, R429, R519). -/
def State.createRange (s : State) (q : Cmd) : Bool :=
  decide (q.at_ 8 0 2 < quarryCount s.modeOf) && bit (s.fld Fld.ctxEnable) q.c && shareRange q && decide (1 ≤ q.at_ 19 0 4)
    && decide (q.at_ 40 0 48 % 4096 = 0)

/-- The existing contexts of a quarry that name exactly a Geode range. -/
def State.sameGeode (s : State) (q base size : Nat) : List Nat :=
  (s.ctxsOf q).filter fun d => size != 0 && s.fld (Fld.geodeBase d) == base && s.fld (Fld.geodeSize d) == size

/-- A create's shares reach the Assay reserve (R463). -/
def State.hitsReserve (s : State) (q : Cmd) : Bool :=
  s.flag Fld.reserveEn && (clash (q.at_ 11 0 7) (q.at_ 12 0 8) 120 8 || clash (q.at_ 13 0 6) (q.at_ 14 0 7) 56 8
    || clash (q.at_ 15 0 5) (q.at_ 16 0 6) 31 1 || clash (q.at_ 17 0 6) (q.at_ 18 0 7) 56 8)

/-- The shares of a create break R394 or R395. -/
def State.createConflict (s : State) (q : Cmd) : Bool :=
  let quarry := q.at_ 8 0 2
  let gb := q.at_ 17 0 6
  let gs := q.at_ 18 0 7
  let same := s.sameGeode quarry gb gs
  (s.ctxsOf quarry).any (fun d =>
    clash (q.at_ 9 0 6) (q.at_ 10 0 7) (s.fld (Fld.streamBase d)) (s.fld (Fld.streamCount d))
      || clash (q.at_ 11 0 7) (q.at_ 12 0 8) (s.fld (Fld.slotBase d)) (s.fld (Fld.slotCount d))
      || clash (q.at_ 13 0 6) (q.at_ 14 0 7) (s.fld (Fld.statBase d)) (s.fld (Fld.statUnits d))
      || clash (q.at_ 15 0 5) (q.at_ 16 0 6) (s.fld (Fld.lsBase d)) (s.fld (Fld.lsUnits d))
      || clash (q.at_ 20 0 10) (q.at_ 22 0 10) (s.fld (Fld.mainBase d)) (s.fld (Fld.mainSize d))
      || clash (q.at_ 24 0 11) (q.at_ 26 0 11) (s.fld (Fld.globalBase d)) (s.fld (Fld.globalSize d))
      || (!same.contains d && clash gb gs (s.fld (Fld.geodeBase d)) (s.fld (Fld.geodeSize d))))
    || decide (1 < same.length) || same.any (fun d => s.flag (Fld.partnerValid d))
    || decide (s.poolEnd < (q.at_ 20 0 10 + q.at_ 22 0 10) * gib)
    || (decide (0 < q.at_ 26 0 11) && (s.modeOf != 0 || decide (4 * s.fld Fld.globalGib < q.at_ 24 0 11 + q.at_ 26 0 11)))
    || s.hitsReserve q

/-- The level A table of a create lies inside its main-memory share: in a slice of its quarry, or in its part of the window
(R227, R394, R429). -/
def State.createRoot (s : State) (q : Cmd) : Bool :=
  let pa := q.at_ 40 0 48
  match s.place pa with
  | .slice n o => quarryOfSlab s.modeOf n == q.at_ 8 0 2 && decide (q.at_ 20 0 10 * gib ≤ o)
      && decide (o + 4096 ≤ (q.at_ 20 0 10 + q.at_ 22 0 10) * gib)
  | .window o => decide (q.at_ 24 0 11 * gib ≤ o) && decide (o + 4096 ≤ (q.at_ 24 0 11 + q.at_ 26 0 11) * gib)
  | _ => false

/-- The CTX registers of a context as a create gives them (R410, R429). -/
def State.setShares (s : State) (q : Cmd) : State :=
  let c := q.c
  let s := s.wr (Reg.ctxState c) 0
  let s := ((s.setFld (Fld.ctxQuarry c) (q.at_ 8 0 2)).setFld (Fld.ctxPrio c) (q.at_ 8 4 3)).setFld (Fld.donateStrata c) (q.at_ 19 0 4)
  let s := (s.setFld (Fld.streamBase c) (q.at_ 9 0 6)).setFld (Fld.streamCount c) (q.at_ 10 0 7)
  let s := (s.setFld (Fld.slotBase c) (q.at_ 11 0 7)).setFld (Fld.slotCount c) (q.at_ 12 0 8)
  let s := (s.setFld (Fld.statBase c) (q.at_ 13 0 6)).setFld (Fld.statUnits c) (q.at_ 14 0 7)
  let s := (s.setFld (Fld.lsBase c) (q.at_ 15 0 5)).setFld (Fld.lsUnits c) (q.at_ 16 0 6)
  let s := (s.setFld (Fld.geodeBase c) (q.at_ 17 0 6)).setFld (Fld.geodeSize c) (q.at_ 18 0 7)
  let s := (s.setFld (Fld.mainBase c) (q.at_ 20 0 10)).setFld (Fld.mainSize c) (q.at_ 22 0 10)
  (s.setFld (Fld.globalBase c) (q.at_ 24 0 11)).setFld (Fld.globalSize c) (q.at_ 26 0 11)

/-- A new context finds its partner: it starts spilled, and both name each other (R395). -/
def State.pairWith (s : State) (c : Nat) (p : Option Nat) : State :=
  match p with
  | none => s.setFld (Fld.resident c) 1
  | some d =>
    let s := (s.setFld (Fld.partner c) d).setFld (Fld.partnerValid c) 1
    let s := (s.setFld (Fld.partner d) c).setFld (Fld.partnerValid d) 1
    if s.flag (Fld.resident d) then s.setCtx c { s.ctxAt c with spilledAt := s.now } else s.setFld (Fld.resident c) 1

/-- Flint binds the stream window of a context on every core of its quarry (R53, R397). -/
def State.bindStreams (s : State) (c : Nat) : State :=
  (coresOf s.modeOf (s.ctxQuarry c)).foldl (fun t core =>
    (List.range (s.fld (Fld.streamCount c))).foldl (fun t i =>
      t.setStream core (s.fld (Fld.streamBase c) + i) { state := .idle, ctx := c }) t) s

/-- `n` bytes from `pa` on read zero, unpoisoned (R397). Cells whose default is 0 leave the list. -/
def State.zeroRange (s : State) (pa n : Nat) : State :=
  let m := s.mem
  let cell (k : Nat) : Bool := decide (pa ≤ k) && decide (k < pa + n)
  let gran (k : Nat) : Bool := decide (pa / 64 ≤ k) && decide (k < (pa + n) / 64)
  let phys := SMap.drop cell m.phys
  let lost := if pa < 2 ^ 44 then m.mainEpoch else m.sramEpoch
  let phys := if lost = 0 then phys else (List.range n).foldl (fun p i => SMap.put m.physDefault p (pa + i) 0) phys
  { s with mem := { m with phys := phys, poison := SMap.drop gran m.poison, latent := SMap.drop (fun k => gran (k / 8)) m.latent } }

/-- The hub zeroes the Geode share of a context, or its slot image (R397). A fenced bank takes no write. -/
def State.zeroShare (s : State) (c : Nat) : State :=
  let lo := s.fld (Fld.geodeBase c) * 2 ^ 20
  let n := s.fld (Fld.geodeSize c) * 2 ^ 20
  (coresOf s.modeOf (s.ctxQuarry c)).foldl (fun t core =>
    if t.flag (Fld.resident c) then (if t.bankFenced core then t else t.zeroRange (geodeBase + core * 2 ^ 26 + lo) n)
    else t.zeroRange (t.spillSlot core + lo) n) s

/-- Semaphores of other quarries no longer share with a number that a context of this quarry takes (R401). -/
def State.unshare (s : State) (c quarry : Nat) : State :=
  s.core.sems.foldl (fun t e =>
    if t.ctxQuarry e.2.owner ≠ quarry then t.setSem e.1 { e.2 with share := BitVec.ofNat 8 (putBits e.2.share.toNat c 1 0) } else t) s

/-- The context of an accepted create. -/
def State.create (s : State) (q : Cmd) : State :=
  let c := q.c
  let p := (s.sameGeode (q.at_ 8 0 2) (q.at_ 17 0 6) (q.at_ 18 0 7)).head?
  let s := s.setShares q
  let s := s.setCtx c { seed := BitVec.ofNat 64 (q.at_ 32 0 64), ptRoot := q.at_ 40 0 48, life := (s.ctxAt c).life + 1 }
  let s := ((s.pairWith c p).setFld (Fld.ctxState c) csCreated).setFld (Fld.ctxExists c) 1
  ((s.zeroShare c).bindStreams c).unshare c (q.at_ 8 0 2) |>.rankDecode

/-- CTX_CREATE (R429). A share that is out of range or in conflict is refused, and CTX_STAT.cfg_reject tells of it (R410). -/
def ctxCreate (at_ id : Nat) (s : State) : State :=
  let s := s.advanceTo at_
  match s.cmdReady id 0x01 with
  | none => s
  | some q =>
    let s := s.startCmd q
    if s.ctxState q.c ≠ csFree then s.completeCmd id 0x0013 0
    else if s.createRange q = false then
      (if shareRange q then s else s.setFld Fld.ctxCfgReject 1).completeCmd id 0x0012 0
    else if s.createConflict q then (s.setFld Fld.ctxCfgReject 1).completeCmd id 0x0014 0
    else if s.createRoot q = false then s.completeCmd id 0x0015 0
    else (s.create q).completeCmd id 0 0

def execCtxCreate (at_ id : Nat) (s : State) : Host.Outcome State Fault Refusal := .next (ctxCreate at_ id s)

/-! ## CTX_DESTROY (R430) -/

/-- CTX_DESTROY; it waits for a swap of the context or its partner (R408, R430). -/
def ctxDestroy (at_ id : Nat) (s : State) : State :=
  let s := s.advanceTo at_
  match s.cmdReady id 0x02 with
  | none => s
  | some q =>
    if s.ctxState q.c = csFree then (s.startCmd q).completeCmd id 0x0013 0
    else if s.swapHolds q.c then s
    else ((((s.startCmd q).abortCommands q.c id).destroy q.c).completeCmd id 0 0).collSweep

def execCtxDestroy (at_ id : Nat) (s : State) : Host.Outcome State Fault Refusal := .next (ctxDestroy at_ id s)

end Sys2Proof.Machine
end

