-- ==== Sys2Proof/Machine/Tables.lean ====
section
/-! DEFINITION. The tables that a job image and set-policy both supply: groups, the expert directory, sequence slots and the
rotary set-up, with the checks of their owning chapters (R249, R276, R367, R368, R380, R381). -/

namespace Sys2Proof.Machine

/-- The numbers of `n` bytes each that a list of bytes spells. -/
def wordsOf (n : Nat) (b : List Byte) : List Nat := (chunks n b.length b).map leNat

/-- A sparse map of the numbers of a list, by position; 0 is not listed. -/
def natMap (l : List Nat) : SMap Nat := (indexed l).filter fun e => e.2 != 0

/-! ## Groups (R367, R368) -/

/-- The reserved fields of a group entry are 0. -/
def grpClean (r : Nat) : Bool := bits r 0 4 == 0 && bits r 25 7 == 0 && fieldAt r 5 0 8 == 0 && bits r 60 4 == 0

/-- No number occurs twice. -/
def noRepeat : List Nat → Bool
  | [] => true
  | a :: r => !r.contains a && noRepeat r

/-- A valid group meets R368: its fields lie in range, its member range is its own, no module occurs twice, this module stands
at its rank, and its context takes part in Vein traffic. -/
def State.groupFits (s : State) (g : Nat) : Bool :=
  let r := s.groupRaw g
  decide (2 ≤ grpTimeout r) && decide (2 ≤ grpN r) && decide (grpN r ≤ 256) && decide (grpRank r < grpN r)
    && decide (grpBase r + grpN r ≤ 4096)
    && ((List.range 64).all fun h =>
      h == g || !grpValid (s.groupRaw h) || !clash (grpBase r) (grpN r) (grpBase (s.groupRaw h)) (grpN (s.groupRaw h)))
    && noRepeat (s.membersOf g) && s.member g (grpRank r) == s.moduleId && s.flag (Fld.jobValid (grpCtx r))

/-- Group `g` after a set-up by context `c` is as R368 allows: not named by it and untouched, or a group of that context without a
descriptor in flight that is now gone or fits. -/
def groupOk (old new : State) (c : Nat) (named : Nat → Bool) (g : Nat) : Bool :=
  let a := old.groupRaw g
  let b := new.groupRaw g
  (!named g && a == b && (!grpValid b || old.membersOf g == new.membersOf g))
    || ((!grpValid a || grpCtx a == c) && !(old.coll.xfers.any fun x => x.group == g)
      && (!grpValid b || (grpClean b && grpCtx b == c && new.groupFits g)))

/-- The same for every group. -/
def groupsOk (old new : State) (c : Nat) (named : Nat → Bool) : Bool := (List.range 64).all (groupOk old new c named)

/-- The state with a group entry replaced. -/
def State.setGroup (s : State) (g r : Nat) : State :=
  { s with coll := { s.coll with groups := SMap.put (fun _ => 0) s.coll.groups g r } }

/-- The state with a member replaced. -/
def State.setMember (s : State) (i m : Nat) : State :=
  { s with coll := { s.coll with members := SMap.put (fun _ => 0) s.coll.members i m } }

/-- The groups of a context are gone. -/
def State.dropGroups (s : State) (c : Nat) : State :=
  { s with coll := { s.coll with groups := s.coll.groups.filter fun (e : Nat × Nat) => !(grpValid e.2 && grpCtx e.2 == c) } }

/-! ## The expert directory (R380, R381) -/

/-- A directory: headers and entries as sparse maps. -/
structure Directory where
  headers : List Nat
  entries : List Nat

/-- The 66,048 bytes of a directory (R440). -/
def directoryOf (b : List Byte) : Directory := ⟨wordsOf 8 (b.take 512), wordsOf 8 (b.drop 512)⟩

/-- The reserved fields of a header and of an entry are 0. -/
def hdrClean (h : Nat) : Bool := bits h 30 34 == 0
def entClean (e : Nat) : Bool := bits e 17 3 == 0 && bits e 60 4 == 0

/-- An entry of a layer meets R380 and R381: homes are members of the group, and the two homes differ. -/
def entryFits (members : List Nat) (e : Nat) : Bool :=
  decide (1 ≤ entCap e) && members.contains (entHome e)
    && (!entSecValid e || (members.contains (entSec e) && !(entSec e == entHome e && entSecSlot e == entSlot e)))

/-- A layer of a directory of context `c`; a header of zeros says that the layer has none. -/
def State.layerFits (s : State) (c : Nat) (d : Directory) (h : Nat) : Bool :=
  h == 0 ||
    (let g := s.groupRaw (hdrGroup h)
     let es := (List.range (hdrExperts h)).map fun i => d.entries.getD (hdrBase h + i) 0
     let members := s.membersOf (hdrGroup h)
     decide (1 ≤ hdrExperts h) && decide (hdrExperts h ≤ 256) && decide (hdrBase h + hdrExperts h ≤ 8192)
       && grpValid g && grpCtx g == c && es.all (entryFits members)
       && noRepeat (es.map fun e => 16 * entHome e + entSlot e))

/-- Reserved fields of a directory are 0. -/
def Directory.clean (d : Directory) : Bool := d.headers.all hdrClean && d.entries.all entClean

/-- A directory of context `c` is acceptable. -/
def State.directoryOk (s : State) (c : Nat) (d : Directory) : Bool := d.clean && d.headers.all (s.layerFits c d)

/-! ## Sequence slots (R248, R249) -/

/-- A slot entry as the host supplies it, 32 bytes as a number. -/
def slotOfEntry (n : Nat) : Slot :=
  { valid := bit n 7, ctx := bits n 4 3, decode := bit n 3, channel := bits n 0 3, status := fieldAt n 1 4 4
    budget := fieldAt n 1 0 4, layerBits := fieldAt n 2 4 4, groupBits := fieldAt n 2 0 4, recBase := fieldAt n 4 0 48 }

/-- The slot that an entry names. -/
def entrySlot (n : Nat) : Nat := fieldAt n 3 0 7

/-- The sequence slots of a quarry (R389). -/
def slotInQuarry (mode quarry q : Nat) : Bool := q / (128 / quarryCount mode) == quarry

/-- An entry may be bound for context `c` (R249). -/
def State.slotFits (s : State) (c n : Nat) : Bool :=
  let e := slotOfEntry n
  let q := entrySlot n
  e.valid && e.ctx == c && !(s.slot q).valid && slotInQuarry s.modeOf (s.ctxQuarry c) q
    && e.status == 0 && fieldAt n 12 0 96 == 0 && bit (fieldAt n 3 0 8) 7 == false && fieldAt n 10 0 16 == 0 && fieldAt n 24 0 64 == 0
    && (if e.decode then (s.ctxAt c).layerTable == [] && (s.ctxAt c).decodeMask.getLsbD e.channel else e.channel == 0)
    && decide (e.layerBits ≤ 9) && decide (e.groupBits ≤ 6) && decide (7 ≤ e.pageBits)
    && e.recBase % 2 ^ 14 == 0 && decide (e.recBase < windowBase)

/-- The entries of a list are bound in turn, or the position of the first that may not be. -/
def State.bindSlots (s : State) (c : Nat) : List (Nat × Nat) → Except Nat State
  | [] => .ok s
  | (i, n) :: r => if s.slotFits c n then (s.setSlot (entrySlot n) (slotOfEntry n)).bindSlots c r else .error i

/-! ## The rotary set-up (R276, R431) -/

/-- The reserved bits of the 264 bytes are 0. -/
def rotaryClean (b : List Byte) : Bool := fieldAt (leNat (b.take 8)) 4 1 31 == 0

/-- A rotary set-up from an accepted tick on (R276). -/
def State.addRotary (s : State) (c tick : Nat) (b : List Byte) : State :=
  let n := leNat (b.take 8)
  let x := s.ctxAt c
  s.setCtx c { x with rots := (tick, BitVec.ofNat 32 n, fieldAt n 4 0 1 == 1, (b.drop 8).take 256) :: x.rots }

/-! ## Shares of a context in memory (R258, R365, R394, R431) -/

/-- A range lies inside the main-memory shares of a context; an empty one lies anywhere. -/
def State.inShare (s : State) (c a n : Nat) : Bool := n == 0 || s.mainFirewall c a n

/-- The decode channels of a quarry (R389). -/
def quarryChannels (mode q : Nat) : Nat :=
  if mode = 1 then 0x0F * 16 ^ q else if mode = 2 then 3 * 4 ^ q else 0xFF

/-- Every channel of a mask is the quarry's, and none is another context's (R287). -/
def State.maskFits (s : State) (c mask : Nat) : Bool :=
  mask &&& quarryChannels s.modeOf (s.ctxQuarry c) == mask
    && ctxNumbers.all fun d => d == c || s.ctxState d == csFree || s.ctxState d == csCreated || (s.ctxAt d).decodeMask.toNat &&& mask == 0

/-! ## Semaphores (R67, R401) -/

/-- The contexts that a share mask of a quarry may name: those of the quarry, and the unused numbers (R401). -/
def State.shareMask (s : State) (quarry m : Nat) : BitVec 8 :=
  BitVec.ofNat 8 ((ctxNumbers.filter fun c => bit m c && (s.ctxState c == csFree || s.ctxQuarry c == quarry)).foldl (fun n c => n + 2 ^ c) 0)

end Sys2Proof.Machine
end

