-- ==== Sys2Proof/Machine/JobImage.lean ====
section
/-! DEFINITION. The job image, and the commands JOB_LOAD and JOB_START (R55, R56, R431, R432). -/

namespace Sys2Proof.Machine

/-! ## The section table (R431) -/

/-- One entry of the section table, with its index. -/
structure Section where
  idx : Nat
  kind : Nat
  len : Nat
  off : Nat
  dev : Nat
  /-- Reserved bytes that are not 0. -/
  dirty : Bool

/-- An entry from its 32 bytes as a number. -/
def sectionOf (idx n : Nat) : Section :=
  { idx := idx, kind := fieldAt n 0 0 8, len := fieldAt n 4 0 32, off := fieldAt n 8 0 64, dev := fieldAt n 16 0 48
    dirty := fieldAt n 1 0 24 != 0 || fieldAt n 22 0 80 != 0 }

/-- The length that a section type has, where it is fixed (R431). -/
def fixedLen : Nat → Option Nat
  | 0x03 => some 163840
  | 0x04 => some 2560
  | 0x07 => some 3072
  | 0x09 => some 8704
  | 0x0A => some 66048
  | 0x0B => some 320
  | 0x0C => some 64
  | _ => none

/-- Section types that may occur more than once. -/
def mayRepeat : List Nat := [0x01, 0x02, 0x05, 0x0D]

/-- An entry is well formed, the earlier entries given (R431). -/
def Section.ok (e : Section) (imageLen : Nat) (earlier : List Section) : Bool :=
  !e.dirty && decide (1 ≤ e.kind) && decide (e.kind ≤ 0x0D) && e.len % 64 == 0 && decide (e.off + e.len ≤ imageLen)
    && (e.kind == 1 || e.kind == 2 || e.dev == 0)
    && (match fixedLen e.kind with | some n => e.len == n | none => true)
    && (e.kind != 6 || decide (e.len ≤ 16384)) && (e.kind != 8 || decide (e.len ≤ 32768))
    && (e.kind != 1 || !earlier.any fun x => x.kind == 2)
    && (mayRepeat.contains e.kind || !earlier.any fun x => x.kind == e.kind)

/-- The index of the first entry that is not well formed. -/
def badSection (imageLen : Nat) (earlier : List Section) : List Section → Option Nat
  | [] => none
  | e :: r => if e.ok imageLen earlier then badSection imageLen (e :: earlier) r else some e.idx

/-- The load stops with IMAGE_BAD at a section (R425). -/
def imageBad {α : Type} (idx : Nat) : Exec α := Exec.stop (.status (0x0018 + idx % 2 ^ 16 * 2 ^ 16))

/-- The load stops with IMAGE_BAD unless a condition holds. -/
def needImage (b : Bool) (idx : Nat) : Exec Unit := if b then pure () else imageBad idx

/-- Bytes of host memory, or the status of a bad answer (R425). -/
def hostRead (a n : Nat) : Exec (List Byte) := do
  Exec.check (!(← Exec.ask fun s => s.hostAborts a n)) (.status 0x0016)
  Exec.check (!(← Exec.ask fun s => s.hostPoisons a n)) (.status 0x0017)
  Exec.ask fun s => s.hostBytes a n

/-- The section table of an image. -/
def readTable (a imageLen n : Nat) : Exec (List Section) := do
  needImage (decide (32 * n ≤ imageLen)) 0
  let b ← hostRead a (32 * n)
  let l := (indexed (wordsOf 32 b)).map fun (e : Nat × Nat) => sectionOf e.1 e.2
  match badSection imageLen [] l with
  | some i => imageBad i
  | none => pure l

/-! ## Sections of memory (types 0x01 and 0x02) -/

/-- Bytes at physical addresses inside the main-memory shares of a context. -/
def loadTables (c pa : Nat) (b : List Byte) : Exec Unit := do
  Exec.check (← Exec.ask fun s => s.inShare c pa b.length) (.status 0x0015)
  Exec.each (granPieces (pieceFuel b.length) pa b.length) fun p =>
    storePhys (pa + p.1) ((b.drop p.1).take p.2) false

/-- The physical address at which Flint or a host queue reaches an address of a context; a translation that fails ends the
command with DEVICE_ADDRESS, and one that reaches the Geode share of a displaced context with CTX_STATE (R425, R434). -/
def deviceAddr (c : Nat) (work : Exec Nat) : Exec Nat := fun s =>
  match work s with
  | (.ok pa, t) => if geodeBase ≤ pa ∧ t.displaced c then (.error (.status 0x0013), t) else (.ok pa, t)
  | (.error (.fault _ _), t) => (.error (.status 0x0015), t)
  | (.error e, t) => (.error e, t)

/-- The physical address of a part of a section: the walk alone (R229, R431). -/
def walkAddr (c va : Nat) : Exec Nat := do
  match (← Exec.ofState fun s => s.hubWalk c (va % 2 ^ 48)) with
  | .error e => Exec.stop (.fault e 0)
  | .ok l => pure (l.pa + (va % 2 ^ 48 - l.va))

/-- Bytes at context virtual addresses. -/
def loadContents (c va : Nat) (b : List Byte) : Exec Unit :=
  Exec.each (granPieces (pieceFuel b.length) va b.length) fun p => do
    let pa ← deviceAddr c (walkAddr c (va + p.1))
    storePhys pa ((b.drop p.1).take p.2) false

/-- The translations of a context leave every TLB (R231). -/
def State.forgetAll (s : State) (c : Nat) : State :=
  { s with mem := { s.mem with tlb := s.mem.tlb.filter fun e => e.ctx != c } }

/-- A section of memory is copied; a held input refuses the load (R431, R497). -/
def copySection (c image : Nat) (e : Section) : Exec Unit := do
  if e.kind = 1 then
    loadTables c e.dev (← hostRead (image + e.off) e.len)
    Exec.doState fun s => s.forgetAll c
  else if e.kind = 2 then
    loadContents c e.dev (← hostRead (image + e.off) e.len)
    Exec.doState fun s => s.payOwed e.dev e.len
  else pure ()

/-! ## Sections of set-up -/

/-- A stream-table entry, 16 bytes as a number (R55). -/
def streamEntry (n : Nat) : StreamCfg :=
  { base := bits n 6 42 * 64, len := fieldAt n 8 0 32, prio := fieldAt n 12 1 1 == 1, enable := fieldAt n 12 0 1 == 1 }

/-- An entry of stream `k` of the table is acceptable for a context (R55). -/
def State.streamTableFits (s : State) (c k n : Nat) : Bool :=
  let e := streamEntry n
  let st := s.stream (k / 64) (k % 64)
  bits n 0 6 == 0 && bits n 48 16 == 0 && fieldAt n 12 2 30 == 0
    && (!e.enable || (st.state != .unbound && st.ctx == c && decide (1 ≤ e.len) && decide (e.len ≤ 16777216)))

/-- Section 0x03. -/
def State.loadStreams (s : State) (c : Nat) (b : List Byte) : Option State :=
  let es := indexed (wordsOf 16 b)
  if es.all fun e => s.streamTableFits c e.1 e.2 then
    let on := es.filter fun e => (streamEntry e.2).enable
    let cfg : SMap StreamCfg := on.foldl (fun m e => SMap.put (fun _ => {}) m (10240 * c + e.1) (streamEntry e.2)) (dropCtx c 10240 s.ctx.streamCfg)
    some { s with ctx := { s.ctx with streamCfg := cfg } }
  else none

/-- A plan header, 16 bytes as a number (R56). -/
def planOf (n : Nat) : Plan := { base := bits n 6 42 * 64, len := fieldAt n 8 0 32, loopFrom := fieldAt n 12 0 32 }

/-- A plan header is acceptable (R56). -/
def planFits (n : Nat) : Bool :=
  bits n 0 6 == 0 && bits n 48 16 == 0 && (planOf n).len != 0 && decide ((planOf n).loopFrom < (planOf n).len)

/-- Section 0x04. -/
def State.loadPlans (s : State) (c : Nat) (b : List Byte) : Option State :=
  let es := indexed (wordsOf 16 b)
  if es.all fun e => planFits e.2 then some (es.foldl (fun t e => t.setPlan c e.1 (planOf e.2)) s) else none

/-- A semaphore entry, 16 bytes as a number: its key, where the context's quarry has that semaphore (R389, R431). -/
def State.semEntry (s : State) (quarry n : Nat) : Option Nat :=
  let core := bits n 0 16
  let i := bits n 16 16
  let per := 4096 / quarryCount s.modeOf
  if fieldAt n 9 0 56 ≠ 0 then none
  else if core = 0xFFFF then (if i / per = quarry then some (0x10000 + i) else none)
  else if core < 160 ∧ s.quarryOfCore core = quarry ∧ i < 256 then some (256 * core + i) else none

/-- The semaphores of a list of entries, when none is named twice or is another context's (R67). -/
def State.semList (s : State) (c : Nat) (l : List Nat) : Option (List (Nat × Sem)) :=
  let q := s.ctxQuarry c
  let ks := l.filterMap (s.semEntry q)
  if ks.length = l.length ∧ noRepeat ks ∧ ks.all fun k => !(s.sem k).valid || (s.sem k).owner == c then
    some ((List.zip ks l).map fun (e : Nat × Nat) =>
      (e.1, { value := BitVec.ofNat 32 (fieldAt e.2 4 0 32), owner := c, valid := true, share := s.shareMask q (fieldAt e.2 8 0 8) }))
  else none

/-- Section 0x05: the context holds exactly these semaphores. Waits on those that it gains or loses are looked at once the load
is done (R67, R68). -/
def State.loadSems (s : State) (c : Nat) (b : List Byte) : Option State :=
  (s.semList c (wordsOf 16 b)).map fun l =>
    let mine := (s.core.sems.filter fun e => e.2.owner == c && e.2.valid).map fun e => e.1
    let s := mine.foldl (fun t k => t.setSem k { t.sem k with valid := false }) s
    l.foldl (fun t e => t.setSem e.1 e.2) s

/-- A layer-table entry, 16 bytes as a number, is acceptable beside a version table of `n` entries (R298). -/
def layerEntryFits (n e : Nat) : Bool :=
  bits e 3 13 == 0 && decide (bits e 0 2 ≤ 1) && bits e 28 4 == 0 && bits e 45 3 == 0 && bits e 80 48 == 0
    && decide (bits e 32 13 ≤ 4096) && (bits e 32 13 == 0 || decide (bits e 16 12 + bits e 32 13 ≤ n))

/-- A job that trains may be loaded (R391). -/
def State.mayTrain (s : State) (c : Nat) : Bool :=
  s.modeOf == 0 && ctxNumbers.all fun d =>
    d == c || (s.ctxAt d).layerTable == [] || !(s.ctxState d == csLoaded || s.ctxState d == csRunning)

/-- Section 0x08: a version-table entry is acceptable (R431). -/
def versionFits (e : Nat) : Bool := decide (fieldAt e 4 0 16 < 1024) && fieldAt e 6 0 16 == 0

/-- Section 0x08. -/
def State.loadVersionTable (s : State) (c : Nat) (b : List Byte) : Option State :=
  let es := indexed (wordsOf 8 b)
  if es.all fun e => versionFits e.2 then
    let s := { s with ws := { s.ws with shards := dropCtx c 4096 s.ws.shards } }
    some (es.foldl (fun t e => t.setShard c e.1 { valid := true, version := BitVec.ofNat 32 e.2, layer := fieldAt e.2 4 0 16 }) s)
  else none

/-- Section 0x06. -/
def State.loadLayers (s : State) (c : Nat) (b : List Byte) : Option State :=
  if (wordsOf 16 b).all (layerEntryFits (s.shardsOf c).length) then some (s.setCtx c { s.ctxAt c with layerTable := b }) else none

/-- Section 0x09: the valid entries are the context's groups (R367, R368, R355). -/
def State.loadGroups (s : State) (c : Nat) (b : List Byte) : Option State :=
  let es := indexed (wordsOf 8 (b.take 512))
  let ms := wordsOf 2 (b.drop 512)
  let on := es.filter fun e => grpValid e.2
  let t := on.foldl (fun t e => t.setGroup e.1 e.2) (s.dropGroups c)
  let t := on.foldl (fun t e => (List.range (grpN e.2)).foldl (fun t i => t.setMember (grpBase e.2 + i) (ms.getD (grpBase e.2 + i) 0)) t) t
  if es.all (fun e => grpClean e.2) && ms.all (fun m => decide (m < 4096)) 
      && groupsOk s t c (fun g => on.any fun e => e.1 == g) && t.budgetsOk then some t else none

/-- A directory is in force at once, and belongs to the context (R380). -/
def State.loadDirectory (s : State) (c : Nat) (b : List Byte) : Option State :=
  let d := directoryOf b
  if s.directoryOk c d then
    let s := { s with coll := { s.coll with headers := natMap d.headers, entries := natMap d.entries, nextDir := none } }
    some ((s.setFld Fld.dirValid 1).setFld Fld.dirCtx c)
  else none

/-- Section 0x0C, 64 bytes as a number: pool, staging area and decode channels (R258, R287, R365, R431). -/
def State.loadRegions (s : State) (c : Nat) (b : List Byte) : Option State :=
  let n := leNat b
  let pool := fieldAt n 0 0 48
  let frames := fieldAt n 8 0 32
  let staging := fieldAt n 16 0 48
  let mib := fieldAt n 24 0 32
  let mask := fieldAt n 32 0 8
  let clean := fieldAt n 6 0 16 == 0 && fieldAt n 12 0 32 == 0 && fieldAt n 22 0 16 == 0 && fieldAt n 28 0 32 == 0 && fieldAt n 33 0 248 == 0
  if clean && pool % 2 ^ 14 == 0 && s.inShare c pool (frames * 2 ^ 14)
      && (mib == 0 || (decide (16 ≤ mib) && decide (mib ≤ 1024))) && s.inShare c staging (mib * 2 ^ 20)
      && s.maskFits c mask && (mask == 0 || (s.ctxAt c).layerTable == []) then
    some (s.setCtx c { s.ctxAt c with
      kvPool := if frames = 0 then [] else [(pool, frames)], kvTables := [], staging := staging, stagingMib := mib, decodeMask := BitVec.ofNat 8 mask })
  else none

/-- Section 0x0B: 264 bytes and padding. -/
def State.loadRotary (s : State) (c : Nat) (b : List Byte) : Option State :=
  if rotaryClean b ∧ (b.drop 264).all (· == 0) then
    some ((s.setCtx c { s.ctxAt c with rots := [] }).addRotary c 0 b)
  else none

/-- Section 0x0D: entries of zeros only fill it up. -/
def State.loadSlots (s : State) (c : Nat) (b : List Byte) : Option State :=
  (s.bindSlots c (indexed ((wordsOf 32 b).filter (· != 0)))).toOption

/-- A section of set-up takes effect; none where the image is bad. -/
def State.setUp (s : State) (c kind : Nat) (b : List Byte) : Option State :=
  match kind with
  | 0x03 => s.loadStreams c b
  | 0x04 => s.loadPlans c b
  | 0x06 => s.loadLayers c b
  | 0x07 => some (s.setCtx c { s.ctxAt c with opLists := b })
  | 0x08 => s.loadVersionTable c b
  | 0x09 => s.loadGroups c b
  | 0x0A => s.loadDirectory c b
  | 0x0B => s.loadRotary c b
  | 0x0C => s.loadRegions c b
  | 0x0D => s.loadSlots c b
  | _ => some s

/-- The order in which the sections of set-up take effect: what a check rests on comes before it. -/
def setUpOrder : List Nat := [0x08, 0x06, 0x07, 0x0C, 0x0B, 0x03, 0x04, 0x09, 0x0A, 0x0D]

/-- A section is read and takes effect. -/
def applySection (c image : Nat) (e : Section) : Exec Unit := do
  let b ← hostRead (image + e.off) e.len
  Exec.orElse (fun s => s.setUp c e.kind b) (imageBad e.idx)

/-- The semaphore sections together; a bad entry is reported at the first of them (R67). -/
def applySems (c image : Nat) (l : List Section) : Exec Unit := do
  let parts ← Exec.collect l fun e => hostRead (image + e.off) e.len
  Exec.orElse (fun s => s.loadSems c parts.flatten) (imageBad ((l.head?.map fun e => e.idx).getD 0))

/-! ## JOB_LOAD (R425, R431) -/

/-- What the job before has left in the context is gone. -/
def State.freshJob (s : State) (c : Nat) : State :=
  let x := s.ctxAt c
  let s := s.setCtx c { x with
    layerTable := [], opLists := [], kvPool := [], kvTables := [], staging := 0, stagingMib := 0, decodeMask := 0 }
  { s with
    ws := { s.ws with shards := dropCtx c 4096 s.ws.shards }
    ctx := { s.ctx with plans := dropCtx c 160 s.ctx.plans, streamCfg := dropCtx c 10240 s.ctx.streamCfg } }

/-- Every image has stream tables and plan headers; the index that stands for a missing one is free (R55, R56). -/
def needSections (l : List Section) : Exec Unit := do
  if [0x03, 0x04].all fun k => l.any fun e => e.kind == k then pure ()
  else imageBad (← Exec.free (2 ^ 16))

/-- The layer table of an image needs a module that may train (R391). -/
def needTraining (c : Nat) (l : List Section) : Exec Unit := do
  Exec.check (!(l.any fun e => e.kind == 6) || (← Exec.ask fun s => s.mayTrain c)) (.status 0x001A)

/-- The whole load. Before anything is written, a section that would write a held input refuses it (R497). -/
def loadImage (q : Cmd) : Exec Unit := do
  let c := q.c
  let image := q.at_ 8 0 64
  let l ← readTable image (q.at_ 16 0 32) (q.at_ 20 0 16)
  needSections l
  needTraining c l
  Exec.each l fun e => do
    Exec.check (!(e.kind == 2 && (← Exec.ask fun s => s.inputHeld c e.dev e.len))) (.status 0x090A)
    Exec.check (!(e.kind == 1 && (← Exec.ask fun s => s.inputHeldAt c e.dev e.len))) (.status 0x090A)
  Exec.each l (copySection c image)
  Exec.doState fun s => s.freshJob c
  Exec.each setUpOrder fun k => Exec.each (l.filter fun e => e.kind == k) (applySection c image)
  applySems c image (l.filter fun e => e.kind == 5)

/-- The semaphores of a context that differ between two states. -/
def semsChanged (old new : State) (c : Nat) : List Nat :=
  ((old.core.sems.keys ++ new.core.sems.keys).eraseDups).filter fun k =>
    ((old.sem k).owner == c || (new.sem k).owner == c) && old.sem k != new.sem k

/-- The image is in place: the context is Loaded (R393, R502). -/
def State.loaded (s old : State) (c : Nat) : State :=
  let s := ((s.setFld (Fld.ctxState c) csLoaded).rankDecode).setTrain c
  let s := if s.fos.owed = [] then s.setFld Fld.partial_ 0 else s
  ((semsChanged old s c).foldl State.rewaitAll s).collSweep

/-- JOB_LOAD. A load that fails changes nothing, but that an image found bad leaves the context Created (R20, R425, R431). -/
def jobLoad (at_ id : Nat) (s : State) : State :=
  let s := s.advanceTo at_
  match s.cmdReady id 0x03 with
  | none => s
  | some q =>
    let c := q.c
    let t := s.startCmd q
    if s.ctxState c ≠ csCreated ∧ s.ctxState c ≠ csEnded then t.completeCmd id 0x0013 0
    else if q.at_ 8 0 64 % 64 ≠ 0 ∨ q.at_ 20 0 16 = 0 ∨ 4096 < q.at_ 20 0 16 then t.completeCmd id 0x0012 0
    else match loadImage q t with
      | (.ok _, u) => (u.loaded t c).completeCmd id 0 0
      | (.error .stall, _) => s
      | (.error (.status n), u) =>
        let t := { t with freeCtr := u.freeCtr }
        if n % 2 ^ 16 = 0x0018 then (t.setFld (Fld.ctxState c) csCreated).completeCmd id 0x0018 (n / 2 ^ 16)
        else t.completeCmd id n 0
      | (.error _, _) => t.completeCmd id 0x0015 0

def execJobLoad (at_ id : Nat) (s : State) : Host.Outcome State Fault Refusal := .next (jobLoad at_ id s)

/-! ## JOB_START (R57, R59, R147, R151, R187, R323, R385, R432, R468) -/

/-- The records of a context's window are empty and unpoisoned (R187). -/
def State.emptyStats (s : State) (c : Nat) : State :=
  let m := s.mem
  let cores := coresOf s.modeOf (s.ctxQuarry c)
  let lo := s.fld (Fld.statBase c) * 256
  let hi := lo + s.fld (Fld.statUnits c) * 256
  let mine (core k : Nat) : Bool := cores.contains core && decide (lo ≤ k) && decide (k < hi)
  let stat := (m.stat.filter fun e => mine (e.1 / 2 ^ 18) (e.1 % 2 ^ 18 / 16) && e.1 % 16 == 15).foldl
    (fun t e => SMap.put m.statDefault t e.1 (e.2 &&& 63)) m.stat
  { s with mem := { m with stat := stat, statPoison := SMap.drop (fun k => mine (k / 16384) (k % 16384)) m.statPoison } }

/-- A bound stream as a job start leaves it: Parked at the head of its program, or Idle (R59, R147). -/
def startedStream (st : Stream) (e : StreamCfg) (now : Nat) : Stream :=
  let fresh : Stream := { ctx := st.ctx, state := .idle, readyAt := now }
  if e.enable then
    { fresh with state := .parked, pc := e.base, progBase := e.base, progLen := e.len, prio := e.prio }
  else fresh

/-- The streams of a context start. -/
def State.startStreams (s : State) (c : Nat) : State :=
  s.mapStreams fun k st =>
    if st.ctx == c && st.state != .unbound then
      startedStream st (SMap.get (fun _ => {}) s.ctx.streamCfg (10240 * c + k)) s.now
    else st

/-- The tables that a job start zeroes (R151, R323, R385). -/
def State.zeroTables (s : State) (c : Nat) : State :=
  { s with
    core := { s.core with tele := dropCtx c 4096 s.core.tele, assayX := SMap.drop (fun k => s.quarryOfCore k == s.ctxQuarry c) s.core.assayX }
    ws := { s.ws with norms := dropCtx c 4096 s.ws.norms }
    coll := { s.coll with counters := if s.flag Fld.dirValid && s.fld Fld.dirCtx == c then [] else s.coll.counters } }

/-- The plans of a context stand at entry 0 (R57). -/
def State.startPlans (s : State) (c : Nat) : State :=
  (s.ctx.plans.keys.filter fun k => k / 160 == c).foldl (fun t k => t.setPlan c (k % 160) { t.plan c (k % 160) with j := 0 }) s

/-- What a context holds as its job starts. -/
def Ctx.started (x : Ctx) (sq : Nat) : Ctx :=
  { x with
    stepFlags := 0, repeatBit := false, sealed_ := false, verStray := 0, faultCode := 0, startSq := sq, jobOn := true
    failedSeqs := 0, firstFailed := none }

/-- The job of a context starts. -/
def State.startJob (s : State) (c sq : Nat) : State :=
  let s := s.setCtx c ((s.ctxAt c).started sq)
  let s := (((s.startStreams c).startPlans c).zeroTables c).emptyStats c
  let s := if (s.ctxAt c).layerTable = [] then s else ({ s with fos := { s.fos with firstTick := true } } : State).setTrain c
  let s := (s.setFld (Fld.ctxState c) csRunning).rankDecode
  if s.allEnded c then (s.setFld (Fld.ctxState c) csEnded).endJob c 0 else s

/-- JOB_START: refused in the state partial (R432, R502). -/
def jobStart (at_ id : Nat) (s : State) : State :=
  let s := s.advanceTo at_
  match s.cmdReady id 0x04 with
  | none => s
  | some q =>
    let s := s.startCmd q
    if s.ctxState q.c ≠ csLoaded then s.completeCmd id 0x0013 0
    else if s.flag Fld.partial_ then s.completeCmd id 0x001A 0
    else
      let s := s.completeCmd id 0 0
      s.startJob q.c q.sq

def execJobStart (at_ id : Nat) (s : State) : Host.Outcome State Fault Refusal := .next (jobStart at_ id s)

end Sys2Proof.Machine
end

