-- ==== Sys2Proof/Machine/Rings.lean ====
section
/-! DEFINITION. The host port: doorbells, command fetch, completions, MSI-X, the HIF registers, function-level reset and BAR4
(chapter Host Interface). -/

namespace Sys2Proof.Machine

/-! ## Rings (R418 to R421) -/

/-- The rings serve: Flint's service runs, or the module is fatal, and no function-level reset is under way (R415, R461,
R569). -/
def State.hostUp (s : State) : Bool := (s.pins.phase == .running || s.pins.phase == .fatal) && !s.host.flr

/-- Base and size of a ring's SQ and CQ. -/
def ringBase (lo hi : Word) : Nat := lo.toNat / 4096 * 4096 + hi.toNat * 2 ^ 32
def State.sqBase (s : State) (r : Nat) : Nat := ringBase (s.rd (Reg.sqBaseLo r)) (s.rd (Reg.sqBaseHi r))
def State.cqBase (s : State) (r : Nat) : Nat := ringBase (s.rd (Reg.cqBaseLo r)) (s.rd (Reg.cqBaseHi r))
def State.sqSize (s : State) (r : Nat) : Nat := 2 ^ s.fld (Fld.sqLog2 r)
def State.cqSize (s : State) (r : Nat) : Nat := 2 ^ s.fld (Fld.cqLog2 r)

/-- The indices that the host last wrote. -/
def State.sqTailOf (s : State) (r : Nat) : Nat := SMap.get (fun _ => 0) s.host.sqTail r
def State.cqHeadOf (s : State) (r : Nat) : Nat := SMap.get (fun _ => 0) s.host.cqHead r
def State.setSqTail (s : State) (r v : Nat) : State := { s with host := { s.host with sqTail := SMap.put (fun _ => 0) s.host.sqTail r v } }
def State.setCqHead (s : State) (r v : Nat) : State := { s with host := { s.host with cqHead := SMap.put (fun _ => 0) s.host.cqHead r v } }

/-- DOORBELL_SQ_TAIL (R420). -/
def doorbellSqTail (at_ ring index : Nat) (s : State) : State :=
  let s := s.advanceTo at_
  if ring < 64 ∧ s.hostUp ∧ s.flag (Fld.sqEnable ring) then
    if index % 65536 < s.sqSize ring then s.setSqTail ring (index % 65536) else s.setFld Fld.badDoorbell 1
  else s

def execDoorbellSqTail (at_ ring index : Nat) (s : State) : Host.Outcome State Fault Refusal := .next (doorbellSqTail at_ ring index s)

/-- DOORBELL_CQ_HEAD (R420). -/
def doorbellCqHead (at_ ring index : Nat) (s : State) : State :=
  let s := s.advanceTo at_
  if ring < 64 ∧ s.hostUp ∧ s.flag (Fld.cqEnable ring) then
    if index % 65536 < s.cqSize ring then s.setCqHead ring (index % 65536) else s.setFld Fld.badDoorbell 1
  else s

def execDoorbellCqHead (at_ ring index : Nat) (s : State) : Host.Outcome State Fault Refusal := .next (doorbellCqHead at_ ring index s)

/-- A CQ is full (R421). -/
def State.cqFull (s : State) (r : Nat) : Bool :=
  s.flag (Fld.cqEnable r) && (s.fld (Fld.cqTail r) + 1) % s.cqSize r == s.cqHeadOf r

/-! ## Commands as they are read (R423, R425, R426, R428) -/

/-- Every bit of bytes 8 to 63 of a command outside the named fields is 0. -/
def bodyClean (raw : Nat) (l : List (Nat × Nat × Nat)) : Bool :=
  let mask := l.foldl (fun m f => m ||| (2 ^ f.2.2 - 1) * 2 ^ (8 * f.1 + f.2.1)) (2 ^ 64 - 1)
  raw % 2 ^ 512 &&& (2 ^ 512 - 1 - mask) == 0

/-- The named fields of a command's body: byte, lowest bit and width (R429 to R442). -/
def bodyFields : Nat → List (Nat × Nat × Nat)
  | 0x01 => [(8, 0, 2), (8, 4, 3), (9, 0, 6), (10, 0, 7), (11, 0, 7), (12, 0, 8), (13, 0, 6), (14, 0, 7), (15, 0, 5), (16, 0, 6),
      (17, 0, 6), (18, 0, 7), (19, 0, 4), (20, 0, 10), (22, 0, 10), (24, 0, 11), (26, 0, 11), (32, 0, 64), (40, 0, 48)]
  | 0x03 => [(8, 0, 64), (16, 0, 32), (20, 0, 16)]
  | 0x05 | 0x06 => [(8, 0, 64), (16, 0, 48), (24, 0, 32), (28, 0, 2), (32, 0, 64), (40, 0, 32)]
  | 0x07 => [(8, 0, 64), (16, 0, 64), (24, 0, 12), (26, 0, 2), (27, 0, 2), (28, 0, 32)]
  | 0x08 => [(28, 0, 32)]
  | 0x09 => [(24, 0, 12), (27, 0, 2), (28, 0, 32)]
  | 0x0A => [(8, 0, 8), (10, 0, 16), (16, 0, 64), (24, 0, 32)]
  | 0x0B => [(8, 0, 8), (10, 0, 16)]
  | 0x0C => [(8, 0, 16), (16, 0, 64), (24, 0, 32)]
  | 0x0D => [(8, 0, 8), (9, 0, 1), (10, 0, 16), (12, 0, 16), (16, 0, 64)]
  | _ => []

/-- What ctx_valid must be: by the opcode, and for QUERY by the selector and for SET_POLICY by the type; none where the selector or
the type does not exist (R428, R437, R439). -/
def Cmd.wantsCtx (c : Cmd) : Option Bool :=
  match c.opcode with
  | 0x0A => if c.at_ 8 0 8 ≤ 5 then some ([1, 3].contains (c.at_ 8 0 8)) else none
  | 0x0B => some false
  | 0x0C =>
    if 1 ≤ c.at_ 8 0 16 ∧ c.at_ 8 0 16 ≤ 0x10 then some ([6, 7, 8, 9, 0xA, 0xB, 0xC, 0xF, 0x10].contains (c.at_ 8 0 16)) else none
  | _ => some true

/-- The status with which a command is refused as it is read, or 0. -/
def Cmd.readStatus (c : Cmd) (fatal : Bool) : Nat :=
  if fatal && c.opcode != 0x0A then 0x001A
  else if c.opcode = 0 ∨ 0x0D < c.opcode then 0x0010
  else if bits c.raw 11 3 ≠ 0 ∨ bits c.raw 16 16 ≠ 0 ∨ bodyClean c.raw (bodyFields c.opcode) = false then 0x0011
  else if c.wantsCtx ≠ some (bit c.raw 15) then 0x0012
  else 0

/-- The state with a command accepted (R426). -/
def State.accept (s : State) (r raw : Nat) : State :=
  let c : Cmd := { id := s.host.nextId, sq := r, raw := raw }
  let s := { s with host := { s.host with nextId := s.host.nextId + 1, cmds := s.host.cmds ++ [c] } }
  let st := c.readStatus (s.flag Fld.fatal)
  if st = 0 then s else s.completeCmd c.id st 0

/-- Host memory answers a read of the range badly. -/
def State.hostRefuses (s : State) (a n : Nat) : Bool := s.hostAborts a n || s.hostPoisons a n

/-- An unread command completes with ABORTED; the tag of one that cannot be read is free (R427). -/
def State.abortUnread (s : State) (r i : Nat) : State :=
  let a := s.sqBase r + 64 * i
  let x : Nat × State := if s.hostRefuses a 64 then (let f := s.fresh (2 ^ 32); (f.1 * 2 ^ 32, f.2)) else (leNat (s.hostBytes a 64), s)
  let c : Cmd := { id := 0, sq := r, raw := x.1 }
  x.2.post { cq := s.fld (Fld.sqCq r), sq := r, kind := 0, body := complBody (bits x.1 32 32) r 0 c.ctx 0x0002 0 }

/-- Flint stops to read an SQ: what lies between head and tail is aborted (R427). -/
def State.sqStop (s : State) (r : Nat) : State :=
  let n := s.sqSize r
  let head := s.fld (Fld.sqHead r)
  let tail := s.sqTailOf r
  let s := s.setFld (Fld.sqEnable r) 0
  let s := (List.range ((tail + n - head) % n)).foldl (fun t i => t.abortUnread r ((head + i) % n)) s
  s.setFld (Fld.sqHead r) tail

/-- An SQ from which Flint may read: enabled, not empty, its CQ with room (R419, R421). -/
def State.sqReady (s : State) (r : Nat) : Bool :=
  s.flag (Fld.sqEnable r) && s.fld (Fld.sqHead r) != s.sqTailOf r && !s.cqFull (s.fld (Fld.sqCq r))

/-- COMMAND_FETCH: the next SQ in turn, one command (R426, R427). -/
def commandFetch (at_ : Nat) (s : State) : State :=
  let s := s.advanceTo at_
  if s.hostUp ∧ s.err.flintDown = false then
    match ((List.range 64).map fun i => (s.host.nextSq + i) % 64).find? s.sqReady with
    | none => s
    | some r =>
      let s := { s with host := { s.host with nextSq := (r + 1) % 64 } }
      let head := s.fld (Fld.sqHead r)
      let a := s.sqBase r + 64 * head
      if s.hostRefuses a 64 then (s.sqStop r).report { code := 0x0811, index := r }
      else
        let raw := leNat (s.hostBytes a 64)
        (s.setFld (Fld.sqHead r) ((head + 1) % s.sqSize r)).accept r raw
  else s

def execCommandFetch (at_ : Nat) (s : State) : Host.Outcome State Fault Refusal := .next (commandFetch at_ s)

/-! ## Completions and interrupts (R421, R422, R424) -/

/-- The host lets a vector through: its mask bit is clear (R422). -/
def State.vectorOpen (s : State) (v : Nat) : Bool := SMap.get (fun _ => 0) s.host.msixTable v % 2 == 0

/-- A CQ's vector fires, and nothing of the CQ is unsignalled any more. A masked vector is not sent. -/
def State.fireVector (s : State) (cq : Nat) : State :=
  let v := s.fld (Fld.cqVector cq)
  let h := { s.host with unsignalled := SMap.put (fun _ => 0) s.host.unsignalled cq 0, oldest := SMap.put (fun _ => 0) s.host.oldest cq 0 }
  { s with host := if s.vectorOpen v then { h with msix := h.msix ++ [v] } else h }

/-- Entries of a CQ that no interrupt has signalled, and the moment of the oldest. -/
def State.unsigned (s : State) (cq : Nat) : Nat := SMap.get (fun _ => 0) s.host.unsignalled cq
def State.oldestAt (s : State) (cq : Nat) : Nat := SMap.get (fun _ => 0) s.host.oldest cq

/-- An entry has been written to a CQ: it counts as unsignalled, and an event, or any entry with mod_us = 0, fires the vector at
once (R422). -/
def State.noteEntry (s : State) (cq kind : Nat) : State :=
  let n := s.unsigned cq
  let h : HostSt := { s.host with
    unsignalled := SMap.put (fun _ => 0) s.host.unsignalled cq (n + 1)
    oldest := if n = 0 then SMap.put (fun _ => 0) s.host.oldest cq s.now else s.host.oldest }
  let s := { s with host := h }
  if kind = 3 ∨ s.fld (Fld.cqModUs cq) = 0 then s.fireVector cq else s

/-- The phase bit of a CQ's entries: 1 on the first pass (R421). -/
def State.phaseBit (s : State) (cq : Nat) : Bool := !(SMap.get (fun _ => false) s.host.cqPhase cq)

/-- The 32 bytes of an entry as it is written (R424). -/
def State.entryBytes (s : State) (x : Compl) : List Byte :=
  let head := if x.kind = 3 then 0 else s.fld (Fld.sqHead x.sq)
  leBytes 32 (x.body + head * 2 ^ 32 + b2n (s.phaseBit x.cq) * 2 ^ 55)

/-- The CQ's tail moves on; the phase inverts at the wrap (R421). -/
def State.advanceTail (s : State) (cq : Nat) : State :=
  let n := (s.fld (Fld.cqTail cq) + 1) % s.cqSize cq
  let s := s.setFld (Fld.cqTail cq) n
  if n = 0 then
    { s with host := { s.host with cqPhase := SMap.put (fun _ => false) s.host.cqPhase cq (s.phaseBit cq) } }
  else s

/-- The first completion of a CQ leaves the list. -/
def dropFirst (cq : Nat) : List Compl → List Compl
  | [] => []
  | x :: r => if x.cq = cq then r else x :: dropFirst cq r

/-- COMPLETION_POST: the first completion that waits for a CQ is written, once the CQ is enabled and has room; a write that host
memory refuses disables the CQ (R421, R424, R427). -/
def completionPost (at_ cq : Nat) (s : State) : State :=
  let s := s.advanceTo at_
  match s.host.compls.find? fun x => x.cq == cq with
  | none => s
  | some x =>
    if s.hostUp = false ∨ s.err.flintDown ∨ s.flag (Fld.cqEnable cq) = false ∨ s.cqFull cq then s
    else
      let a := s.cqBase cq + 32 * s.fld (Fld.cqTail cq)
      if s.hostAborts a 32 then (s.setFld (Fld.cqEnable cq) 0).report { code := 0x0812, index := cq }
      else
        let s := (s.putHost a (s.entryBytes x)).advanceTail cq
        let s := { s with host := { s.host with compls := dropFirst cq s.host.compls } }
        let s := match x.slot with
          | some q => s.releaseSlot q
          | none => s
        s.noteEntry cq x.kind

def execCompletionPost (at_ cq : Nat) (s : State) : Host.Outcome State Fault Refusal := .next (completionPost at_ cq s)

/-- MSIX_MODERATION: the vector fires once the unsignalled entries reach mod_count, or the oldest has waited mod_us (R422). -/
def msixModeration (at_ cq : Nat) (s : State) : State :=
  let s := s.advanceTo at_
  let n := s.unsigned cq
  if n ≠ 0 ∧ (s.fld (Fld.cqModCount cq) ≤ n ∨ s.oldestAt cq + us (s.fld (Fld.cqModUs cq)) ≤ s.now) then s.fireVector cq else s

def execMsixModeration (at_ cq : Nat) (s : State) : Host.Outcome State Fault Refusal := .next (msixModeration at_ cq s)

/-! ## The HIF registers (R443, R575, R583) -/

/-- Enabling a ring's SQ starts it at entry 0 of an empty ring; enabling a CQ starts it at entry 0 in its first pass (R421). -/
def State.sqStart (s : State) (r : Nat) : State := (s.setFld (Fld.sqHead r) 0).setSqTail r 0
def State.cqStart (s : State) (r : Nat) : State :=
  let s := (s.setFld (Fld.cqTail r) 0).setCqHead r 0
  { s with host := { s.host with
    cqPhase := SMap.put (fun _ => false) s.host.cqPhase r false
    unsignalled := SMap.put (fun _ => 0) s.host.unsignalled r 0, oldest := SMap.put (fun _ => 0) s.host.oldest r 0 } }

/-- The fields of a ring register lie in their ranges (R443). -/
def ringRangeOk (o v : Nat) : Bool :=
  if o = 0x08 then decide (4 ≤ bits v 0 5) && decide (bits v 0 5 ≤ 16)
  else if o = 0x18 then decide (4 ≤ bits v 0 5) && decide (bits v 0 5 ≤ 16) && decide (1 ≤ bits v 24 7) && decide (bits v 14 10 ≤ 1000)
  else true

/-- A write of register `o` of ring `r`: while its half is enabled only a write that clears the enable, or that changes nothing, is
accepted (R427, R443). -/
def State.ringWrite (s : State) (r o : Nat) (v : Word) : State :=
  let off := Reg.ring r + o
  let sq := decide (o < 0x10)
  let en := s.flag (if sq then Fld.sqEnable r else Fld.cqEnable r)
  let new := (s.plainWrite off v).rd off
  let old := s.rd off
  let cfg := o == 0x08 || o == 0x18
  let on := cfg && new.getLsbD 31
  if ringRangeOk o new.toNat = false then s.setFld Fld.hifCfgReject 1
  else if en then
    if (new &&& 0x7FFFFFFF) ≠ (old &&& 0x7FFFFFFF) ∨ (cfg = false ∧ new ≠ old) then s.setFld Fld.hifCfgReject 1
    else if cfg ∧ on = false then (if sq then s.sqStop r else s.setFld (Fld.cqEnable r) 0)
    else s
  else
    let s := s.wr off new
    if on then (if sq then s.sqStart r else s.cqStart r) else s

/-- A write of a HIF register. HIF_BAR4 is boot code's until BOOT_LOCK (R518). -/
def State.hifWrite (s : State) (p : Party) (off : Nat) (v : Word) : State :=
  if off = Reg.hifBar4 then
    (if p = .flint ∧ s.flag Fld.bootLock = false then s.wr off (v &&& BitVec.ofNat 32 (bitMask 31 31 + bitMask 12 0)) else s)
  else if Reg.ring 0 ≤ off ∧ off < Reg.ring 64 then
    let o := (off - Reg.ring 0) % 0x40
    if o % 4 = 0 ∧ o ≤ 0x18 ∧ o ≠ 0x0C then s.ringWrite ((off - Reg.ring 0) / 0x40) o v else s
  else if off = Reg.hifStat ∨ off = Reg.hifEvt then s.plainWrite off v
  else s

/-- HIF_REG_WRITE. -/
def hifRegWrite (at_ : Nat) (party : Party) (off : Nat) (value : Word) (s : State) : State :=
  let s := s.advanceTo at_
  if Reg.hif ≤ off ∧ off < Reg.str ∧ s.admits party off then s.hifWrite party off value else s

def execHifRegWrite (at_ : Nat) (party : Party) (off : Nat) (value : BitVec 32) (s : State) : Host.Outcome State Fault Refusal :=
  .next (hifRegWrite at_ party off value s)

/-- SQ_DISABLE: the host clears HIF_SQ_CFG.enable and changes nothing else (R427). -/
def sqDisable (at_ ring : Nat) (s : State) : State :=
  let s := s.advanceTo at_
  if ring < 64 ∧ s.admits .host Reg.hif then s.hifWrite .host (Reg.sqCfg ring) (s.rd (Reg.sqCfg ring) &&& 0x7FFFFFFF) else s

def execSqDisable (at_ ring : Nat) (s : State) : Host.Outcome State Fault Refusal := .next (sqDisable at_ ring s)

/-! ## Resets and configuration (R413 to R415) -/

/-- What a read of the BAR4 registers returns: 0 unless BAR4 exists; else the address that the host has assigned, with the type
bits of a 64-bit prefetchable memory BAR (R416, R417; log entry 179). -/
def State.bar4Regs (s : State) : Nat := if s.flag Fld.bar4Enable then s.host.bar4.toNat + 0xC else 0

/-- A completed configuration access acts: a write of the BAR4 registers, where BAR4 exists, keeps an address of 64 GiB. -/
def State.cfgAccess (s : State) (access : CfgAccess) : State :=
  match access with
  | .other => s
  | .bar4Read => { s with host := { s.host with readData := s.bar4Regs } }
  | .bar4Write v =>
    if s.flag Fld.bar4Enable then { s with host := { s.host with bar4 := BitVec.ofNat 64 (v / 2 ^ 36 * 2 ^ 36) } } else s

/-- CONFIGURATION_REQUEST: retry status until BOOT_LOCK, normal completion after it (R414). With PERST# asserted the link is
down. -/
def configurationRequest (at_ : Nat) (access : CfgAccess) (s : State) : State :=
  let s := s.advanceTo at_
  if s.pins.phase = .boot ∨ s.hostUp then
    let ok := s.flag Fld.bootLock
    let s := { s with host := { s.host with lastCrs := some !ok } }
    if ok then s.cfgAccess access else s
  else s

def execConfigurationRequest (request : CfgRequest) (s : State) : Host.Outcome State Fault Refusal :=
  .next (configurationRequest request.moment request.access s)

/-- FUNCTION_LEVEL_RESET: every command in flight ends without a completion, and the contexts and the host interface are reset; a
context that a swap holds is destroyed when the swap ends, as CTX_DESTROY does it (R408, R415). -/
def functionLevelReset (at_ : Nat) (s : State) : State :=
  let s := s.advanceTo at_
  if s.hostUp then ({ s with host := { s.host with cmds := [], compls := [], flr := true } } : State).flrStep.collSweep else s

def execFunctionLevelReset (at_ : Nat) (s : State) : Host.Outcome State Fault Refusal := .next (functionLevelReset at_ s)

/-! ## BAR4 (R213, R417) -/

/-- The physical address behind an offset of BAR4, where it lies in a mapped place of main memory: a slice or the window, and no
part of a slice that R212 keeps for the module. -/
def State.bar4Addr (s : State) (x : Nat) : Option Nat :=
  let pa := s.fld Fld.bar4Base * gib + x
  if s.flag Fld.bar4Enable = false ∨ 2 ^ 36 ≤ x then none
  else match s.place pa with
    | .slice _ o => if o < s.poolEnd then some pa else none
    | .window _ => some pa
    | _ => none

/-- A read of `n` bytes granule by granule: zeros for what is unmapped or poisoned, with HOST_POISON_READ for the latter. -/
def State.bar4Read (s : State) : List (Nat × Nat) → Nat → List Byte × State
  | [], _ => ([], s)
  | p :: r, x =>
    match s.bar4Addr (x + p.1) with
    | none => let y := s.bar4Read r x; (List.replicate p.2 0 ++ y.1, y.2)
    | some pa =>
      let g := s.readGran pa
      if g.1.2 then
        let y := (g.2.report { code := 0x0813, phys := granOf pa * 64 }).bar4Read r x
        (List.replicate p.2 0 ++ y.1, y.2)
      else
        let y := g.2.bar4Read r x
        ((g.1.1.drop (pa % 64)).take p.2 ++ y.1, y.2)

/-- A write granule by granule; what is unmapped is discarded, and a Protected page stalls the write (R220, R485). -/
def bar4Write (x : Nat) (data : List Byte) : Exec Unit :=
  Exec.each (granPieces (pieceFuel data.length) x data.length) fun p => do
    match (← Exec.ask fun s => s.bar4Addr (x + p.1)) with
    | none => pure ()
    | some pa => storePhys pa ((data.drop p.1).take p.2) false

/-- BAR4_ACCESS: a host read of `n` bytes, or a write, at offset `x`. -/
def bar4Access (at_ : Nat) (write : Bool) (x : Nat) (data : List Byte) (n : Nat) (s : State) : State :=
  let s := s.advanceTo at_
  if s.hostUp = false then s
  else if write then
    match bar4Write x data s with
    | (.ok _, t) => t
    | (.error _, _) => s
  else
    let r := s.bar4Read (granPieces (pieceFuel n) x n) x
    { r.2 with host := { r.2.host with readData := leNat r.1 } }

def execBar4Access (at_ : Nat) (write : Bool) (x : Nat) (data : List Nat) (n : Nat) (s : State) : Host.Outcome State Fault Refusal :=
  .next (bar4Access at_ write x (data.map (BitVec.ofNat 8)) n s)

end Sys2Proof.Machine
end

