-- ==== Sys2Proof/Machine/HostDma.lean ====
section
/-! DEFINITION. The host DMA queues (R433 to R435). -/

namespace Sys2Proof.Machine

/-- Further fields of a DMA command (R433). -/
def Cmd.hostAddr (c : Cmd) : Nat := c.at_ 8 0 64
def Cmd.devAddr (c : Cmd) : Nat := c.at_ 16 0 48
def Cmd.len (c : Cmd) : Nat := c.at_ 24 0 32
def Cmd.plist (c : Cmd) : Nat := c.at_ 32 0 64
def Cmd.plistLen (c : Cmd) : Nat := c.at_ 40 0 32

/-- The fields of a DMA command lie in range; DMA_H2D has no poison list (R433). -/
def Cmd.dmaRange (c : Cmd) : Bool :=
  c.hostAddr % 4 == 0 && c.devAddr % 64 == 0 && c.len % 64 == 0 && decide (64 ≤ c.len) && c.plist % 8 == 0
    && (c.opcode == 6 || c.plist == 0)

/-- No earlier DMA command of the queue is outstanding (R434). -/
def State.queueHead (s : State) (c : Cmd) : Bool :=
  s.host.cmds.all fun e => !(e.dma && e.queue == c.queue && decide (e.id < c.id))

/-- A command counts one more granule, and perhaps a poisoned one at an offset. -/
def Cmd.count (c : Cmd) (off : Nat) (bad : Bool) : Cmd :=
  { c with moved := off + 64, poisoned := c.poisoned + b2n bad, firstPoison := if bad ∧ c.poisoned = 0 then off else c.firstPoison }

/-- A granule of a command has moved. -/
def countGranule (id off : Nat) (bad : Bool) : Exec Unit := Exec.doState fun s =>
  match s.cmd id with
  | some c => s.setCmd (c.count off bad)
  | none => s

/-- The physical address of a granule for a host queue; addresses end at 2⁴⁸. -/
def dmaAddr (c va : Nat) (write : Bool) : Exec Nat := do
  Exec.check (decide (va < 2 ^ 48)) (.status 0x0015)
  deviceAddr c (hubTranslate c va write)

/-- One granule from the host; the TLPs that bring it may be poisoned (R435). -/
def moveIn (c : Cmd) (i : Nat) : Exec Unit := do
  let a := c.hostAddr + 64 * i
  let va := c.devAddr + 64 * i
  let pa ← dmaAddr c.c va true
  Exec.check (!(← Exec.ask fun s => s.hostAborts a 64)) (.status 0x0016)
  let bad ← Exec.ask fun s => s.hostPoisons a 64
  let b ← Exec.ask fun s => s.hostBytes a 64
  storePhys pa b bad
  Exec.doState fun s => s.payOwed va 64
  countGranule c.id (64 * i) bad

/-- One granule to the host; a poisoned one goes as zeros, and its offset into the list while that has room (R435). -/
def moveOut (c : Cmd) (i : Nat) : Exec Unit := do
  let a := c.hostAddr + 64 * i
  let pa ← dmaAddr c.c (c.devAddr + 64 * i) false
  let g ← Exec.ofState fun s => s.readGran pa
  Exec.check (!(← Exec.ask fun s => s.hostAborts a 64)) (.status 0x0016)
  Exec.doState fun s => s.putHost a (if g.2 then List.replicate 64 0 else g.1)
  let k ← Exec.ask fun s => ((s.cmd c.id).map fun e => e.poisoned).getD 0
  if g.2 && c.plist != 0 && decide (k < c.plistLen) then
    Exec.check (!(← Exec.ask fun s => s.hostAborts (c.plist + 8 * k) 8)) (.status 0x0016)
    Exec.doState fun s => s.putHost (c.plist + 8 * k) (leBytes 8 (64 * i))
  countGranule c.id (64 * i) g.2

/-- The queue has moved what it will of a command: its status awaits HOST_DMA_DONE. -/
def State.dmaEnd (s : State) (id status : Nat) : State :=
  match s.cmd id with
  | some c =>
    let st := if status = 0 ∧ c.poisoned ≠ 0 then (if c.opcode = 5 then 0x0017 else 0x0001) else status
    s.setCmd { c with dmaDone := true, status := st }
  | none => s

/-- A DMA command of an opcode runs at the head of its queue (R434). A granule that must wait for a page's copy keeps the command
waiting. -/
def State.hostDma (s : State) (id op : Nat) (work : Cmd → Nat → Exec Unit) : State :=
  match s.cmdReady id op with
  | none => s
  | some c =>
    let t := s.startCmd c
    if s.queueHead c = false then s
    else if t.ctxState c.c = csFree then t.completeCmd id 0x0013 0
    else if c.dmaRange = false then t.completeCmd id 0x0012 0
    else if op = 5 ∧ t.inputHeld c.c c.devAddr c.len then t.completeCmd id 0x090A 0
    else match Exec.each (List.range (c.len / 64)) (work c) t with
      | (.ok _, u) => u.dmaEnd id 0
      | (.error (.status n), u) => u.dmaEnd id n
      | (.error .stall, _) => s
      | (.error _, u) => u.dmaEnd id 0x0015

/-- DMA_H2D. -/
def dmaH2d (at_ id : Nat) (s : State) : State := (s.advanceTo at_).hostDma id 5 moveIn
def execDmaH2d (at_ id : Nat) (s : State) : Host.Outcome State Fault Refusal := .next (dmaH2d at_ id s)

/-- DMA_D2H. -/
def dmaD2h (at_ id : Nat) (s : State) : State := (s.advanceTo at_).hostDma id 6 moveOut
def execDmaD2h (at_ id : Nat) (s : State) : Host.Outcome State Fault Refusal := .next (dmaD2h at_ id s)

/-- HOST_DMA_DONE: the command at the head of a queue completes (R433, R434). One that a watchdog trip has caught waits for the
restart (R460). -/
def hostDmaDone (at_ queue : Nat) (s : State) : State :=
  let s := s.advanceTo at_
  match s.host.cmds.find? fun c => c.dma && c.dmaDone && c.queue == queue && !s.err.caught.contains c.id with
  | some c => s.completeCmd c.id c.status c.dmaTail
  | none => s

def execHostDmaDone (at_ queue : Nat) (s : State) : Host.Outcome State Fault Refusal := .next (hostDmaDone at_ queue s)

end Sys2Proof.Machine
end

