-- ==== Sys2Proof/Machine/Queries.lean ====
section
/-! DEFINITION. The commands QUERY, FENCE_UNIT and TELEMETRY_READ (R437, R438, R442). -/

namespace Sys2Proof.Machine

/-! ## What QUERY returns (R437) -/

/-- Selector 0; its fields stand in listed order in words of 4 bytes, the counter of quarry 0 last (the layout is the model's). -/
def State.queryModule (s : State) : List Byte :=
  leBytes 64 ((s.rd Reg.glbIdent).toNat + s.fld Fld.coresActive * 2 ^ 32 + s.fld Fld.degraded * 2 ^ 64
    + (s.rd Reg.ctxMode).toNat * 2 ^ 96 + (s.rd Reg.ctxStat).toNat * 2 ^ 128 + (s.quarry 0).count.toNat * 2 ^ 160)

/-- The sticky words of a stream number, over every core of a quarry (R437). -/
def State.stickyOf (s : State) (quarry n : Nat) : Nat :=
  (s.core.streams.foldl (fun (m : BitVec 6) e =>
    if e.1 % 64 = n ∧ s.quarryOfCore (e.1 / 64) = quarry then m ||| e.2.sticky else m) 0).toNat

/-- Selector 1. -/
def State.queryCtx (s : State) (c : Nat) : List Byte :=
  let x := s.ctxAt c
  ([0x00, 0x04, 0x08, 0x0C, 0x10, 0x14].flatMap fun o => leBytes 4 (s.rd (Reg.ctxState c + o)).toNat)
    ++ leBytes 1 x.stepFlags.toNat ++ leBytes 1 (b2n x.repeatBit) ++ leBytes 6 0
    ++ ((List.range 64).flatMap fun n => leBytes 1 (s.stickyOf (s.ctxQuarry c) n))
    ++ leBytes 4 x.verStray ++ leBytes 28 0

/-- An entry of the sequence slots (R248). -/
def Slot.bytes (e : Slot) : List Byte :=
  if e.valid = false then leBytes 32 0
  else
    leBytes 32 (2 ^ 7 + e.ctx % 8 * 2 ^ 4 + b2n e.decode * 2 ^ 3 + e.channel % 8 + (e.status % 16 * 16 + e.budget % 16) * 2 ^ 8
      + (e.layerBits % 16 * 16 + e.groupBits % 16) * 2 ^ 16 + e.recBase % 2 ^ 48 * 2 ^ 32 + e.extendFaults % 2 ^ 32 * 2 ^ 96
      + e.versionReplays % 2 ^ 32 * 2 ^ 128 + e.failIdx % 2 ^ 24 * 2 ^ 160)

/-- Selector 2. -/
def State.querySlots (s : State) : List Byte := (List.range 128).flatMap fun q => (s.slot q).bytes

/-- A version table entry; its fields stand in the order of R303 (the layout is the model's). -/
def Shard.bytes (x : Shard) : List Byte :=
  leBytes 8 (x.version.toNat + x.leases % 2 ^ 16 * 2 ^ 32 + x.state % 4 * 2 ^ 48 + x.layer % 1024 * 2 ^ 50)

/-- Selector 3. -/
def State.queryVersions (s : State) (c : Nat) : List Byte := (List.range 4096).flatMap fun n => (s.shard c n).bytes

/-- The code of a record's state (R450). -/
def RecState.code : RecState → Nat
  | .free => 0
  | .opened => 1
  | .closed => 2

/-- An error record (R450). -/
def ErrRec.bytes (r : ErrRec) : List Byte :=
  leBytes 2 r.code ++ leBytes 2 r.lastCode
    ++ leBytes 1 (r.domain % 16 + (match r.ctx with | some c => c % 8 * 32 + 16 | none => 0))
    ++ leBytes 1 (r.state.code + b2n r.escalated * 4) ++ leBytes 2 r.index ++ leBytes 1 r.count ++ leBytes 1 r.parent
    ++ leBytes 2 r.flags.toNat ++ leBytes 6 r.firstStratum.toNat ++ leBytes 6 r.lastStratum.toNat ++ leBytes 4 r.tileId.toNat
    ++ leBytes 2 r.layerTag.toNat ++ leBytes 2 (r.core.getD 0xFFFF) ++ leBytes 6 r.phys ++ leBytes 2 0
    ++ leBytes 1 (match r.evid with | some e => e % 16 + 128 | none => 0) ++ leBytes 7 0 ++ leBytes 16 r.detail

/-- A record as the host reads it: a free one reads zeros. -/
def State.queryRecord (s : State) (i : Nat) : List Byte :=
  let r := s.errRec i
  if r.state = .free then leBytes 64 0 else r.bytes

/-- Selector 5: 4,096 places, those beyond the list zero. -/
def State.queryRetired (s : State) : List Byte :=
  (List.range 4096).flatMap fun i => leBytes 8 (s.mem.retired.getD i 0)

/-- The result of a QUERY. -/
def State.queryResult (s : State) (q : Cmd) : List Byte :=
  match q.at_ 8 0 8 with
  | 0 => s.queryModule
  | 1 => s.queryCtx q.c
  | 2 => s.querySlots
  | 3 => s.queryVersions q.c
  | 4 => s.queryRecord (q.at_ 10 0 16)
  | _ => s.queryRetired

/-- Bytes go to the host, and the command completes; a refusal writes nothing (R425). -/
def State.answerHost (s : State) (id a : Nat) (b : List Byte) (then_ : State → State) : State :=
  if s.hostAborts a b.length then s.completeCmd id 0x0016 0 else (then_ (s.putHost a b)).completeCmd id 0 0

/-- QUERY. -/
def query (at_ id : Nat) (s : State) : State :=
  let s := s.advanceTo at_
  match s.cmdReady id 0x0A with
  | none => s
  | some q =>
    let s := s.startCmd q
    let b := s.queryResult q
    if (q.at_ 8 0 8 = 4 ∧ 64 ≤ q.at_ 10 0 16) ∨ q.at_ 24 0 32 < b.length then s.completeCmd id 0x0012 0
    else s.answerHost id (q.at_ 16 0 64) b fun t => t

def execQuery (at_ id : Nat) (s : State) : Host.Outcome State Fault Refusal := .next (query at_ id s)

/-! ## FENCE_UNIT (R438, R448) -/

/-- Units of a domain that FENCE_UNIT may name (R4, R438). -/
def fenceUnits : Nat → Nat
  | 3 => 160
  | 4 => 160
  | 5 => 512
  | 6 => 16
  | 7 => 32
  | 8 => 4
  | _ => 0

/-- A unit is fenced, of itself or with a larger one (R447). -/
def State.unitFenced (s : State) (dom i : Nat) : Bool :=
  match dom with
  | 3 => s.coreFenced i
  | 4 => s.bankFenced i
  | 5 => s.channelFenced i
  | 7 => s.whetstoneFenced i
  | _ => s.fenceBit dom i

/-- The unit is fenced by command: UNIT_FENCED in its own domain; a port stays out of service (R447, R448). No code is the cause of
it, so what the record's detail holds is free (R476). -/
def State.fenceNow (s : State) (dom i : Nat) : State :=
  let s := if dom = domPort then s.setFence dom i else s
  let r := s.fresh (2 ^ 16)
  (r.2.raise { code := 0x0264, domain := dom, index := i, detail := r.1 }).collSweep

/-- FENCE_UNIT. -/
def fenceUnitCmd (at_ id : Nat) (s : State) : State :=
  let s := s.advanceTo at_
  match s.cmdReady id 0x0B with
  | none => s
  | some q =>
    let s := s.startCmd q
    let dom := q.at_ 8 0 8
    let i := q.at_ 10 0 16
    if fenceUnits dom ≤ i then s.completeCmd id 0x0012 0
    else if s.unitFenced dom i then s.completeCmd id 0 0
    else (s.fenceNow dom i).completeCmd id 0 0

def execFenceUnit (at_ id : Nat) (s : State) : Host.Outcome State Fault Refusal := .next (fenceUnitCmd at_ id s)

/-! ## TELEMETRY_READ (R152, R323, R385, R442) -/

/-- A telemetry entry (R152). -/
def Tele.bytes (t : Tele) : List Byte :=
  leBytes 4 t.sum.amax ++ leBytes 4 t.sum.overflow ++ leBytes 4 t.sum.saturation ++ leBytes 4 t.sum.nanProduced
    ++ leBytes 4 t.sum.infConsumed ++ leBytes 4 t.sum.underflow ++ leBytes 4 t.longTiles ++ leBytes 4 t.sum.checksSkipped
    ++ leBytes 4 t.sum.rowEmpty ++ leBytes 4 t.sum.infInRow ++ leBytes 4 t.sum.nanInRow ++ leBytes 4 t.sum.permRange
    ++ leBytes 8 t.sum.elements ++ leBytes 4 t.tiles ++ leBytes 4 0

/-- A norm entry (R323). -/
def Norm.bytes (n : Norm) : List Byte := leBytes 4 n.sqW ++ leBytes 4 n.sqG ++ leBytes 4 n.sqU ++ leBytes 2 n.updates ++ leBytes 2 n.skips

/-- The entries of a table from `first` on. -/
def State.telemetry (s : State) (c table first n : Nat) : List Byte :=
  (List.range n).flatMap fun i =>
    let k := first + i
    match table with
    | 0 => (s.tele c k).bytes
    | 1 => (SMap.get (fun _ => {}) s.ws.norms (4096 * c + k)).bytes
    | _ => (List.range 4).flatMap fun j => leBytes 4 (SMap.get (fun _ => 0) s.coll.counters (4 * k + j))

/-- Those entries zeroed (R442). -/
def State.zeroTelemetry (s : State) (c table first n : Nat) : State :=
  let mine (base k : Nat) : Bool := decide (base + first ≤ k) && decide (k < base + first + n)
  match table with
  | 0 => { s with core := { s.core with tele := SMap.drop (mine (4096 * c)) s.core.tele } }
  | 1 => { s with ws := { s.ws with norms := SMap.drop (mine (4096 * c)) s.ws.norms } }
  | _ => { s with coll := { s.coll with counters := SMap.drop (fun k => mine 0 (k / 4)) s.coll.counters } }

/-- TELEMETRY_READ; the expert counters are read by the owner of the directory (R385). -/
def telemetryRead (at_ id : Nat) (s : State) : State :=
  let s := s.advanceTo at_
  match s.cmdReady id 0x0D with
  | none => s
  | some q =>
    let s := s.startCmd q
    let table := q.at_ 8 0 8
    let first := q.at_ 10 0 16
    let n := q.at_ 12 0 16
    if s.ctxState q.c = csFree then s.completeCmd id 0x0013 0
    else if 2 < table ∨ (if table = 2 then 8192 else 4096) < first + n
        ∨ (table = 2 ∧ (s.flag Fld.dirValid = false ∨ s.fld Fld.dirCtx ≠ q.c)) then s.completeCmd id 0x0012 0
    else
      s.answerHost id (q.at_ 16 0 64) (s.telemetry q.c table first n) fun t =>
        if q.at_ 9 0 1 = 1 then t.zeroTelemetry q.c table first n else t

def execTelemetryRead (at_ id : Nat) (s : State) : Host.Outcome State Fault Refusal := .next (telemetryRead at_ id s)

end Sys2Proof.Machine
end

