-- ==== Sys2Proof/Machine/Policy.lean ====
section
/-! DEFINITION. SET_POLICY: the blocks of each type, with the checks of their owning rules (R439 to R441). A block is applied wholly
or not at all. -/

namespace Sys2Proof.Machine

/-- What a block comes to: the new state, or a status, bytes 12–15 of the completion, and the state that the refusal leaves. -/
abbrev Applied := Except (Nat × Nat × State) State

/-- POLICY_REJECT for the item at an offset (R425). -/
def rejectAt (s : State) (off : Nat) : Applied := .error (0x0019, off, s)

/-- RESERVED_NONZERO. -/
def reservedSet (s : State) : Applied := .error (0x0011, 0, s)

/-- `n` bytes of a block from `i` on. -/
def blkAt (b : List Byte) (i n : Nat) : Nat := leNat ((b.drop i).take n)

/-- A 4-byte item as a register word. -/
def blkWord (b : List Byte) (i : Nat) : Word := BitVec.ofNat 32 (blkAt b i 4)

/-! ## Lengths (R440) -/

/-- The length is the one that the layout gives. -/
def policyLen (type n : Nat) (b : List Byte) : Bool :=
  match type with
  | 0x1 => n == 12
  | 0x2 => n == 8
  | 0x3 => n % 8 == 0 && decide (n ≤ 8 * 4096)
  | 0x4 => n == 4
  | 0x5 => decide (136 ≤ n) && n == 136 + 4 * blkAt b 132 4
  | 0x6 => n == 260
  | 0x7 => decide (12 ≤ n) && n == (12 + 12 * blkAt b 0 4 + 2 * blkAt b 8 4 + 3) / 4 * 4
  | 0x8 => n == 66048
  | 0x9 => n == 4
  | 0xA => n == 4
  | 0xB => n == 264
  | 0xC => n == 16
  | 0xD => n % 4 == 0 && decide (4 ≤ n) && decide (n ≤ 4 * 256)
  | 0xE => n == 4
  | 0xF => n % 32 == 0 && decide (32 ≤ n) && decide (n ≤ 32 * 128)
  | _ => n % 16 == 0 && decide (16 ≤ n) && decide (n ≤ 16 * 256)

/-- The most bytes that a block of any type has; a longer one is not read. -/
def policyMax : Nat := 66048

/-! ## Types 0x0001 to 0x0004 -/

/-- The offset of the word of a type 0x0001 block that R29 refuses. -/
def strRefused (ctrl period : Nat) (s : State) : Nat :=
  if bits ctrl 9 4 = 0 ∨ bits ctrl 0 2 = 3 then 0
  else if bits period 0 10 < 25 ∨ 1000 < bits period 0 10 ∨ bits period 16 10 = 0 ∨ bits period 0 10 ≤ bits period 16 10 then 4
  else if !strFrozenOk (s.rd Reg.strCtrl).toNat (s.rd Reg.strDomain).toNat ctrl (s.rd Reg.strDomain).toNat then 0
  else 8

/-- Type 0x0001: the three words together (R29, R355). -/
def State.policyStr (s : State) (b : List Byte) : Applied :=
  let ctrl := keepBits (bitMask 12 0) (blkWord b 0)
  let period := keepBits (bitMask 25 16 + bitMask 9 0) (blkWord b 4)
  let domain := keepBits (bitMask 31 18 + bitMask 15 0) (blkWord b 8)
  if (strWordsOk ctrl.toNat period.toNat domain.toNat
      && strFrozenOk (s.rd Reg.strCtrl).toNat (s.rd Reg.strDomain).toNat ctrl.toNat domain.toNat) = false then
    rejectAt (s.setFld (Fld.strCfgReject 0) 1) (strRefused ctrl.toNat period.toNat s)
  else
    let t := ((s.wr Reg.strCtrl ctrl).wr Reg.strPeriod period).wr Reg.strDomain domain
    if t.budgetsOk = false then rejectAt s 4
    else
      let t := t.runChange (s.flag Fld.run)
      .ok (if t.flag Fld.outEn then t else { t with pins := { t.pins with stratumOut := false } })

/-- A MEM_SCRUB word with its fields in range (R241). -/
def scrubOk (v : Nat) : Bool := decide (1 ≤ bits v 16 8) && decide (1 ≤ bits v 0 8) && decide (bits v 0 8 ≤ 168)

/-- Type 0x0002 (R214). -/
def State.policyMem (s : State) (b : List Byte) : Applied :=
  let layout := keepBits (bitMask 25 16 + bitMask 9 0) (blkWord b 0)
  let scrub := keepBits (bitMask 31 31 + bitMask 23 16 + bitMask 7 0) (blkWord b 4)
  if scrubOk scrub.toNat = false then rejectAt (s.setFld Fld.memCfgReject 1) 4
  else if layout ≠ s.rd Reg.memLayout ∧ (s.anyCtx = true ∨ layoutOk layout.toNat = false) then
    rejectAt (s.setFld Fld.memCfgReject 1) 0
  else .ok ((s.layoutWrite layout).wr Reg.memScrub scrub)

/-- Type 0x0003: the whole list, each frame once (R225). -/
def State.policyRetired (s : State) (b : List Byte) : Applied :=
  let l := wordsOf 8 b
  match (indexed l).find? fun (e : Nat × Nat) => e.2 % 2 ^ 14 != 0 || decide (2 ^ 48 ≤ e.2) with
  | some e => rejectAt s (8 * e.1)
  | none => .ok { s with mem := { s.mem with retired := l.eraseDups } }

/-- The largest counter among the quarries of the present mode. -/
def State.largestCount (s : State) : BitVec 48 :=
  BitVec.ofNat 48 ((List.range (quarryCount s.modeOf)).foldl (fun m q => max m (s.quarry q).count.toNat) 0)

/-- The tick state of a quarry after a change of mode: quarry 0 goes on; another starts anew, and the registers of every other quarry
hold their reset values (R38). -/
def State.enterQuarry (s : State) (n : Nat) (count : BitVec 48) (q : Nat) : State :=
  if q = 0 then s.setQuarry 0 { s.quarry 0 with count := count }
  else
    let s := [0x0C, 0x18, 0x1C, 0x20].foldl (fun t o => t.wr (Reg.strStat q - 0x0C + o) 0) s
    s.setQuarry q (if q < n then { count := count, period := s.fld Fld.periodUs, runAt := s.now } else {})

/-- CTX_MODE takes a mode; the numbers of draws and of dispatched rows are of strata that are over (R37, R38, R141, R383). -/
def State.setMode (s : State) (m : Nat) : State :=
  let count := s.largestCount
  let s := s.setFld Fld.mode m
  let s := { s with core := { s.core with ordinals := [] }, coll := { s.coll with ordinals := [], rowCounts := [] } }
  ([0, 1, 2, 3] : List Nat).foldl (fun t q => t.enterQuarry (quarryCount m) count q) s

/-- Type 0x0004 (R390, R519). -/
def State.policyMode (s : State) (b : List Byte) : Applied :=
  let m := bits (blkAt b 0 4) 0 2
  if m = s.modeOf then .ok s
  else if m = 3 ∨ bit (s.fld Fld.quarryModes) m = false ∨ s.anyCtx = true ∨ s.fld Fld.source ≠ 0 ∨ s.fld Fld.role ≠ 0 then
    rejectAt (s.setFld Fld.ctxCfgReject 1) 0
  else .ok (s.setMode m)

/-! ## Types 0x0005 and 0x0006 -/

/-- The offset of a VEI_PORT_CFG word out of range. -/
def badPortCfg (b : List Byte) : Option Nat :=
  ((List.range 16).find? fun p => decide (bits (blkAt b (4 + 4 * p) 4) 0 10 < 5) || decide (1000 < bits (blkAt b (4 + 4 * p) 4) 0 10)).map
    fun p => 4 + 4 * p

/-- The reserved bits of a pool size and of a route entry are 0. -/
def poolClean (v : Nat) : Bool := v / 2 ^ 13 == 0
def routeClean (v : Nat) : Bool := bits v 12 4 == 0 && bits v 20 11 == 0

/-- The state with a pool size set. -/
def State.setPool (s : State) (p pool n : Nat) : State :=
  { s with vein := { s.vein with pools := SMap.put (fun _ => 0) s.vein.pools (64 * p + pool) n } }

/-- A size that a pool may have, in a port whose pools together fit (R348, R349). -/
def State.poolFits (s : State) (p pool n : Nat) : Bool :=
  (n == 0 || (decide (64 ≤ n) && decide (n ≤ 4096))) && decide (s.poolSum p pool + n ≤ 4096)

/-- The routes of a block. -/
def blkRoutes (b : List Byte) : List Nat := (List.range (blkAt b 132 4)).map fun i => blkAt b (136 + 4 * i) 4

/-- Type 0x0005: VEI_MODULE first, then hub pools, ports and routes (R338, R349, R355, R360). -/
def State.policyVein (s : State) (b : List Byte) : Applied :=
  let pool (p : Nat) : Nat := blkAt b (68 + 4 * p) 4
  let routes := blkRoutes b
  if 4096 < routes.length then rejectAt s 132
  else if !((List.range 16).all fun p => poolClean (pool p)) || !routes.all routeClean then reservedSet s
  else match badPortCfg b with
    | some o => rejectAt (s.setFld Fld.veiCfgReject 1) o
    | none =>
      match (List.range 16).find? fun p => !s.poolFits p poolHub (pool p) with
      | some p => rejectAt (s.setFld Fld.veiCfgReject 1) (68 + 4 * p)
      | none =>
        let t := s.wr Reg.veiModule (keepBits (bitMask 31 31 + bitMask 11 0) (blkWord b 0))
        let t := (List.range 16).foldl (fun t p => t.setPool p poolHub (pool p)) t
        let t := (List.range 16).foldl (fun t p => t.portConfig p (blkWord b (4 + 4 * p))) t
        let t := routes.foldl (fun t r => t.routeWrite (bits r 0 12) (BitVec.ofNat 32 (bits r 31 1 * 2 ^ 31 + bits r 16 4))) t
        match (List.range 16).find? fun p => !t.budgetFits p with
        | some p => rejectAt s (4 + 4 * p)
        | none => .ok t.collSweep

/-- Transfers or lease messages of a context are in flight (R360). -/
def State.veinBusy (s : State) (c : Nat) : Bool :=
  s.coll.xfers.any (fun x => x.ctx == c) || s.core.hubq.any (fun x => x.ctx == c) || s.ws.asked.any fun x => x.ctx == c

/-- Type 0x0006: the context's pools first, VEI_JOB last (R345, R360). -/
def State.policyJob (s : State) (c : Nat) (b : List Byte) : Applied :=
  let pool (i : Nat) : Nat := blkAt b (4 + 4 * i) 4
  let key (i : Nat) : Nat := 4 * c + i % 4
  let all := List.range 64
  let job := keepBits (bitMask 31 31 + bitMask 11 0) (blkWord b 0)
  let t := all.foldl (fun t i => t.setPool (i / 4) (key i) (pool i)) s
  if !all.all fun i => poolClean (pool i) then reservedSet s
  else match all.find? fun i => pool i != s.poolSize (i / 4) (key i) && (s.flag (Fld.jobValid c) || !t.poolFits (i / 4) (key i) (pool i)) with
    | some i => rejectAt (s.setFld Fld.veiCfgReject 1) (4 + 4 * i)
    | none =>
      if s.flag (Fld.jobValid c) && !bit job.toNat 31 && s.veinBusy c then rejectAt s 0
      else .ok (t.wr (Reg.veiJob c) job).collSweep

/-! ## Types 0x0007 and 0x0008 -/

/-- The records and the module IDs of a type 0x0007 block. -/
def blkGroups (b : List Byte) : List Nat := (List.range (blkAt b 0 4)).map fun i => blkAt b (12 + 12 * i) 12
def blkMembers (b : List Byte) : List Nat := (List.range (blkAt b 8 4)).map fun i => blkAt b (12 + 12 * blkAt b 0 4 + 2 * i) 2

/-- The reserved bits of a record and of the whole block are 0. -/
def groupClean (r : Nat) : Bool := fieldAt r 0 6 26 == 0 && grpClean (fieldAt r 4 0 64)
def groupsClean (b : List Byte) : Bool :=
  (blkGroups b).all groupClean && (blkMembers b).all (fun m => decide (m < 4096))
    && (b.drop (12 + 12 * blkAt b 0 4 + 2 * blkAt b 8 4)).all (· == 0)

/-- The offset of the record that names a group, or of the module IDs. -/
def groupOffset (b : List Byte) (g : Nat) : Nat :=
  match (indexed (blkGroups b)).find? fun (e : Nat × Nat) => fieldAt e.2 0 0 6 == g with
  | some e => 12 + 12 * e.1
  | none => 12 + 12 * blkAt b 0 4

/-- Type 0x0007 (R355, R367, R368). -/
def State.policyGroups (s : State) (c : Nat) (b : List Byte) : Applied :=
  let refuse (o : Nat) : Applied := rejectAt (s.setFld Fld.colCfgReject 1) o
  if blkAt b 0 4 < 1 ∨ 64 < blkAt b 0 4 then refuse 0
  else if 4096 < blkAt b 4 4 + blkAt b 8 4 then refuse 4
  else if groupsClean b = false then reservedSet s
  else
    let t := (blkGroups b).foldl (fun t r => t.setGroup (fieldAt r 0 0 6) (fieldAt r 4 0 64)) s
    let t := (indexed (blkMembers b)).foldl (fun (t : State) (e : Nat × Nat) => t.setMember (blkAt b 4 4 + e.1) e.2) t
    match (List.range 64).find? fun g => !groupOk s t c (fun g => (blkGroups b).any fun r => fieldAt r 0 0 6 == g) g with
    | some g => refuse (groupOffset b g)
    | none => if t.budgetsOk then .ok t else rejectAt s 12

/-- Type 0x0008: in force from the next accepted tick (R380, R381). -/
def State.policyDirectory (s : State) (c : Nat) (b : List Byte) : Applied :=
  let d := directoryOf b
  if d.clean = false then reservedSet s
  else match (indexed d.headers).find? fun (e : Nat × Nat) => !s.layerFits c d e.2 with
    | some e => rejectAt (s.setFld Fld.colCfgReject 1) (8 * e.1)
    | none => .ok { s with coll := { s.coll with nextDir := some (c, natMap d.headers, natMap d.entries) } }

/-! ## Types 0x0009 to 0x000D -/

/-- Type 0x0009 (R288, R398, R400). -/
def State.policyPrio (s : State) (c : Nat) (b : List Byte) : Applied :=
  let n := blkAt b 0 4
  if bits n 3 5 ≠ 0 ∨ bits n 12 20 ≠ 0 then reservedSet s
  else if bits n 8 4 = 0 then rejectAt s 1
  else
    let t := (s.setFld (Fld.ctxPrio c) (bits n 0 3)).setFld (Fld.donateStrata c) (bits n 8 4)
    .ok (t.setCtx c { t.ctxAt c with prioSet := true })

/-- Type 0x000A (R149). -/
def State.policyTraps (s : State) (c : Nat) (b : List Byte) : Applied :=
  let n := blkAt b 0 4
  if bits n 5 27 ≠ 0 then reservedSet s else .ok (s.setCtx c { s.ctxAt c with trapMask := BitVec.ofNat 5 n })

/-- Type 0x000B: for tiles that start at or after the next tick (R276). -/
def State.policyRotary (s : State) (c : Nat) (b : List Byte) : Applied :=
  if rotaryClean b then .ok (s.addRotary c (s.ticksOf c + 1) b) else reservedSet s

/-- Type 0x000C (R258, R260, R431). -/
def State.policyPool (s : State) (c : Nat) (b : List Byte) : Applied :=
  let n := blkAt b 0 16
  let pa := fieldAt n 0 0 48
  let frames := fieldAt n 8 0 32
  if fieldAt n 6 0 16 ≠ 0 ∨ fieldAt n 12 0 32 ≠ 0 then reservedSet s
  else if pa % 2 ^ 14 ≠ 0 ∨ s.inShare c pa (frames * 2 ^ 14) = false then rejectAt s 0
  else if frames = 0 then .ok s
  else .ok (s.setCtx c { s.ctxAt c with kvPool := (s.ctxAt c).kvPool ++ [(pa, frames)] })

/-- The codes that a type 0x000D block may name (R441). -/
def policyCodes : List Nat :=
  [0x0601, 0x0602, 0x0603, 0x0604, 0x0605, 0x0606, 0x0611, 0x0612, 0x0613, 0x0614, 0x0615, 0x0302, 0x0303, 0x0113]

/-- A code may take a policy value (R441). -/
def policyMay (code p : Nat) : Bool :=
  policyCodes.contains code &&
    match p with
    | 0 => true
    | 1 => true
    | 2 => [0x0601, 0x0603, 0x0604, 0x0605, 0x0606].contains code
    | 3 => code == 0x0602
    | 4 => code == 0x0611
    | 5 => code == 0x0302 || code == 0x0303
    | 6 => code == 0x0113
    | _ => false

/-- Type 0x000D (R441). -/
def State.policyEvents (s : State) (b : List Byte) : Applied :=
  let l := wordsOf 4 b
  if l.any fun n => bits n 24 8 != 0 then reservedSet s
  else match (indexed l).find? fun (e : Nat × Nat) => !policyMay (bits e.2 0 16) (bits e.2 16 8) with
    | some e => rejectAt s (4 * e.1)
    | none => .ok { s with err := { s.err with
        policy := l.foldl (fun m n => SMap.put (fun _ => 0) m (bits n 0 16) (bits n 16 8)) s.err.policy } }

/-! ## Types 0x000E to 0x0010 -/

/-- Two contexts may change places: partners, the victim resident, the other spilled, and no swap runs in their quarry (R395, R406,
R407). -/
def State.maySwap (s : State) (incoming victim : Nat) : Bool :=
  s.ctxState incoming != csFree && s.ctxState victim != csFree
    && s.flag (Fld.partnerValid victim) && s.fld (Fld.partner victim) == incoming
    && s.flag (Fld.resident victim) && !s.flag (Fld.resident incoming) && (s.quarry (s.ctxQuarry victim)).swap.isNone

/-- Type 0x000E (R406). -/
def State.policySwap (s : State) (b : List Byte) : Applied :=
  let n := blkAt b 0 4
  if bits n 3 5 ≠ 0 ∨ bits n 11 21 ≠ 0 then reservedSet s
  else if s.maySwap (bits n 0 3) (bits n 8 3) then .ok (s.startSwap (bits n 0 3) (bits n 8 3))
  else rejectAt s 0

/-- The reserved fields of a slot entry (R248, R249). -/
def slotClean (n : Nat) : Bool :=
  fieldAt n 3 7 1 == 0 && fieldAt n 10 0 16 == 0 && fieldAt n 23 0 8 == 0 && fieldAt n 24 0 64 == 0

/-- Type 0x000F, for a context whose job is Loaded or Running (R249). -/
def State.policySlots (s : State) (c : Nat) (b : List Byte) : Applied :=
  let l := wordsOf 32 b
  if s.ctxState c ≠ csLoaded ∧ s.ctxState c ≠ csRunning then .error (0x0013, 0, s)
  else if !l.all slotClean then reservedSet s
  else match s.bindSlots c (indexed l) with
    | .ok t => .ok t
    | .error i => rejectAt s (32 * i)

/-- An invalidation of a type 0x0010 block: scope, context and address. -/
def blkInval (c n : Nat) : Nat × Nat × Nat := (fieldAt n 8 0 2, c, fieldAt n 0 0 48)

/-- Type 0x0010: the translations are gone when the command completes (R231, R232). -/
def State.policyInval (s : State) (c : Nat) (b : List Byte) : Applied :=
  let l := wordsOf 16 b
  if l.any fun n => fieldAt n 6 0 16 != 0 || fieldAt n 8 2 6 != 0 || fieldAt n 9 0 56 != 0 then reservedSet s
  else match (indexed l).find? fun (e : Nat × Nat) => decide (1 < fieldAt e.2 8 0 2) with
    | some e => rejectAt s (16 * e.1)
    | none =>
      let gone (t : TlbEntry) : Bool := l.any fun n => invalidates (blkInval c n) t
      .ok { s with mem := { s.mem with tlb := s.mem.tlb.filter fun t => !gone t } }

/-! ## SET_POLICY -/

/-- A block of a type for context `c`, where the type names one. -/
def State.applyPolicy (s : State) (type c : Nat) (b : List Byte) : Applied :=
  match type with
  | 0x1 => s.policyStr b
  | 0x2 => s.policyMem b
  | 0x3 => s.policyRetired b
  | 0x4 => s.policyMode b
  | 0x5 => s.policyVein b
  | 0x6 => s.policyJob c b
  | 0x7 => s.policyGroups c b
  | 0x8 => s.policyDirectory c b
  | 0x9 => s.policyPrio c b
  | 0xA => s.policyTraps c b
  | 0xB => s.policyRotary c b
  | 0xC => s.policyPool c b
  | 0xD => s.policyEvents b
  | 0xE => s.policySwap b
  | 0xF => s.policySlots c b
  | _ => s.policyInval c b

/-- SET_POLICY. Invalidations wait for one that runs (R232). -/
def setPolicy (at_ id : Nat) (s : State) : State :=
  let s := s.advanceTo at_
  match s.cmdReady id 0x0C with
  | none => s
  | some q =>
    let type := q.at_ 8 0 16
    let a := q.at_ 16 0 64
    let n := q.at_ 24 0 32
    let t := s.startCmd q
    if type = 0x10 ∧ s.flag Fld.invBusy then s
    else if q.ctx.isSome ∧ s.ctxState q.c = csFree then t.completeCmd id 0x0013 0
    else if policyMax < n ∨ (type ≠ 5 ∧ type ≠ 7 ∧ policyLen type n [] = false) then t.completeCmd id 0x0012 0
    else if s.hostAborts a n then t.completeCmd id 0x0016 0
    else if s.hostPoisons a n then t.completeCmd id 0x0017 0
    else
      let b := s.hostBytes a n
      if policyLen type n b = false then t.completeCmd id 0x0012 0
      else match t.applyPolicy type q.c b with
        | .ok u => u.completeCmd id 0 0
        | .error (status, tail, u) => u.completeCmd id status tail

def execSetPolicy (at_ id : Nat) (s : State) : Host.Outcome State Fault Refusal := .next (setPolicy at_ id s)

end Sys2Proof.Machine
end

