-- ==== Sys2Proof/Machine/Errors.lean ====
section
/-! DEFINITION. The closing of error records, the management watchdog and Flint's restart (R450, R451, R454, R459 to R461). -/

namespace Sys2Proof.Machine

/-! ## RECORD_CLOSE (R101, R187, R393, R451, R454, R469) -/

/-- The poison flags of the slot rows of a context are clear (R101). -/
def State.clearSlotPoison (s : State) (c : Nat) : State :=
  let cores := coresOf s.modeOf (s.ctxQuarry c)
  let lo := s.fld (Fld.slotBase c)
  let hi := lo + s.fld (Fld.slotCount c)
  let mine (k : Nat) : Bool := cores.contains (k / 4096) && decide (lo ≤ k / 32 % 128) && decide (k / 32 % 128 < hi)
  { s with mem := { s.mem with accPoison := SMap.drop mine s.mem.accPoison } }

/-- Flint clears a faulted context: its records are empty, its slots unpoisoned, its job's completion is posted with the code of the
fault, and it is Created (R101, R187, R393, R424). -/
def State.clearCtx (s : State) (c : Nat) : State :=
  let s := ((s.clearSlotPoison c).emptyStats c).endJob c (s.ctxAt c).faultCode
  (s.setCtx c { s.ctxAt c with faultCode := 0 }).setFld (Fld.ctxState c) csCreated

/-- The context that a record struck still has the life that it had. -/
def State.sameLife (s : State) (r : ErrRec) : Bool := s.ctxState r.index != csFree && (s.ctxAt r.index).life == r.life

/-- The handling of a record is complete: a context has faulted and its engines have stopped; a module record is never done (R82, R446,
R461). -/
def State.handled (s : State) (r : ErrRec) : Bool :=
  r.domain != domModule &&
    (r.domain != domContext || !s.sameLife r
      || (s.ctxState r.index == csFaulted && !s.core.tiles.any fun t => t.ctx == r.index && t.phase == .stopping))

/-- The record closes (R451, R454). -/
def State.closeRec (s : State) (i : Nat) : State :=
  let r := s.errRec i
  let s := s.setRec i { r with state := .closed, closedSeq := s.err.closeSeq }
  let s := { s with err := { s.err with closeSeq := s.err.closeSeq + 1 } }.countOpen
  if 1 < r.count then s.postEvent r.code i r.count r.ctx else s

/-- RECORD_CLOSE. -/
def recordClose (at_ index : Nat) (s : State) : State :=
  let s := s.advanceTo at_
  let r := s.errRec index
  if s.pins.phase = .running ∧ s.err.flintDown = false ∧ index < 64 ∧ r.state = .opened ∧ s.handled r then
    let s := if r.domain = domContext ∧ s.sameLife r then s.clearCtx r.index else s
    s.closeRec index
  else s

def execRecordClose (at_ index : Nat) (s : State) : Host.Outcome State Fault Refusal := .next (recordClose at_ index s)

/-! ## The watchdog (R459 to R461, R517) -/

/-- WATCHDOG_ACK. -/
def watchdogAck (at_ : Nat) (s : State) : State :=
  let s := s.advanceTo at_
  if s.hostUp ∧ s.err.flintDown = false then { s with err := { s.err with lastAck := s.now } } else s

def execWatchdogAck (at_ : Nat) (s : State) : Host.Outcome State Fault Refusal := .next (watchdogAck at_ s)

/-- The watchdog trips: 50 ms without an acknowledgement, or an exception of Flint while it handles a record (R459). -/
def State.tripDue (s : State) (exception : Bool) : Bool :=
  s.hostUp && !s.err.flintDown
    && (decide (s.err.lastAck + ms 50 ≤ s.now) || (exception && (List.range 64).any fun i => (s.errRec i).state == .opened))

/-- Flint is held in reset: the commands that it has read are caught, and an update in progress has failed (R460, R526). -/
def State.holdFlint (s : State) : State :=
  { s with
    err := { s.err with flintDown := true, lastTrip := some s.now, caught := s.host.cmds.map fun c => c.id }
    fw := { s.fw with updAborted := s.fw.update.isSome } }

/-- WATCHDOG_RESTART: a second trip within 10 s, or a copy that fails its check, makes the module fatal (R460, R461, R517). -/
def watchdogRestart (at_ : Nat) (exception : Bool) (s : State) : State :=
  let s := s.advanceTo at_
  if s.tripDue exception then
    let again := s.err.lastTrip.any fun t => decide (s.now ≤ t + ms 10000)
    let s := (s.bump Fld.wdTrips).holdFlint
    if again then s.raise { code := 0x0802, domain := domModule }
    else if s.copyOk = false then s.raise { code := 0x0802, domain := domModule, detail := 0x0824 }
    else s.report { code := 0x0801 }
  else s

def execWatchdogRestart (at_ : Nat) (exception : Bool) (s : State) : Host.Outcome State Fault Refusal :=
  .next (watchdogRestart at_ exception s)

/-- A policy action that has waited for the restart: an abort tick, a swap, or the contained fault of a context (R50, R406, R460). -/
def State.actDeferred (s : State) (a : Nat × Nat) : State :=
  if a.1 = 0x0602 then s.abortTick
  else if a.1 = 0x0611 then s.swapBlocked a.2
  else s.raiseCtx { code := a.1 } a.2

/-- FLINT_RESTART_DONE: what the trip caught completes with MODULE_STATE, and the actions that waited are taken (R460). -/
def flintRestartDone (at_ : Nat) (s : State) : State :=
  let s := s.advanceTo at_
  if s.err.flintDown ∧ s.err.lastTrip.any (fun t => decide (t + ms 50 ≤ s.now)) then
    let ids := s.err.caught
    let acts := s.err.deferred
    let s := { s with err := { s.err with flintDown := false, caught := [], deferred := [], lastAck := s.now } }
    let s := ids.foldl (fun t i => t.completeCmd i 0x001A (((t.cmd i).map Cmd.dmaTail).getD 0)) s
    acts.foldl State.actDeferred s
  else s

def execFlintRestartDone (at_ : Nat) (s : State) : Host.Outcome State Fault Refusal := .next (flintRestartDone at_ s)

end Sys2Proof.Machine
end

