-- ==== Sys2Proof/Machine/Vector.lean ====
section
/-! DEFINITION. The vector engine: KERNEL (chapter The Vector Engine and Stream Kernels). -/

namespace Sys2Proof.Machine

/-- The code of VECTOR_TIER. -/
def vecTier : Option Nat := some 0x0222

/-- One active element of a vector: its temporaries, its output values and the flags it has raised (R160, R165). -/
structure Elem where
  t : List Num
  o : List Num
  fl : BitVec 6

def Elem.start : Elem := { t := List.replicate 8 .zero, o := [.zero, .zero], fl := 0 }

/-- A number of `n` bytes of local store that hold no element: the read consumes no poison (R178). -/
def lsPlain (core c off n : Nat) : Exec Nat := do
  let b ← readTell core c ⟨false, off⟩ n
  pure (leNat b.1)

/-- The program and the stream block, read and checked when the tile starts (R161, R180). -/
def readKernel (core c : Nat) (d : Nat) : Exec Kernel := do
  let b := kernBody d
  let prog ← lsPlain core c b.kernOff (8 * b.nOps)
  let blk ← lsPlain core c b.strmOff 192
  let raw (i : Nat) : Nat := fieldAt blk (32 * i) 0 256
  let ins := (List.range b.nIn).map raw
  let outs := (List.range b.nOut).map fun i => raw (4 + i)
  let k : Kernel :=
    { b := b, prog := (List.range b.nOps).map fun i => microOp (fieldAt prog (8 * i) 0 64)
      ins := ins.map streamRec, outs := outs.map streamRec }
  match ← Exec.ask fun s => s.kernelCheck c k (ins ++ outs) with
  | some code => Exec.stop (.fault code 0)
  | none => pure k

/-- A subnormal value of a format. -/
def Fmt.subnormal (f : Fmt) (x : Num) : Bool :=
  !x.isZero && x.isFinite && !f.int && x.abs.lt (.fin false 1 (f.emin + f.frac))

/-- A value read: with ftz, a subnormal is a zero of the same sign (R144, R168). -/
def flushIn (ftz : Bool) (f : Fmt) (x : Num) : Num := if ftz && f.subnormal x then .fin x.isNeg 0 0 else x

/-- A result: with ftz, a subnormal becomes a zero and raises UNDERFLOW_ZERO (R144, R168). -/
def flushOut (ftz : Bool) (f : Fmt) (x : NumF) : NumF :=
  if ftz && f.subnormal x.1 then (.fin x.1.isNeg 0 0, x.2 ||| fUnderflow) else x

/-- One element of memory in a format. -/
def readElem (core c : Nat) (a : Addr) (f : Fmt) : Exec Num := do
  let b ← readUse core c a (f.width / 8) vecTier
  pure (f.decode (leNat b))

/-- An address field with an element's address in it. -/
def StreamRec.elemAddr (r : StreamRec) (n e : Nat) : Addr := ⟨r.addr.space, (r.at_ n e % (2 ^ 48 : Int)).toNat⟩

/-- The elements of a streamed input for the active lanes of a vector, in the arithmetic format (R158, R163, R178). An element that is
not exact in a 16-bit arithmetic format is rounded, and what that rounding raises is dropped (DESIGN CHOICE, log entries 28 and 175). -/
def loadInput (core c : Nat) (k : Kernel) (r : StreamRec) (v active : Nat) : Exec (List Num) :=
  let f := Fmt.ofCode r.fmt
  Exec.collect (List.range active) fun l => do
    let x ← readElem core c (r.elemAddr k.b.n (v * k.b.vl + l)) f
    pure (k.b.fmt.near (flushIn k.b.ftz f x)).1

/-- The value that a selector names for lane `l` (R165). A subnormal imm is no input that ftz = 1 reads as zero (DESIGN CHOICE, log entry
176). -/
def selValue (k : Kernel) (ins : List (List Num)) (imm l : Nat) (e : Elem) (sel : Nat) : Num :=
  if sel ≤ 7 then e.t.getD sel .zero
  else if sel ≤ 0xB then (ins.getD (sel - 8) []).getD l .zero
  else if sel = 0xC then (k.b.fmt.near (Fmt.f32.decode imm)).1
  else .ofNat l

/-- The predicates of CMP; a NaN is unordered (R166, R167). -/
def predicate (p : Nat) (a b : Num) : Bool :=
  let un := a.isNan || b.isNan
  match p with
  | 0 => a.eqv b
  | 1 => !a.eqv b
  | 2 => a.lt b
  | 3 => !un && !b.lt a
  | 4 => b.lt a
  | _ => !un && !a.lt b

/-- A binary32 approximation rounded to the arithmetic format (R169). -/
def approxIn (f : Fmt) (x : Exec NumF) : Exec NumF := do
  let r ← x
  let y := f.near r.1
  pure (y.1, r.2 ||| y.2)

/-- The index of the draw of an element (R142, R171): its position in the first output. -/
def Kernel.drawIndex (k : Kernel) (r : Option StreamRec) (v l : Nat) : Nat :=
  if r.any (·.firstOnly) then v else v * k.b.vl + l

/-- An operation on the operands of one lane alone: arithmetic, moves, comparisons, approximations and conversions
(R166 to R170). -/
def laneOp (k : Kernel) (key : DrawKey) (o : MicroOp) (v l : Nat) (a b c : Num) : Exec NumF :=
  let f := k.b.fmt
  let arith (x : NumF) : Exec NumF := pure (flushOut k.b.ftz f x)
  let approx (x : Exec NumF) : Exec NumF := do
    let y ← approxIn f x
    pure (flushOut k.b.ftz f y)
  match o.op with
  | 0x01 => arith (f.add a b)
  | 0x02 => arith (f.sub a b)
  | 0x03 => arith (f.mul a b)
  | 0x04 => arith (f.fma a b c)
  | 0x05 => arith (numMin a b)
  | 0x06 => arith (numMax a b)
  | 0x07 => pure (a, 0)
  | 0x08 => pure (a.abs, 0)
  | 0x09 => pure (a.neg, 0)
  | 0x0A => pure (if predicate o.aux a b then .one else .zero, 0)
  | 0x0B => pure (if a.eqv .zero then c else b, 0)
  | 0x10 => approx (exp2Op a)
  | 0x11 => approx (log2Op a)
  | 0x12 => approx (rcpOp a)
  | 0x13 => approx (rsqrtOp a)
  | _ => arith ((Fmt.ofCode o.aux).convert (rndCode key o.rnd (k.drawIndex k.outs.head? v l)) a)

/-- A reduction over the active lanes, in every one of them (R172). With ftz = 1 its result is flushed, its inner nodes are not (DESIGN
CHOICE, log entry 177). -/
def reduceOp (k : Kernel) (o : MicroOp) (a : List Num) : NumF :=
  let f : Num → Num → NumF := if o.op = 0x30 then k.b.fmt.add else if o.op = 0x31 then numMax else numMin
  flushOut k.b.ftz k.b.fmt (treeSum f 9 a)

/-- The integer that a lane or index operand names, when it is in [0, n). -/
def indexOf (x : Num) (n : Nat) : Option Nat :=
  match x.trunc with
  | some i => if 0 ≤ i ∧ i < n then some i.toNat else none
  | none => none

/-- One operation over the active lanes of a vector: the results, and whether a lane was out of range (R166, R172 to R175). -/
def vectorOp (core c : Nat) (k : Kernel) (key : DrawKey) (o : MicroOp) (v : Nat) (ins : List (List Num)) (es : List Elem) :
    Exec (List NumF × Bool) := do
  let val (l : Nat) (sel : Nat) : Num := selValue k ins o.imm l (es.getD l .start) sel
  let lanes := List.range es.length
  let as_ := lanes.map fun l => val l o.sa
  match o.op with
  | 0x30 => pure (lanes.map (fun (_ : Nat) => reduceOp k o as_), false)
  | 0x31 => pure (lanes.map (fun (_ : Nat) => reduceOp k o as_), false)
  | 0x32 => pure (lanes.map (fun (_ : Nat) => reduceOp k o as_), false)
  | 0x40 =>
    match k.ins[o.aux]? with
    | none => pure ([], false)
    | some r => do
      let f := Fmt.ofCode r.fmt
      let l ← Exec.collect as_ fun a =>
        match indexOf a r.tableLen with
        | some x => do
          let y ← readElem core c (r.addr.plus (x * r.size)) f
          pure (((k.b.fmt.near (flushIn k.b.ftz f y)).1, (0 : BitVec 6)), false)
        | none => pure ((.zero, 0), true)
      pure (l.map (·.1), l.any (·.2))
  | 0x50 =>
    let l : List (NumF × Bool) := lanes.map fun l =>
      match indexOf (val l o.sb) k.b.vl with
      | some x => ((as_.getD x .zero, 0), false)
      | none => ((.zero, 0), true)
    pure (l.map (·.1), l.any (·.2))
  | 0x51 => pure (lanes.map (fun (l : Nat) => (as_.getD ((l + o.imm) % k.b.vl) .zero, 0)), false)
  | _ => do
    let l ← Exec.collect lanes fun l => laneOp k key o v l (val l o.sa) (val l o.sb) (val l o.sc)
    pure (l, false)

/-- A result is written to its destination in each lane, with its flags. -/
def writeDst (o : MicroOp) (es : List Elem) (r : List NumF) : List Elem :=
  (List.zip es r).map fun x =>
    let e := { x.1 with fl := x.1.fl ||| x.2.2 }
    if o.dst ≤ 7 then { e with t := e.t.set o.dst x.2.1 } else { e with o := e.o.set (o.dst - 8) x.2.1 }

/-- The program over one vector (R158). An operation with a lane out of range counts once, or stops a strict kernel
(R175). -/
def runProgram (core c : Nat) (k : Kernel) (key : DrawKey) (v : Nat) (ins : List (List Num)) (es : List Elem) (y : Tally) :
    Exec (List Elem × Tally) :=
  Exec.fold k.prog (es, y) fun z o => do
    let r ← vectorOp core c k key o v ins z.1
    Exec.check (!(r.2 && k.b.strict)) (.fault 0x0221 0)
    let y := if r.2 then { z.2 with flags := z.2.flags ||| fPermRange, permRange := z.2.permRange + 1 } else z.2
    pure (writeDst o z.1 r.1, y)

/-- The values of an output stored by one vector: the element's index in the output, its address and its value. -/
def storesOf (i : Nat) (r : StreamRec) (es : List Elem) : List (Nat × Num) :=
  let l := (List.zip (List.range es.length) es).map fun (x : Nat × Elem) => (x.1, x.2.o.getD i .zero)
  if r.firstOnly then l.take 1 else l

/-- Runs of elements at successive addresses. -/
def addrRuns (size : Nat) : List (Addr × List Byte) → List (Addr × List Byte)
  | [] => []
  | (a, b) :: r =>
    match addrRuns size r with
    | (a', b') :: t => if a'.addr = a.addr + size then (a, b ++ b') :: t else (a, b) :: (a', b') :: t
    | [] => [(a, b)]

/-- Two runs of bytes share one. -/
def touches (a : Int) (n : Nat) (b : Int) (m : Nat) : Bool := decide (a < b + m) && decide (b < a + n)

/-- Element `e` of an output of `n` elements shares a byte with an element of a record of `m`. -/
def elemClash (o : StreamRec) (n e : Nat) (i : StreamRec) (m : Nat) : Bool :=
  o.addr.space == i.addr.space && (List.range m).any fun b => touches (o.at_ n e) o.size (i.at_ m b) i.size

/-- Element `e` of output `i` lies in an overlap with an input otherwise than in place, with the other output or with a gather table:
what it holds is undefined (R177). Operands are compared by their addresses in the context. -/
def Kernel.overlaps (k : Kernel) (i : Nat) (o : StreamRec) (e : Nat) : Bool :=
  let n := k.b.outCount o
  (k.ins.any fun r =>
    if r.kind = 0 then elemClash o n e r k.b.n && !((List.range n).all fun x => o.at_ n x == r.at_ k.b.n x)
    else o.addr.space == r.addr.space && touches (o.at_ n e) o.size r.addr.addr (r.tableLen * r.size))
  || (List.zip (List.range k.outs.length) k.outs).any fun (x : Nat × StreamRec) =>
    x.1 != i && elemClash o n e x.2 (k.b.outCount x.2)

/-- The bytes of an output element: free where they are undefined (R177, log entry 3). -/
def storedBytes (shared_ : Bool) (n v : Nat) : Exec (List Byte) := do
  let w ← if shared_ then Exec.free (2 ^ (8 * n)) else pure v
  pure (leBytes n w)

/-- One output of one vector is converted and stored; the flags of each lane's store (R176). -/
def storeOutput (core c : Nat) (k : Kernel) (key : DrawKey) (i : Nat) (r : StreamRec) (v : Nat) (es : List Elem) :
    Exec (List (BitVec 6)) := do
  let f := Fmt.ofCode r.fmt
  let cnt := k.b.outCount r
  let l : List (Nat × NumF) := (storesOf i r es).map fun x =>
    (x.1, flushOut k.b.ftz f (f.convert (rndCode key r.rnd (k.drawIndex (some r) v x.1)) x.2))
  let cells ← Exec.collect l fun x => do
    let e := k.drawIndex (some r) v x.1
    let b ← storedBytes (k.overlaps i r e) r.size (f.encode x.2.1)
    pure (r.elemAddr cnt e, b)
  Exec.each (addrRuns r.size cells) fun x => writeMem core c x.1 x.2 false vecTier
  pure (l.map fun (x : Nat × NumF) => x.2.2)

/-- One vector of a kernel (R159): its inputs, its program, its outputs. -/
def runVector (t : Tile) (k : Kernel) (key : DrawKey) (v : Nat) (y : Tally × Num) : Exec (Tally × Num) := do
  let active := min k.b.vl (k.b.n - v * k.b.vl)
  let used (i : Nat) : Bool := k.prog.any fun o => o.sels.contains (8 + i)
  let ins ← Exec.collect (List.zip (List.range k.ins.length) k.ins) fun x =>
    if used x.1 then loadInput t.core t.ctx k x.2 v active else pure []
  let z ← runProgram t.core t.ctx k key v ins (List.replicate active .start) y.1
  let fls ← Exec.collect (List.zip (List.range k.outs.length) k.outs) fun x =>
    storeOutput t.core t.ctx k key x.1 x.2 v z.1
  let flag (l : Nat) : BitVec 6 := fls.foldl (fun f (g : List (BitVec 6)) => f ||| g.getD l 0) 0
  let y' := (List.zip (List.range z.1.length) z.1).foldl (fun (a : Tally) (x : Nat × Elem) => a.element (x.2.fl ||| flag x.1)) z.2
  let stored := fls.foldl (fun n (g : List (BitVec 6)) => n + g.length) 0
  let o0 : List Num := match k.outs.head? with
    | some r => (storesOf 0 r z.1).map fun (x : Nat × Num) => x.2
    | none => []
  pure ({ y' with elements := y'.elements + stored }, if k.b.amax then o0.foldl amaxTake y.2 else y.2)

/-- KERNEL (R158). -/
def kernelWork (t : Tile) : Exec Tally := do
  let k ← readKernel t.core t.ctx t.desc
  let key ← Exec.ask fun s => s.drawKey t 1
  let y ← Exec.fold (List.range k.b.vectors) ({}, Num.zero) fun y v => runVector t k key v y
  endAmax t.core t.ctx k.b.amax k.b.amaxOff y

def execKernel (core stream : Nat) (s : State) : Host.Outcome State Fault Refusal :=
  .next (s.runTile core stream 0x21 kernelWork)

end Sys2Proof.Machine
end

