-- ==== Sys2Proof/Machine/Assay.lean ====
section
/-! DEFINITION. Assay: checker tiles, pattern replay, evidence for the host, screening, and ERR_CTRL (R462 to R475). -/

namespace Sys2Proof.Machine

/-! ## Checkers (R465, R466, R469) -/

/-- The place of the tile with which a checker re-executes a stream's tile. -/
def checkStream (core stream : Nat) : Nat := if stream < 64 then 64 + 64 * core + stream else stream + 10240

/-- The work of the tiles of classes 1 to 3 that Assay may run again (R464). -/
def againWork (op : Nat) : Option (Tile → Exec Tally) :=
  match op with
  | 0x11 => some (matmulWork none)
  | 0x15 => some elementwiseWork
  | 0x21 => some kernelWork
  | 0x31 => some softmaxFwdWork
  | 0x32 => some softmaxBwdWork
  | 0x33 | 0x35 => some (normFwdWork op)
  | 0x34 | 0x36 => some (normBwdWork op)
  | _ => none

/-- A tile as it begins again. -/
def Tile.afresh (t : Tile) : Tile :=
  { t with phase := .running, at_ := { dead := t.at_.dead }, tally := {}, table := [], held := [], wrote := [], posted := [], round := 0 }

/-- A fault-free execution of a tile, from its beginning, on a state that is not the module's own; its log says what it reads and
writes. -/
def State.execute (s : State) (t : Tile) : Except Stop Unit × State :=
  let s := (s.setTile t.afresh).logged
  match againWork (dOpcode t.desc) with
  | some w =>
    match (w t.afresh) s with
    | (.ok _, v) => (.ok (), v)
    | (.error e, v) => (.error e, v)
  | none => State.stagesRun t.core t.stream (attnStage (dOpcode t.desc) false) stageBound s

/-- What the checker on core `k` runs on: the copied local-store inputs, and its own translations. Whatever it writes stays there, in
the shadow, where no write stalls; it takes the draws of the primary (R466). -/
def State.checkerState (s : State) (t : Tile) (k : Nat) : State :=
  let v := s.checkView t
  let own := (v.mem.tlb.filter fun e => e.unit == k).map fun e => { e with unit := t.core }
  { v with
    mem := { v.mem with tlb := own ++ v.mem.tlb.filter fun e => e.unit != t.core }
    fos := { v.fos with epoch := none } }

/-- The checker's reads of memory, from its own core: what they find and the translations that they bring stay. -/
def State.readAgain (s : State) (k c : Nat) (l : List (Nat × Nat × List Byte)) : State :=
  l.foldl (fun s w => if w.1 = 4 then ((readCopy k c ⟨true, w.2.1⟩ w.2.2.length) s).2 else s) s

/-- The tile of a checker on its core. -/
def State.checkerTile (s : State) (t : Tile) (k : Nat) : Tile :=
  { core := k, engine := t.engine, stream := checkStream t.core t.stream, ctx := t.ctx, desc := t.desc, startAt := s.now
    startClk := (s.slab (k / 40)).clk, startGuard := (s.slab (k / 40)).guard, startCount := t.startCount, phase := .recheck
    home := some (t.core, t.stream)
    ordinal := t.ordinal }

/-- A tile takes its engine on a core. -/
def State.occupy (s : State) (u : Tile) : State :=
  { s with core := { s.core with
      tiles := s.core.tiles ++ [u]
      lastCtx := SMap.put (fun _ => 0) s.core.lastCtx (4 * u.core + engineNo u.engine) (u.ctx + 1) } }

/-- The checker's tile starts on its core and executes. An error of it is an error of the primary's context; one that has to wait for
a page does not start yet (R466, log entry 184). -/
def State.startChecker (s : State) (t : Tile) (k : Nat) : State :=
  let r := (s.checkerState t k).execute t
  let l := r.2.accesses
  match r.1 with
  | .ok _ => ((s.readAgain k t.ctx l).setTile { t with checkerRan := true }).occupy { s.checkerTile t k with sig := s.signature t l }
  | .error (.fault code phys) =>
    (((s.readAgain k t.ctx l).setTile { t with checkerRan := true }).occupy
        { s.checkerTile t k with phase := .stopping, stopAt := s.now }).raiseCtx
      { code := code, core := some k, phys := phys, tileId := BitVec.ofNat 32 (dTileId t.desc)
        layerTag := BitVec.ofNat 16 (dLayerTag t.desc) } t.ctx
  | .error _ => s

/-- A checked tile whose checker has been fenced has the next one of R465, or finishes unchecked where there is none. -/
def State.reassign (s : State) (t : Tile) (k : Nat) : State × Option Tile :=
  if s.coreFenced k then
    match s.checkerOf t.core t.startCount with
    | some k' =>
      let t := { t with checker := some k' }
      (s.setTile t, some t)
    | none => ((s.bump Fld.assaySkip).finishTile t, none)
  else (s, some t)

/-- ASSAY_CHECKER_START: the checker's tile of a finished primary takes its engine when the picker of the checker core has it next
(R73, R404, R466). -/
def assayCheckerStart (at_ core stream : Nat) (s : State) : State :=
  let s := s.advanceTo at_
  match s.tileOf core stream with
  | none => s
  | some t =>
    match t.checker with
    | none => s
    | some k =>
      if t.phase ≠ .checking ∨ t.checkerRan then s
      else
        let r := s.reassign t k
        match r.2.bind fun u => u.checker with
        | none => r.1
        | some k =>
          let next := (r.1.checkerNext k t.engine).any fun u => u.core == core && u.stream == stream
          match r.2 with
          | some u => if r.1.engineFree k t.engine ∧ r.1.withheld = false ∧ next then r.1.startChecker u k else r.1
          | none => r.1

def execAssayCheckerStart (at_ core stream : Nat) (s : State) : Host.Outcome State Fault Refusal :=
  .next (assayCheckerStart at_ core stream s)

/-- The signatures differ: the signal is discarded, the context faults and evidence is captured (R469, R470). -/
def State.mismatch (s : State) (t : Tile) (k sigP sigC : Nat) : State :=
  let s := s.dropTile t.core t.stream
  let s := s.raiseCtx { code := 0x0261, core := some t.core, tileId := BitVec.ofNat 32 (dTileId t.desc)
                        layerTag := BitVec.ofNat 16 (dLayerTag t.desc) } t.ctx
  s.capture t (if t.full then 2 else 1) k sigP sigC t.wrote t.wrote

/-- SIGNATURE_COMPARE: both executions have ended. `delta` is by how much a fault of the hardware makes the checker's signature differ
from that of a fault-free execution (R466, R469). -/
def signatureCompare (at_ core stream delta : Nat) (s : State) : State :=
  let s := s.advanceTo at_
  match s.tileOf core stream with
  | none => s
  | some t =>
    match t.checker with
    | none => s
    | some k =>
      let key := checkStream core stream
      match (s.tileOf k key).filter fun u => u.phase == .recheck && t.phase == .checking && t.checkerRan with
      | none => s
      | some u =>
        let s := (s.dropTile k key).bump Fld.assayChk
        let sigP := s.signature t t.wrote
        let sigC := (u.sig + delta) % 2 ^ 64
        if sigP = sigC then s.finishTile t else s.mismatch t k sigP sigC

def execSignatureCompare (at_ core stream delta : Nat) (s : State) : Host.Outcome State Fault Refusal :=
  .next (signatureCompare at_ core stream delta s)

/-! ## Replay (R472) -/

/-- The cores that replay: enabled and unfenced. -/
def State.liveCores (s : State) : List Nat := (List.range 160).filter fun c => !s.coreFenced c

/-- The value that more than half of the cores give. -/
def majority (l : List Nat) : Option Nat := l.find? fun x => decide (l.length < 2 * (l.filter (· == x)).length)

/-- The outcome of a replay in the order of R472: code, reference and the cores that differ from it. -/
def replayOutcome (v : Evid) (cores : List Nat) (sig : Nat → Nat) : Nat × Nat × List Nat :=
  match majority (cores.map sig) with
  | none => (3, 0, [])
  | some x =>
    let differ := cores.filter fun c => sig c != x
    if differ = [] ∨ [v.primary, v.checker].all fun c => !differ.contains c then (2, 0, []) else (1, x, differ)

/-- The state in which a core runs an entry's tile relocated: it reads the regions, every window is wide enough, and the draws are
those of the captured core, ordinal, stratum, context and seed; and that tile (R472). -/
def State.relocated (s : State) (v : Evid) (l : List EvidRegion) : State × Tile :=
  let c := v.ctx
  let t : Tile :=
    { core := v.primary, engine := (classEngine (dClass v.descriptor)).getD .matrix, stream := 0, ctx := c, desc := v.descriptor
      startCount := v.stratum, ordinal := v.ordinal }
  let ins := l.filter fun r => r.out == 15
  let s := ((s.setFld (Fld.slotBase c) 0).setFld (Fld.slotCount c) 128).setFld (Fld.statBase c) 0
  let s := ((s.setFld (Fld.statUnits c) 64).setFld (Fld.lsBase c) 0).setFld (Fld.lsUnits c) 32
  let s := s.setCtx c { s.ctxAt c with seed := v.seed }
  let s := ins.foldl (fun s r => if r.space then s else s.putLs t.core r.addr r.data) s
  ({ s with core := { s.core with tiles := [t], feed := some ins } }, t)

/-- The signature that a fault-free core gives in the replay of an entry; none where its regions do not determine it: a tile of the pipe
reads slot registers too, and a tile that R464 does not make eligible reads slots (log entry 102). -/
def State.replaySig (s : State) (v : Evid) : Option Nat :=
  v.regions.bind fun l =>
    let r := s.relocated v l
    if dClass v.descriptor = 4 ∨ r.1.operEligible v.primary v.ctx v.descriptor = false then none
    else match r.1.execute r.2 with
      | (.ok _, w) => some (r.1.signature r.2 w.accesses)
      | (.error _, _) => none

/-- A replay is due as long as a captured entry waits for one. -/
def State.settleReplay (s : State) : State :=
  s.setFld Fld.replayBusy (b2n ((List.range 8).any fun i => (s.evid i).use_ == .captured))

/-- The engine that an entry's tile takes is free on every core that replays (R80, R472). -/
def State.replayReady (s : State) (v : Evid) : Bool :=
  match classEngine (dClass v.descriptor) with
  | some e => s.liveCores.all fun c => s.engineFree c e
  | none => true

/-- PATTERN_REPLAY: every core that is enabled and unfenced runs the entry's tile at a tile boundary. `sigs` are, by core, how much a fault
of the hardware makes its signature differ from that of a fault-free core. -/
def patternReplay (at_ entry : Nat) (sigs : List Nat) (s : State) : State :=
  let s := s.advanceTo at_
  let v := s.evid entry
  if s.flag Fld.replayBusy ∧ s.flag Fld.reserveEn ∧ s.err.flintDown = false ∧ entry < 8 ∧ v.use_ = .captured ∧ s.replayReady v then
    let x := (s.replaySig v).getD 0
    let r := replayOutcome v s.liveCores fun c => (x + sigs.getD c 0) % 2 ^ 64
    let s := s.setEvid entry { v with
      use_ := .replayed, outcome := r.1, sigRef := r.2.1, culprits := r.2.2.foldl (fun n c => n + 2 ^ c) 0 }
    let s := s.settleReplay
    let cause := if v.source = 0 then 0x0212 else 0x0261
    if r.1 = 2 then s.report { code := 0x0262, index := entry, evid := some entry }
    else if r.1 = 3 then s.report { code := 0x0263, index := entry, evid := some entry }
    else r.2.2.foldl (fun t c => t.raise
      { code := 0x0264, domain := domCore, index := c, core := some c, evid := some entry, detail := cause }) s
  else s

def execPatternReplay (at_ entry : Nat) (sigs : List Nat) (s : State) : Host.Outcome State Fault Refusal :=
  .next (patternReplay at_ entry sigs s)

/-! ## Evidence for the host (R470, R471, R473) -/

/-- The 256 bytes of a header before its regions. -/
def Evid.header (v : Evid) (regions : Nat) : List Byte :=
  leBytes 1 v.source ++ leBytes 1 v.outcome ++ leBytes 2 v.primary ++ leBytes 2 v.checker ++ leBytes 1 v.ctx ++ leBytes 1 0
    ++ leBytes 8 v.seed.toNat ++ leBytes 6 v.stratum.toNat ++ leBytes 2 0 ++ leBytes 3 v.ordinal ++ leBytes 5 0
    ++ leBytes 64 v.descriptor ++ leBytes 8 v.sigPrimary ++ leBytes 8 v.sigChecker ++ leBytes 8 v.sigRef
    ++ leBytes 20 v.culprits ++ leBytes 1 regions ++ leBytes 115 0

/-- The 16 bytes that describe each region, its data standing `off` bytes after the header. -/
def regionTable : Nat → List EvidRegion → List Byte
  | _, [] => []
  | off, r :: l =>
    leBytes 6 r.addr ++ leBytes 1 (128 * b2n r.space + r.out) ++ leBytes 1 0 ++ leBytes 4 r.data.length ++ leBytes 4 off
      ++ regionTable (off + r.data.length) l

/-- The entry of a tile whose regions fit none: their number, the `regions` bytes that describe them and the `data` bytes are free (log
entry 98). -/
def State.evidParts (s : State) (v : Evid) (regions data : Nat) : List Byte × State :=
  let n := s.fresh 32
  let table := n.2.freshBytes regions
  let rest := table.2.freshBytes data
  (v.header (n.1 + 1) ++ table.1 ++ leBytes 3328 0 ++ rest.1, rest.2)

/-- An entry as it is copied: its header of 4 KiB and its data (R470, R471). -/
def State.evidBytes (s : State) (v : Evid) : List Byte × State :=
  match v.regions with
  | some l =>
    let table := regionTable 0 l
    (v.header l.length ++ table ++ List.replicate (3840 - table.length) 0 ++ l.flatMap (·.data), s)
  | none => s.evidParts v 512 (8 * 2 ^ 20)

/-- The host's base for evidence. -/
def State.evidBase (s : State) : Nat := (s.rd Reg.errEvidLo).toNat / 4096 * 4096 + (s.rd Reg.errEvidHi).toNat * 2 ^ 32

/-- No replay of an entry is still to come. -/
def State.replayOver (s : State) (v : Evid) : Bool := v.use_ == .replayed || (v.use_ == .captured && !s.flag Fld.reserveEn)

/-- Bytes of a host slot for an entry, and of a screening vector (R473, R474). -/
def evidSlot : Nat := 8392704

/-- EVIDENCE_READY: the entry goes to its host slot. A write that host memory refuses leaves nothing there. -/
def evidenceReady (at_ entry : Nat) (s : State) : State :=
  let s := s.advanceTo at_
  let v := s.evid entry
  if s.flag Fld.evidEnable ∧ s.err.flintDown = false ∧ entry < 8 ∧ s.replayOver v then
    let slot := s.err.copied % (s.fld Fld.evidSlotsM1 + 1)
    let a := s.evidBase + evidSlot * slot
    let b := s.evidBytes v
    let s := b.2
    let s := if s.hostAborts a b.1.length then s else s.putHost a b.1
    let s := s.setEvid entry { v with use_ := .copied }
    let s := { s with err := { s.err with copied := s.err.copied + 1 } }
    s.report { code := 0x0267, index := entry, evid := some entry, detail := slot }
  else s

def execEvidenceReady (at_ entry : Nat) (s : State) : Host.Outcome State Fault Refusal := .next (evidenceReady at_ entry s)

/-! ## Screening and the ERR registers (R474, R475, R583) -/

/-- A write of ERR_SCREEN_CTRL. With go, the vectors of the array wait to be run; `deltas` are, by vector and by core, how much a fault of
the hardware makes a core's signature differ from that of a fault-free one (R474, R475). -/
def State.screenWrite (s : State) (v : Nat) (deltas : List (List Nat)) : State :=
  let n := bits v 0 9
  if n = 0 ∨ 256 < n then s.setFld Fld.errCfgReject 1
  else
    let s := s.setFld Fld.screenCount n
    if bit v 31 ∧ s.anyCtx = false then
      let base := (s.rd Reg.errScreenLo).toNat + (s.rd Reg.errScreenHi).toNat * 2 ^ 32
      let new := (List.range n).map fun i => (base + evidSlot * i, deltas.getD i [])
      ({ s with err := { s.err with screen := s.err.screen ++ new } } : State).setFld Fld.screenBusy 1
    else s

/-- SCREEN_START. -/
def screenStart (at_ : Nat) (party : Party) (value : Word) (deltas : List (List Nat)) (s : State) : State :=
  let s := s.advanceTo at_
  if s.admits party Reg.errScreenCtrl then s.screenWrite value.toNat deltas else s

def execScreenStart (at_ : Nat) (party : Party) (value : BitVec 32) (deltas : List (List Nat)) (s : State) :
    Host.Outcome State Fault Refusal :=
  .next (screenStart at_ party value deltas s)

/-- A region of a screening vector in host memory, by its 16 bytes in the header. -/
def State.vectorRegion (s : State) (a e : Nat) : EvidRegion :=
  { space := bits e 55 1 == 1, addr := bits e 0 48, out := bits e 48 4
    data := s.hostBytes (a + 4096 + fieldAt e 12 0 32) (fieldAt e 8 0 32) }

/-- A screening vector in host memory (R471, R473). -/
def State.vector (s : State) (a : Nat) : Evid :=
  let h := leNat (s.hostBytes a 256)
  { use_ := .copied, primary := fieldAt h 2 0 16, checker := fieldAt h 4 0 16, ctx := fieldAt h 6 0 3
    sigRef := fieldAt h 112 0 64, seed := BitVec.ofNat 64 (fieldAt h 8 0 64), stratum := BitVec.ofNat 48 (fieldAt h 16 0 48)
    ordinal := fieldAt h 24 0 24, descriptor := fieldAt h 32 0 512
    regions := some ((List.range (fieldAt h 140 0 6)).map fun i => s.vectorRegion a (leNat (s.hostBytes (a + 256 + 16 * i) 16))) }

/-- The next screening vector runs on every core that is enabled and unfenced, and a core whose signature is not its sig_ref is fenced. A
vector that host memory refuses to give is passed over; where the vector does not determine the signature, a core differs by `deltas`
alone (R474, log entries 102 and 103). -/
def State.screenNext (s : State) : State :=
  match s.err.screen.filter fun _ => s.pins.phase == .running with
  | [] => s
  | (a, deltas) :: rest =>
    let s := ({ s with err := { s.err with screen := rest } } : State).setFld Fld.screenBusy (b2n (!rest.isEmpty))
    if s.hostAborts a evidSlot then s
    else
      let v := s.vector a
      let x := (s.replaySig v).getD v.sigRef
      (s.liveCores.filter fun c => (x + deltas.getD c 0) % 2 ^ 64 != v.sigRef).foldl (fun t c =>
        t.raise { code := 0x0265, domain := domCore, index := c, core := some c }) s

/-- A write of ERR_CTRL (R475). -/
def State.errCtrlWrite (s : State) (v : Word) : State :=
  let v := keepBits (bitMask 31 31 + bitMask 9 8 + bitMask 3 0) v
  let level := bits v.toNat 8 2
  let log2 := bits v.toNat 0 4
  let en := bit v.toNat 31
  if level = 3 ∨ log2 < 2 ∨ 8 < log2 ∨ (en = false ∧ level ≠ 0) ∨ (en ≠ s.flag Fld.reserveEn ∧ s.anyCtx = true) then
    s.setFld Fld.errCfgReject 1
  else s.wr Reg.errCtrl v

/-- ERR_CTRL_WRITE. -/
def errCtrlWriteCmd (at_ : Nat) (party : Party) (value : Word) (s : State) : State :=
  let s := s.advanceTo at_
  if s.admits party Reg.errCtrl then s.errCtrlWrite value else s

def execErrCtrlWrite (at_ : Nat) (party : Party) (value : BitVec 32) (s : State) : Host.Outcome State Fault Refusal :=
  .next (errCtrlWriteCmd at_ party value s)

end Sys2Proof.Machine
end

