-- ==== Sys2Proof/Machine/Registers.lean ====
section
/-! DEFINITION. REG_WRITE: a write of any register of BAR0 by the host or by Flint (R7, R8, R572 to R577, R583). -/

namespace Sys2Proof.Machine

/-! ## Blocks that only Flint programs (R575, R576) -/

/-- A host write in such a block: W1C bits clear; a register with RW or WO bits is left alone, and GLB_STAT.host_wr_reject is set. -/
def State.hostOnly (s : State) (off : Nat) (v : Word) : State :=
  match Reg.info off with
  | some r =>
    let s := s.wr off (s.rd off &&& ~~~(v &&& BitVec.ofNat 32 r.w1c))
    if r.rw + r.wo = 0 then s else s.setFld Fld.hostWrReject 1
  | none => s

/-- A host write of an index register reaches the host's copy alone (R576). -/
def State.hostIndex (s : State) (off : Nat) (v : Word) : State :=
  let mask := match Reg.info off with | some r => r.rw | none => 0
  { s with host := { s.host with hostIdx := SMap.put (fun _ => 0) s.host.hostIdx off (keepBits mask v) } }

/-- The index registers. -/
def indexRegs : List Nat := [Reg.colGroupIdx, Reg.veiRouteIdx, Reg.veiPoolIdx]

/-- A write in the STR block; the copies of quarries that the mode lacks ignore it (R29, R38, R48). -/
def State.strReg (s : State) (p : Party) (off : Nat) (v : Word) : State :=
  let q := (off - Reg.str) / 0x100
  let o := (off - Reg.str) % 0x100
  if s.hasTickRegs q = false then s
  else match p with
    | .host => s.hostOnly off v
    | .flint =>
      if off = Reg.strCtrl ∨ off = Reg.strPeriod ∨ off = Reg.strDomain then s.strWrite off v
      else if o = 0x10 then strCountWrite .flint q false v s
      else if o = 0x14 then strCountWrite .flint q true v s
      else s.plainWrite off v

/-- A Flint write in the MEM block (R214, R224, R241). -/
def State.memReg (s : State) (off : Nat) (v : Word) : State :=
  if off = Reg.memLayout then s.layoutWrite v
  else if off = Reg.memScrub then
    if scrubOk v.toNat then s.plainWrite off v else s.setFld Fld.memCfgReject 1
  else if off = Reg.memTlbInvLo then s.wr off v
  else if off = Reg.memTlbInvHi then s.invalidateWrite v.toNat
  else s.plainWrite off v

/-- A Flint write in the VEI block (R360). -/
def State.veiReg (s : State) (off : Nat) (v : Word) : State :=
  let i := poolIndex (s.rd Reg.veiPoolIdx).toNat
  if off = Reg.veiRouteData then s.routeWrite (bits (s.rd Reg.veiRouteIdx).toNat 0 12) v
  else if off = Reg.veiPoolData then s.poolWrite i.1 i.2 (bits v.toNat 0 13)
  else if Reg.portCfg 0 ≤ off ∧ off < Reg.portCfg 16 ∧ (off - Reg.portCfg 0) % 0x20 = 0 then
    s.portConfig ((off - Reg.portCfg 0) / 0x20) v
  else s.plainWrite off v

/-- A write of one of the blocks STR, MEM, VEI and COL. -/
def State.flintBlock (s : State) (p : Party) (off : Nat) (v : Word) : State :=
  if off < Reg.ctx then s.strReg p off v
  else match p with
    | .host => if indexRegs.contains off then s.hostIndex off v else s.hostOnly off v
    | .flint =>
      if off < Reg.vei then s.memReg off v
      else if off < Reg.col then s.veiReg off v
      else s.plainWrite off v

/-! ## ERR, PWR and SEC (R475, R530, R548) -/

/-- A write in the ERR block; of ERR_SCREEN_CTRL, SCREEN_START tells what differs in a faulty core. -/
def State.errReg (s : State) (off : Nat) (v : Word) : State :=
  if off = Reg.errCtrl then s.errCtrlWrite v
  else if off = Reg.errScreenCtrl then s.screenWrite v.toNat []
  else s.plainWrite off v

/-- The fields of a PWR register lie in their ranges (R548). -/
def pwrRangeOk (off v : Nat) : Bool :=
  if off = Reg.pwrCap then decide (600 ≤ bits v 16 11) && decide (bits v 16 11 ≤ 1800) && decide (10 ≤ bits v 0 10) && decide (bits v 0 10 ≤ 1000)
  else if off = Reg.pwrDroopCfg then decide (1 ≤ bits v 8 8) && decide (3 ≤ bits v 0 4) && decide (bits v 0 4 ≤ 10)
  else if off = Reg.pwrWear then decide (bits v 8 8 ≤ 100)
  else if off = Reg.pwrWearCtrl then decide (1 ≤ bits v 0 8) && decide (bits v 0 8 ≤ 168)
  else true

/-- A write in the PWR block. -/
def State.pwrReg (s : State) (off : Nat) (v : Word) : State :=
  if pwrRangeOk off v.toNat then
    let s := s.plainWrite off v
    if off = Reg.pwrWearCtrl ∧ bit v.toNat 31 then s.askPlan else s
  else s

/-- A write of SEC_UPD_CTRL: go, confirm and burn_svn, in this order where several are set. -/
def State.updCtrl (s : State) (v : Nat) : State :=
  if s.servesUpdate then
    let s := if bit v 31 then s.updateGo else s
    let s := if bit v 30 then s.confirm else s
    if bit v 29 then s.burn else s
  else s

/-- The RWL fields of SEC, which boot code writes (R518 to R521). -/
def State.secBoot (s : State) (off : Nat) (v : Word) : State :=
  if s.bootCode = false then s
  else if off = Reg.secProt then s.wr off ((v &&& BitVec.ofNat 32 (bitMask 15 8 + bitMask 2 0)) ||| 1)
  else if off = Reg.secDebug then s.debugWrite v.toNat
  else if off = Reg.secOwnerCtrl then s.enrollWrite v.toNat
  else if off = Reg.secLock then (if bit v.toNat 0 then bootLock s.now s else s)
  else s

/-- A write in the SEC block. -/
def State.secReg (s : State) (p : Party) (off : Nat) (v : Word) : State :=
  if off = Reg.secUpdCtrl then s.updCtrl v.toNat
  else if off = Reg.secAttCtrl then (if bit v.toNat 31 then s.attestGo else s)
  else if off < Reg.secOwnerKey 0 then (match p with | .flint => s.secBoot off v | .host => s)
  else s.plainWrite off v

/-! ## Reads (R8, R38, R48, R572, R576, R580) -/

/-- What a read of a tick register returns: 0 of a quarry that the mode lacks, the live low half of the counter, and the party's
own latch. -/
def State.strRead (s : State) (p : Party) (off : Nat) : Word :=
  let q := (off - Reg.str) / 0x100
  let o := (off - Reg.str) % 0x100
  let b := s.quarry q
  if s.hasTickRegs q = false then 0
  else if o = 0x10 then b.count.setWidth 32
  else if o = 0x14 then (match p with | .host => b.latchHost | .flint => b.latchFlint).setWidth 32
  else s.rd off

/-- A party's own copy of an index register. -/
def State.indexOf (s : State) (p : Party) (off : Nat) : Word :=
  match p with
  | .host => SMap.get (fun _ => 0) s.host.hostIdx off
  | .flint => s.rd off

/-- What a read of a block that Flint programs returns: an index register gives the party's copy, and a data register the entry
that this names. -/
def State.indexedRead (s : State) (p : Party) (off : Nat) : Word :=
  let group := SMap.get (fun _ => 0) s.coll.groups (bits (s.indexOf p Reg.colGroupIdx).toNat 0 6)
  let pool := poolIndex (s.indexOf p Reg.veiPoolIdx).toNat
  if indexRegs.contains off then s.indexOf p off
  else if off = Reg.veiRouteData then SMap.get (fun _ => 0) s.vein.routes (bits (s.indexOf p Reg.veiRouteIdx).toNat 0 12)
  else if off = Reg.veiPoolData then BitVec.ofNat 32 (s.poolSize pool.1 pool.2)
  else if off = Reg.colGroupLo then BitVec.ofNat 32 group
  else if off = Reg.colGroupHi then BitVec.ofNat 32 (group / 2 ^ 32)
  else s.rd off

/-- What a 32-bit read of a register by a party returns. No command reads: the table has none (log entry 178). -/
def State.regRead (s : State) (p : Party) (off : Nat) : Word :=
  match Reg.info off with
  | none => 0
  | some r =>
    if s.admits p off = false then 0
    else if Reg.str ≤ off ∧ off < Reg.ctx then s.strRead p off
    else s.indexedRead p off &&& ~~~BitVec.ofNat 32 r.wo

/-! ## Any register -/

/-- A 32-bit write of the register at an offset. -/
def State.regWrite (s : State) (p : Party) (off : Nat) (v : Word) : State :=
  if s.admits p off = false ∨ (Reg.info off).isNone then s
  else if off < Reg.hif then s.plainWrite off v
  else if off < Reg.str then s.hifWrite p off v
  else if Reg.ctx ≤ off ∧ off < Reg.mem then (if off = Reg.ctxStat then s.plainWrite off v else s)
  else if off < Reg.err then s.flintBlock p off v
  else if off < Reg.fos then s.errReg off v
  else if off < Reg.pwr then s.fosWrite off v
  else if off < Reg.sec then s.pwrReg off v
  else if off < Reg.slb 0 then s.secReg p off v
  else s

/-- REG_WRITE of 1, 2, 4 or 8 bytes: those of 8 and 16 bits are ignored, one of 64 bits is two of 32, the lower address first
(R573). -/
def regWriteCmd (at_ : Nat) (party : Party) (off bytes value : Nat) (s : State) : State :=
  let s := s.advanceTo at_
  if off % 4 ≠ 0 then s
  else if bytes = 4 then s.regWrite party off (BitVec.ofNat 32 value)
  else if bytes = 8 then
    (s.regWrite party off (BitVec.ofNat 32 value)).regWrite party (off + 4) (BitVec.ofNat 32 (value / 2 ^ 32))
  else s

def execRegWrite (at_ : Nat) (party : Party) (off bytes value : Nat) (s : State) : Host.Outcome State Fault Refusal :=
  .next (regWriteCmd at_ party off bytes value s)

/-! ## The passing of time -/

/-- What the module does of itself while no command waits: 10 ns pass, the ports send what their slots hold, the fossil engine ends the
page that it has read and asks for and lands what had to wait, the transfers go on, and the next screening vector runs
(log entry 1). -/
def State.idle (s : State) : State :=
  (s.advanceTo (s.now + 1)).pumpAll.endStreaming.askFill.landWaiting.collSweep.screenNext

end Sys2Proof.Machine
end

