-- ==== Sys2Proof/Machine/Sideband.lean ====
section
/-! DEFINITION. The sideband: the JTAG port and the management endpoint (R521, R564 to R568). -/

namespace Sys2Proof.Machine

/-! ## The JTAG port (R521, R568) -/

/-- The port runs per IEEE 1149.1 while the module is powered (R569). -/
def State.jtagOn (s : State) : Bool := s.pins.phase != .unpowered && s.pins.phase != .powerUp

/-- The state with an instruction in force, and what it captures. -/
def State.jtagRun (s : State) (i : Jtag) (out : List Nat) : State :=
  if s.jtagOn then { s with pins := { s.pins with jtag := i, scanOut := out } } else s

/-- BYPASS: the single-bit register captures 0. -/
def execBypass (at_ : Nat) (s : State) : Host.Outcome State Fault Refusal := .next ((s.advanceTo at_).jtagRun .bypass [0])

/-- IDCODE (R568). -/
def execIdcode (at_ : Nat) (s : State) : Host.Outcome State Fault Refusal := .next ((s.advanceTo at_).jtagRun .idcode [0xA2560F4B])

/-- The covered pins that the state holds, in the order of connector S: PERST#, PWR_EN, PWR_GOOD, ALERT#, THROTTLE_IN#,
STRATUM_OUT±, straps. Active-low pins are given as levels. -/
def State.coveredPins (s : State) : List Nat :=
  [b2n !s.pins.perst, b2n s.pins.pwrEn, b2n s.pins.pwrGood, b2n !s.alert, b2n !s.flag Fld.throttleIn, b2n s.pins.stratumOut, s.pins.straps.toNat]

/-- SAMPLE/PRELOAD: the covered pins are captured, and output values for EXTEST are loaded. -/
def samplePreload (at_ : Nat) (outputs : List Bool) (s : State) : State :=
  let s := s.advanceTo at_
  let s := s.jtagRun .samplePreload s.coveredPins
  if s.jtagOn then { s with pins := { s.pins with boundary := outputs } } else s

def execSamplePreload (at_ : Nat) (outputs : List Bool) (s : State) : Host.Outcome State Fault Refusal :=
  .next (samplePreload at_ outputs s)

/-- EXTEST: after BOOT_LOCK only while no context exists; otherwise it runs as BYPASS (R521, R568). -/
def extest (at_ : Nat) (s : State) : State :=
  let s := s.advanceTo at_
  if s.flag Fld.bootLock ∧ s.anyCtx then s.jtagRun .bypass [0] else s.jtagRun .extest s.coveredPins

def execExtest (at_ : Nat) (s : State) : Host.Outcome State Fault Refusal := .next (extest at_ s)

/-- A Kuermou private instruction: only before BOOT_LOCK with debug open; else it is not offered and runs as BYPASS. What it
halts, reads or scans has no rule (R521). -/
def kuermouPrivateDebug (at_ : Nat) (s : State) : State :=
  let s := s.advanceTo at_
  if s.flag Fld.bootLock = false ∧ s.flag Fld.debugOpen then s.jtagRun .private_ [] else s.jtagRun .bypass [0]

def execKuermouPrivateDebug (at_ : Nat) (s : State) : Host.Outcome State Fault Refusal := .next (kuermouPrivateDebug at_ s)

/-- The output pins of connector S: EXTEST drives them from the boundary register, in its order (R568, R569). -/
def State.drivenOutputs (s : State) : List Bool :=
  if s.deaf then s.pins.boundary else [s.pins.pwrGood, !s.alert, s.pins.stratumOut, true, true]

/-! ## The management endpoint (R564 to R566) -/

/-- The endpoint answers: Flint's service runs; in the fatal phase only some commands do (R565, R569). -/
def State.answers (s : State) (fatalToo : Bool) : Bool :=
  s.deaf == false && ((s.pins.phase == .running && !s.err.flintDown) || (fatalToo && s.pins.phase == .fatal))

/-- A reply leaves the endpoint, or none. -/
def State.smbReply (s : State) (fatalToo : Bool) (completion : Nat) (values : List Nat) : State :=
  { s with pins := { s.pins with reply := if s.answers fatalToo then some ⟨completion, values⟩ else none } }

/-- A reply with one value that the spec does not give, below `n` (log entry 3). -/
def State.freeReply (s : State) (fatalToo : Bool) (n : Nat) : State :=
  let r := s.fresh n
  r.2.smbReply fatalToo 0 [r.1]

/-- Completion codes of PLDM and MCTP that the replies use. -/
def ccUnsupported : Nat := 5
def ccInvalidData : Nat := 2
def ccInvalidType : Nat := 0x83
def ccInvalidSensor : Nat := 0x80
def ccInvalidRecord : Nat := 0x82

/-- SET_ENDPOINT_ID. -/
def setEndpointId (at_ eid : Nat) (s : State) : State :=
  let s := s.advanceTo at_
  if s.answers false ∧ 8 ≤ eid ∧ eid < 255 then
    let s := { s with pins := { s.pins with eid := eid } }
    s.smbReply false 0 [eid]
  else s.smbReply false ccInvalidData []

def execSetEndpointId (at_ eid : Nat) (s : State) : Host.Outcome State Fault Refusal := .next (setEndpointId at_ eid s)

/-- GET_ENDPOINT_ID. -/
def execGetEndpointId (at_ : Nat) (s : State) : Host.Outcome State Fault Refusal :=
  .next (let s := s.advanceTo at_; s.smbReply false 0 [s.pins.eid])

/-- GET_MCTP_VERSION_SUPPORT: the version numbers are not in the spec. -/
def execGetMctpVersionSupport (at_ : Nat) (s : State) : Host.Outcome State Fault Refusal :=
  .next ((s.advanceTo at_).freeReply false (2 ^ 32))

/-- GET_MESSAGE_TYPE_SUPPORT: MCTP control, type 0, and PLDM, type 1 (R564). -/
def execGetMessageTypeSupport (at_ : Nat) (s : State) : Host.Outcome State Fault Refusal :=
  .next ((s.advanceTo at_).smbReply false 0 [0, 1])

/-- GETTID: the terminus ID is not in the spec. -/
def execGettid (at_ : Nat) (s : State) : Host.Outcome State Fault Refusal := .next ((s.advanceTo at_).freeReply true 256)

/-- A PLDM type that the endpoint has (R566). -/
def pldmType (ty : Nat) : Bool := ty == 0 || ty == 2

/-- GETPLDMVERSION: the versions are not in the spec. -/
def execGetpldmversion (at_ type : Nat) (s : State) : Host.Outcome State Fault Refusal :=
  .next (let s := s.advanceTo at_
         if pldmType type then s.freeReply false (2 ^ 32) else s.smbReply false ccInvalidType [])

/-- GETPLDMTYPES. -/
def execGetpldmtypes (at_ : Nat) (s : State) : Host.Outcome State Fault Refusal := .next ((s.advanceTo at_).smbReply false 0 [0, 2])

/-- The command numbers of each PLDM type: GetTID, GetPLDMVersion, GetPLDMTypes and GetPLDMCommands; GetPDRRepositoryInfo, GetPDR,
GetSensorReading and GetStateSensorReadings (R566). -/
def pldmCommands (ty : Nat) : List Nat := if ty = 0 then [2, 3, 4, 5] else [0x50, 0x51, 0x11, 0x21]

/-- GETPLDMCOMMANDS. -/
def execGetpldmcommands (at_ type : Nat) (s : State) : Host.Outcome State Fault Refusal :=
  .next (let s := s.advanceTo at_
         if pldmType type then s.smbReply false 0 (pldmCommands type) else s.smbReply false ccInvalidType [])

/-- Phase numbers of the module phase sensor. -/
def phaseNumber : Phase → Nat
  | .unpowered => 0
  | .powerUp => 1
  | .reset => 2
  | .boot => 3
  | .running => 4
  | .fatal => 5

/-- The seven numeric and the four state sensors of R566, in its order. -/
def State.sensors (s : State) : List Nat :=
  [s.fld Fld.inputMv, s.fld Fld.inputCa, s.fld Fld.avg1ms, s.fld Fld.hubC, s.fld Fld.stackC, s.fld Fld.slabC, s.fld Fld.wearIndex,
   phaseNumber s.pins.phase, b2n (s.flag Fld.degraded), b2n (s.flag Fld.partial_), b2n (s.flag Fld.throttleIn)]

/-- GETPDRREPOSITORYINFO: one record for each of the eleven sensors. -/
def execGetpdrrepositoryinfo (at_ : Nat) (s : State) : Host.Outcome State Fault Refusal := .next ((s.advanceTo at_).smbReply true 0 [11])

/-- GETPDR: the record of a sensor; its contents beyond the sensor it describes are not in the spec. -/
def getpdr (at_ record : Nat) (s : State) : State :=
  let s := s.advanceTo at_
  if record < 11 then
    let r := s.fresh (2 ^ 64)
    r.2.smbReply true 0 [record, r.1]
  else s.smbReply true ccInvalidRecord []

def execGetpdr (at_ record : Nat) (s : State) : Host.Outcome State Fault Refusal := .next (getpdr at_ record s)

/-- A sensor's reading as last refreshed. -/
def State.readSensor (s : State) (lo hi sensor : Nat) : State :=
  if lo ≤ sensor ∧ sensor < hi then s.smbReply true 0 [s.pwr.readings.getD sensor 0] else s.smbReply true ccInvalidSensor []

/-- GETSENSORREADING and GETSTATESENSORREADINGS. -/
def execGetsensorreading (at_ sensor : Nat) (s : State) : Host.Outcome State Fault Refusal :=
  .next ((s.advanceTo at_).readSensor 0 7 sensor)
def execGetstatesensorreadings (at_ sensor : Nat) (s : State) : Host.Outcome State Fault Refusal :=
  .next ((s.advanceTo at_).readSensor 7 11 sensor)

/-- UNSUPPORTED_PLDM_CMD (R566). -/
def execUnsupportedPldmCmd (at_ : Nat) (s : State) : Host.Outcome State Fault Refusal :=
  .next ((s.advanceTo at_).smbReply false ccUnsupported [])

/-- SENSOR_REFRESH: every 100 ms Flint takes every reading anew (R566). -/
def sensorRefresh (at_ : Nat) (s : State) : State :=
  let s := s.advanceTo at_
  if (s.pins.phase = .running ∨ s.pins.phase = .fatal) ∧ s.err.flintDown = false
      ∧ s.pwr.readAt.all (fun t => decide (t + ms 100 ≤ s.now)) then
    { s with pwr := { s.pwr with readings := s.sensors, readAt := some s.now } }
  else s

def execSensorRefresh (at_ : Nat) (s : State) : Host.Outcome State Fault Refusal := .next (sensorRefresh at_ s)

end Sys2Proof.Machine
end

