-- ==== Sys2Proof/Machine/Dispatch.lean ====
section
/-! DEFINITION. One arm per command: a direct call of its meaning. -/

namespace Sys2Proof.Machine

def exec (i : Instr) (s : State) : Host.Outcome State Fault Refusal :=
  match i with
  | .stratumInEdge at_ => Sys2Proof.Machine.execStratumInEdge at_ s
  | .tickSymbolReceived at_ port tag count abort => Sys2Proof.Machine.execTickSymbolReceived at_ port tag count abort s
  | .masterTickIssue at_ quarry => Sys2Proof.Machine.execMasterTickIssue at_ quarry s
  | .holdoverTick at_ => Sys2Proof.Machine.execHoldoverTick at_ s
  | .stretchSymbolSend at_ => Sys2Proof.Machine.execStretchSymbolSend at_ s
  | .stretchSymbolReceived at_ port tag count => Sys2Proof.Machine.execStretchSymbolReceived at_ port tag count s
  | .doneSymbolReceived at_ port domain count => Sys2Proof.Machine.execDoneSymbolReceived at_ port domain count s
  | .moduleDone at_ quarry => Sys2Proof.Machine.execModuleDone at_ quarry s
  | .stratumOverrun at_ quarry => Sys2Proof.Machine.execStratumOverrun at_ quarry s
  | .domainOverrun at_ => Sys2Proof.Machine.execDomainOverrun at_ s
  | .tickLost at_ => Sys2Proof.Machine.execTickLost at_ s
  | .tickStuck at_ since => Sys2Proof.Machine.execTickStuck at_ since s
  | .strConfigWrite at_ party off value => Sys2Proof.Machine.execStrConfigWrite at_ party off value s
  | .strCountLoRead party quarry => Sys2Proof.Machine.execStrCountLoRead party quarry s
  | .strCountWrite party quarry hi value => Sys2Proof.Machine.execStrCountWrite party quarry hi value s
  | .descriptorIssue at_ core stream => Sys2Proof.Machine.execDescriptorIssue at_ core stream s
  | .tilePick at_ core engine => Sys2Proof.Machine.execTilePick at_ core engine s
  | .queueAdmission at_ core stream => Sys2Proof.Machine.execQueueAdmission at_ core stream s
  | .semaphoreWake at_ key => Sys2Proof.Machine.execSemaphoreWake at_ key s
  | .wait at_ core stream => Sys2Proof.Machine.execWait at_ core stream s
  | .signal at_ core stream => Sys2Proof.Machine.execSignal at_ core stream s
  | .loop at_ core stream => Sys2Proof.Machine.execLoop at_ core stream s
  | .branch at_ core stream => Sys2Proof.Machine.execBranch at_ core stream s
  | .yield at_ core stream => Sys2Proof.Machine.execYield at_ core stream s
  | .end_ at_ core stream => Sys2Proof.Machine.execEnd at_ core stream s
  | .tileFinish at_ core stream => Sys2Proof.Machine.execTileFinish at_ core stream s
  | .tileGuard at_ core stream => Sys2Proof.Machine.execTileGuard at_ core stream s
  | .coreHang at_ core => Sys2Proof.Machine.execCoreHang at_ core s
  | .matmul core stream fault => Sys2Proof.Machine.execMatmul core stream fault s
  | .epilogue core stream => Sys2Proof.Machine.execEpilogue core stream s
  | .slotCombine core stream => Sys2Proof.Machine.execSlotCombine core stream s
  | .reduce core stream => Sys2Proof.Machine.execReduce core stream s
  | .reducePull core stream sender => Sys2Proof.Machine.execReducePull core stream sender s
  | .elementwise core stream => Sys2Proof.Machine.execElementwise core stream s
  | .spill core stream => Sys2Proof.Machine.execSpill core stream s
  | .fill core stream => Sys2Proof.Machine.execFill core stream s
  | .kernel core stream => Sys2Proof.Machine.execKernel core stream s
  | .softmaxFwd core stream => Sys2Proof.Machine.execSoftmaxFwd core stream s
  | .softmaxBwd core stream => Sys2Proof.Machine.execSoftmaxBwd core stream s
  | .lnormFwd core stream => Sys2Proof.Machine.execLnormFwd core stream s
  | .lnormBwd core stream => Sys2Proof.Machine.execLnormBwd core stream s
  | .rmsnormFwd core stream => Sys2Proof.Machine.execRmsnormFwd core stream s
  | .rmsnormBwd core stream => Sys2Proof.Machine.execRmsnormBwd core stream s
  | .statsSpill core stream => Sys2Proof.Machine.execStatsSpill core stream s
  | .statsFill core stream => Sys2Proof.Machine.execStatsFill core stream s
  | .copy core id => Sys2Proof.Machine.execCopy core id s
  | .transpose core id => Sys2Proof.Machine.execTranspose core id s
  | .dmaFill core id => Sys2Proof.Machine.execDmaFill core id s
  | .dmaLanded at_ core id => Sys2Proof.Machine.execDmaLanded at_ core id s
  | .patrolScrub at_ pa last => Sys2Proof.Machine.execPatrolScrub at_ pa last s
  | .frameCountRestart at_ => Sys2Proof.Machine.execFrameCountRestart at_ s
  | .channelBurst at_ channel => Sys2Proof.Machine.execChannelBurst at_ channel s
  | .tlbInvalidate party value => Sys2Proof.Machine.execTlbInvalidate party value s
  | .invalidateDone at_ => Sys2Proof.Machine.execInvalidateDone at_ s
  | .memLayoutWrite party value => Sys2Proof.Machine.execMemLayoutWrite party value s
  | .kvAppend core stream => Sys2Proof.Machine.execKvAppend core stream s
  | .kvDemote core stream stages => Sys2Proof.Machine.execKvDemote core stream stages s
  | .kvFrameMap at_ ctx => Sys2Proof.Machine.execKvFrameMap at_ ctx s
  | .kvFull at_ slot => Sys2Proof.Machine.execKvFull at_ slot s
  | .kvSubslotRelease at_ => Sys2Proof.Machine.execKvSubslotRelease at_ s
  | .kvVersionReplay at_ core stream => Sys2Proof.Machine.execKvVersionReplay at_ core stream s
  | .attnFwd core stream part => Sys2Proof.Machine.execAttnFwd core stream part s
  | .attnBwd core stream part => Sys2Proof.Machine.execAttnBwd core stream part s
  | .attnDecode core stream part => Sys2Proof.Machine.execAttnDecode core stream part s
  | .bucketSort core stream => Sys2Proof.Machine.execBucketSort core stream s
  | .seqDone core stream => Sys2Proof.Machine.execSeqDone core stream s
  | .wsUpdate core id => Sys2Proof.Machine.execWsUpdate core id s
  | .wsUpdateWriteback at_ core id => Sys2Proof.Machine.execWsUpdateWriteback at_ core id s
  | .shardDrainComplete at_ ctx shard => Sys2Proof.Machine.execShardDrainComplete at_ ctx shard s
  | .leaseHeld at_ ctx shard => Sys2Proof.Machine.execLeaseHeld at_ ctx shard s
  | .wsLease core id => Sys2Proof.Machine.execWsLease core id s
  | .leaseMessage at_ ctx gatherer shard mode version held => Sys2Proof.Machine.execLeaseMessage at_ ctx gatherer shard mode version held s
  | .leaseReply at_ core id entry result => Sys2Proof.Machine.execLeaseReply at_ core id entry result s
  | .wsSeal core id => Sys2Proof.Machine.execWsSeal core id s
  | .flitGroupReceived at_ port c0 c1 group => Sys2Proof.Machine.execFlitGroupReceived at_ port c0 c1 group s
  | .packetReceived at_ port pkt => Sys2Proof.Machine.execPacketReceived at_ port pkt s
  | .routeFailReceived at_ dst job => Sys2Proof.Machine.execRouteFailReceived at_ dst job s
  | .linkControlReceived at_ port control => Sys2Proof.Machine.execLinkControlReceived at_ port control s
  | .linkControlDue at_ port => Sys2Proof.Machine.execLinkControlDue at_ port s
  | .ackTimeout at_ port => Sys2Proof.Machine.execAckTimeout at_ port s
  | .linkFailed at_ port => Sys2Proof.Machine.execLinkFailed at_ port s
  | .laneDegrade at_ port sign => Sys2Proof.Machine.execLaneDegrade at_ port sign s
  | .linkDegraded at_ port => Sys2Proof.Machine.execLinkDegraded at_ port s
  | .linkDown at_ port => Sys2Proof.Machine.execLinkDown at_ port s
  | .linkUp at_ port peer lanes => Sys2Proof.Machine.execLinkUp at_ port peer lanes s
  | .trainingRetry at_ port => Sys2Proof.Machine.execTrainingRetry at_ port s
  | .portRetrain at_ port => Sys2Proof.Machine.execPortRetrain at_ port s
  | .veiPoolDataWrite party value => Sys2Proof.Machine.execVeiPoolDataWrite party value s
  | .veiRouteDataWrite party value => Sys2Proof.Machine.execVeiRouteDataWrite party value s
  | .coll core id => Sys2Proof.Machine.execColl core id s
  | .shift core id => Sys2Proof.Machine.execShift core id s
  | .expertDispatch core id => Sys2Proof.Machine.execExpertDispatch core id s
  | .expertCombine core id => Sys2Proof.Machine.execExpertCombine core id s
  | .endMarkerReceived at_ job src xfer amount => Sys2Proof.Machine.execEndMarkerReceived at_ job src xfer amount s
  | .collTimeout at_ id => Sys2Proof.Machine.execCollTimeout at_ id s
  | .donationExhausted at_ core stream => Sys2Proof.Machine.execDonationExhausted at_ core stream s
  | .allBlocked at_ quarry => Sys2Proof.Machine.execAllBlocked at_ quarry s
  | .swapExchange at_ quarry => Sys2Proof.Machine.execSwapExchange at_ quarry s
  | .swapAbandoned at_ quarry => Sys2Proof.Machine.execSwapAbandoned at_ quarry s
  | .swapDone at_ quarry => Sys2Proof.Machine.execSwapDone at_ quarry s
  | .doorbellSqTail at_ ring index => Sys2Proof.Machine.execDoorbellSqTail at_ ring index s
  | .doorbellCqHead at_ ring index => Sys2Proof.Machine.execDoorbellCqHead at_ ring index s
  | .commandFetch at_ => Sys2Proof.Machine.execCommandFetch at_ s
  | .ctxCreate at_ id => Sys2Proof.Machine.execCtxCreate at_ id s
  | .ctxDestroy at_ id => Sys2Proof.Machine.execCtxDestroy at_ id s
  | .jobLoad at_ id => Sys2Proof.Machine.execJobLoad at_ id s
  | .jobStart at_ id => Sys2Proof.Machine.execJobStart at_ id s
  | .dmaH2d at_ id => Sys2Proof.Machine.execDmaH2d at_ id s
  | .dmaD2h at_ id => Sys2Proof.Machine.execDmaD2h at_ id s
  | .fossilBegin at_ id => Sys2Proof.Machine.execFossilBegin at_ id s
  | .fossilCommit at_ id => Sys2Proof.Machine.execFossilCommit at_ id s
  | .fillFromBuddy at_ id => Sys2Proof.Machine.execFillFromBuddy at_ id s
  | .query at_ id => Sys2Proof.Machine.execQuery at_ id s
  | .fenceUnit at_ id => Sys2Proof.Machine.execFenceUnit at_ id s
  | .setPolicy at_ id => Sys2Proof.Machine.execSetPolicy at_ id s
  | .telemetryRead at_ id => Sys2Proof.Machine.execTelemetryRead at_ id s
  | .completionPost at_ cq => Sys2Proof.Machine.execCompletionPost at_ cq s
  | .msixModeration at_ cq => Sys2Proof.Machine.execMsixModeration at_ cq s
  | .sqDisable at_ ring => Sys2Proof.Machine.execSqDisable at_ ring s
  | .hifRegWrite at_ party off value => Sys2Proof.Machine.execHifRegWrite at_ party off value s
  | .functionLevelReset at_ => Sys2Proof.Machine.execFunctionLevelReset at_ s
  | .bar4Access at_ write x data n => Sys2Proof.Machine.execBar4Access at_ write x data n s
  | .recordClose at_ index => Sys2Proof.Machine.execRecordClose at_ index s
  | .watchdogAck at_ => Sys2Proof.Machine.execWatchdogAck at_ s
  | .watchdogRestart at_ exception => Sys2Proof.Machine.execWatchdogRestart at_ exception s
  | .flintRestartDone at_ => Sys2Proof.Machine.execFlintRestartDone at_ s
  | .assayCheckerStart at_ core stream => Sys2Proof.Machine.execAssayCheckerStart at_ core stream s
  | .signatureCompare at_ core stream delta => Sys2Proof.Machine.execSignatureCompare at_ core stream delta s
  | .patternReplay at_ entry sigs => Sys2Proof.Machine.execPatternReplay at_ entry sigs s
  | .evidenceReady at_ entry => Sys2Proof.Machine.execEvidenceReady at_ entry s
  | .screenStart at_ party value deltas => Sys2Proof.Machine.execScreenStart at_ party value deltas s
  | .errCtrlWrite at_ party value => Sys2Proof.Machine.execErrCtrlWrite at_ party value s
  | .firstTouchCopy at_ pa => Sys2Proof.Machine.execFirstTouchCopy at_ pa s
  | .fossilPageStream at_ page => Sys2Proof.Machine.execFossilPageStream at_ page s
  | .epochStreamed at_ => Sys2Proof.Machine.execEpochStreamed at_ s
  | .fossilStoreFailed at_ => Sys2Proof.Machine.execFossilStoreFailed at_ s
  | .buddyOpenMessage at_ sender epoch pages => Sys2Proof.Machine.execBuddyOpenMessage at_ sender epoch pages s
  | .buddyOpenReply at_ accept feed => Sys2Proof.Machine.execBuddyOpenReply at_ accept feed s
  | .buddyImagePage at_ src page data => Sys2Proof.Machine.execBuddyImagePage at_ src page data s
  | .commitMarkerReceived at_ sender epoch => Sys2Proof.Machine.execCommitMarkerReceived at_ sender epoch s
  | .fossilBuddyLost at_ => Sys2Proof.Machine.execFossilBuddyLost at_ s
  | .fillRequestReceived at_ requester epoch => Sys2Proof.Machine.execFillRequestReceived at_ requester epoch s
  | .fillPageReceived at_ refused page data => Sys2Proof.Machine.execFillPageReceived at_ refused page data s
  | .fillSourceLost at_ => Sys2Proof.Machine.execFillSourceLost at_ s
  | .fosRegWrite at_ party off value => Sys2Proof.Machine.execFosRegWrite at_ party off value s
  | .bootRomStart at_ => Sys2Proof.Machine.execBootRomStart at_ s
  | .bootLock at_ => Sys2Proof.Machine.execBootLock at_ s
  | .ownerEnroll at_ party value => Sys2Proof.Machine.execOwnerEnroll at_ party value s
  | .debugOpen at_ party value => Sys2Proof.Machine.execDebugOpen at_ party value s
  | .fwUpdate at_ => Sys2Proof.Machine.execFwUpdate at_ s
  | .fwUpdateDone at_ => Sys2Proof.Machine.execFwUpdateDone at_ s
  | .fwConfirm at_ => Sys2Proof.Machine.execFwConfirm at_ s
  | .burnSvn at_ => Sys2Proof.Machine.execBurnSvn at_ s
  | .attestationRequest at_ => Sys2Proof.Machine.execAttestationRequest at_ s
  | .attestationReportWritten at_ => Sys2Proof.Machine.execAttestationReportWritten at_ s
  | .bypass at_ => Sys2Proof.Machine.execBypass at_ s
  | .idcode at_ => Sys2Proof.Machine.execIdcode at_ s
  | .samplePreload at_ outputs => Sys2Proof.Machine.execSamplePreload at_ outputs s
  | .extest at_ => Sys2Proof.Machine.execExtest at_ s
  | .kuermouPrivateDebug at_ => Sys2Proof.Machine.execKuermouPrivateDebug at_ s
  | .pwrEnRise at_ => Sys2Proof.Machine.execPwrEnRise at_ s
  | .pwrGoodRise at_ feed node slot => Sys2Proof.Machine.execPwrGoodRise at_ feed node slot s
  | .pwrEnFall at_ => Sys2Proof.Machine.execPwrEnFall at_ s
  | .perstAssert at_ => Sys2Proof.Machine.execPerstAssert at_ s
  | .inputUndervoltage at_ => Sys2Proof.Machine.execInputUndervoltage at_ s
  | .inputOvervoltage at_ => Sys2Proof.Machine.execInputOvervoltage at_ s
  | .inputVoltage at_ mv => Sys2Proof.Machine.execInputVoltage at_ mv s
  | .powerSample at_ mv ca avg1ms avgWin => Sys2Proof.Machine.execPowerSample at_ mv ca avg1ms avgWin s
  | .capStep at_ => Sys2Proof.Machine.execCapStep at_ s
  | .thermalThrottle at_ unit temp => Sys2Proof.Machine.execThermalThrottle at_ unit temp s
  | .thermalTrip at_ unit temp => Sys2Proof.Machine.execThermalTrip at_ unit temp s
  | .throttleInAssert at_ => Sys2Proof.Machine.execThrottleInAssert at_ s
  | .throttleInRelease at_ => Sys2Proof.Machine.execThrottleInRelease at_ s
  | .throttleInPulse at_ => Sys2Proof.Machine.execThrottleInPulse at_ s
  | .throttleHeld at_ => Sys2Proof.Machine.execThrottleHeld at_ s
  | .droop at_ slab => Sys2Proof.Machine.execDroop at_ slab s
  | .droopRecovery at_ slab => Sys2Proof.Machine.execDroopRecovery at_ slab s
  | .canaryStretch at_ slab => Sys2Proof.Machine.execCanaryStretch at_ slab s
  | .refclkLost at_ mhz => Sys2Proof.Machine.execRefclkLost at_ mhz s
  | .wearPlan at_ steps mhz failed failedSlabs => Sys2Proof.Machine.execWearPlan at_ steps mhz failed failedSlabs s
  | .planNow at_ => Sys2Proof.Machine.execPlanNow at_ s
  | .wearPlanDue at_ => Sys2Proof.Machine.execWearPlanDue at_ s
  | .setEndpointId at_ eid => Sys2Proof.Machine.execSetEndpointId at_ eid s
  | .getEndpointId at_ => Sys2Proof.Machine.execGetEndpointId at_ s
  | .getMctpVersionSupport at_ => Sys2Proof.Machine.execGetMctpVersionSupport at_ s
  | .getMessageTypeSupport at_ => Sys2Proof.Machine.execGetMessageTypeSupport at_ s
  | .gettid at_ => Sys2Proof.Machine.execGettid at_ s
  | .getpldmversion at_ type => Sys2Proof.Machine.execGetpldmversion at_ type s
  | .getpldmtypes at_ => Sys2Proof.Machine.execGetpldmtypes at_ s
  | .getpldmcommands at_ type => Sys2Proof.Machine.execGetpldmcommands at_ type s
  | .getpdrrepositoryinfo at_ => Sys2Proof.Machine.execGetpdrrepositoryinfo at_ s
  | .getpdr at_ record => Sys2Proof.Machine.execGetpdr at_ record s
  | .getsensorreading at_ sensor => Sys2Proof.Machine.execGetsensorreading at_ sensor s
  | .getstatesensorreadings at_ sensor => Sys2Proof.Machine.execGetstatesensorreadings at_ sensor s
  | .unsupportedPldmCmd at_ => Sys2Proof.Machine.execUnsupportedPldmCmd at_ s
  | .sensorRefresh at_ => Sys2Proof.Machine.execSensorRefresh at_ s
  | .regWrite at_ party off bytes value => Sys2Proof.Machine.execRegWrite at_ party off bytes value s
  | .hostDmaDone at_ queue => Sys2Proof.Machine.execHostDmaDone at_ queue s
  | .configurationRequest request => Sys2Proof.Machine.execConfigurationRequest request s
  | .channelRetrainDone at_ channel => Sys2Proof.Machine.execChannelRetrainDone at_ channel s
  | .refclkRestored at_ => Sys2Proof.Machine.execRefclkRestored at_ s

end Sys2Proof.Machine
end

