-- ==== Sys2Proof/Machine/Step.lean ====
section
/-! DEFINITION. One step: the command at the front of the queue, or the passing of one unit of time. -/

namespace Sys2Proof.Machine

/-- The step on a queue of commands. On an empty queue the block idles: 10 ns pass, and what the module does of itself goes on
(log entry 1). -/
def stepOn (s : State) : List Instr → Host.Outcome State Fault Refusal
  | [] => .next s.idle
  | c :: r => exec c { s with pending := r }

/-- One step of the module. -/
def step (s : State) : Host.Outcome State Fault Refusal := stepOn s s.pending

/-- The state with the command that a word spells put at the front of the queue. -/
def State.withFetchWord (s : State) (nbits w : Nat) : State :=
  match Sys2Proof.decodeTableWord nbits w with
  | some c => { s with pending := c :: s.pending }
  | none => s

end Sys2Proof.Machine
end

