-- ==== Sys2Proof/Safety.lean ====
section
/-! DEFINITION. What counts as a run: steps that each answer a next state. -/

namespace Sys2Proof

/-- A step from `s` answers a next state `t`. -/
def Steps (s t : Machine.State) : Prop := Machine.step s = .next t

/-- `t` is reached from `s` by steps that each answer a next state. -/
inductive Reaches : Machine.State → Machine.State → Prop where
  | refl (s : Machine.State) : Reaches s s
  | tail {s t u : Machine.State} : Reaches s t → Steps t u → Reaches s u

/-- The identification registers, which hold what production put there: GLB_IDENT, GLB_CAP, GLB_CAP2 and GLB_SERIAL (R523, R572). -/
def Hardwired (off : Nat) : Prop :=
  off = Machine.Reg.glbIdent ∨ off = Machine.Reg.glbCap ∨ off = Machine.Reg.glbCap2
    ∨ off = Machine.Reg.glbSerialLo ∨ off = Machine.Reg.glbSerialHi

/-- What every step keeps: the register file and the memories are in canonical form, and the identification registers hold their
values. -/
structure Sound (s : Machine.State) : Prop where
  regs : Machine.SMap.wf Machine.Reg.resetWord s.regs = true
  mem : Machine.Memory.wf s.mem = true
  ident : ∀ off, Hardwired off → s.rd off = Machine.Reg.resetWord off

namespace Machine

/-- The work of tile `t` of a stream is done, with what it raises: what the tile wrote is kept for its checker, and the tile is
Worked. -/
def State.workDone (s : State) (core stream : Nat) (t : Tile) (y : Tally) : State :=
  let z := s.endLog ((s.tileOf core stream).getD t)
  z.1.setTile { z.2 with phase := .worked, tally := t.tally.add y }

/-- The last stage of a tile of the attention pipe is done: the tile, as it now stands, is Worked. -/
def State.pipeDone (s : State) (core stream : Nat) (t : Tile) : State :=
  let z := s.endLog ((s.tileOf core stream).getD t)
  z.1.setTile { z.2 with phase := .worked }

/-- The tile of a stream is in flight with an operation, on a core in service. -/
def State.atWork (s : State) (core stream op : Nat) (t : Tile) : Prop :=
  s.tileOf core stream = some t ∧ t.phase = .running ∧ dOpcode t.desc = op ∧ s.coreFenced core = false

/-- The DMA engine may run entry `q` of a core's queue: it is one of the first four, its granules have not moved, and the core is in
service. -/
def State.atDma (s : State) (core op : Nat) (q : QEntry) : Prop :=
  s.dmaEntry core q.id = some q ∧ dOpcode q.desc = op ∧ s.coreFenced core = false

/-- The granules of a DMA entry have moved. -/
def State.dmaMoved (s : State) (q : QEntry) : State :=
  { s with core := { s.core with dmaq := s.core.dmaq.map fun x => if x.id = q.id then { x with moved := true } else x } }

end Machine

end Sys2Proof
end

