-- ==== Sys2Proof/WellFormed.lean ====
section
/-! DEFINITION. Which commands are well formed: an operand that names one of finitely many things names one that the module or its
environment has, and an operand that lists things has the length and the range that its message gives it. No meaning depends on
it: a command that is not well formed names nothing there. -/

namespace Sys2Proof

/-- The finite spaces that operands are drawn from. -/
inductive Space where
  /-- The cores of the module (R4). -/
  | core
  /-- The streams of a core (R53). -/
  | stream
  /-- A run on a core: a stream of its own, less than 64; the tile of a primary that it checks, 64 + 64 · primary + stream (R466); a
  tile that Flint has placed there for a stream of a fenced core, 10,304 + 64 · core + stream (R447), and the tile of such a primary that
  it checks, 10,240 more than the primary's. -/
  | run
  /-- The quarries (R389). -/
  | quarry
  /-- The Vein ports (R340). -/
  | port
  /-- The tick domains (R33). -/
  | domain
  /-- The channels of the module (R4). -/
  | channel
  /-- The slabs (R4). -/
  | slab
  /-- The rings, and the completion queues (R418). -/
  | ring
  /-- An index of a ring (R418). -/
  | half
  /-- The contexts (R393). -/
  | context
  /-- The host DMA queues (R433). -/
  | dmaQueue
  /-- The lanes of a port (R340). -/
  | lane
  /-- The module IDs (R338). -/
  | module
  /-- The job IDs (R345). -/
  | job
  /-- Addresses (R208). -/
  | address
  /-- The home shards (R303). -/
  | shard
  /-- Slabs 0–3, the hub 4 and the stacks 5–36 (R538). -/
  | sensor
  /-- FEED_ID (R562). -/
  | feed
  /-- NODE_POS (R562). -/
  | node
  /-- SLOT_ID (R562). -/
  | slotId
  /-- A 32-bit count or identifier (R303, R343). -/
  | version
  /-- The error records (R451). -/
  | record
  /-- The evidence entries (R470). -/
  | evidence
  /-- The sequence slots (R248). -/
  | sequence
  /-- A byte of a side-band message (R564). -/
  | octet
  /-- The register space (R416). -/
  | bar0
  /-- The window into main memory (R416). -/
  | bar4
  /-- The semaphores: 256 of each core, then the shared ones (R67). -/
  | semaphore
  deriving DecidableEq, Repr

/-- How many things a space has. -/
def Space.size : Space → Nat
  | .core => 160
  | .stream => 64
  | .run => 64 + 3 * (64 * 160)
  | .quarry => 4
  | .port => 16
  | .domain => 4096
  | .channel => 512
  | .slab => 4
  | .ring => 64
  | .half => 65536
  | .context => 8
  | .dmaQueue => 4
  | .lane => 8
  | .module => 4096
  | .job => 4096
  | .address => 2 ^ 48
  | .shard => 4096
  | .sensor => 37
  | .feed => 16
  | .node => 8
  | .slotId => 64
  | .version => 2 ^ 32
  | .record => 64
  | .evidence => 8
  | .sequence => 128
  | .octet => 256
  | .bar0 => 2 ^ 26
  | .bar4 => 2 ^ 36
  | .semaphore => 2 ^ 16 + 4096

/-- The operands of a command that are drawn from a finite space. -/
def Instr.operands : Instr → List (Space × Nat)
  | .stratumInEdge _ => []
  | .tickSymbolReceived _ port tag _ _ => [(.port, port), (.module, tag.master), (.domain, tag.domain)]
  | .masterTickIssue _ quarry => [(.quarry, quarry)]
  | .holdoverTick _ => []
  | .stretchSymbolSend _ => []
  | .stretchSymbolReceived _ port tag _ => [(.port, port), (.module, tag.master), (.domain, tag.domain)]
  | .doneSymbolReceived _ port domain _ => [(.port, port), (.domain, domain)]
  | .moduleDone _ quarry => [(.quarry, quarry)]
  | .stratumOverrun _ quarry => [(.quarry, quarry)]
  | .domainOverrun _ => []
  | .tickLost _ => []
  | .tickStuck _ _ => []
  | .strConfigWrite _ _ off _ => [(.bar0, off)]
  | .strCountLoRead _ quarry => [(.quarry, quarry)]
  | .strCountWrite _ quarry _ _ => [(.quarry, quarry)]
  | .descriptorIssue _ core stream => [(.core, core), (.stream, stream)]
  | .tilePick _ core _ => [(.core, core)]
  | .queueAdmission _ core stream => [(.core, core), (.stream, stream)]
  | .semaphoreWake _ key => [(.semaphore, key)]
  | .wait _ core stream => [(.core, core), (.stream, stream)]
  | .signal _ core stream => [(.core, core), (.stream, stream)]
  | .loop _ core stream => [(.core, core), (.stream, stream)]
  | .branch _ core stream => [(.core, core), (.stream, stream)]
  | .yield _ core stream => [(.core, core), (.stream, stream)]
  | .end_ _ core stream => [(.core, core), (.stream, stream)]
  | .tileFinish _ core stream => [(.core, core), (.run, stream)]
  | .tileGuard _ core stream => [(.core, core), (.run, stream)]
  | .coreHang _ core => [(.core, core)]
  | .matmul core stream _ => [(.core, core), (.run, stream)]
  | .epilogue core stream => [(.core, core), (.run, stream)]
  | .slotCombine core stream => [(.core, core), (.run, stream)]
  | .reduce core stream => [(.core, core), (.run, stream)]
  | .reducePull core stream sender => [(.core, core), (.run, stream), (.core, sender)]
  | .elementwise core stream => [(.core, core), (.run, stream)]
  | .spill core stream => [(.core, core), (.run, stream)]
  | .fill core stream => [(.core, core), (.run, stream)]
  | .kernel core stream => [(.core, core), (.run, stream)]
  | .softmaxFwd core stream => [(.core, core), (.run, stream)]
  | .softmaxBwd core stream => [(.core, core), (.run, stream)]
  | .lnormFwd core stream => [(.core, core), (.run, stream)]
  | .lnormBwd core stream => [(.core, core), (.run, stream)]
  | .rmsnormFwd core stream => [(.core, core), (.run, stream)]
  | .rmsnormBwd core stream => [(.core, core), (.run, stream)]
  | .statsSpill core stream => [(.core, core), (.run, stream)]
  | .statsFill core stream => [(.core, core), (.run, stream)]
  | .copy core _ => [(.core, core)]
  | .transpose core _ => [(.core, core)]
  | .dmaFill core _ => [(.core, core)]
  | .dmaLanded _ core _ => [(.core, core)]
  | .patrolScrub _ pa _ => [(.address, pa)]
  | .frameCountRestart _ => []
  | .channelBurst _ channel => [(.channel, channel)]
  | .tlbInvalidate _ _ => []
  | .invalidateDone _ => []
  | .memLayoutWrite _ _ => []
  | .kvAppend core stream => [(.core, core), (.run, stream)]
  | .kvDemote core stream _ => [(.core, core), (.run, stream)]
  | .kvFrameMap _ ctx => [(.context, ctx)]
  | .kvFull _ slot => [(.sequence, slot)]
  | .kvSubslotRelease _ => []
  | .kvVersionReplay _ core stream => [(.core, core), (.stream, stream)]
  | .attnFwd core stream _ => [(.core, core), (.run, stream)]
  | .attnBwd core stream _ => [(.core, core), (.run, stream)]
  | .attnDecode core stream _ => [(.core, core), (.run, stream)]
  | .bucketSort core stream => [(.core, core), (.run, stream)]
  | .seqDone core stream => [(.core, core), (.run, stream)]
  | .wsUpdate core _ => [(.core, core)]
  | .wsUpdateWriteback _ core _ => [(.core, core)]
  | .shardDrainComplete _ ctx shard => [(.context, ctx), (.shard, shard)]
  | .leaseHeld _ ctx shard => [(.context, ctx), (.shard, shard)]
  | .wsLease core _ => [(.core, core)]
  | .leaseMessage _ ctx gatherer shard _ version held => [(.context, ctx), (.module, gatherer), (.shard, shard), (.version, version), (.version, held)]
  | .leaseReply _ core _ _ _ => [(.core, core)]
  | .wsSeal core _ => [(.core, core)]
  | .flitGroupReceived _ port _ _ _ => [(.port, port)]
  | .packetReceived _ port _ => [(.port, port)]
  | .routeFailReceived _ dst job => [(.module, dst), (.job, job)]
  | .linkControlReceived _ port _ => [(.port, port)]
  | .linkControlDue _ port => [(.port, port)]
  | .ackTimeout _ port => [(.port, port)]
  | .linkFailed _ port => [(.port, port)]
  | .laneDegrade _ port sign => [(.port, port), (.lane, sign.lane)]
  | .linkDegraded _ port => [(.port, port)]
  | .linkDown _ port => [(.port, port)]
  | .linkUp _ port peer _ => [(.port, port), (.module, peer)]
  | .trainingRetry _ port => [(.port, port)]
  | .portRetrain _ port => [(.port, port)]
  | .veiPoolDataWrite _ _ => []
  | .veiRouteDataWrite _ _ => []
  | .coll core _ => [(.core, core)]
  | .shift core _ => [(.core, core)]
  | .expertDispatch core _ => [(.core, core)]
  | .expertCombine core _ => [(.core, core)]
  | .endMarkerReceived _ job src xfer _ => [(.job, job), (.module, src), (.version, xfer)]
  | .collTimeout _ _ => []
  | .donationExhausted _ core stream => [(.core, core), (.stream, stream)]
  | .allBlocked _ quarry => [(.quarry, quarry)]
  | .swapExchange _ quarry => [(.quarry, quarry)]
  | .swapAbandoned _ quarry => [(.quarry, quarry)]
  | .swapDone _ quarry => [(.quarry, quarry)]
  | .doorbellSqTail _ ring index => [(.ring, ring), (.half, index)]
  | .doorbellCqHead _ ring index => [(.ring, ring), (.half, index)]
  | .commandFetch _ => []
  | .ctxCreate _ _ => []
  | .ctxDestroy _ _ => []
  | .jobLoad _ _ => []
  | .jobStart _ _ => []
  | .dmaH2d _ _ => []
  | .dmaD2h _ _ => []
  | .fossilBegin _ _ => []
  | .fossilCommit _ _ => []
  | .fillFromBuddy _ _ => []
  | .query _ _ => []
  | .fenceUnit _ _ => []
  | .setPolicy _ _ => []
  | .telemetryRead _ _ => []
  | .completionPost _ cq => [(.ring, cq)]
  | .msixModeration _ cq => [(.ring, cq)]
  | .sqDisable _ ring => [(.ring, ring)]
  | .hifRegWrite _ _ off _ => [(.bar0, off)]
  | .functionLevelReset _ => []
  | .bar4Access _ _ x _ _ => [(.bar4, x)]
  | .recordClose _ index => [(.record, index)]
  | .watchdogAck _ => []
  | .watchdogRestart _ _ => []
  | .flintRestartDone _ => []
  | .assayCheckerStart _ core stream => [(.core, core), (.run, stream)]
  | .signatureCompare _ core stream _ => [(.core, core), (.run, stream)]
  | .patternReplay _ entry _ => [(.evidence, entry)]
  | .evidenceReady _ entry => [(.evidence, entry)]
  | .screenStart _ _ _ _ => []
  | .errCtrlWrite _ _ _ => []
  | .firstTouchCopy _ pa => [(.address, pa)]
  | .fossilPageStream _ _ => []
  | .epochStreamed _ => []
  | .fossilStoreFailed _ => []
  | .buddyOpenMessage _ sender _ _ => [(.module, sender)]
  | .buddyOpenReply _ _ feed => [(.feed, feed)]
  | .buddyImagePage _ src _ _ => [(.module, src)]
  | .commitMarkerReceived _ sender _ => [(.module, sender)]
  | .fossilBuddyLost _ => []
  | .fillRequestReceived _ requester _ => [(.module, requester)]
  | .fillPageReceived _ _ _ _ => []
  | .fillSourceLost _ => []
  | .fosRegWrite _ _ off _ => [(.bar0, off)]
  | .bootRomStart _ => []
  | .bootLock _ => []
  | .ownerEnroll _ _ _ => []
  | .debugOpen _ _ _ => []
  | .fwUpdate _ => []
  | .fwUpdateDone _ => []
  | .fwConfirm _ => []
  | .burnSvn _ => []
  | .attestationRequest _ => []
  | .attestationReportWritten _ => []
  | .bypass _ => []
  | .idcode _ => []
  | .samplePreload _ _ => []
  | .extest _ => []
  | .kuermouPrivateDebug _ => []
  | .pwrEnRise _ => []
  | .pwrGoodRise _ feed node slot => [(.feed, feed), (.node, node), (.slotId, slot)]
  | .pwrEnFall _ => []
  | .perstAssert _ => []
  | .inputUndervoltage _ => []
  | .inputOvervoltage _ => []
  | .inputVoltage _ _ => []
  | .powerSample _ _ _ _ _ => []
  | .capStep _ => []
  | .thermalThrottle _ unit _ => [(.sensor, unit)]
  | .thermalTrip _ unit _ => [(.sensor, unit)]
  | .throttleInAssert _ => []
  | .throttleInRelease _ => []
  | .throttleInPulse _ => []
  | .throttleHeld _ => []
  | .droop _ slab => [(.slab, slab)]
  | .droopRecovery _ slab => [(.slab, slab)]
  | .canaryStretch _ slab => [(.slab, slab)]
  | .refclkLost _ _ => []
  | .wearPlan _ _ _ _ _ => []
  | .planNow _ => []
  | .wearPlanDue _ => []
  | .setEndpointId _ eid => [(.octet, eid)]
  | .getEndpointId _ => []
  | .getMctpVersionSupport _ => []
  | .getMessageTypeSupport _ => []
  | .gettid _ => []
  | .getpldmversion _ type => [(.octet, type)]
  | .getpldmtypes _ => []
  | .getpldmcommands _ type => [(.octet, type)]
  | .getpdrrepositoryinfo _ => []
  | .getpdr _ _ => []
  | .getsensorreading _ _ => []
  | .getstatesensorreadings _ _ => []
  | .unsupportedPldmCmd _ => []
  | .sensorRefresh _ => []
  | .regWrite _ _ off _ _ => [(.bar0, off)]
  | .hostDmaDone _ queue => [(.dmaQueue, queue)]
  | .configurationRequest _ => []
  | .channelRetrainDone _ channel => [(.channel, channel)]
  | .refclkRestored _ => []

/-- The fields of a packet lie in their widths, and it carries at most 512 data flits of 256 bytes with four poison bits
(R342, R343). -/
def Packet.wf (p : Packet) : Bool :=
  decide (p.dst < 4096) && decide (p.src < 4096) && decide (p.job < 4096) && decide (p.vc < 4) && decide (p.type < 256)
    && decide (p.xfer < 2 ^ 32) && decide (p.offset < 2 ^ 48) && decide (p.body < 2 ^ 1504) && decide (p.data.length ≤ 512)
    && p.data.all fun f => decide (f.1 < 2 ^ 2048) && decide (f.2 < 16)

/-- A link control flit carries sequence numbers below 4,096 and the counters of the 32 pools, of the hub pool and of the escape
flit (R351, log entry 41). -/
def LinkControl.wf (c : LinkControl) : Bool :=
  decide (c.ack < 4096) && decide (c.expected < 4096) && decide (c.escape < 65536) && c.pools.length == 33
    && c.pools.all fun n => decide (n < 65536)

/-- The parts of a wire flit lie in their widths (R342, R343). -/
def WireFlit.wf : WireFlit → Bool
  | .idle => true
  | .control c => c.wf
  | .header num crc nData pkt => decide (num < 4096) && decide (crc < 2 ^ 32) && decide (nData ≤ 512) && pkt.wf
  | .data num vc poison body => decide (num < 4096) && decide (vc < 4) && decide (poison < 16) && decide (body < 2 ^ 2048)

/-- The data flits of an image page: 2 MiB (R479). -/
def pageOk (data : List (Nat × Nat)) : Bool :=
  data.length == 8192 && data.all fun f => decide (f.1 < 2 ^ 2048) && decide (f.2 < 16)

/-- The operands that are messages, lists or codes have the form that the spec gives them. -/
def Instr.shaped : Instr → Bool
  | .stratumInEdge _ => true
  | .tickSymbolReceived _ _ _ _ _ => true
  | .masterTickIssue _ _ => true
  | .holdoverTick _ => true
  | .stretchSymbolSend _ => true
  | .stretchSymbolReceived _ _ _ _ => true
  | .doneSymbolReceived _ _ _ _ => true
  | .moduleDone _ _ => true
  | .stratumOverrun _ _ => true
  | .domainOverrun _ => true
  | .tickLost _ => true
  | .tickStuck _ _ => true
  | .strConfigWrite _ _ _ _ => true
  | .strCountLoRead _ _ => true
  | .strCountWrite _ _ _ _ => true
  | .descriptorIssue _ _ _ => true
  | .tilePick _ _ _ => true
  | .queueAdmission _ _ _ => true
  | .semaphoreWake _ _ => true
  | .wait _ _ _ => true
  | .signal _ _ _ => true
  | .loop _ _ _ => true
  | .branch _ _ _ => true
  | .yield _ _ _ => true
  | .end_ _ _ _ => true
  | .tileFinish _ _ _ => true
  | .tileGuard _ _ _ => true
  | .coreHang _ _ => true
  | .matmul _ _ fault => fault.all fun f => decide (f.row ≤ 32) && decide (f.col ≤ 32)
  | .epilogue _ _ => true
  | .slotCombine _ _ => true
  | .reduce _ _ => true
  | .reducePull _ _ _ => true
  | .elementwise _ _ => true
  | .spill _ _ => true
  | .fill _ _ => true
  | .kernel _ _ => true
  | .softmaxFwd _ _ => true
  | .softmaxBwd _ _ => true
  | .lnormFwd _ _ => true
  | .lnormBwd _ _ => true
  | .rmsnormFwd _ _ => true
  | .rmsnormBwd _ _ => true
  | .statsSpill _ _ => true
  | .statsFill _ _ => true
  | .copy _ _ => true
  | .transpose _ _ => true
  | .dmaFill _ _ => true
  | .dmaLanded _ _ _ => true
  | .patrolScrub _ _ _ => true
  | .frameCountRestart _ => true
  | .channelBurst _ _ => true
  | .tlbInvalidate _ _ => true
  | .invalidateDone _ => true
  | .memLayoutWrite _ _ => true
  | .kvAppend _ _ => true
  | .kvDemote _ _ _ => true
  | .kvFrameMap _ _ => true
  | .kvFull _ _ => true
  | .kvSubslotRelease _ => true
  | .kvVersionReplay _ _ _ => true
  | .attnFwd _ _ _ => true
  | .attnBwd _ _ _ => true
  | .attnDecode _ _ _ => true
  | .bucketSort _ _ => true
  | .seqDone _ _ => true
  | .wsUpdate _ _ => true
  | .wsUpdateWriteback _ _ _ => true
  | .shardDrainComplete _ _ _ => true
  | .leaseHeld _ _ _ => true
  | .wsLease _ _ => true
  | .leaseMessage _ _ _ _ mode _ _ => decide (mode < 3)
  | .leaseReply _ _ _ _ result => decide (result < 6)
  | .wsSeal _ _ => true
  | .flitGroupReceived _ _ _ _ group => decide (group.lanes.length ≤ 8) && group.flits.length == 5 && group.flits.all WireFlit.wf
  | .packetReceived _ _ pkt => pkt.wf
  | .routeFailReceived _ _ _ => true
  | .linkControlReceived _ _ control => control.wf
  | .linkControlDue _ _ => true
  | .ackTimeout _ _ => true
  | .linkFailed _ _ => true
  | .laneDegrade _ _ _ => true
  | .linkDegraded _ _ => true
  | .linkDown _ _ => true
  | .linkUp _ _ _ lanes => decide (lanes < 256)
  | .trainingRetry _ _ => true
  | .portRetrain _ _ => true
  | .veiPoolDataWrite _ _ => true
  | .veiRouteDataWrite _ _ => true
  | .coll _ _ => true
  | .shift _ _ => true
  | .expertDispatch _ _ => true
  | .expertCombine _ _ => true
  | .endMarkerReceived _ _ _ _ _ => true
  | .collTimeout _ _ => true
  | .donationExhausted _ _ _ => true
  | .allBlocked _ _ => true
  | .swapExchange _ _ => true
  | .swapAbandoned _ _ => true
  | .swapDone _ _ => true
  | .doorbellSqTail _ _ _ => true
  | .doorbellCqHead _ _ _ => true
  | .commandFetch _ => true
  | .ctxCreate _ _ => true
  | .ctxDestroy _ _ => true
  | .jobLoad _ _ => true
  | .jobStart _ _ => true
  | .dmaH2d _ _ => true
  | .dmaD2h _ _ => true
  | .fossilBegin _ _ => true
  | .fossilCommit _ _ => true
  | .fillFromBuddy _ _ => true
  | .query _ _ => true
  | .fenceUnit _ _ => true
  | .setPolicy _ _ => true
  | .telemetryRead _ _ => true
  | .completionPost _ _ => true
  | .msixModeration _ _ => true
  | .sqDisable _ _ => true
  | .hifRegWrite _ _ _ _ => true
  | .functionLevelReset _ => true
  | .bar4Access _ write _ data n => (if write then data.length == n else data == []) && data.all fun b => decide (b < 256)
  | .recordClose _ _ => true
  | .watchdogAck _ => true
  | .watchdogRestart _ _ => true
  | .flintRestartDone _ => true
  | .assayCheckerStart _ _ _ => true
  | .signatureCompare _ _ _ delta => decide (delta < 2 ^ 64)
  | .patternReplay _ _ sigs => sigs.length == 160 && sigs.all fun x => decide (x < 2 ^ 64)
  | .evidenceReady _ _ => true
  | .screenStart _ _ _ deltas => deltas.all fun l => l.all fun x => decide (x < 2 ^ 64)
  | .errCtrlWrite _ _ _ => true
  | .firstTouchCopy _ _ => true
  | .fossilPageStream _ _ => true
  | .epochStreamed _ => true
  | .fossilStoreFailed _ => true
  | .buddyOpenMessage _ _ _ _ => true
  | .buddyOpenReply _ _ _ => true
  | .buddyImagePage _ _ _ data => pageOk data
  | .commitMarkerReceived _ _ _ => true
  | .fossilBuddyLost _ => true
  | .fillRequestReceived _ _ _ => true
  | .fillPageReceived _ _ _ data => pageOk data
  | .fillSourceLost _ => true
  | .fosRegWrite _ _ _ _ => true
  | .bootRomStart _ => true
  | .bootLock _ => true
  | .ownerEnroll _ _ _ => true
  | .debugOpen _ _ _ => true
  | .fwUpdate _ => true
  | .fwUpdateDone _ => true
  | .fwConfirm _ => true
  | .burnSvn _ => true
  | .attestationRequest _ => true
  | .attestationReportWritten _ => true
  | .bypass _ => true
  | .idcode _ => true
  | .samplePreload _ _ => true
  | .extest _ => true
  | .kuermouPrivateDebug _ => true
  | .pwrEnRise _ => true
  | .pwrGoodRise _ _ _ _ => true
  | .pwrEnFall _ => true
  | .perstAssert _ => true
  | .inputUndervoltage _ => true
  | .inputOvervoltage _ => true
  | .inputVoltage _ _ => true
  | .powerSample _ _ _ _ _ => true
  | .capStep _ => true
  | .thermalThrottle _ _ _ => true
  | .thermalTrip _ _ _ => true
  | .throttleInAssert _ => true
  | .throttleInRelease _ => true
  | .throttleInPulse _ => true
  | .throttleHeld _ => true
  | .droop _ _ => true
  | .droopRecovery _ _ => true
  | .canaryStretch _ _ => true
  | .refclkLost _ mhz => mhz == 100 || mhz == 156
  | .wearPlan _ steps mhz failed failedSlabs => steps.length == 24 && mhz.length == 4 && (failed.all fun c => decide (c < 160)) && failedSlabs.all fun i => decide (i < 4)
  | .planNow _ => true
  | .wearPlanDue _ => true
  | .setEndpointId _ _ => true
  | .getEndpointId _ => true
  | .getMctpVersionSupport _ => true
  | .getMessageTypeSupport _ => true
  | .gettid _ => true
  | .getpldmversion _ _ => true
  | .getpldmtypes _ => true
  | .getpldmcommands _ _ => true
  | .getpdrrepositoryinfo _ => true
  | .getpdr _ _ => true
  | .getsensorreading _ _ => true
  | .getstatesensorreadings _ _ => true
  | .unsupportedPldmCmd _ => true
  | .sensorRefresh _ => true
  | .regWrite _ _ _ bytes _ => [1, 2, 4, 8].contains bytes
  | .hostDmaDone _ _ => true
  | .configurationRequest _ => true
  | .channelRetrainDone _ _ => true
  | .refclkRestored _ => true

/-- A command is well formed. -/
def Instr.wf (i : Instr) : Bool := (i.operands.all fun o => decide (o.2 < o.1.size)) && i.shaped

end Sys2Proof
end

