-- ==== Sys2Proof/Certificates/Slice0/Obligations.lean ====
section
/-! DEFINITION. The statements about the model, in the order of OBLIGATIONS.json. In the statements about commands, `u` is the
state at the moment of the command. -/

open Sys2Proof Sys2Proof.Machine


/-! ## The machine as a whole -/

/-- A step runs the command at the front of the queue on the state with the rest of the queue (log entry 8). -/
def Obligations.StepRunsFront : Prop :=
  ∀ (c : Instr) (r : List Instr) (s : State), step { s with pending := c :: r } = exec c { s with pending := r }

/-- With no command waiting, a step lets one unit of time pass, and what the module does of itself goes on: the ports send, the fossil
engine and the transfers go on, and the next screening vector runs. Where no port carries traffic, no epoch and no fill is open, no
page waits, no transfer or held packet exists and no vector waits, it is the passing of time alone: the model's choice (log entry 1).

The passing of time alone runs to the moment that is asked for, never back, and changes only power control's state, the record
of blocked quarries and the registers; of the registers it changes only those of the PWR block, so no unit outside power control sees
it but by the moment itself. -/
def Obligations.IdleTime : Prop :=
  (∀ s : State, s.pending = [] → step s = .next s.idle
    ∧ let u := s.advanceTo (s.now + 1)
      ((∀ p < 16, u.carries p = false) → u.fos.epoch = none → u.fos.fill = none → u.fos.arriving = [] → u.coll.held = []
        → u.coll.xfers = [] → u.err.screen = [] → s.idle = u))
  ∧ (∀ (s : State) (t : Nat),
    let u := s.advanceTo t
    u.now = max s.now t ∧ u.quarries = s.quarries ∧ u.core = s.core ∧ u.mem = s.mem ∧ u.ctx = s.ctx ∧ u.host = s.host
      ∧ u.err = s.err ∧ u.ws = s.ws ∧ u.kv = s.kv ∧ u.vein = s.vein ∧ u.coll = s.coll ∧ u.fos = s.fos ∧ u.fw = s.fw
      ∧ u.pins = s.pins ∧ u.freeCtr = s.freeCtr ∧ u.pending = s.pending
      ∧ ∀ off, (off < Reg.pwr ∨ Reg.sec ≤ off) → u.rd off = s.rd off)

/-- Every command on every state, and so every step, answers a next state: none of the 201 rows is refused and none stops the
model, whatever the state (NOTES.md, '## Stops'). The queue after a step is the queue before it without its front, and a command
itself leaves the queue alone. -/
def Obligations.EveryCommandAnswers : Prop :=
  (∀ (c : Instr) (s : State), ∃ t, exec c s = .next t ∧ t.pending = s.pending)
    ∧ ∀ s : State, ∃ t, step s = .next t ∧ t.pending = s.pending.tail

/-- Reset leaves the module with PERST# asserted and nothing running: the state is sound, GLB_IDENT and STR_PERIOD hold the reset values
of their tables, overrun_limit is 4 and run 0, the module is one quarry, scrubbing is enabled with a period of 24 h, no stream is bound,
no context exists, no record is open, no command waits, and every byte of main memory reads 0 (that last value is the model's choice,
log entry 2). -/
def Obligations.ResetState : Prop :=
  Sound State.reset ∧ State.reset.rd Reg.glbIdent = 0x2560A100 ∧ State.reset.rd Reg.strPeriod = 0x005A0064
    ∧ State.reset.fld Fld.overrunLimit = 4 ∧ State.reset.flag Fld.run = false ∧ State.reset.modeOf = 0
    ∧ State.reset.flag Fld.scrubEn = true ∧ State.reset.fld Fld.scrubPeriod = 24
    ∧ (∀ c n, (State.reset.stream c n).state = .unbound) ∧ State.reset.anyCtx = false ∧ State.reset.fld Fld.errOpen = 0
    ∧ State.reset.pins.phase = .reset ∧ State.reset.pins.perst = true ∧ State.reset.pending = []
    ∧ ∀ a, State.reset.physByte a = 0

/-- In every state that meets `Sound`, GLB_IDENT reads part 0x2560 and revision 0xA1, and a step keeps `Sound`: no command of any
party changes an identification register, and every memory operation keeps the memories in canonical form. -/
def Obligations.SoundKept : Prop :=
  ∀ s : State, Sound s → ∀ t, step s = .next t →
    Sound t ∧ bits (t.rd Reg.glbIdent).toNat 16 16 = 0x2560 ∧ bits (t.rd Reg.glbIdent).toNat 8 8 = 0xA1

/-- On every run, from any state at all, what fuses hold is never undone: the burned minimum svn never falls, an owner key once
burned stays, and time does not run back. -/
def Obligations.FusesNeverUndone : Prop :=
  ∀ s t : State, Reaches s t →
    s.fw.burnedSvn ≤ t.fw.burnedSvn ∧ s.minSvn ≤ t.minSvn ∧ (∀ k, s.fw.owner = some k → t.fw.owner = some k) ∧ s.now ≤ t.now

/-- The identification that the module reports: GLB_IDENT.part reads 0x2560 and GLB_IDENT.revision reads 0xA1, in every sound state. -/
def Obligations.IdentificationReported : Prop :=
  ∀ s : State, Sound s → bits (s.rd Reg.glbIdent).toNat 16 16 = 0x2560 ∧ bits (s.rd Reg.glbIdent).toNat 8 8 = 0xA1

/-! ## Registers -/

/-- In a sound state a register reads back the word stored in it, and every other register reads as before; a field reads back the value
stored in it, as far as its width holds it, and every field beside it reads as before. -/
def Obligations.RegisterReadsBack : Prop :=
  (∀ (s : State) (off : Nat) (w : Word), Sound s →
    (s.wr off w).rd off = w ∧ (∀ o, o ≠ off → (s.wr off w).rd o = s.rd o)
      ∧ (s.wr off w).mem = s.mem ∧ (s.wr off w).core = s.core)
  ∧ ∀ (s : State) (f g : Fld) (v : Nat), Sound s → f.lo + f.width ≤ 32 → g.lo + g.width ≤ 32 →
    (s.setFld f v).fld f = v % 2 ^ f.width
      ∧ (g.reg ≠ f.reg ∨ g.lo + g.width ≤ f.lo ∨ f.lo + f.width ≤ g.lo → (s.setFld f v).fld g = s.fld g)

/-- A write of the bits that a register has, bit by bit: a bit that is RW takes the value written; a bit that is W1C clears when 1 is
written and keeps its value when 0 is; every other bit, reserved ones among them, keeps its value. A bit that is WO reads 0 to either
party, and every other bit of a register that neither stands in the tick block nor is an index or data register reads as it stands. -/
def Obligations.AccessCodes : Prop :=
  (∀ (s : State) (off : Nat) (v : Word) (r : RegInfo) (i : Nat), Sound s → Reg.info off = some r → i < 32 →
    ((s.plainWrite off v).rd off).getLsbD i =
      (if (BitVec.ofNat 32 r.w1c).getLsbD i && v.getLsbD i then false
       else if (BitVec.ofNat 32 r.rw).getLsbD i then v.getLsbD i else (s.rd off).getLsbD i))
  ∧ ∀ (s : State) (p : Party) (off : Nat) (r : RegInfo) (i : Nat), Reg.info off = some r → s.admits p off = true →
    ¬(Reg.str ≤ off ∧ off < Reg.ctx) →
    ((BitVec.ofNat 32 r.wo).getLsbD i = true → (s.regRead p off).getLsbD i = false)
    ∧ (indexRegs.contains off = false → off ≠ Reg.veiRouteData → off ≠ Reg.veiPoolData → off ≠ Reg.colGroupLo → off ≠ Reg.colGroupHi →
      (BitVec.ofNat 32 r.wo).getLsbD i = false → (s.regRead p off).getLsbD i = (s.rd off).getLsbD i)

/-- REG_WRITE by the size of the access: one of 8 or 16 bits, or one that is not 4-byte aligned, is ignored; one of 32 bits acts on
the register; one of 64 bits acts as two of 32 bits, the lower address first.

Who reaches a register: a write by a party that is not admitted, or to an offset that no table names, changes nothing; a host
write to a register with RW or WO bits of the blocks that only Flint programs (MEM to COL, index registers and registers with W1C bits
apart) leaves that register and sets GLB_STAT.host_wr_reject. -/
def Obligations.RegisterWrites : Prop :=
  (∀ (s : State) (at_ off value : Nat) (p : Party),
    let u := s.advanceTo at_
    exec (.regWrite at_ p off 1 value) s = .next u ∧ exec (.regWrite at_ p off 2 value) s = .next u
      ∧ (off % 4 ≠ 0 → ∀ n, exec (.regWrite at_ p off n value) s = .next u)
      ∧ (off % 4 = 0 → exec (.regWrite at_ p off 4 value) s = .next (u.regWrite p off (BitVec.ofNat 32 value)))
      ∧ (off % 4 = 0 → exec (.regWrite at_ p off 8 value) s
          = .next ((u.regWrite p off (BitVec.ofNat 32 value)).regWrite p (off + 4) (BitVec.ofNat 32 (value / 2 ^ 32)))))
  ∧ ((∀ (s : State) (p : Party) (off : Nat) (v : Word), (s.admits p off = false ∨ Reg.info off = none) → s.regWrite p off v = s)
  ∧ ∀ (s : State) (off : Nat) (v : Word) (r : RegInfo), Sound s → s.admits .host off = true → Reg.info off = some r →
    r.rw + r.wo ≠ 0 → r.w1c = 0 → (Reg.mem ≤ off ∧ off < Reg.err) → indexRegs.contains off = false →
    (s.regWrite .host off v).rd off = s.rd off ∧ (s.regWrite .host off v).flag Fld.hostWrReject = true
      ∧ (s.regWrite .host off v).mem = s.mem)

/-! ## Strata and the stratum tick -/

/-- An accepted tick whose plan is not released (an abort tick, a premature tick), that is no step boundary of a training context and
has no new mapping of the input window to put in force: the counter takes the tick's count, the module is not done, an external tick drops STRATUM_OUT±, the ticks of every
other quarry stay, and memory, cores, units and queues stay, but that waits for frames whose budget ends are lost. -/
def Obligations.TickAccepted : Prop :=
  ∀ (s : State) (q : Nat) (count : BitVec 48) (external : Bool), Sound s → q < 4 → s.trainCtx = none → s.fos.nextMap = none →
    let t := s.acceptTick q count external false
    (t.quarry q).count = count ∧ (t.quarry q).ticks = (s.quarry q).ticks + 1 ∧ (t.quarry q).lastTick = s.now
      ∧ t.flag (Fld.done q) = false ∧ t.pins.stratumOut = (s.pins.stratumOut && !external)
      ∧ (∀ p, p ≠ q → t.quarry p = s.quarry p) ∧ t.mem = s.mem ∧ t.core = s.core ∧ t.vein = s.vein ∧ t.host = s.host
      ∧ t.ws = s.ws ∧ t.kv = { s.kv with waits := t.kv.waits }
      ∧ t.kv.waits.map (fun w => { w with lost := true }) = s.kv.waits.map (fun w => { w with lost := true }) ∧ t.fos = s.fos ∧ t.fw = s.fw ∧ t.pwr = s.pwr

/-- The stretch of a stratum: what lies between its tick and the next, less the period. Above 1 µs it adds 1 to STR_STRETCH_CNT;
any size raises STR_STRETCH_MAX when it is larger. Both registers saturate at 0xFFFF_FFFF. Nothing else changes in the quarries, the
memories and the cores. -/
def Obligations.StretchMeasured : Prop :=
  ∀ (s : State) (q : Nat), Sound s → q < 4 →
    let d := s.now - ((s.quarry q).lastTick + 100 * (s.quarry q).period)
    let t := s.noteStretch q
    t.fld (Fld.stretchCnt q) = (if 100 < d then min (s.fld (Fld.stretchCnt q) + 1) (2 ^ 32 - 1) else s.fld (Fld.stretchCnt q))
      ∧ t.fld (Fld.stretchMax q) = max (s.fld (Fld.stretchMax q)) (min d (2 ^ 32 - 1))
      ∧ t.quarries = s.quarries ∧ t.mem = s.mem ∧ t.core = s.core

/-- MASTER_TICK_ISSUE: a module that times ticks itself issues the next one at the later of subtree done and one period after the
last, and the first one period after run was set; before that nothing is issued. A master sends it down its ports.

HOLDOVER_TICK, STRETCH_SYMBOL_SEND, STRETCH_SYMBOL_RECEIVED: each acts when its moment has come. -/
def Obligations.TicksIssued : Prop :=
  (∀ (s : State) (at_ q : Nat),
    let u := s.advanceTo at_
    let b := u.quarry q
    u.generates q = true →
    (b.opened = true → u.subtreeDone q = true → b.lastTick + 100 * b.period ≤ u.now →
      exec (.masterTickIssue at_ q) s = .next ((u.masterSymbol q false).acceptTick q (b.count + 1) false true))
    ∧ (b.opened = false → b.runAt + 100 * b.period ≤ u.now →
      exec (.masterTickIssue at_ q) s = .next ((u.masterSymbol q false).acceptTick q (b.count + 1) false true))
    ∧ (b.opened = true → u.now < b.lastTick + 100 * b.period → exec (.masterTickIssue at_ q) s = .next u)
    ∧ (b.opened = true → u.subtreeDone q = false → exec (.masterTickIssue at_ q) s = .next u)
    ∧ (b.opened = false → u.now < b.runAt + 100 * b.period → exec (.masterTickIssue at_ q) s = .next u))
  ∧ ((∀ (s : State) (at_ : Nat),
    let u := s.advanceTo at_
    let b := u.quarry 0
    u.ticking = true → u.flag (Fld.holdover 0) = true → u.flag (Fld.done 0) = true →
    b.lastTick + (if b.holdoverTicks = 0 then 2 else 1) * u.period 0 ≤ u.now →
    let t := u.acceptTick 0 (b.count + 1) false true
    exec (.holdoverTick at_) s = .next (t.setQuarry 0 { t.quarry 0 with holdoverTicks := b.holdoverTicks + 1 }))
  ∧ (∀ (s : State) (at_ : Nat),
    let u := s.advanceTo at_
    let b := u.quarry 0
    u.generates 0 = true → u.fld Fld.role = 1 → b.opened = true → u.subtreeDone 0 = false →
    b.lastTick + (b.stretchSent + 1) * u.period 0 ≤ u.now →
    exec (.stretchSymbolSend at_) s
      = .next ((u.sendDown (stretchSym u.moduleId (u.fld Fld.domainId) b.count)).setQuarry 0 { b with stretchSent := b.stretchSent + 1 }))
  ∧ ∀ (s : State) (at_ port master domain : Nat) (count : BitVec 48),
    let u := s.advanceTo at_
    let v := u.sendDown (stretchSym master domain count)
    (u.hears port domain = true →
      exec (.stretchSymbolReceived at_ port ⟨master, domain⟩ count) s = .next (v.setQuarry 0 { v.quarry 0 with heardAt := v.now }))
    ∧ (u.hears port domain = false → exec (.stretchSymbolReceived at_ port ⟨master, domain⟩ count) s = .next u))

/-- STRATUM_IN_EDGE by the cases of the tick input: an early edge is only counted; an edge while the module is done is accepted, its
plan released, and goes down the tree; an edge in holdover while the module is not done is only counted as premature; any edge is
ignored where the pins are not the source.

TICK_SYMBOL_RECEIVED: a symbol of another domain, on another port, or while Vein is not the source is ignored; an early one is
only counted; one in sequence while the module is done goes down the tree with its master's ID and is accepted with its plan
released; an abort tick in sequence goes down too, releases no plan, and ends the job's contexts with the master's ID. -/
def Obligations.TicksReceived : Prop :=
  (∀ (s : State) (at_ : Nat),
    let u := s.advanceTo at_
    let b := u.quarry 0
    ((u.ticking = false ∨ u.deaf = true ∨ u.fld Fld.source ≠ 1) → exec (.stratumInEdge at_) s = .next u)
    ∧ (u.ticking = true → u.deaf = false → u.fld Fld.source = 1 →
      (u.flag (Fld.holdover 0) = true → u.flag (Fld.done 0) = false →
        exec (.stratumInEdge at_) s = .next (u.bump (Fld.premature 0)))
      ∧ (u.flag (Fld.holdover 0) = false → b.opened = true → u.now < b.lastTick + 100 * b.minGap →
        exec (.stratumInEdge at_) s = .next (u.bump (Fld.earlyEdges 0)))
      ∧ (u.flag (Fld.holdover 0) = false → b.opened = true → b.lastTick + 100 * b.minGap ≤ u.now → u.flag (Fld.done 0) = true →
        exec (.stratumInEdge at_) s = .next
          (((u.sendDown (tickSym u.moduleId (u.fld Fld.domainId) (b.count + 1) false)).setFld (Fld.hold 0) 0).acceptTick 0 (b.count + 1) true true))
      ∧ (u.flag (Fld.holdover 0) = true → u.flag (Fld.done 0) = true →
        exec (.stratumInEdge at_) s = .next
          (((u.sendDown (tickSym u.moduleId (u.fld Fld.domainId) (b.count + 1) false)).setFld (Fld.holdover 0) 0).acceptTick 0 (b.count + 1) true true))))
  ∧ (∀ (s : State) (at_ port master domain : Nat) (count : BitVec 48),
    let u := s.advanceTo at_
    let b := u.quarry 0
    (∀ abort, u.hears port domain = false → exec (.tickSymbolReceived at_ port ⟨master, domain⟩ count abort) s = .next u)
    ∧ (u.hears port domain = true → u.flag (Fld.holdover 0) = false →
      (b.opened = true → u.now < b.lastTick + 100 * b.minGap →
        ∀ abort, exec (.tickSymbolReceived at_ port ⟨master, domain⟩ count abort) s = .next (u.bump (Fld.earlyEdges 0)))
      ∧ (b.opened = true → b.lastTick + 100 * b.minGap ≤ u.now → u.flag (Fld.done 0) = true → count = b.count + 1 →
        exec (.tickSymbolReceived at_ port ⟨master, domain⟩ count false) s = .next
          (((u.sendDown (tickSym master domain count false)).setFld (Fld.hold 0) 0).acceptTick 0 count true true))
      ∧ (b.opened = true → b.lastTick + 100 * b.minGap ≤ u.now → count = b.count + 1 →
        exec (.tickSymbolReceived at_ port ⟨master, domain⟩ count true) s = .next
          ((((u.sendDown (tickSym master domain count true)).setFld (Fld.hold 0) 0).acceptTick 0 count true false).abortJobs 0 master))))

/-- DONE_SYMBOL_RECEIVED: done counts only on a down port, with this domain and this module's count, and every other done symbol
is ignored; the port is recorded as the last to report.

MODULE_DONE: the module reports itself done when every unfenced core is done and every tick-bound transfer has landed. -/
def Obligations.DoneReported : Prop :=
  (∀ (s : State) (at_ port domain : Nat) (count : BitVec 48),
    let u := s.advanceTo at_
    let b := u.quarry 0
    (u.ticking = true → u.carries port = true → bit (u.fld Fld.downPorts) port = true → port < 16 → u.fld Fld.domainId = domain →
      b.count = count → b.opened = true → b.downDone.contains port = false →
      exec (.doneSymbolReceived at_ port domain count) s
        = .next (u.setQuarry 0 { b with downDone := b.downDone ++ [port], lastDone := some port }).reportDone)
    ∧ ((bit (u.fld Fld.downPorts) port = false ∨ u.fld Fld.domainId ≠ domain ∨ b.count ≠ count) →
      exec (.doneSymbolReceived at_ port domain count) s = .next u))
  ∧ (∀ (s : State) (at_ q : Nat),
    let u := s.advanceTo at_
    let v := (u.setFld (Fld.done q) 1).setQuarry q { u.quarry q with lastDone := some 16 }
    u.ticking = true → q < quarryCount u.modeOf → (u.quarry q).opened = true → u.flag (Fld.done q) = false →
    u.coresDone q = true → u.transfersLanded q = true →
    exec (.moduleDone at_ q) s = .next (if q = 0 then v.reportDone else v))

/-- STRATUM_OVERRUN and DOMAIN_OVERRUN from (1 + overrun_limit) periods after the tick on, and not before. The first is raised
once in a stratum by a module that is not done, the second by a master that is not subtree done, which raises the first too when it
is not done itself; by default Flint answers the second with an abort tick at once.

TICK_LOST and TICK_STUCK: holdover where holdover_en is 1, hold where it is 0, and the event. A missing tick on Vein is one that
has not come for 2 periods after the module reported done; on the pins, for (overrun_limit + 2) periods after the expected tick. -/
def Obligations.LateStrata : Prop :=
  (∀ (s : State) (at_ q : Nat),
    let u := s.advanceTo at_
    let b := u.quarry q
    let point := b.lastTick + (1 + u.fld Fld.overrunLimit) * (100 * b.period)
    (u.ticking = true → q < quarryCount u.modeOf → b.opened = true → u.isDone q = false → b.overrun = false →
      point ≤ u.now → u.err.flintDown = false → u.policy 0x0601 = 0 →
      let v := (u.setQuarry q { b with overrun := true }).tickEvent q 0x0601 true
        ((u.setQuarry q { b with overrun := true }).lateContexts q)
      exec (.stratumOverrun at_ q) s = .next (v.setQuarry q { v.quarry q with faultDone := true }))
    ∧ (u.now < point ∨ u.isDone q = true → exec (.stratumOverrun at_ q) s = .next u)
    ∧ (q = 0 → u.ticking = true → u.fld Fld.role = 1 → b.opened = true → (u.isDone 0 = false ∨ u.downsDone 0 = false) →
      b.domOverrun = false → point ≤ u.now →
      let v := if u.isDone 0 = true then u else u.overrunQuarry 0
      let w := (v.setQuarry 0 { v.quarry 0 with domOverrun := true }).report { code := 0x0602 }
      w.policy 0x0602 = 0 → w.err.flintDown = false → exec (.domainOverrun at_) s = .next w.abortTick)
    ∧ (q = 0 → u.now < point → exec (.domainOverrun at_) s = .next u))
  ∧ (∀ (s : State) (at_ since : Nat),
    let u := s.advanceTo at_
    let b := u.quarry 0
    let v := if u.flag Fld.holdoverEn = true then u.setFld (Fld.holdover 0) 1 else u.setFld (Fld.hold 0) 1
    let w := v.setQuarry 0 { v.quarry 0 with holdoverTicks := 0 }
    (u.ticking = true → u.fld Fld.source = 2 → b.sentDone = true → b.opened = true → u.tickless 0 = false →
      b.heardAt + 2 * u.period 0 ≤ u.now → exec (.tickLost at_) s = .next (w.tickEvent 0 0x0603 false (w.jobContexts 0)))
    ∧ (u.ticking = true → u.fld Fld.source = 1 → b.sentDone = true → b.opened = true → u.tickless 0 = false →
      b.lastTick + (u.fld Fld.overrunLimit + 3) * u.period 0 ≤ u.now →
      exec (.tickLost at_) s = .next (w.tickEvent 0 0x0603 false (w.jobContexts 0)))
    ∧ (b.sentDone = false → exec (.tickLost at_) s = .next u)
    ∧ (u.ticking = true → u.deaf = false → u.fld Fld.source = 1 → u.tickless 0 = false → since + 2 * u.period 0 < u.now →
      exec (.tickStuck at_ since) s = .next (w.tickEvent 0 0x0604 false (w.jobContexts 0))))

/-- STR_CONFIG_WRITE: the write rules of the tick logic's set-up. A period or a minimum gap out of range, a minimum gap that is not below
the period, or an overrun_limit of 0 is ignored as a whole and sets cfg_reject; a host write is ignored and sets host_wr_reject; a
period that fits the words beside it and its budgets is stored.

STR_COUNT_LO_READ and STR_COUNT_WRITE. A read of the low half returns bits [31:0] of the counter and latches bits [47:32] for the
reading party alone; a write of either half takes effect only while run is 0 and leaves both latches. -/
def Obligations.StrataRegisters : Prop :=
  (∀ (s : State) (at_ : Nat) (value : Word),
    let u := s.advanceTo at_
    (u.admits .flint Reg.strPeriod = true →
      (bits value.toNat 0 10 < 25 ∨ 1000 < bits value.toNat 0 10 ∨ bits value.toNat 16 10 = 0 ∨ 999 < bits value.toNat 16 10
        ∨ bits value.toNat 0 10 ≤ bits value.toNat 16 10) →
      exec (.strConfigWrite at_ .flint Reg.strPeriod value) s = .next (u.setFld (Fld.strCfgReject 0) 1))
    ∧ (∀ off, (off = Reg.strCtrl ∨ off = Reg.strPeriod ∨ off = Reg.strDomain) → u.admits .host off = true →
      exec (.strConfigWrite at_ .host off value) s = .next (u.setFld Fld.hostWrReject 1))
    ∧ (u.admits .flint Reg.strCtrl = true → bits value.toNat 9 4 = 0 →
      exec (.strConfigWrite at_ .flint Reg.strCtrl value) s = .next (u.setFld (Fld.strCfgReject 0) 1))
    ∧ (∀ v : Word, v = value &&& 0x03FF03FF#32 → u.admits .flint Reg.strPeriod = true →
      strWordsOk (u.rd Reg.strCtrl).toNat v.toNat (u.rd Reg.strDomain).toNat = true →
      strFrozenOk (u.rd Reg.strCtrl).toNat (u.rd Reg.strDomain).toNat (u.rd Reg.strCtrl).toNat (u.rd Reg.strDomain).toNat = true →
      (u.wr Reg.strPeriod v).budgetsOk = true →
      exec (.strConfigWrite at_ .flint Reg.strPeriod value) s = .next (u.wr Reg.strPeriod v).driveOut))
  ∧ (∀ (s : State) (q : Nat), q < quarryCount s.modeOf →
    let b := s.quarry q
    (s.admits .host Reg.str = true → ∃ t, exec (.strCountLoRead .host q) s = .next t
      ∧ t.host.readData = b.count.toNat % 2 ^ 32 ∧ t.quarries = (s.setQuarry q { b with latchHost := b.count.extractLsb' 32 16 }).quarries
      ∧ t.regs = s.regs ∧ t.mem = s.mem ∧ t.core = s.core)
    ∧ (s.admits .flint Reg.str = true → ∃ t, exec (.strCountLoRead .flint q) s = .next t
      ∧ t.host.readData = b.count.toNat % 2 ^ 32 ∧ t.quarries = (s.setQuarry q { b with latchFlint := b.count.extractLsb' 32 16 }).quarries
      ∧ t.regs = s.regs ∧ t.mem = s.mem ∧ t.core = s.core)
    ∧ (s.admits .flint Reg.str = true → ∀ (hi : Bool) (v : Word), s.flag Fld.run = false →
      let n : BitVec 48 := if hi then (v.setWidth 16).append (b.count.setWidth 32) else (b.count.extractLsb' 32 16).append v
      exec (.strCountWrite .flint q hi v) s = .next (s.setQuarry q { b with count := n }))
    ∧ (s.admits .flint Reg.str = true → ∀ (hi : Bool) (v : Word), s.flag Fld.run = true → exec (.strCountWrite .flint q hi v) s = .next s))

/-! ## Cores, descriptor streams and tiles -/

/-- LOOP's counter: from 0, it takes trips − 1, trips − 2, … and is 0 after exactly trips executions, and not earlier; so the body
runs exactly trips times. -/
def Obligations.LoopRunsTrips : Prop :=
  ∀ (trips : BitVec 32), trips ≠ 0 → ∀ k : Nat, 1 ≤ k → k ≤ trips.toNat →
    Nat.repeat (fun c => loopCount c trips) k 0 = trips - BitVec.ofNat 32 k
      ∧ (Nat.repeat (fun c => loopCount c trips) k 0 = 0 ↔ k = trips.toNat)

/-- Semaphores. A wait is met when the value reaches wait_val, and taking it subtracts wait_val when consume is set; an add
saturates at 0xFFFF_FFFF and reports that it would have carried; a set takes effect at once; a context may use a semaphore only
when it is valid and the context owns or shares it. No other semaphore changes.

SEMAPHORE_WAKE: every stream that waits on the semaphore looks again, in turn: Ready when its condition is met, a fault of its
context when it may no longer use the semaphore, and Waiting still otherwise; no other stream changes. Then
the heads of Ready streams that wait on it look whether their wait is met now. -/
def Obligations.Semaphores : Prop :=
  (∀ (s : State) (k v : Nat), (s.sem k).valid = true →
    (((s.semAdd k v).1.sem k).value.toNat = min ((s.sem k).value.toNat + v) (2 ^ 32 - 1)
      ∧ (s.semAdd k v).2 = decide (2 ^ 32 ≤ (s.sem k).value.toNat + v)
      ∧ ∀ j, j ≠ k → (s.semAdd k v).1.sem j = s.sem j)
    ∧ (v < 2 ^ 32 → ((s.semSet k v).sem k).value.toNat = v ∧ ∀ j, j ≠ k → (s.semSet k v).sem j = s.sem j)
    ∧ (∀ core d, semKey core (dWaitSem d) = k → dWaitEn d = true → s.waitMet core d = true →
      ((s.takeWait core d).sem k).value.toNat = (s.sem k).value.toNat - (if dConsume d then dWaitVal d else 0)
        ∧ dWaitVal d ≤ (s.sem k).value.toNat ∧ ∀ j, j ≠ k → (s.takeWait core d).sem j = s.sem j)
    ∧ ∀ c, (s.sem k).permits c = ((s.sem k).owner == c || (s.sem k).share.getLsbD c))
  ∧ ((∀ (s : State) (at_ k : Nat), exec (.semaphoreWake at_ k) s = .next ((s.advanceTo at_).rewaitAll k)
    ∧ s.rewaitAll k = (s.core.streams.keys.foldl (fun t x => t.rewait k x) s).senseWaits k)
  ∧ ∀ (s : State) (k core n : Nat), n < 64 →
    let st := s.stream core n
    (st.state = .waiting → st.waitFor = .sem k → (s.sem k).permits st.ctx = true → s.waitMet core st.head = true →
      s.rewait k (64 * core + n) = s.wake core n ∧ ((s.wake core n).stream core n).state = .ready)
    ∧ (st.state = .waiting → st.waitFor = .sem k → (s.sem k).permits st.ctx = true → s.waitMet core st.head = false →
      s.rewait k (64 * core + n) = s)
    ∧ (st.state = .waiting → st.waitFor = .sem k → (s.sem k).permits st.ctx = false →
      s.rewait k (64 * core + n) = s.ctxError st.ctx core 0x0204 st.head)
    ∧ (st.waitFor ≠ .sem k → s.rewait k (64 * core + n) = s))

/-- DESCRIPTOR_ISSUE: the head is fetched and checked before it is issued. A program counter outside the program and a failed check
fault the context and issue nothing; a head that passes is held as issued, with whether its wait is met, and the descriptors after
it stand in the stream's buffer; a head that stands there is the one fetched.

QUEUE_ADMISSION: a full queue holds the stream and takes nothing from the semaphore; an admission takes the wait, puts the
descriptor at the back of its queue and lets the stream go on to the next one; a head that another one is served before stays. -/
def Obligations.DescriptorsAdmitted : Prop :=
  (∀ (s : State) (at_ core n : Nat),
    let u := s.advanceTo at_
    let st := u.stream core n
    u.mayIssue core n = true →
    (st.inProgram = false → exec (.descriptorIssue at_ core n) s = .next (u.ctxError st.ctx core 0x0206 0))
    ∧ (st.inProgram = true →
      (∀ (d : Nat) (buffer : List (Nat × Nat)) (v : State), (fetchHead core st) u = (Except.ok (d, buffer), v) →
        (v.descCheck core st.ctx d = none →
          exec (.descriptorIssue at_ core n) s
            = .next (v.setStream core n { st with issued := true, head := d, buffer := buffer, met := v.waitMet core d }))
        ∧ ∀ code, v.descCheck core st.ctx d = some code →
          exec (.descriptorIssue at_ core n) s = .next (v.ctxError st.ctx core code d))
      ∧ (∀ (code phys : Nat) (v : State), (fetchHead core st) u = (Except.error (.fault code phys), v) →
        exec (.descriptorIssue at_ core n) s = .next (v.raiseCtx { code := code, core := some core, phys := phys } st.ctx))
      ∧ (∀ (d : Nat) (buffer : List (Nat × Nat)) (v : State), (fetchHead core st) u = (Except.ok (d, buffer), v) →
        (st.pc, d) ∈ buffer ∧ buffer.length ≤ 4 ∧ ∀ x, (st.buffer.find? fun e => e.1 == st.pc) = some x → d = x.2)))
  ∧ (∀ (s : State) (at_ core n : Nat),
    let u := s.advanceTo at_
    let st := u.stream core n
    u.headReady core n = true → (dClass st.head = 5 ∨ dClass st.head = 6 ∨ dClass st.head = 8) →
    (u.queueRoom core (dClass st.head) = false →
      exec (.queueAdmission at_ core n) s = .next (u.setStream core n { st with state := .waiting, waitFor := .queue }))
    ∧ (u.queueRoom core (dClass st.head) = true →
      (dWaitEn st.head = true → (u.sem (semKey core (dWaitSem st.head))).permits st.ctx = true) → u.waitMet core st.head = true →
      (u.outranked core n = true → exec (.queueAdmission at_ core n) s = .next u) ∧
      (u.outranked core n = false →
      let v := u.takeWait core st.head
      let q : QEntry := { core := core, id := v.core.nextId, stream := n, ctx := st.ctx, desc := st.head
                          ticks := v.ticksOf st.ctx, startCount := v.countOf st.ctx }
      exec (.queueAdmission at_ core n) s = .next ((v.enqueue core n).goOn core n)
        ∧ (dClass st.head = 5 → ((v.enqueue core n).goOn core n).core.dmaq = u.core.dmaq ++ [q])
        ∧ (dClass st.head = 6 → ((v.enqueue core n).goOn core n).core.hubq = u.core.hubq ++ [q])
        ∧ (dClass st.head = 8 → ((v.enqueue core n).goOn core n).core.wsq = u.core.wsq ++ [q]))))

/-- TILE_PICK. It completes wherever an engine is free, Flint withholds nothing and no checker's tile or replay comes first: of the
candidates the best one starts: a tile that waits for nothing, or whose wait is met and that no other head is served before; so
do a tile that goes on at its resume point and a tile that Flint has placed on the core; the engine then holds the tile. A head that
another one is served before stays, and with the engine held nothing happens. -/
def Obligations.PickerTakesBest : Prop :=
  ∀ (s : State) (at_ core : Nat) (e : Engine) (n : Nat),
    let u := s.advanceTo at_
    let st := u.stream core n
    (u.engineFree core e = true → u.withheld = false → u.checkerNext core e = none → u.replayClaims e = false →
      (u.placedNext core e = none → u.bestOf core e = some n →
        (st.resume.isSome = true ∨ ((dWaitEn st.head = true → (u.sem (semKey core (dWaitSem st.head))).permits st.ctx = true)
          ∧ u.waitMet core st.head = true ∧ u.outranked core n = false) →
          exec (.tilePick at_ core e) s = .next (u.startTile core n e)
            ∧ ((u.startTile core n e).stream core n).state = .busy
            ∧ ∃ t, t ∈ (u.startTile core n e).core.tiles ∧ t.core = core ∧ t.engine = e ∧ t.stream = n ∧ t.ctx = st.ctx
                ∧ t.desc = st.head ∧ t.phase = .running ∧ t.startAt = u.now)
        ∧ (st.resume = none → (dWaitEn st.head = true → (u.sem (semKey core (dWaitSem st.head))).permits st.ctx = true) →
          u.waitMet core st.head = true → u.outranked core n = true → exec (.tilePick at_ core e) s = .next u))
      ∧ ∀ t, u.placedNext core e = some t → exec (.tilePick at_ core e) s = .next ((u.dropTile t.core t.stream).beginTile t))
    ∧ (u.engineFree core e = false → exec (.tilePick at_ core e) s = .next u)
    ∧ (u.withheld = true → exec (.tilePick at_ core e) s = .next u)
    ∧ (u.bestOf core e = some n → u.candidate core e n = true)

/-- WAIT, YIELD, LOOP and BRANCH: once the header's wait is taken, WAIT goes on, YIELD parks the stream at the next descriptor, LOOP
and BRANCH go on or branch by their offset in descriptors.

END and SIGNAL, and a wait that is not met: END ends the stream, keeps its end_code, and ends the job when every enabled stream has
ended; SIGNAL signals the header target and then its extra targets and goes on; a control descriptor whose wait is not met
moves its stream to Waiting and takes nothing; one that another head is served before stays as it is. -/
def Obligations.ControlDescriptors : Prop :=
  (∀ (s : State) (at_ core n : Nat),
    let u := s.advanceTo at_
    let st := u.stream core n
    let d := st.head
    u.headReady core n = true → (dWaitEn d = true → (u.sem (semKey core (dWaitSem d))).permits st.ctx = true) →
    u.waitMet core d = true → u.outranked core n = false →
    let v := u.takeWait core d
    let st := v.stream core n
    (dOpcode d = 0x71 → exec (.wait at_ core n) s = .next (v.goTo core n (st.pc + 64)))
    ∧ (dOpcode d = 0x75 → exec (.yield at_ core n) s
        = .next (v.setStream core n { st with state := .parked, issued := false, released := false, pc := st.pc + 64 }))
    ∧ (dOpcode d = 0x73 →
      let k := fieldAt d 16 0 2
      let c := loopCount (st.count k) (BitVec.ofNat 32 (fieldAt d 20 0 32))
      let w := v.setStream core n (st.setCount k c)
      (c = 0 → exec (.loop at_ core n) s = .next (w.goOn core n))
        ∧ (c ≠ 0 → exec (.loop at_ core n) s = .next (w.goTo core n (branchPc st.pc (ctlOffset d)))))
    ∧ (dOpcode d = 0x74 →
      let m := v.sem (semKey core (fieldAt d 18 0 16))
      (fieldAt d 16 0 8 = 0 → exec (.branch at_ core n) s = .next (v.goTo core n (branchPc st.pc (ctlOffset d))))
        ∧ (fieldAt d 16 0 8 ≠ 0 → m.permits st.ctx = true →
          branchCond (fieldAt d 16 0 8) m.value.toNat (fieldAt d 20 0 32) = true →
          exec (.branch at_ core n) s = .next (v.goTo core n (branchPc st.pc (ctlOffset d))))
        ∧ (fieldAt d 16 0 8 ≠ 0 → m.permits st.ctx = true →
          branchCond (fieldAt d 16 0 8) m.value.toNat (fieldAt d 20 0 32) = false →
          exec (.branch at_ core n) s = .next (v.goTo core n (st.pc + 64)))
        ∧ (fieldAt d 16 0 8 ≠ 0 → m.permits st.ctx = false →
          exec (.branch at_ core n) s = .next (v.ctxError st.ctx core 0x0204 d))))
  ∧ (∀ (s : State) (at_ core n : Nat),
    let u := s.advanceTo at_
    let st := u.stream core n
    let d := st.head
    u.headReady core n = true → (dWaitEn d = true → (u.sem (semKey core (dWaitSem d))).permits st.ctx = true) →
    (u.waitMet core d = true → u.outranked core n = true →
      (dOpcode d = 0x71 → exec (.wait at_ core n) s = .next u) ∧ (dOpcode d = 0x72 → exec (.signal at_ core n) s = .next u)
      ∧ (dOpcode d = 0x73 → exec (.loop at_ core n) s = .next u) ∧ (dOpcode d = 0x74 → exec (.branch at_ core n) s = .next u)
      ∧ (dOpcode d = 0x75 → exec (.yield at_ core n) s = .next u) ∧ (dOpcode d = 0x76 → exec (.end_ at_ core n) s = .next u))
    ∧ (u.waitMet core d = true → u.outranked core n = false →
      let v := u.takeWait core d
      let st := v.stream core n
      (dOpcode d = 0x76 →
        let w := v.setStream core n { st with state := .ended, issued := false, released := false
                                              endCode := BitVec.ofNat 32 (fieldAt d 16 0 32) }
        (w.allEnded st.ctx = false → exec (.end_ at_ core n) s = .next w)
          ∧ (w.allEnded st.ctx = true →
            exec (.end_ at_ core n) s = .next ((w.setFld (Fld.ctxState st.ctx) csEnded).endJob st.ctx 0)))
      ∧ (dOpcode d = 0x72 →
        let r := v.signals st.ctx core d (sigTargets d)
        (r.2 = true → exec (.signal at_ core n) s = .next (r.1.goOn core n))
          ∧ (r.2 = false → exec (.signal at_ core n) s = .next r.1)))
    ∧ (u.waitMet core d = false →
      (dOpcode d = 0x71 → exec (.wait at_ core n) s = .next (u.waitOn core n (semKey core (dWaitSem d))))
      ∧ (u.waitOn core n (semKey core (dWaitSem d))).core.sems = u.core.sems
      ∧ ((u.waitOn core n (semKey core (dWaitSem d))).stream core n).state = .waiting))

/-- TILE_FINISH, TILE_GUARD and CORE_HANG: a tile whose work is done finishes, or waits for its checker; an engine that a fault stopped
comes free; 20 µs of counted time stop a tile that has not finished and fault its context; an engine that does not stop within
2 µs of that is a hang of its core. -/
def Obligations.TileEnds : Prop :=
  ∀ (s : State) (at_ core n : Nat) (t : Tile),
    let u := s.advanceTo at_
    u.tileOf core n = some t →
    (t.phase = .worked → t.checker = none → exec (.tileFinish at_ core n) s = .next (u.finishTile t))
    ∧ (t.phase = .stopping → exec (.tileFinish at_ core n) s = .next (u.dropTile core n))
    ∧ (t.phase = .worked → t.checker ≠ none →
      let v := u.setTile { t with phase := .checking, stopAt := u.now, long := u.longTile t }
      let o := t.home.getD (t.core, t.stream)
      exec (.tileFinish at_ core n) s = .next (v.setStream o.1 o.2 { u.stream o.1 o.2 with waitFor := .checker }))
    ∧ (t.phase = .running ∨ t.phase = .worked ∨ t.phase = .recheck → t.startGuard + 2000 ≤ (u.slab (core / 40)).guard →
      exec (.tileGuard at_ core n) s
        = .next ((u.setTile { t with phase := .stopping, stopAt := u.now }).ctxError t.ctx core 0x0203 t.desc))
    ∧ ((u.slab (core / 40)).guard < t.startGuard + 2000 → exec (.tileGuard at_ core n) s = .next u)
    ∧ (u.core.tiles = [t] → t.core = core → t.phase = .stopping → t.stopAt + 200 ≤ u.now → u.openRec domContext t.ctx = none →
      exec (.coreHang at_ core) s = .next (u.raise
        { code := 0x0208, domain := domCore, index := core, ctx := some t.ctx, core := some core
          tileId := BitVec.ofNat 32 (dTileId t.desc), layerTag := BitVec.ofNat 16 (dLayerTag t.desc) }))

/-! ## Tiles of the engines and the DMA engine -/

/-- The work of a tile of the matrix array: where it meets no fault, all that it writes and raises is in the state, and the tile is
Worked.

The same of a KERNEL tile of the vector engine and of the tiles of the row engine.

A tile that is not there, that does not run, that is of another operation or whose core is fenced is left alone by every command
that works a tile. Work that meets a fault stops its tile and faults the context with its code, and a failed checksum also keeps the
evidence; work that cannot go on yet leaves everything as it stands. -/
def Obligations.TilesWork : Prop :=
  (∀ (s v : State) (core n : Nat) (t : Tile) (y : Tally),
    (∀ fail, s.atWork core n 0x11 t → (matmulWork fail t) (s.beginLog t) = (Except.ok y, v) →
      exec (.matmul core n fail) s = .next (v.workDone core n t y))
    ∧ (s.atWork core n 0x12 t → (epilogueWork t) (s.beginLog t) = (Except.ok y, v) →
      exec (.epilogue core n) s = .next (v.workDone core n t y))
    ∧ (s.atWork core n 0x13 t → (combineWork t) (s.beginLog t) = (Except.ok y, v) →
      exec (.slotCombine core n) s = .next (v.workDone core n t y))
    ∧ (s.atWork core n 0x15 t → (elementwiseWork t) (s.beginLog t) = (Except.ok y, v) →
      exec (.elementwise core n) s = .next (v.workDone core n t y))
    ∧ (s.atWork core n 0x16 t → (spillWork t) (s.beginLog t) = (Except.ok y, v) →
      exec (.spill core n) s = .next (v.workDone core n t y))
    ∧ (s.atWork core n 0x17 t → (fillSlotsWork t) (s.beginLog t) = (Except.ok y, v) →
      exec (.fill core n) s = .next (v.workDone core n t y)))
  ∧ (∀ (s v : State) (core n : Nat) (t : Tile) (y : Tally),
    (s.atWork core n 0x21 t → (kernelWork t) (s.beginLog t) = (Except.ok y, v) →
      exec (.kernel core n) s = .next (v.workDone core n t y))
    ∧ (s.atWork core n 0x31 t → (softmaxFwdWork t) (s.beginLog t) = (Except.ok y, v) →
      exec (.softmaxFwd core n) s = .next (v.workDone core n t y))
    ∧ (s.atWork core n 0x32 t → (softmaxBwdWork t) (s.beginLog t) = (Except.ok y, v) →
      exec (.softmaxBwd core n) s = .next (v.workDone core n t y))
    ∧ (s.atWork core n 0x33 t → (normFwdWork 0x33 t) (s.beginLog t) = (Except.ok y, v) →
      exec (.lnormFwd core n) s = .next (v.workDone core n t y))
    ∧ (s.atWork core n 0x34 t → (normBwdWork 0x34 t) (s.beginLog t) = (Except.ok y, v) →
      exec (.lnormBwd core n) s = .next (v.workDone core n t y))
    ∧ (s.atWork core n 0x35 t → (normFwdWork 0x35 t) (s.beginLog t) = (Except.ok y, v) →
      exec (.rmsnormFwd core n) s = .next (v.workDone core n t y))
    ∧ (s.atWork core n 0x36 t → (normBwdWork 0x36 t) (s.beginLog t) = (Except.ok y, v) →
      exec (.rmsnormBwd core n) s = .next (v.workDone core n t y))
    ∧ (s.atWork core n 0x37 t → (statsSpillWork t) (s.beginLog t) = (Except.ok y, v) →
      exec (.statsSpill core n) s = .next (v.workDone core n t y))
    ∧ (s.atWork core n 0x38 t → (statsFillWork t) (s.beginLog t) = (Except.ok y, v) →
      exec (.statsFill core n) s = .next (v.workDone core n t y)))
  ∧ (∀ (s : State) (core n op : Nat) (work clean : Tile → Exec Tally) (stage cleanStage : Tile → Exec Bool) (stages : Nat),
    ((∀ t, s.tileOf core n = some t → t.phase ≠ .running ∨ dOpcode t.desc ≠ op ∨ s.coreFenced core = true) →
      s.runTile core n op work clean = s ∧ State.pipeRun op core n stage cleanStage stages s = s)
    ∧ (∀ (t : Tile) (v : State), s.atWork core n op t →
      (∀ code phys, (work t) (s.beginLog t) = (Except.error (.fault code phys), v) →
        let w := ((v.endLog t).1.setTile { t with phase := .stopping, stopAt := v.now }).raiseCtx
          { code := code, core := some core, phys := phys, tileId := BitVec.ofNat 32 (dTileId t.desc)
            layerTag := BitVec.ofNat 16 (dLayerTag t.desc) } t.ctx
        s.runTile core n op work clean = if code = 0x0212
          then w.capture t 0 0xFFFF 0 0 ((clean t) s.logged).2.accesses ((work t) s.logged).2.accesses else w)
      ∧ ((work t) (s.beginLog t) = (Except.error .stall, v) → s.runTile core n op work clean = s)
      ∧ ((stage t) (s.beginLog t) = (Except.error .stall, v) → State.pipeRun op core n stage cleanStage stages s = s)))

/-- REDUCE: a member's tile begins and waits for its first partner inside the tile, or is done where it has no round; REDUCE_PULL: a
receiver takes its sender's slots once both tiles run in the same round with the same reduce header, which ends the sender's
tile; a header that differs stops both. -/
def Obligations.ReduceRounds : Prop :=
  ∀ (s : State) (core n : Nat) (t : Tile), s.atWork core n 0x14 t →
    (t.round = 0 → ∀ k, (reduceBody t.desc).nextRound 5 0 = some k →
      exec (.reduce core n) s = .next (s.setTile { t with round := k + 1 }))
    ∧ (t.round = 0 → (reduceBody t.desc).nextRound 5 0 = none →
      exec (.reduce core n) s = .next (s.setTile { t with phase := .worked }))
    ∧ (t.round ≠ 0 → exec (.reduce core n) s = .next s)
    ∧ (t.round ≠ 0 → ∀ (sender : Nat) (u : Tile), (reduceBody t.desc).sends (t.round - 1) = false →
      (reduceBody t.desc).core ((reduceBody t.desc).rank + 2 ^ (t.round - 1)) = sender →
      s.core.tiles.find? (fun x => x.core == sender && x.phase == .running && dOpcode x.desc == 0x14 && x.round != 0) = some u →
      (((reduceBody t.desc).pull ≠ (reduceBody u.desc).pull ∨ u.ctx ≠ t.ctx) →
        exec (.reducePull core n sender) s = .next ((s.stopReduce u).stopReduce t))
      ∧ ((reduceBody t.desc).pull = (reduceBody u.desc).pull → u.ctx = t.ctx → (reduceBody u.desc).sends (u.round - 1) = true →
        u.round = t.round → ∀ (v : State),
        (pullWork t (reduceBody t.desc) u (reduceBody u.desc)) s = (Except.ok (), v) →
        exec (.reducePull core n sender) s
          = .next ((v.setTile { u with phase := .worked }).reduceTo ((v.tileOf core n).getD t) (t.round - 1 + 1))))

/-- COPY, TRANSPOSE and FILL run as entries of the DMA queue and keep their place until DMA_LANDED, which frees the place and gives
the descriptor's signal. A COPY that meets a fault leaves the queue and faults its context. -/
def Obligations.DmaMoves : Prop :=
  (∀ (s v : State) (core : Nat) (q : QEntry),
    (s.atDma core 0x51 q → (copyWork core q.ctx (dmaBody q.desc)) s = (Except.ok (), v) → exec (.copy core q.id) s = .next (v.dmaMoved q))
    ∧ (s.atDma core 0x52 q → (transposeWork core q.ctx (dmaBody q.desc)) s = (Except.ok (), v) →
      exec (.transpose core q.id) s = .next (v.dmaMoved q))
    ∧ (s.atDma core 0x53 q → (fillWork core q.ctx (dmaBody q.desc)) s = (Except.ok (), v) →
      exec (.dmaFill core q.id) s = .next (v.dmaMoved q))
    ∧ (s.atDma core 0x51 q → ∀ code phys, (copyWork core q.ctx (dmaBody q.desc)) s = (Except.error (.fault code phys), v) →
      exec (.copy core q.id) s = .next
        (({ v with core := { v.core with dmaq := v.core.dmaq.filter fun x => x.id != q.id } } : State).raiseCtx
          { code := code, core := some core, phys := phys, tileId := BitVec.ofNat 32 (dTileId q.desc)
            layerTag := BitVec.ofNat 16 (dLayerTag q.desc) } q.ctx)))
  ∧ ∀ (s : State) (at_ core id : Nat) (q : QEntry),
    let u := s.advanceTo at_
    (u.core.dmaq.find? (fun q => q.core == core && q.id == id && q.moved) = some q →
      exec (.dmaLanded at_ core id) s = .next
        (({ u with core := { u.core with dmaq := u.core.dmaq.filter fun x => x.id != id } } : State).signalHeader q.ctx core q.desc))
    ∧ (u.core.dmaq.find? (fun q => q.core == core && q.id == id && q.moved) = none → exec (.dmaLanded at_ core id) s = .next u)

/-! ## The attention pipe and the paged cache -/

/-- KV_APPEND, KV_DEMOTE, ATTN_FWD, ATTN_BWD, ATTN_DECODE, BUCKET_SORT and SEQ_DONE go on by stages: the last stage leaves the tile
Worked, and any other leaves it running at its next stage. A token of KV_APPEND on a slot that has failed ends the tile, and
SEQ_DONE on a free slot does nothing but finish. `f` says whether a comparison of checksums fails in a stage of the attention
commands; one that fails stops the tile with MATRIX_CHECKSUM. -/
def Obligations.PipeTilesWork : Prop :=
  ∀ (s v : State) (core n k : Nat) (f : Bool) (t : Tile),
    (s.atWork core n 0x4E t → (appendStage t) (s.beginLog t) = (Except.ok true, v) →
      exec (.kvAppend core n) s = .next (v.pipeDone core n t))
    ∧ (s.atWork core n 0x4F t → (demoteStage t) (s.beginLog t) = (Except.ok true, v) →
      exec (.kvDemote core n (k + 1)) s = .next (v.pipeDone core n t))
    ∧ (s.atWork core n 0x4F t → (demoteStage t) (s.beginLog t) = (Except.ok false, v) →
      exec (.kvDemote core n 1) s = .next (v.keepLog core n t)
        ∧ exec (.kvDemote core n (k + 1)) s = exec (.kvDemote core n k) (v.keepLog core n t))
    ∧ (s.atWork core n 0x41 t → (attnStage 0x41 f t) (s.beginLog t) = (Except.ok true, v) →
      exec (.attnFwd core n ⟨k + 1, f⟩) s = .next (v.pipeDone core n t))
    ∧ (s.atWork core n 0x41 t → (attnStage 0x41 f t) (s.beginLog t) = (Except.ok false, v) →
      exec (.attnFwd core n ⟨1, f⟩) s = .next (v.keepLog core n t)
        ∧ exec (.attnFwd core n ⟨k + 1, f⟩) s = exec (.attnFwd core n ⟨k, f⟩) (v.keepLog core n t))
    ∧ (s.atWork core n 0x42 t → (attnStage 0x42 f t) (s.beginLog t) = (Except.ok true, v) →
      exec (.attnBwd core n ⟨k + 1, f⟩) s = .next (v.pipeDone core n t))
    ∧ (s.atWork core n 0x42 t → (attnStage 0x42 f t) (s.beginLog t) = (Except.ok false, v) →
      exec (.attnBwd core n ⟨1, f⟩) s = .next (v.keepLog core n t)
        ∧ exec (.attnBwd core n ⟨k + 1, f⟩) s = exec (.attnBwd core n ⟨k, f⟩) (v.keepLog core n t))
    ∧ (s.atWork core n 0x43 t → (attnStage 0x43 f t) (s.beginLog t) = (Except.ok true, v) →
      exec (.attnDecode core n ⟨k + 1, f⟩) s = .next (v.pipeDone core n t))
    ∧ (s.atWork core n 0x43 t → (attnStage 0x43 f t) (s.beginLog t) = (Except.ok false, v) →
      exec (.attnDecode core n ⟨1, f⟩) s = .next (v.keepLog core n t)
        ∧ exec (.attnDecode core n ⟨k + 1, f⟩) s = exec (.attnDecode core n ⟨k, f⟩) (v.keepLog core n t))
    ∧ (s.atWork core n 0x44 t → (bucketSortStage t) (s.beginLog t) = (Except.ok true, v) →
      exec (.bucketSort core n) s = .next (v.pipeDone core n t))
    ∧ (s.atWork core n 0x45 t → (seqDoneStage t) (s.beginLog t) = (Except.ok true, v) →
      exec (.seqDone core n) s = .next (v.pipeDone core n t))
    ∧ (s.atWork core n 0x4E t → t.checker = none → s.core.log = none → (s.slot (appendBody t.desc).slot).status ≠ 0 →
      s.slotOwned (appendBody t.desc).slot t.ctx = true →
      exec (.kvAppend core n) s = .next (s.setTile { t with phase := .worked }))
    ∧ (s.atWork core n 0x45 t → t.checker = none → s.core.log = none → (s.slot (fieldAt t.desc 16 0 7)).valid = false →
      exec (.seqDone core n) s = .next (s.setTile { t with phase := .worked }))
    ∧ (s.atWork core n 0x43 t → ∀ code phys, (attnStage 0x43 f t) (s.beginLog t) = (Except.error (.fault code phys), v) → code ≠ 0x0212 →
      let w := v.keepLog core n t
      let x := (w.tileOf core n).getD t
      exec (.attnDecode core n ⟨k + 1, f⟩) s = .next ((w.setTile { x with phase := .stopping, stopAt := w.now }).raiseFor x code phys))

/-- KV_FRAME_MAP, KV_FULL, KV_SUBSLOT_RELEASE, KV_VERSION_REPLAY: the first waiting fault of a context takes
a free frame, after one for each table that the tree lacks there, or only wakes where its subslot has been mapped since; a fault whose budget of strata has run out at a tick fails its
sequence and takes no frame any more; posted subslots give their frames back; a tile that met an odd version replays once it is even,
or its record can no longer be read. -/
def Obligations.KvService : Prop :=
  ∀ (s : State) (at_ ctx slot core n : Nat),
    let u := s.advanceTo at_
    (∀ w, u.kv.waits.find? (fun w => w.ctx == ctx && !w.lost && !u.err.flintDown) = some w →
      let same : KvWait → Bool := fun x => x.ctx == ctx && x.va == w.va && !x.lost
      (u.gap ctx w.va = none → exec (.kvFrameMap at_ ctx) s = .next (u.kvWake same))
      ∧ (∀ e rest, u.gap ctx w.va = some (e, rest) →
        ((u.freeFrames ctx).length ≤ rest.length ∨ u.protectedAt e → exec (.kvFrameMap at_ ctx) s = .next u)
        ∧ (u.protectedAt e = false → ∀ pa frames, u.freeFrames ctx = pa :: frames →
          (rest = [] → exec (.kvFrameMap at_ ctx) s = .next ((u.mapFrame ctx w.slot w.va pa e).kvWake same))
          ∧ (∀ l more, rest = l :: more → more.length < frames.length → exec (.kvFrameMap at_ ctx) s = .next
            (((u.makeTable ctx pa e l).mapDown ctx w.slot w.va (pa + 8 * bits w.va l.shift l.width) more frames).kvWake same)))))
    ∧ (∀ w, u.kv.waits.find? (fun w => w.slot == slot && w.lost) = some w →
      exec (.kvFull at_ slot) s = .next (u.failPage w.ctx w.core slot 0x0501 (bits w.va 16 24)))
    ∧ ((∀ w, w ∈ u.kv.waits → w.ctx = ctx → w.lost = true) → exec (.kvFrameMap at_ ctx) s = .next u)
    ∧ ((∀ w, w ∈ u.kv.waits → w.slot = slot → w.lost = false) → exec (.kvFull at_ slot) s = .next u)
    ∧ (u.err.flintDown = false → exec (.kvSubslotRelease at_) s = .next
      (u.kv.posted.foldl (fun s (p : Nat × Nat) => s.releaseSubslot p.1 p.2) { u with kv := { u.kv with posted := [] } }))
    ∧ (∀ odd va, (u.stream core n).state = .waiting → (u.stream core n).waitFor = .kvVersion odd va →
      (∀ v, u.peekVersion core (u.stream core n).ctx va = some v →
        exec (.kvVersionReplay at_ core n) s = .next (if v % 2 = 0 then u.wake core n else u))
      ∧ (u.peekVersion core (u.stream core n).ctx va = none → exec (.kvVersionReplay at_ core n) s = .next (u.wake core n)))

/-! ## Memory -/

/-- Main memory and Geode: what is stored from an address on is read from there, and every byte at another address reads as before;
the canonical form is kept.

A local store belongs to its core: what is stored in 2 MiB of one core is read there, and no other byte and no other core's store
changes. Host memory reads back in the same way.

The accumulators and the statistics memory of a core: an accumulator holds the 40 bits stored in it and a statistics record its 16
bytes, and no other accumulator, record or core changes, and no other memory. -/
def Obligations.MemoriesReadBack : Prop :=
  (∀ (s : State) (l : List Byte) (a : Nat), Sound s → a + l.length ≤ 2 ^ 52 →
    let t := s.putPhys a l
    t.physBytes a l.length = l ∧ (∀ b, b < 2 ^ 52 → (b < a ∨ a + l.length ≤ b) → t.physByte b = s.physByte b)
      ∧ Memory.wf t.mem = true ∧ t.regs = s.regs ∧ t.core = s.core ∧ t.mem.host = s.mem.host)
  ∧ ((∀ (s : State) (l : List Byte) (core a : Nat), Sound s → a + l.length ≤ 2 ^ 21 →
    let t := s.putLs core a l
    (∀ i, i < l.length → t.lsByte core (a + i) = l.getD i 0)
      ∧ (∀ c b, b < 2 ^ 21 → (c ≠ core ∨ b < a ∨ a + l.length ≤ b) → t.lsByte c b = s.lsByte c b)
      ∧ Memory.wf t.mem = true ∧ t.regs = s.regs ∧ t.core = s.core)
  ∧ ∀ (s : State) (l : List Byte) (a : Nat), Sound s → a + l.length ≤ 2 ^ 64 →
    let t := s.putHost a l
    t.hostBytes a l.length = l ∧ (∀ b, b < 2 ^ 64 → (b < a ∨ a + l.length ≤ b) → t.hostByte b = s.hostByte b)
      ∧ Memory.wf t.mem = true ∧ t.regs = s.regs ∧ t.core = s.core)
  ∧ ((∀ (s : State) (core slot i j : Nat) (v : BitVec 40), Sound s → slot < 128 → i < 32 → j < 32 →
    let t := s.setAcc core slot i j v
    t.acc core slot i j = v
      ∧ (∀ c k a b, k < 128 → a < 32 → b < 32 → (c ≠ core ∨ k ≠ slot ∨ a ≠ i ∨ b ≠ j) → t.acc c k a b = s.acc c k a b)
      ∧ Memory.wf t.mem = true ∧ t.mem = { s.mem with acc := t.mem.acc } ∧ t.regs = s.regs ∧ t.core = s.core)
  ∧ ∀ (s : State) (core k : Nat) (l : List Byte), Sound s → k < 16384 → l.length = 16 →
    let t := s.putStat core k l
    t.statBytes core k = l ∧ (∀ c n, n < 16384 → (c ≠ core ∨ n ≠ k) → t.statBytes c n = s.statBytes c n)
      ∧ Memory.wf t.mem = true ∧ t.mem = { s.mem with stat := t.mem.stat } ∧ t.regs = s.regs ∧ t.core = s.core)

/-- Multi-byte fields are little-endian, with byte 0 at the lowest address: byte i of a number stored in k bytes is its bits
[8i + 7:8i], and reading the bytes gives the number back as far as k bytes hold it. -/
def Obligations.LittleEndian : Prop :=
  ∀ (k n : Nat), (leBytes k n).length = k ∧ leNat (leBytes k n) = n % 256 ^ k
    ∧ ∀ i, i < k → (leBytes k n).getD i 0 = BitVec.ofNat 8 (bits n (8 * i) 8)

/-- PATROL_SCRUB, FRAME_COUNT_RESTART and CHANNEL_BURST. A read of a scrub corrects or reports what the granule holds, and the last
one of a pass clears the active bit; while scrubbing is off the counts of frames restart after each period; more than 64 corrected
errors of a channel in one second are a burst, reported once, and by default Flint retrains the channel.

TLB_INVALIDATE, INVALIDATE_DONE and MEM_LAYOUT_WRITE. A host write of these registers is ignored; scope 3 is rejected; go starts an
invalidation, which ends by removing exactly the translations it names and clearing busy; a change of layout is rejected while a
context exists or where global_gib + buddy_gib is above 633, and otherwise is stored and loses main memory. -/
def Obligations.MemoryService : Prop :=
  (∀ (s : State) (at_ pa ch : Nat),
    let u := s.advanceTo at_
    (u.flag Fld.scrubEn = true → u.scrubbable pa = true → u.flag Fld.scrubActive = true →
      u.now < u.mem.scrubStart + hours (u.fld Fld.scrubPeriod) →
      exec (.patrolScrub at_ pa true) s = .next ((u.readCheck pa fun _ => true).setFld Fld.scrubActive 0)
        ∧ exec (.patrolScrub at_ pa false) s = .next (u.readCheck pa fun _ => true))
    ∧ (u.flag Fld.scrubEn = false → ∀ last, exec (.patrolScrub at_ pa last) s = .next u)
    ∧ (u.flag Fld.scrubEn = false → u.periodsTo u.mem.scrubStart < u.periodsTo u.now →
      exec (.frameCountRestart at_) s = .next { u with mem := { u.mem with frameCe := [], scrubStart := u.now } })
    ∧ (u.flag Fld.scrubEn = true → exec (.frameCountRestart at_) s = .next u)
    ∧ (64 < u.burstCount ch → SMap.get (fun _ => false) u.mem.bursting ch = false → ch < 512 → u.policy 0x0113 = 0 →
      let v := ({ u with mem := { u.mem with bursting := SMap.put (fun _ => false) u.mem.bursting ch true } } : State).report
        { code := 0x0113, index := ch }
      exec (.channelBurst at_ ch) s = .next { v with mem := { v.mem with retraining := v.mem.retraining ++ [(ch, v.now)] } })
    ∧ (u.burstCount ch ≤ 64 → exec (.channelBurst at_ ch) s = .next u))
  ∧ ((∀ (s : State) (value : Word),
    (s.admits .host Reg.mem = true → exec (.tlbInvalidate .host value) s = .next (s.setFld Fld.hostWrReject 1)
      ∧ exec (.memLayoutWrite .host value) s = .next (s.setFld Fld.hostWrReject 1))
    ∧ (s.admits .flint Reg.mem = true →
      (bits value.toNat 29 2 = 3 → exec (.tlbInvalidate .flint value) s = .next (s.setFld Fld.memCfgReject 1))
      ∧ (bits value.toNat 29 2 ≠ 3 → bit value.toNat 31 = true → s.flag Fld.invBusy = false →
        let v := s.setFld Fld.invBusy 1
        let what := (bits value.toNat 29 2, bits value.toNat 26 3, bits value.toNat 0 2 * 2 ^ 46 + (s.rd Reg.memTlbInvLo).toNat * 2 ^ 14)
        exec (.tlbInvalidate .flint value) s = .next { v with mem := { v.mem with inval := some what } })
      ∧ (s.anyCtx = true → value &&& 0x03FF03FF#32 ≠ s.rd Reg.memLayout →
        exec (.memLayoutWrite .flint value) s = .next (s.setFld Fld.memCfgReject 1))
      ∧ (633 < bits value.toNat 0 10 + bits value.toNat 16 10 → value &&& 0x03FF03FF#32 ≠ s.rd Reg.memLayout →
        exec (.memLayoutWrite .flint value) s = .next (s.setFld Fld.memCfgReject 1))
      ∧ (s.anyCtx = false → layoutOk (value &&& 0x03FF03FF#32).toNat = true → value &&& 0x03FF03FF#32 ≠ s.rd Reg.memLayout → Sound s →
        ∃ t, exec (.memLayoutWrite .flint value) s = .next t ∧ t.rd Reg.memLayout = value &&& 0x03FF03FF#32
          ∧ t.flag Fld.buddyValid = false ∧ t.mem.mainEpoch = s.mem.mainEpoch + 1 ∧ t.mem.ls = s.mem.ls ∧ t.mem.host = s.mem.host)))
  ∧ ∀ (s : State) (at_ : Nat) (v : Nat × Nat × Nat),
    let u := s.advanceTo at_
    u.mem.inval = some v →
    exec (.invalidateDone at_) s = .next
      (({ u with mem := { u.mem with tlb := u.mem.tlb.filter fun e => !invalidates v e, inval := none } } : State).setFld Fld.invBusy 0))

/-! ## Whetstone, leases and seals -/

/-- WS_UPDATE, WS_UPDATE_WRITEBACK, SHARD_DRAIN_COMPLETE, LEASE_HELD. An accepted update gives the shard its parameters' format; the
first descriptor of an update closes the shard to new leases
and drains it; the blocks run once the shard is updating; the writeback frees the place and finishes the entry; a shard whose
leases read 0 leaves draining, and one still leased after two strata faults its context.

WS_LEASE, LEASE_MESSAGE, LEASE_REPLY, WS_SEAL. Each message of a lease descriptor goes to its home module; the home answers it; a
reply is written to its entry and the descriptor ends with its last reply, RANGE ending it at once, but a reply waits whose entry lies
in the Geode share of a displaced context; a seal writes the step's
flags and clears them. -/
def Obligations.WhetstoneRuns : Prop :=
  ((∀ (s v : State) (core : Nat) (q : QEntry) (j : WsJob), s.wsEntry core q.id 0x81 = some q →
    (s.ws.jobs.find? (fun j => j.id == q.id) = some j → exec (.wsUpdate core q.id) s = .next (s.wsGo q j))
    ∧ (s.ws.jobs.find? (fun j => j.id == q.id) = none → (wsAccept q (wsBody q.desc)) s = (Except.ok j, v) →
      (wsBody q.desc).first = false →
      let x := { v.shard q.ctx (wsBody q.desc).shard with pFmt := some (BitVec.ofNat 1 (if (wsBody q.desc).f16 then 1 else 0)) }
      let w := (v.setShard q.ctx (wsBody q.desc).shard x).drain q.ctx (wsBody q.desc).shard
      exec (.wsUpdate core q.id) s = .next (({ w with ws := { w.ws with jobs := w.ws.jobs ++ [j] } } : State).wsGo q j))
    ∧ (s.ws.jobs.find? (fun j => j.id == q.id) = none → (wsAccept q (wsBody q.desc)) s = (Except.ok j, v) →
      (wsBody q.desc).first = true →
      let x := { v.shard q.ctx (wsBody q.desc).shard with pFmt := some (BitVec.ofNat 1 (if (wsBody q.desc).f16 then 1 else 0)) }
      let w := ((v.setShard q.ctx (wsBody q.desc).shard { x with state := 1, drainAt := v.ticksOf q.ctx }).setFld Fld.fosUpdated 1).drain
        q.ctx (wsBody q.desc).shard
      exec (.wsUpdate core q.id) s = .next (({ w with ws := { w.ws with jobs := w.ws.jobs ++ [j] } } : State).wsGo q j)))
  ∧ (∀ (s : State) (at_ core : Nat) (q : QEntry) (j : WsJob),
    let u := s.advanceTo at_
    u.wsEntry core q.id 0x81 = some q → u.ws.jobs.find? (fun j => j.id == q.id && j.ran) = some j →
    let w : State := { u with
      core := { u.core with wsq := u.core.wsq.filter fun x => x.id != q.id }
      ws := { u.ws with jobs := u.ws.jobs.filter fun x => x.id != q.id } }
    exec (.wsUpdateWriteback at_ core q.id) s = .next
      (((w.addNorms j (dLayerTag q.desc)).afterUpdate j (wsBody q.desc).last (dLayerTag q.desc)).finishEntry q j.tally))
  ∧ ∀ (s : State) (at_ ctx n : Nat),
    let u := s.advanceTo at_
    let x := u.shard ctx n
    (x.state = 1 → x.leases = 0 → u.ws.jobs.filter (fun j => j.ctx == ctx && j.shard == n) = [] →
      exec (.shardDrainComplete at_ ctx n) s = .next (u.setShard ctx n { x with state := 2 }))
    ∧ (x.state ≠ 1 → exec (.shardDrainComplete at_ ctx n) s = .next u)
    ∧ (x.state = 1 → 0 < x.leases → x.drainAt + 2 ≤ u.ticksOf ctx →
      (u.setShard ctx n { x with state := 0 }).ws.jobs.find? (fun j => j.ctx == ctx && j.shard == n) = none →
      exec (.leaseHeld at_ ctx n) s = .next ((u.setShard ctx n { x with state := 0 }).raiseCtx { code := 0x0253 } ctx))
    ∧ (x.leases = 0 → exec (.leaseHeld at_ ctx n) s = .next u))
  ∧ ((∀ (s v : State) (core : Nat) (q : QEntry) (l : List LeaseMsg), s.wsEntry core q.id 0x82 = some q → q.moved = false →
    (leaseMessages q (leaseBody q.desc)) s = (Except.ok l, v) →
    let w : State := { v with
      ws := { v.ws with asked := v.ws.asked ++ l }
      core := { v.core with wsq := v.core.wsq.map (fun (x : QEntry) => if x.id = q.id then { x with moved := true } else x) } }
    exec (.wsLease core q.id) s = .next
      ((l.foldl (fun s m => s.leaseSend m.ctx m.home (leaseWord false m.shard m.mode m.version m.held 0)) w).leaseDone q))
  ∧ (∀ (s : State) (at_ ctx g n version held : Nat),
    let u := s.advanceTo at_
    let r := leaseAnswer (u.shard ctx n) ((u.ctxAt ctx).bwdMode (u.shard ctx n).layer) 0 version held
    let w := u.setShard ctx n r.2
    let x : LeaseOut := { gatherer := g, shard := n, result := r.1 }
    exec (.leaseMessage at_ ctx g n 0 version held) s
      = .next (({ w with ws := { w.ws with replies := w.ws.replies ++ [x] } } : State).leaseSend ctx g (leaseWord true n 0 0 0 r.1)))
  ∧ (∀ (s : State) (at_ core entry : Nat) (q : QEntry) (m : LeaseMsg),
    let u := s.advanceTo at_
    u.wsEntry core q.id 0x82 = some q → u.ws.asked.find? (fun m => m.id == q.id && m.entry == entry) = some m →
    exec (.leaseReply at_ core q.id entry lrRange) s = .next (u.wsFault q 0x0207 0)
    ∧ (u.leaseWaits q entry = true → exec (.leaseReply at_ core q.id entry lrHeld) s = .next u)
    ∧ ∀ v : State, u.leaseWaits q entry = false → (leaseWrite m lrHeld ((leaseBody q.desc).list.plus (16 * entry))) u = (Except.ok (), v) →
      v.ctxState q.ctx ≠ csFaulted →
      exec (.leaseReply at_ core q.id entry lrHeld) s = .next
        (({ v with ws := { v.ws with asked := v.ws.asked.filter fun x => !(x.id == q.id && x.entry == entry) } } : State).leaseDone q))
  ∧ ∀ (s v : State) (core : Nat) (q : QEntry), s.wsEntry core q.id 0x83 = some q →
    (hubWrite q.ctx (fieldAt q.desc 16 0 48 + 4) (sealBytes (s.ctxAt q.ctx).stepFlags (s.ctxAt q.ctx).repeatBit) false (some 0x0207)) s
      = (Except.ok (), v) →
    let w := v.setCtx q.ctx { v.ctxAt q.ctx with stepFlags := 0, repeatBit := false, sealed_ := true }
    exec (.wsSeal core q.id) s = .next
      (({ w with core := { w.core with wsq := w.core.wsq.filter fun y => y.id != q.id } } : State).signalHeader q.ctx core q.desc))

/-- How a home module answers a lease message: a lease (mode 0) of a valid, stable shard at the version asked for is held and counted, up to
65,535, and of any other shard or version it is not; any other mode counts one down, never below 0, but for a store that the layer's
backward mode forbids (RANGE), and a release at another version is STALE. Nothing but the count of leases changes in the shard. -/
def Obligations.LeaseAnswers : Prop :=
  ∀ (x : Shard) (bwd mode version held : Nat),
    let r := leaseAnswer x bwd mode version held
    r.2 = { x with leases := r.2.leases }
    ∧ (mode = 0 → (r.1 = lrHeld ↔ (x.valid = true ∧ x.state = 0 ∧ x.version.toNat = version ∧ x.leases < 65535)))
    ∧ (mode = 0 → r.2.leases = if r.1 = lrHeld then x.leases + 1 else x.leases)
    ∧ (mode ≠ 0 → r.1 ≠ lrRange → r.2.leases = x.leases - 1)
    ∧ (r.1 = lrRange ↔ (mode = 2 ∧ bwd = 1))
    ∧ (r.1 = lrStale ↔ (mode = 1 ∧ x.leases ≠ 0 ∧ version ≠ held))

/-! ## Vein links -/

/-- FLIT_GROUP_RECEIVED, PACKET_RECEIVED, ROUTE_FAIL_RECEIVED and LINK_CONTROL_RECEIVED. A group is accepted when each of its codewords
had at most 12 corrected symbols, and ends a run of bad groups; any other is a bad group, which is counted, kept with its symbols by
lane for the last three, and asks for a replay; a packet for this module is delivered here and any other goes on by the route table,
holding the buffer that it came in until it leaves, or is dropped; a port that carries no traffic hears nothing.

The numbers of a port's flits: a flit in order is taken, and the expected number advances modulo 4,096, the first after a replay being
acknowledged at once; any other, and a header whose crc is not that of its bytes 0 to 251, asks for a replay from the expected one and changes nothing else of what has been received. -/
def Obligations.LinksReceive : Prop :=
  (∀ (s : State) (at_ port : Nat),
    let u := s.advanceTo at_
    (u.carries port = true →
      (∀ c0 c1 lanes flits, c0 ≤ 12 → c1 ≤ 12 → exec (.flitGroupReceived at_ port c0 c1 ⟨lanes, flits⟩) s
        = .next ((flits.take 5).foldl (fun t f => t.wireFlit port f)
            (if (u.port port).bad = [] then u else u.setPort port { u.port port with bad := [] })).collSweep)
      ∧ (∀ c0 c1 lanes flits, (12 < c0 ∨ 12 < c1) →
        let v := u.bump (Fld.badGroups port)
        exec (.flitGroupReceived at_ port c0 c1 ⟨lanes, flits⟩) s
          = .next ((v.setPort port { v.port port with bad := (lanes :: (v.port port).bad).take 3 }).askReplay port))
      ∧ (∀ pkt, (pkt.dst = dstNeighbour ∨ pkt.dst = u.moduleId) →
        exec (.packetReceived at_ port pkt) s = .next (u.deliver port pkt).collSweep)
      ∧ (∀ pkt, pkt.dst ≠ dstNeighbour → pkt.dst ≠ u.moduleId → pkt.symbol = false →
        let m := { pkt with escape := false }
        let pool := if pkt.escape then poolEscape else u.poolOf pkt
        (∀ p, u.routeFor m = some p → exec (.packetReceived at_ port pkt) s
          = .next (u.enterPort p { pkt := m, pool := u.poolOf m, src := some (port, pool), more := 0 }).collSweep)
        ∧ (u.routeFor m = none → exec (.packetReceived at_ port pkt) s
          = .next ((u.freePool port pool (1 + pkt.data.length)).dropPacket pkt).collSweep)))
    ∧ (u.carries port = false → (∀ c0 c1 lanes flits, exec (.flitGroupReceived at_ port c0 c1 ⟨lanes, flits⟩) s = .next u)
      ∧ (∀ pkt, exec (.packetReceived at_ port pkt) s = .next u)
      ∧ ∀ c, exec (.linkControlReceived at_ port c) s = .next u.collSweep)
    ∧ (∀ c, exec (.linkControlReceived at_ port c) s = .next (u.portControl port c).collSweep)
    ∧ ∀ dst job c, job ≠ 0 → u.jobCtx job = some c → exec (.routeFailReceived at_ dst job) s
      = .next (u.linkFailed fun x => x.ctx == c && x.dests.contains dst).collSweep)
  ∧ (∀ (s : State) (p num : Nat) (take : State → State),
    let b := s.port p
    (num = b.rxNext → b.discard = false →
      s.numbered p num true take = take (s.setPort p { b with rxNext := (b.rxNext + 1) % 4096, discard := false, owed := true }))
    ∧ (num = b.rxNext → b.discard = true → s.numbered p num true take
      = take ((s.setPort p { b with rxNext := (b.rxNext + 1) % 4096, discard := false, owed := true }).sendControl p false))
    ∧ (∀ crc nData pkt, s.wireFlit p (.header num crc nData pkt)
      = s.numbered p num (crc == crc32 (headerBytes num nData pkt)) fun t => t.takeHeader p nData pkt)
    ∧ (num ≠ b.rxNext → b.discard = false → ∀ ok, s.numbered p num ok take = s.askReplay p)
    ∧ (num ≠ b.rxNext → b.discard = true → ∀ ok, s.numbered p num ok take = s)
    ∧ (num = b.rxNext → s.numbered p num false take = s.askReplay p)
    ∧ ((s.askReplay p).port p).rxNext = b.rxNext ∧ (s.askReplay p).coll = s.coll ∧ (s.askReplay p).mem = s.mem)

/-- LINK_CONTROL_DUE, ACK_TIMEOUT, LINK_FAILED, LANE_DEGRADE, LINK_DEGRADED, LINK_DOWN: what a port does when its moment has come, and
that it waits before. An unacknowledged flit is sent again after 4 µs without an ack; a port degrades during an episode when a lane
lost lock or carried more than half of the bad symbols of three bad groups in a row, and the other half is whole.

LINK_UP, TRAINING_RETRY, PORT_RETRAIN: a port that trained on eight lanes is Up, on one whole half with degrading enabled Degraded, and
otherwise keeps training; it tries again every 100 ms; Flint retrains a failed port after 1 s, and a degraded one, but not one that is
fenced. -/
def Obligations.LinksKept : Prop :=
  (∀ (s : State) (at_ port lane : Nat),
    let u := s.advanceTo at_
    let b := u.port port
    let w := u.pump port
    let d := w.port port
    (b.owed = true → b.ctlAt + 100 ≤ u.now → exec (.linkControlDue at_ port) s = .next (u.sendControl port false))
    ∧ ((b.owed = false ∨ u.now < b.ctlAt + 100) → exec (.linkControlDue at_ port) s = .next u)
    ∧ (∀ f r n, d.replay = f :: r → f.num = some n → w.carries port = true → d.ackAt + 400 ≤ w.now →
      exec (.ackTimeout at_ port) s = .next (w.startReplay port n))
    ∧ ((d.replay = [] ∨ w.now < d.ackAt + 400) → exec (.ackTimeout at_ port) s = .next w)
    ∧ (u.flag (Fld.episode port) = true → 100 * u.fld (Fld.retryBudget port) < u.now - b.epStart →
      exec (.linkFailed at_ port) s = .next (u.loseLink port 0x0303))
    ∧ (u.now - b.epStart ≤ 100 * u.fld (Fld.retryBudget port) → exec (.linkFailed at_ port) s = .next u)
    ∧ (∀ lost, w.fld (Fld.portState port) = psUp → w.flag (Fld.episode port) = true → w.flag (Fld.degradeEn port) = true →
      w.fld (Fld.lanesOk port) &&& otherHalf lane = otherHalf lane →
      (lost = true ∨ (d.bad.length = 3 ∧ (d.bad.map fun l => (l.take 8).sum).sum < 2 * (d.bad.map fun l => l.getD (lane % 8) 0).sum) →
        exec (.laneDegrade at_ port ⟨lane, lost⟩) s
          = .next ((w.setPort port { d with lostLane := lane % 8 }).setFld (Fld.portState port) psDegrading))
      ∧ (lost = false → d.bad.length < 3 → exec (.laneDegrade at_ port ⟨lane, lost⟩) s = .next w))
    ∧ (∀ lost, w.flag (Fld.episode port) = false → exec (.laneDegrade at_ port ⟨lane, lost⟩) s = .next w)
    ∧ (u.fld (Fld.portState port) = psDegrading →
      let v := (u.setFld (Fld.portState port) psDegraded).setFld (Fld.lanesOk port) (otherHalf b.lostLane)
      exec (.linkDegraded at_ port) s = .next ((v.setPort port { v.port port with upAt := v.now, groups := 0 }).report { code := 0x0304, index := port }).collSweep)
    ∧ ((u.fld (Fld.portState port) = psUp ∨ u.fld (Fld.portState port) = psDegrading ∨ u.fld (Fld.portState port) = psDegraded) →
      exec (.linkDown at_ port) s = .next (u.loseLink port 0x0302)))
  ∧ (∀ (s : State) (at_ port peer lanes : Nat),
    let u := s.advanceTo at_
    let b := u.port port
    (u.fld (Fld.portState port) = psTraining → u.flag Fld.moduleValid = true → lanes % 256 = 255 →
      let v := ((u.setFld (Fld.portState port) psUp).setFld (Fld.lanesOk port) lanes).setFld (Fld.portPeer port) peer
      exec (.linkUp at_ port peer lanes) s
        = .next ((v.setPort port { v.port port with upAt := v.now, groups := 0 }).report { code := 0x0301, index := port }))
    ∧ (u.fld (Fld.portState port) = psTraining → u.flag Fld.moduleValid = true → trainedState lanes (u.flag (Fld.degradeEn port)) = none →
      exec (.linkUp at_ port peer lanes) s = .next (u.setFld (Fld.lanesOk port) lanes))
    ∧ (trainedState 0x0F true = some psDegraded ∧ trainedState 0xF0 true = some psDegraded ∧ trainedState 0x0F false = none
      ∧ trainedState 0x7E true = none)
    ∧ (u.fld (Fld.portState port) = psTraining → b.trainAt + 10000000 ≤ u.now →
      exec (.trainingRetry at_ port) s
        = .next ((u.setPort port { b with trainAt := u.now, failCode := 0 }).setFld (Fld.portState port) psTraining))
    ∧ (u.now < b.trainAt + 10000000 → exec (.trainingRetry at_ port) s = .next u)
    ∧ (let w := u.pump port
      let d := w.port port
      (w.fenceBit domPort port = false → w.flag (Fld.portEnable port) = true → w.err.flintDown = false →
        (w.fld (Fld.portState port) = psDegraded ∨ (w.fld (Fld.portState port) = psFailed ∧ d.failCode ≠ 0
          ∧ (w.policy d.failCode = 0 ∨ w.policy d.failCode = 5) ∧ d.failedAt + 100000000 ≤ w.now)) →
        exec (.portRetrain at_ port) s
          = .next ((w.setPort port { d with trainAt := w.now, failCode := 0 }).setFld (Fld.portState port) psTraining))
      ∧ (w.fenceBit domPort port = true → exec (.portRetrain at_ port) s = .next w)
      ∧ (w.fld (Fld.portState port) = psFailed → w.now < d.failedAt + 100000000 → exec (.portRetrain at_ port) s = .next w)))

/-- VEI_POOL_DATA_WRITE and VEI_ROUTE_DATA_WRITE: Flint writes the entry that the index register names; a pool has 0 or 64 to 4,096 flits and
the pools of a port together at most 4,096, and any other size is refused with cfg_reject; a host write is ignored. -/
def Obligations.RoutesAndPools : Prop :=
  ∀ (s : State) (value : Word),
    (s.admits .host Reg.vei = true → exec (.veiPoolDataWrite .host value) s = .next (s.setFld Fld.hostWrReject 1)
      ∧ exec (.veiRouteDataWrite .host value) s = .next (s.setFld Fld.hostWrReject 1))
    ∧ (s.admits .flint Reg.vei = true →
      let dst := bits (s.rd Reg.veiRouteIdx).toNat 0 12
      exec (.veiRouteDataWrite .flint value) s
        = .next { s with vein := { s.vein with routes := SMap.put (fun _ => 0) s.vein.routes dst (value &&& 0x8000000F#32) } }
      ∧ (let i := poolIndex (s.rd Reg.veiPoolIdx).toNat
        let n := bits value.toNat 0 13
        ((0 < n ∧ n < 64) ∨ 4096 < n ∨ 4096 < s.poolSum i.1 i.2 + n →
          exec (.veiPoolDataWrite .flint value) s = .next (s.setFld Fld.veiCfgReject 1))
        ∧ ((n = 0 ∨ 64 ≤ n) → s.poolSum i.1 i.2 + n ≤ 4096 → i.2 = poolHub →
          exec (.veiPoolDataWrite .flint value) s
            = .next { s with vein := { s.vein with pools := SMap.put (fun _ => 0) s.vein.pools (64 * i.1 + i.2) n } })))

/-! ## Collectives -/

/-- COLL, SHIFT, EXPERT_DISPATCH and EXPERT_COMBINE: the hub accepts a descriptor of its queue as a transfer, which then goes on as far as it
can; a COLL that is refused leaves the queue and faults its context. END_MARKER_RECEIVED is taken by the context of its job, and
ignored where no context runs it; COLL_TIMEOUT ends a transfer whose strata have run out, and no other. -/
def Obligations.CollectivesRun : Prop :=
  (∀ (s v : State) (core : Nat) (q : QEntry) (x : Xfer), (s.xfer q.id).isSome = false → (collAccept q) s = (Except.ok x, v) →
    (s.hubEntry core q.id 0x61 = some q → exec (.coll core q.id) s = .next (v.setXfers (v.coll.xfers ++ [x])).collSweep)
    ∧ (s.hubEntry core q.id 0x62 = some q → exec (.shift core q.id) s = .next (v.setXfers (v.coll.xfers ++ [x])).collSweep)
    ∧ (s.hubEntry core q.id 0x63 = some q → exec (.expertDispatch core q.id) s = .next (v.setXfers (v.coll.xfers ++ [x])).collSweep)
    ∧ (s.hubEntry core q.id 0x64 = some q → exec (.expertCombine core q.id) s = .next (v.setXfers (v.coll.xfers ++ [x])).collSweep))
  ∧ (∀ (s v : State) (core code phys : Nat) (q : QEntry), (s.xfer q.id).isSome = false → s.hubEntry core q.id 0x61 = some q →
    (collAccept q) s = (Except.error (.fault code phys), v) →
    exec (.coll core q.id) s = .next
      (({ v with core := { v.core with hubq := v.core.hubq.filter fun y => y.id != q.id } } : State).raiseCtx
        { code := code, core := some core, phys := phys, tileId := BitVec.ofNat 32 (dTileId q.desc)
          layerTag := BitVec.ofNat 16 (dLayerTag q.desc) } q.ctx))
  ∧ ∀ (s : State) (at_ job src id amount : Nat),
    let u := s.advanceTo at_
    (u.jobCtx job = none → exec (.endMarkerReceived at_ job src id amount) s = .next u)
    ∧ (∀ c, u.jobCtx job = some c → exec (.endMarkerReceived at_ job src id amount) s
      = .next (
        let vc := if 5 ≤ bits id 29 3 then 2 else 1
        u.collReceive none (4 * c + vc) c { dst := u.moduleId, src := src, job := job, vc := vc, escape := false, type := vc + 1, xfer := id
                                            offset := 0, body := amount % 2 ^ 40 + 2 ^ 64, data := [] }))
    ∧ (∀ x, u.xfer id = some x → x.left = 0 → exec (.collTimeout at_ id) s = .next (u.xferFault x 0x0311 0))
    ∧ (∀ x, u.xfer id = some x → x.left ≠ 0 → exec (.collTimeout at_ id) s = .next u)

/-! ## Jobs and resident contexts -/

/-- DONATION_EXHAUSTED, ALL_BLOCKED, SWAP_EXCHANGE, SWAP_ABANDONED, SWAP_DONE: a donation whose budget of strata is spent closes and is not
opened again by its wait; a quarry blocked for a whole period with a context to bring in is answered by a swap; a swap exchanges
the shares once what is in flight has landed, is abandoned at its limit, and at its end the two contexts change places. -/
def Obligations.TimeSharing : Prop :=
  ∀ (s : State) (at_ core n q : Nat),
    let u := s.advanceTo at_
    (∀ d, u.ctx.donations.find? (fun d => d.waiter == 64 * core + n && decide (u.fld (Fld.donateStrata d.fromCtx) ≤ d.used)) = some d →
      let v := u.closeDonations fun x => x.waiter == 64 * core + n
      exec (.donationExhausted at_ core n) s = .next ((v.setStream core n { v.stream core n with donationSpent := true }).report
        { code := 0x0612, ctx := some d.fromCtx, core := some core }))
    ∧ (∀ since, SMap.get (fun _ => none) u.blk.since q = some since → since + 100 * u.fld Fld.periodUs ≤ u.now →
      q < quarryCount u.modeOf → u.quarryBlocked q = true → (u.incoming q).isSome = true →
      (SMap.get (fun _ => none) u.blk.told q).isNone = true →
      let told := some ((u.ctxsOf q).filter u.blocked)
      let v := ({ u with blk := { u.blk with told := SMap.put (fun _ => none) u.blk.told q told } } : State).report
        { code := 0x0611, index := q }
      v.policy 0x0611 = 0 → v.err.flintDown = false → exec (.allBlocked at_ q) s = .next (v.swapBlocked q))
    ∧ (∀ i w lim, (u.quarry q).swap = some (i, w, lim, false) →
      (u.landedAll w = true →
        let v := u.exchangeShare w
        exec (.swapExchange at_ q) s = .next (v.setQuarry q { v.quarry q with swap := some (i, w, lim, true) }))
      ∧ (u.landedAll w = false → exec (.swapExchange at_ q) s = .next u)
      ∧ (lim ≤ (u.quarry q).ticks → u.landedAll w = false → u.err.flintDown = false →
        exec (.swapAbandoned at_ q) s = .next ((((u.endSwap q w).report { code := 0x0613, index := q }).applyPend w).applyPend i).flrStep.collSweep))
    ∧ ∀ i w lim, (u.quarry q).swap = some (i, w, lim, true) → u.err.flintDown = false →
      let v := ((u.endSwap q w).setFld (Fld.resident w) 0).setFld (Fld.resident i) 1
      let v := (v.bump (Fld.swaps w)).bump (Fld.swaps i)
      let v := v.setCtx w { v.ctxAt w with spilledAt := v.now }
      exec (.swapDone at_ q) s = .next (((v.rankDecode.report { code := 0x0614, index := q }).applyPend w).applyPend i).flrStep.collSweep

/-! ## The host interface -/

/-- DOORBELL_SQ_TAIL and DOORBELL_CQ_HEAD: an index below the size of an enabled ring is the ring's new index and every other ring
keeps its own; an index out of range sets HIF_STAT.bad_doorbell; a doorbell of a ring that is not enabled does nothing.

COMMAND_FETCH: with rings to serve, the first one ready after the last that was served gives the 64 bytes at its head, which moves
on by one, modulo the size; where host memory answers with an error the ring stops and the host is told; with none ready, or
while Flint restarts, nothing is read. -/
def Obligations.RingsServed : Prop :=
  (∀ (s : State) (at_ r index : Nat),
    let u := s.advanceTo at_
    r < 64 → u.hostUp = true → index < 65536 →
    (u.flag (Fld.sqEnable r) = true → index < u.sqSize r → ∃ t, exec (.doorbellSqTail at_ r index) s = .next t
      ∧ (index ≠ 0 → t.sqTailOf r = index) ∧ (∀ o, o ≠ r → t.sqTailOf o = u.sqTailOf o) ∧ t.host.cqHead = u.host.cqHead
      ∧ t.regs = u.regs ∧ t.mem = u.mem)
    ∧ (u.flag (Fld.sqEnable r) = true → u.sqSize r ≤ index → exec (.doorbellSqTail at_ r index) s = .next (u.setFld Fld.badDoorbell 1))
    ∧ (u.flag (Fld.sqEnable r) = false → exec (.doorbellSqTail at_ r index) s = .next u)
    ∧ (u.flag (Fld.cqEnable r) = true → index < u.cqSize r → ∃ t, exec (.doorbellCqHead at_ r index) s = .next t
      ∧ (index ≠ 0 → t.cqHeadOf r = index) ∧ (∀ o, o ≠ r → t.cqHeadOf o = u.cqHeadOf o) ∧ t.host.sqTail = u.host.sqTail
      ∧ t.regs = u.regs ∧ t.mem = u.mem)
    ∧ (u.flag (Fld.cqEnable r) = true → u.cqSize r ≤ index → exec (.doorbellCqHead at_ r index) s = .next (u.setFld Fld.badDoorbell 1))
    ∧ (u.flag (Fld.cqEnable r) = false → exec (.doorbellCqHead at_ r index) s = .next u))
  ∧ (∀ (s : State) (at_ : Nat),
    let u := s.advanceTo at_
    let next := ((List.range 64).map fun i => (u.host.nextSq + i) % 64).find? u.sqReady
    (u.hostUp = true → u.err.flintDown = false → ∀ r, next = some r →
      let v : State := { u with host := { u.host with nextSq := (r + 1) % 64 } }
      let a := v.sqBase r + 64 * v.fld (Fld.sqHead r)
      (v.hostRefuses a 64 = false → exec (.commandFetch at_) s = .next
        ((v.setFld (Fld.sqHead r) ((v.fld (Fld.sqHead r) + 1) % v.sqSize r)).accept r (leNat (v.hostBytes a 64))))
      ∧ (v.hostRefuses a 64 = true → exec (.commandFetch at_) s = .next ((v.sqStop r).report { code := 0x0811, index := r })))
    ∧ (next = none → exec (.commandFetch at_) s = .next u)
    ∧ (u.err.flintDown = true → exec (.commandFetch at_) s = .next u))

/-- A command completes once: it is no longer held, exactly one completion is added, for its own CQ and with its tag and status, and
every other command is held as before. -/
def Obligations.CommandsCompleteOnce : Prop :=
  ∀ (s : State) (id status tail : Nat) (c : Cmd), s.cmd id = some c →
    let t := s.completeCmd id status tail
    t.cmd id = none ∧ (∀ j, j ≠ id → t.cmd j = s.cmd j)
      ∧ t.host.compls = s.host.compls ++ [{ cq := s.fld (Fld.sqCq c.sq), sq := c.sq, kind := 0
                                            body := complBody (bits c.raw 32 32) c.sq 0 c.ctx status tail }]
      ∧ bits (complBody (bits c.raw 32 32) c.sq 0 c.ctx status tail) 0 32 = bits c.raw 32 32
      ∧ bits (complBody (bits c.raw 32 32) c.sq 0 c.ctx status tail) 64 16 = status % 2 ^ 16
      ∧ t.regs = s.regs ∧ t.mem = s.mem ∧ t.core = s.core ∧ t.ctx = s.ctx

/-- CTX_CREATE, CTX_DESTROY, JOB_LOAD and JOB_START: the context must be in the state that the command needs, or the command completes with
STATE; a create whose fields are out of range, whose shares clash or whose root lies outside them is refused, and a refused share sets
CTX_STAT.cfg_reject; a destroy waits for a swap of its context; an image that cannot be loaded completes with why, and a
bad one leaves the context Created; otherwise the command has its effect and completes with status 0. -/
def Obligations.ContextCommands : Prop :=
  ∀ (s : State) (at_ id : Nat) (q : Cmd),
    let u := s.advanceTo at_
    let v := u.startCmd q
    (u.cmdReady id 0x01 = some q →
      (v.ctxState q.c ≠ csFree → exec (.ctxCreate at_ id) s = .next (v.completeCmd id 0x0013 0))
      ∧ (v.ctxState q.c = csFree → v.createRange q = false → exec (.ctxCreate at_ id) s
        = .next ((if shareRange q then v else v.setFld Fld.ctxCfgReject 1).completeCmd id 0x0012 0))
      ∧ (v.ctxState q.c = csFree → v.createRange q = true → v.createConflict q = true →
        exec (.ctxCreate at_ id) s = .next ((v.setFld Fld.ctxCfgReject 1).completeCmd id 0x0014 0))
      ∧ (v.ctxState q.c = csFree → v.createRange q = true → v.createConflict q = false → v.createRoot q = true →
        exec (.ctxCreate at_ id) s = .next ((v.create q).completeCmd id 0 0))
      ∧ (v.ctxState q.c = csFree → v.createRange q = true → v.createConflict q = false → v.createRoot q = false →
        exec (.ctxCreate at_ id) s = .next (v.completeCmd id 0x0015 0)))
    ∧ (u.cmdReady id 0x02 = some q →
      (u.ctxState q.c = csFree → exec (.ctxDestroy at_ id) s = .next (v.completeCmd id 0x0013 0))
      ∧ (u.ctxState q.c ≠ csFree → u.swapHolds q.c = false →
        exec (.ctxDestroy at_ id) s = .next (((v.abortCommands q.c id).destroy q.c).completeCmd id 0 0).collSweep)
      ∧ (u.ctxState q.c ≠ csFree → u.swapHolds q.c = true → exec (.ctxDestroy at_ id) s = .next u))
    ∧ (u.cmdReady id 0x03 = some q →
      (u.ctxState q.c ≠ csCreated → u.ctxState q.c ≠ csEnded → exec (.jobLoad at_ id) s = .next (v.completeCmd id 0x0013 0))
      ∧ ((u.ctxState q.c = csCreated ∨ u.ctxState q.c = csEnded) → q.at_ 8 0 64 % 64 = 0 → q.at_ 20 0 16 ≠ 0 → q.at_ 20 0 16 ≤ 4096 →
        exec (.jobLoad at_ id) s = .next (match (loadImage q v) with
          | (.ok _, w) => (w.loaded v q.c).completeCmd id 0 0
          | (.error (.status n), w) =>
            if n % 2 ^ 16 = 0x0018 then
              (({ v with freeCtr := w.freeCtr } : State).setFld (Fld.ctxState q.c) csCreated).completeCmd id 0x0018 (n / 2 ^ 16)
            else ({ v with freeCtr := w.freeCtr } : State).completeCmd id n 0
          | (.error .stall, _) => u
          | (.error _, _) => v.completeCmd id 0x0015 0)))
    ∧ (u.cmdReady id 0x04 = some q →
      (v.ctxState q.c ≠ csLoaded → exec (.jobStart at_ id) s = .next (v.completeCmd id 0x0013 0))
      ∧ (v.ctxState q.c = csLoaded → v.flag Fld.partial_ = true → exec (.jobStart at_ id) s = .next (v.completeCmd id 0x001A 0))
      ∧ (v.ctxState q.c = csLoaded → v.flag Fld.partial_ = false →
        exec (.jobStart at_ id) s = .next ((v.completeCmd id 0 0).startJob q.c q.sq)))

/-- DMA_H2D, DMA_D2H, QUERY, FENCE_UNIT, SET_POLICY and TELEMETRY_READ: the effect of each, and its completion.

FOSSIL_BEGIN, FOSSIL_COMMIT and FILL_FROM_BUDDY: an epoch begins over the pages that its context names, is committed when it has
streamed and awaited until then, and one that is not in progress is refused, with the status of an abandoned epoch if it is one; a
fill asks its buddy for the committed epoch, naming this module, once there is a route. -/
def Obligations.MovingCommands : Prop :=
  (∀ (s : State) (at_ id : Nat) (q : Cmd),
    let u := s.advanceTo at_
    let v := u.startCmd q
    (∀ w : State, u.cmdReady id 5 = some q → u.queueHead q = true → v.ctxState q.c ≠ csFree → q.dmaRange = true →
      v.inputHeld q.c q.devAddr q.len = false → (Exec.each (List.range (q.len / 64)) (moveIn q)) v = (Except.ok (), w) →
      exec (.dmaH2d at_ id) s = .next (w.dmaEnd id 0))
    ∧ (∀ w : State, u.cmdReady id 6 = some q → u.queueHead q = true → v.ctxState q.c ≠ csFree → q.dmaRange = true →
      (Exec.each (List.range (q.len / 64)) (moveOut q)) v = (Except.ok (), w) → exec (.dmaD2h at_ id) s = .next (w.dmaEnd id 0))
    ∧ (u.cmdReady id 0x0A = some q → ¬(q.at_ 8 0 8 = 4 ∧ 64 ≤ q.at_ 10 0 16) → (v.queryResult q).length ≤ q.at_ 24 0 32 →
      v.hostAborts (q.at_ 16 0 64) (v.queryResult q).length = false →
      exec (.query at_ id) s = .next ((v.putHost (q.at_ 16 0 64) (v.queryResult q)).completeCmd id 0 0))
    ∧ (u.cmdReady id 0x0B = some q → q.at_ 10 0 16 < fenceUnits (q.at_ 8 0 8) → v.unitFenced (q.at_ 8 0 8) (q.at_ 10 0 16) = false →
      exec (.fenceUnit at_ id) s = .next ((v.fenceNow (q.at_ 8 0 8) (q.at_ 10 0 16)).completeCmd id 0 0))
    ∧ (∀ w : State, u.cmdReady id 0x0C = some q → q.at_ 8 0 16 ≠ 0x10 → (q.ctx.isSome = true → u.ctxState q.c ≠ csFree) →
      q.at_ 24 0 32 ≤ policyMax → policyLen (q.at_ 8 0 16) (q.at_ 24 0 32) [] = true →
      u.hostRefuses (q.at_ 16 0 64) (q.at_ 24 0 32) = false →
      let b := u.hostBytes (q.at_ 16 0 64) (q.at_ 24 0 32)
      policyLen (q.at_ 8 0 16) (q.at_ 24 0 32) b = true → v.applyPolicy (q.at_ 8 0 16) q.c b = Except.ok w →
      exec (.setPolicy at_ id) s = .next (w.completeCmd id 0 0))
    ∧ (u.cmdReady id 0x0D = some q → v.ctxState q.c ≠ csFree → ((q.at_ 8 0 8 < 2 ∧ q.at_ 10 0 16 + q.at_ 12 0 16 ≤ 4096)
        ∨ (q.at_ 8 0 8 = 2 ∧ q.at_ 10 0 16 + q.at_ 12 0 16 ≤ 8192 ∧ v.flag Fld.dirValid = true ∧ v.fld Fld.dirCtx = q.c)) →
      let b := v.telemetry q.c (q.at_ 8 0 8) (q.at_ 10 0 16) (q.at_ 12 0 16)
      v.hostAborts (q.at_ 16 0 64) b.length = false →
      let w := v.putHost (q.at_ 16 0 64) b
      exec (.telemetryRead at_ id) s = .next
        ((if q.at_ 9 0 1 = 1 then w.zeroTelemetry q.c (q.at_ 8 0 8) (q.at_ 10 0 16) (q.at_ 12 0 16) else w).completeCmd id 0 0)))
  ∧ (∀ (s : State) (at_ id : Nat) (q : Cmd),
    let u := s.advanceTo at_
    let v := u.startCmd q
    (u.cmdReady id 0x07 = some q →
      (v.mayFossil q.c = false → exec (.fossilBegin at_ id) s = .next (v.completeCmd id 0x0013 0))
      ∧ (∀ (l : List FosPage) (w : State), v.mayFossil q.c = true → (fosSet q.c) v = (Except.ok l, w) →
        (v.beginStatus q (some l) = 0 → exec (.fossilBegin at_ id) s = .next (w.beginEpoch (newEpoch q l)))
        ∧ (v.beginStatus q (some l) ≠ 0 → exec (.fossilBegin at_ id) s = .next (v.completeCmd id (v.beginStatus q (some l)) 0))))
    ∧ (u.cmdReady id 0x08 = some q →
      (∀ e, u.fos.epoch = some e → e.epoch = q.at_ 28 0 32 → e.ctx = q.c → e.commit = none →
        (v.fld Fld.fosState = fosStreamed → exec (.fossilCommit at_ id) s = .next (v.commitEpoch e id))
        ∧ (v.fld Fld.fosState ≠ fosStreamed → exec (.fossilCommit at_ id) s = .next (v.mapEpoch fun e => { e with commit := some id })))
      ∧ (u.fos.epoch = none → exec (.fossilCommit at_ id) s
        = .next (v.completeCmd id (if u.fos.abandoned.contains (q.at_ 28 0 32) then 0x0907 else 0x0902) 0)))
    ∧ (u.cmdReady id 0x09 = some q → u.fos.fill = none →
      let f : Fill := { cmd := id, ctx := q.c, buddy := q.at_ 24 0 12, epoch := q.at_ 28 0 32 }
      let w : State := { v with fos := { v.fos with fill := some f } }
      (v.ctxState q.c = csLoaded → v.modeOf = 0 → v.flag Fld.moduleValid = true →
        ((w.fosRoute f.buddy).isSome = true → exec (.fillFromBuddy at_ id) s
          = .next (({ v with fos := { v.fos with fill := some { f with asked := true } } } : State).tell (.request f.buddy w.moduleId f.epoch)))
        ∧ ((w.fosRoute f.buddy).isNone = true → exec (.fillFromBuddy at_ id) s = .next w))
      ∧ (v.ctxState q.c ≠ csLoaded → exec (.fillFromBuddy at_ id) s = .next (v.completeCmd id 0x0013 0))))

/-- COMPLETION_POST and MSIX_MODERATION: the oldest completion of a CQ with room is written at its tail, which moves on; a CQ that is
full, or Flint in restart, holds it; host memory that answers with an error takes the CQ out of service and reports it; a vector
fires when its count or its time is reached, and not before.

HOST_DMA_DONE, CONFIGURATION_REQUEST and CHANNEL_RETRAIN_DONE: a DMA command whose data has moved completes; a configuration request is
answered with a retry status until boot_lock, and after it acts on the BAR4 registers that it names, which keep an address of 64 GiB
where BAR4 exists; a channel that has retrained is back. -/
def Obligations.HostAnswered : Prop :=
  (∀ (s : State) (at_ cq : Nat),
    let u := s.advanceTo at_
    (∀ x, u.host.compls.find? (fun x => x.cq == cq) = some x → u.hostUp = true → u.err.flintDown = false →
      u.flag (Fld.cqEnable cq) = true → u.cqFull cq = false →
      let a := u.cqBase cq + 32 * u.fld (Fld.cqTail cq)
      (u.hostAborts a 32 = false → x.slot = none →
        let v := (u.putHost a (u.entryBytes x)).advanceTail cq
        exec (.completionPost at_ cq) s
          = .next (({ v with host := { v.host with compls := dropFirst cq v.host.compls } } : State).noteEntry cq x.kind))
      ∧ (u.hostAborts a 32 = true → exec (.completionPost at_ cq) s
        = .next ((u.setFld (Fld.cqEnable cq) 0).report { code := 0x0812, index := cq })))
    ∧ ((u.cqFull cq = true ∨ u.err.flintDown = true ∨ u.flag (Fld.cqEnable cq) = false) → exec (.completionPost at_ cq) s = .next u)
    ∧ (u.unsigned cq ≠ 0 → (u.fld (Fld.cqModCount cq) ≤ u.unsigned cq ∨ u.oldestAt cq + 100 * u.fld (Fld.cqModUs cq) ≤ u.now) →
      exec (.msixModeration at_ cq) s = .next (u.fireVector cq))
    ∧ ((u.unsigned cq = 0 ∨ (u.unsigned cq < u.fld (Fld.cqModCount cq) ∧ u.now < u.oldestAt cq + 100 * u.fld (Fld.cqModUs cq))) →
      exec (.msixModeration at_ cq) s = .next u))
  ∧ (∀ (s : State) (at_ queue ch : Nat),
    let u := s.advanceTo at_
    (∀ c, u.host.cmds.find? (fun c => c.dma && c.dmaDone && c.queue == queue && !u.err.caught.contains c.id) = some c →
      exec (.hostDmaDone at_ queue) s = .next (u.completeCmd c.id c.status c.dmaTail))
    ∧ ((u.pins.phase = .boot ∨ u.hostUp = true) →
      (u.flag Fld.bootLock = false → ∀ a, exec (.configurationRequest ⟨at_, a⟩) s
        = .next { u with host := { u.host with lastCrs := some true } })
      ∧ (u.flag Fld.bootLock = true →
        let v : State := { u with host := { u.host with lastCrs := some false } }
        exec (.configurationRequest ⟨at_, .other⟩) s = .next v
        ∧ exec (.configurationRequest ⟨at_, .bar4Read⟩) s = .next { v with host := { v.host with readData := v.bar4Regs } }
        ∧ ∀ a, exec (.configurationRequest ⟨at_, .bar4Write a⟩) s = .next (if u.flag Fld.bar4Enable
          then { v with host := { v.host with bar4 := BitVec.ofNat 64 (a / 2 ^ 36 * 2 ^ 36) } } else v)))
    ∧ (u.pins.phase = .reset → ∀ a, exec (.configurationRequest ⟨at_, a⟩) s = .next u)
    ∧ ∃ t, exec (.channelRetrainDone at_ ch) s = .next t ∧ t.mem.retraining = u.mem.retraining.filter (fun e => e.1 != ch)
      ∧ (∀ e, e ∈ t.mem.retraining → e.1 ≠ ch) ∧ t.mem.phys = u.mem.phys ∧ t.regs = u.regs)

/-- SQ_DISABLE, HIF_REG_WRITE, FUNCTION_LEVEL_RESET and BAR4_ACCESS: disabling an SQ is the write of its register with enable 0; HIF_STAT and
HIF_EVT are written by their access codes, HIF_BAR4 not after BOOT_LOCK, and offsets of other blocks not at all; a function level
reset ends every command and leaves the rings disabled; an access through BAR4 writes or reads what the window maps, and while the host
interface is down there is none. -/
def Obligations.HostRegistersAndWindow : Prop :=
  (∀ (s : State) (at_ r : Nat),
    let u := s.advanceTo at_
    r < 64 → u.admits .host Reg.hif = true →
    exec (.sqDisable at_ r) s = .next (u.ringWrite r 0x08 (u.rd (Reg.sqCfg r) &&& 0x7FFFFFFF#32)))
  ∧ (∀ (s : State) (at_ off : Nat) (p : Party) (v : Word),
    let u := s.advanceTo at_
    u.admits p off = true →
    ((off = Reg.hifStat ∨ off = Reg.hifEvt) → exec (.hifRegWrite at_ p off v) s = .next (u.plainWrite off v))
    ∧ (off = Reg.hifBar4 → u.flag Fld.bootLock = true → exec (.hifRegWrite at_ p off v) s = .next u)
    ∧ ((off < Reg.hif ∨ Reg.str ≤ off) → exec (.hifRegWrite at_ p off v) s = .next u))
  ∧ (∀ (s : State) (at_ : Nat),
    let u := s.advanceTo at_
    (u.hostUp = false → exec (.functionLevelReset at_) s = .next u)
    ∧ (u.hostUp = true → u.anyCtx = false →
      let h : HostSt := { u.host with cmds := [], compls := [], sqTail := [], cqHead := [], cqPhase := [], unsignalled := []
                                      oldest := [], nextSq := 0, msixTable := [], flr := false }
      exec (.functionLevelReset at_) s = .next ({ u with host := h } : State).resetHif.collSweep
        ∧ ∀ r, r < 64 → (({ u with host := h } : State).resetHif).flag (Fld.sqEnable r) = false))
  ∧ ∀ (s : State) (at_ x n : Nat) (data : List Nat),
    let u := s.advanceTo at_
    (u.hostUp = false → ∀ w, exec (.bar4Access at_ w x data n) s = .next u)
    ∧ (u.hostUp = true → ∀ w : State, (bar4Write x (data.map (BitVec.ofNat 8))) u = (Except.ok (), w) → exec (.bar4Access at_ true x data n) s = .next w)
    ∧ (u.hostUp = true →
      let r := u.bar4Read (granPieces (pieceFuel n) x n) x
      exec (.bar4Access at_ false x data n) s = .next { r.2 with host := { r.2.host with readData := leNat r.1 } })

/-! ## Errors, watchdog and Assay -/

/-- RECORD_CLOSE, WATCHDOG_ACK, WATCHDOG_RESTART, FLINT_RESTART_DONE: a record whose handling is complete closes, and a faulted context is
then cleared; 50 ms without an acknowledgement hold Flint in reset, and not before; a second trip within 10 s, or a
copy of the firmware that fails its check, is fatal for the module; Flint is back 50 ms after the trip. -/
def Obligations.RecordsAndWatchdog : Prop :=
  ∀ (s : State) (at_ i : Nat),
    let u := s.advanceTo at_
    let r := u.errRec i
    (u.pins.phase = .running → u.err.flintDown = false → i < 64 → r.state = .opened → u.handled r = true →
      (r.domain = domContext → u.sameLife r = true → exec (.recordClose at_ i) s = .next ((u.clearCtx r.index).closeRec i))
      ∧ (r.domain ≠ domContext → exec (.recordClose at_ i) s = .next (u.closeRec i)))
    ∧ (r.state ≠ .opened → exec (.recordClose at_ i) s = .next u)
    ∧ (u.hostUp = true → u.err.flintDown = false →
      exec (.watchdogAck at_) s = .next { u with err := { u.err with lastAck := u.now } })
    ∧ (u.hostUp = true → u.err.flintDown = false → u.err.lastAck + 5000000 ≤ u.now →
      let v := (u.bump Fld.wdTrips).holdFlint
      (u.err.lastTrip = none → exec (.watchdogRestart at_ false) s
        = .next (if v.copyOk then v.report { code := 0x0801 } else v.raise { code := 0x0802, domain := domModule, detail := 0x0824 }))
      ∧ (∀ t, u.err.lastTrip = some t → u.now ≤ t + 1000000000 →
        exec (.watchdogRestart at_ false) s = .next (v.raise { code := 0x0802, domain := domModule })))
    ∧ (u.now < u.err.lastAck + 5000000 → exec (.watchdogRestart at_ false) s = .next u)
    ∧ (∀ t, u.err.flintDown = true → u.err.lastTrip = some t → t + 5000000 ≤ u.now → u.err.caught = [] → u.err.deferred = [] →
      exec (.flintRestartDone at_) s
        = .next { u with err := { u.err with flintDown := false, caught := [], deferred := [], lastAck := u.now } })
    ∧ (u.err.flintDown = false → exec (.flintRestartDone at_) s = .next u)

/-- ASSAY_CHECKER_START and SIGNATURE_COMPARE: a finished tile that is checked runs again on its checker, on the copy of its local-store
inputs and with the checker's own reads of memory; an error of the checker faults the primary's context, and one that has to wait for a page does not start yet; equal signatures let the
tile finish, and different ones discard its signal, fault its context and capture evidence.

PATTERN_REPLAY, EVIDENCE_READY, SCREEN_START and ERR_CTRL_WRITE: a replay waits for the engines that it takes, and names the cores
whose signature differs from the majority, or reports that none does or that there is no majority; evidence is copied to the host in
the next slot of its ring; SCREEN_START completes for each of its values: a screen of 0 or more than 256 vectors is rejected, one
without go, or while a context exists, only stores its count, and one with go queues its vectors, and the screen is busy; each
idle step then runs one vector and fences every core whose signature is not the vector's; a write of ERR_CTRL that breaks its ranges is
rejected. -/
def Obligations.AssayChecks : Prop :=
  (∀ (s : State) (at_ core n k : Nat) (t : Tile),
    let u := s.advanceTo at_
    u.tileOf core n = some t → t.checker = some k → t.phase = .checking →
    (t.checkerRan = false → u.coreFenced k = false → u.engineFree k t.engine = true → u.withheld = false →
      (u.checkerNext k t.engine).any (fun u => u.core == core && u.stream == n) = true →
      (∀ w, (u.checkerState t k).execute t = (Except.ok (), w) →
        exec (.assayCheckerStart at_ core n) s = .next (((u.readAgain k t.ctx w.accesses).setTile { t with checkerRan := true }).occupy
          { u.checkerTile t k with sig := u.signature t w.accesses }))
      ∧ (∀ w code phys, (u.checkerState t k).execute t = (Except.error (.fault code phys), w) →
        exec (.assayCheckerStart at_ core n) s = .next ((((u.readAgain k t.ctx w.accesses).setTile { t with checkerRan := true }).occupy
            { u.checkerTile t k with phase := .stopping, stopAt := u.now }).raiseCtx
          { code := code, core := some k, phys := phys, tileId := BitVec.ofNat 32 (dTileId t.desc)
            layerTag := BitVec.ofNat 16 (dLayerTag t.desc) } t.ctx))
      ∧ (∀ w e, (u.checkerState t k).execute t = (Except.error e, w) → (∀ code phys, e ≠ .fault code phys) →
        exec (.assayCheckerStart at_ core n) s = .next u))
    ∧ (t.checkerRan = true → ∀ x, u.tileOf k (checkStream core n) = some x → x.phase = .recheck → ∀ delta,
      let v := (u.dropTile k (checkStream core n)).bump Fld.assayChk
      ((x.sig + delta) % 2 ^ 64 = v.signature t t.wrote → exec (.signatureCompare at_ core n delta) s = .next (v.finishTile t))
        ∧ ((x.sig + delta) % 2 ^ 64 ≠ v.signature t t.wrote → exec (.signatureCompare at_ core n delta) s
          = .next (v.mismatch t k (v.signature t t.wrote) ((x.sig + delta) % 2 ^ 64))))
    ∧ (t.checkerRan = false → ∀ delta, exec (.signatureCompare at_ core n delta) s = .next u))
  ∧ (∀ (s : State) (at_ entry : Nat) (sigs : List Nat) (deltas : List (List Nat)) (value : Word),
    let u := s.advanceTo at_
    let v := u.evid entry
    (u.flag Fld.replayBusy = true → u.flag Fld.reserveEn = true → u.err.flintDown = false → entry < 8 → v.use_ = .captured →
      (u.replayReady v = false → exec (.patternReplay at_ entry sigs) s = .next u)
      ∧ (u.replayReady v = true →
      let x := (u.replaySig v).getD 0
      let r := replayOutcome v u.liveCores fun c => (x + sigs.getD c 0) % 2 ^ 64
      let e : Evid := { v with use_ := .replayed, outcome := r.1, sigRef := r.2.1, culprits := r.2.2.foldl (fun n c => n + 2 ^ c) 0 }
      let w := (u.setEvid entry e).settleReplay
      (r.1 = 2 → exec (.patternReplay at_ entry sigs) s = .next (w.report { code := 0x0262, index := entry, evid := some entry }))
      ∧ (r.1 = 3 → exec (.patternReplay at_ entry sigs) s = .next (w.report { code := 0x0263, index := entry, evid := some entry }))
      ∧ (r.1 = 1 → exec (.patternReplay at_ entry sigs) s = .next (r.2.2.foldl (fun t c => t.raise
          { code := 0x0264, domain := domCore, index := c, core := some c, evid := some entry
            detail := if v.source = 0 then 0x0212 else 0x0261 }) w))))
    ∧ (u.flag Fld.replayBusy = false → exec (.patternReplay at_ entry sigs) s = .next u)
    ∧ (u.flag Fld.evidEnable = true → u.err.flintDown = false → entry < 8 → u.replayOver v = true →
      let slot := u.err.copied % (u.fld Fld.evidSlotsM1 + 1)
      let b := u.evidBytes v
      b.2.hostAborts (u.evidBase + 8392704 * slot) b.1.length = false →
      let w := (b.2.putHost (u.evidBase + 8392704 * slot) b.1).setEvid entry { v with use_ := .copied }
      exec (.evidenceReady at_ entry) s = .next (({ w with err := { w.err with copied := w.err.copied + 1 } } : State).report
        { code := 0x0267, index := entry, evid := some entry, detail := slot }))
    ∧ (u.flag Fld.evidEnable = false → exec (.evidenceReady at_ entry) s = .next u)
    ∧ (∀ p, u.admits p Reg.errScreenCtrl = true →
      let n := bits value.toNat 0 9
      let w := u.setFld Fld.screenCount n
      ((n = 0 ∨ 256 < n) → exec (.screenStart at_ p value deltas) s = .next (u.setFld Fld.errCfgReject 1))
      ∧ (0 < n → n ≤ 256 → (bit value.toNat 31 = false ∨ w.anyCtx = true) → exec (.screenStart at_ p value deltas) s = .next w)
      ∧ (0 < n → n ≤ 256 → bit value.toNat 31 = true → w.anyCtx = false →
        let base := (w.rd Reg.errScreenLo).toNat + (w.rd Reg.errScreenHi).toNat * 2 ^ 32
        let new := (List.range n).map fun i => (base + 8392704 * i, deltas.getD i [])
        exec (.screenStart at_ p value deltas) s
          = .next (({ w with err := { w.err with screen := w.err.screen ++ new } } : State).setFld Fld.screenBusy 1)))
    ∧ (∀ a d rest, u.err.screen = (a, d) :: rest → u.pins.phase = .running →
      let w := ({ u with err := { u.err with screen := rest } } : State).setFld Fld.screenBusy (if rest = [] then 0 else 1)
      (w.hostAborts a 8392704 = true → u.screenNext = w)
      ∧ ∀ x, w.hostAborts a 8392704 = false → w.replaySig (w.vector a) = some x →
        u.screenNext = (w.liveCores.filter fun c => (x + d.getD c 0) % 2 ^ 64 != (w.vector a).sigRef).foldl
          (fun t c => t.raise { code := 0x0265, domain := domCore, index := c, core := some c }) w)
    ∧ (u.admits .host Reg.errCtrl = true →
      ((bits value.toNat 8 2 = 3 ∨ bits value.toNat 0 4 < 2 ∨ 8 < bits value.toNat 0 4) →
        exec (.errCtrlWrite at_ .host value) s = .next (u.setFld Fld.errCfgReject 1))
      ∧ (bits value.toNat 8 2 ≠ 3 → 2 ≤ bits value.toNat 0 4 → bits value.toNat 0 4 ≤ 8 → bit value.toNat 31 = true →
        u.anyCtx = false → exec (.errCtrlWrite at_ .host value) s = .next (u.wr Reg.errCtrl (value &&& 0x8000030F#32)))))

/-! ## Fossil epochs -/

/-- FIRST_TOUCH_COPY, FOSSIL_PAGE_STREAM, EPOCH_STREAMED and FOSSIL_STORE_FAILED: in an Open epoch the first write of a page copies it aside, the
pages stream in turn and the header last, a page being Streaming until its last granule is read, which it is before another is; the
epoch is Streamed when all has left for what destinations live, or none lives; outside an Open epoch nothing happens.

How an epoch ends: committed with status 0, or with a status that tells of poison, where every destination asked for lives; committed
where one of two lives; otherwise not committed, with the reason of the loss. -/
def Obligations.EpochRuns : Prop :=
  (∀ (s : State) (at_ pa k : Nat) (e : Epoch),
    let u := s.advanceTo at_
    u.fos.epoch = some e →
    let w := u.endStreaming
    let z := w.pumpAll
    (u.fld Fld.fosState ≠ fosOpen → exec (.firstTouchCopy at_ pa) s = .next u ∧ exec (.fossilPageStream at_ k) s = .next w
      ∧ exec (.epochStreamed at_) s = .next z ∧ exec (.fossilStoreFailed at_) s = .next u)
    ∧ (u.fld Fld.fosState = fosOpen →
      (∀ p f, e.pageAt pa = some p → p.state = 0 → u.bounceFrame e (u.bounceSlice p.pa) = some f →
        let r := u.readFosPage p.pa
        let v := (r.2.writeFosPage f r.1).fossilField f 1
        let e' : Epoch := { e.setPage { p with state := 1, frame := f } with bounces := e.bounces + 1 }
        exec (.firstTouchCopy at_ pa) s = .next ({ v with fos := { v.fos with epoch := some e' } } : State).countBounced)
      ∧ (∀ x, w.fos.epoch = some x → w.storeReady x = true →
        (∀ p, x.pages[k]? = some p → x.mayStream p = true → exec (.fossilPageStream at_ (k + 1)) s = .next (w.streamPage x (k + 1) p))
        ∧ (x.headerSent = false → x.pages.all (fun (p : FosPage) => p.state == 2) = true →
          exec (.fossilPageStream at_ 0) s
            = .next ((w.mapEpoch fun e => { e with headerSent := true }).sendImagePage x 0 (w.headerPage x))))
      ∧ (∀ x, w.fos.epoch = some x → ∀ p, p ∈ x.pages → p.state ≠ 3)
      ∧ (∀ x, z.fos.epoch = some x → z.fld Fld.fosState = fosOpen →
        (((x.toStore && x.storeLive) = false ∧ (x.toBuddy && x.buddyLive) = false)
          ∨ (x.headerSent = true ∧ (x.buddyLive = false ∨ z.fosInFlight x.buddy = false))) →
        let v := z.setFld Fld.fosState fosStreamed
        (x.commit = none → exec (.epochStreamed at_) s = .next v)
          ∧ ∀ id, x.commit = some id → exec (.epochStreamed at_) s = .next (v.commitEpoch x id))
      ∧ (u.hostAborts e.store ((e.pages.length + 1) * fosPage) = true → exec (.fossilStoreFailed at_) s = .next u.loseStore)))
  ∧ (∀ e : Epoch,
    let store := e.toStore && e.storeLive
    let buddy := e.toBuddy && e.buddyLive
    let poison := e.pages.any fun (p : FosPage) => p.poisoned != 0
    ((store = e.toStore ∧ buddy = e.toBuddy) → e.outcome = (if poison then 1 else 0, true))
    ∧ (e.toStore = true → e.toBuddy = true → store ≠ buddy → e.outcome = (0, true))
    ∧ ((e.toStore = true ∨ e.toBuddy = true) → store = false → buddy = false → e.outcome = (e.lost, false)))

/-- BUDDY_OPEN_MESSAGE, BUDDY_OPEN_REPLY, BUDDY_IMAGE_PAGE, COMMIT_MARKER_RECEIVED and FOSSIL_BUDDY_LOST: a buddy takes an image of its own
sender that fits a half of its reserve; the half that lands replaces the committed one at the marker of its epoch, and a marker of any
other is ignored.

FILL_REQUEST_RECEIVED, FILL_PAGE_RECEIVED, FILL_SOURCE_LOST and FOS_REG_WRITE: a request of another epoch or of a module that is not the
sender is refused with the reason; a refusal ends the fill with its status; the loss of the source leaves the module partial; a
write of a FOS register out of range is ignored. -/
def Obligations.BuddyImages : Prop :=
  (∀ (s : State) (at_ sender epoch pages page feed : Nat) (data : List (Nat × Nat)),
    let u := s.advanceTo at_
    (u.flag Fld.buddyEn = true → u.fld Fld.buddySender = sender → u.flag Fld.buddyFilling = false → pages + 1 ≤ u.halfPages →
      let v := ({ u with fos := { u.fos with landing := some (sender, epoch, pages), arriving := u.fos.arriving.filter fun a => a.fill } } : State).setFld Fld.buddyLanding 1
      exec (.buddyOpenMessage at_ sender epoch pages) s = .next (v.tell (.reply sender true v.feedId)))
    ∧ ((u.flag Fld.buddyEn = false ∨ u.fld Fld.buddySender ≠ sender ∨ u.halfPages < pages + 1) →
      exec (.buddyOpenMessage at_ sender epoch pages) s = .next (u.tell (.reply sender false u.feedId)))
    ∧ (∀ e, u.fos.epoch = some e → e.asked = true →
      exec (.buddyOpenReply at_ true feed) s
          = .next (u.mapEpoch fun e => { e with asked := false, coFed := u.coFedWith feed }).armEpoch
        ∧ exec (.buddyOpenReply at_ false feed) s = .next
          ((({ u with fos := { u.fos with epoch := none } } : State).completeSome e.begin_ 0x0905 0).completeSome e.commit 0x0902 0))
    ∧ (∀ n, u.fos.landing = some (sender, epoch, n) →
      (page ≤ n → exec (.buddyImagePage at_ sender page data) s = .next
        ((u.writeFosPage (u.buddyPageAt (1 - u.fos.half) page) (gransOf data)).fossilField (u.buddyPageAt (1 - u.fos.half) page)
          (parityField epoch)))
      ∧ (let v : State := { u with fos := { u.fos with landing := none, arriving := u.fos.arriving.filter (fun a => a.fill), half := 1 - u.fos.half } }
         exec (.commitMarkerReceived at_ sender epoch) s = .next
          ((((v.setFld Fld.buddyLanding 0).setFld Fld.buddyEpoch epoch).setFld Fld.buddyValid 1).setFld Fld.buddyPages n))
      ∧ ∀ other, other ≠ epoch → exec (.commitMarkerReceived at_ sender other) s = .next u)
    ∧ (∀ e, u.fos.epoch = some e → e.buddyLive = true → (u.fosRoute e.buddy).isNone = true →
      exec (.fossilBuddyLost at_) s = .next u.loseBuddy))
  ∧ (∀ (s : State) (at_ requester epoch page : Nat) (data : List (Nat × Nat)),
    let u := s.advanceTo at_
    ((u.flag Fld.buddyValid = false ∨ u.fld Fld.buddyEpoch ≠ epoch) →
      exec (.fillRequestReceived at_ requester epoch) s = .next (u.tell (.refused requester 0x0909)))
    ∧ (u.flag Fld.buddyValid = true → u.fld Fld.buddyEpoch = epoch → u.fld Fld.buddySender ≠ requester →
      exec (.fillRequestReceived at_ requester epoch) s = .next (u.tell (.refused requester 0x0905)))
    ∧ (u.flag Fld.buddyValid = true → u.fld Fld.buddyEpoch = epoch → u.fld Fld.buddySender = requester →
      let v := u.setFld Fld.buddyFilling 1
      exec (.fillRequestReceived at_ requester epoch) s = .next ((List.range (v.fld Fld.buddyPages + 1)).foldl (fun t k =>
        let r := t.committedPage k
        (r.2.fosPackets true requester epoch k r.1).foldl State.routeOut r.2) v).endFillRead)
    ∧ (∀ f, u.fos.fill = some f →
      exec (.fillPageReceived at_ 0 page data) s = .next ((u.fillPage page (gransOf data)).getD u)
      ∧ (∀ status, status ≠ 0 → f.header = false → exec (.fillPageReceived at_ status page data) s
        = .next (({ u with fos := { u.fos with fill := none } } : State).completeCmd f.cmd status 0))
      ∧ (f.asked = true → (u.fosRoute f.buddy).isNone = true → exec (.fillSourceLost at_) s = .next u.loseFill)
      ∧ ((f.asked = false ∨ (u.fosRoute f.buddy).isNone = false) → exec (.fillSourceLost at_) s = .next u))
    ∧ ∀ p off v, Reg.fos ≤ off → off < Reg.pwr → u.admits p off = true →
      (u.fosRefuses off v.toNat = true → exec (.fosRegWrite at_ p off v) s = .next (u.setFld Fld.fosCfgReject 1))
        ∧ (u.fosRefuses off v.toNat = false → exec (.fosRegWrite at_ p off v) s = .next (u.plainWrite off v)))

/-! ## Boot and security -/

/-- BOOT_ROM_START, BOOT_LOCK, OWNER_ENROLL and DEBUG_OPEN: with power good the ROM leaves reset and tries its candidate slots in turn, and in
no other phase; boot code sets the lock, and Flint's service then runs; only boot code, before the lock, enrols an owner, and only where
none is enrolled, and it opens debug only where its image allows it.

FW_UPDATE, FW_UPDATE_DONE, FW_CONFIRM, BURN_SVN, ATTESTATION_REQUEST and ATTESTATION_REPORT_WRITTEN: an update is refused while a trial runs,
and an image is written to the slot that does not run only where it is acceptable; a confirmed image keeps its slot; the burned
minimum svn rises to the running image's; a report is written where the request asked, and refused once debug has been open. -/
def Obligations.BootAndFirmware : Prop :=
  (∀ (s : State) (at_ : Nat) (value : Word),
    let u := s.advanceTo at_
    (u.pins.phase = .reset → u.pins.pwrGood = true → u.deaf = false →
      let v := (({ u with mem := { u.mem with resetAt := u.now }, pins := { u.pins with phase := .boot, perst := false } } : State).setClocks).setFld Fld.hifWidth
        (if Config.hostX8 then 1 else 2)
      exec (.bootRomStart at_) s = .next (v.bootFrom (v.candidates.headD 0) v.candidates))
    ∧ (u.pins.phase ≠ .reset → exec (.bootRomStart at_) s = .next u)
    ∧ (Sound s → u.bootCode = true →
      let v := u.lockBoot.setFld Fld.bootState 2
      let w : State := { v with pins := { v.pins with phase := .running }, err := { v.err with lastAck := v.now } }
      (u.flag Fld.fallback = false → exec (.bootLock at_) s = .next w)
        ∧ (u.flag Fld.fallback = true → exec (.bootLock at_) s = .next (w.report { code := 0x0821 })))
    ∧ (u.bootCode = false → exec (.bootLock at_) s = .next u ∧ ∀ p, exec (.ownerEnroll at_ p value) s = .next u
      ∧ exec (.debugOpen at_ p value) s = .next u)
    ∧ (∀ key, u.bootCode = true → u.fw.enrollKey = some key → bit value.toNat 0 = true →
      exec (.ownerEnroll at_ .flint value) s = .next (if u.ownerKey.isSome then u
        else ({ u with fw := { u.fw with owner := some key, enrollKey := none } } : State).loadFuses.setFld Fld.enroll 1))
    ∧ (u.bootCode = true → bit value.toNat 0 = true →
      (u.fw.debugImage = true → exec (.debugOpen at_ .flint value) s = .next ((u.setFld Fld.debugOpen 1).setFld Fld.debugOpened 1))
      ∧ (u.fw.debugImage = false → exec (.debugOpen at_ .flint value) s = .next u)))
  ∧ (∀ (s : State) (at_ : Nat),
    let u := s.advanceTo at_
    (u.servesUpdate = true →
      (u.fld Fld.updStatus ≠ 1 → u.flag Fld.trial = true → exec (.fwUpdate at_) s = .next (u.failUpdate 4))
      ∧ (u.fld Fld.updStatus ≠ 1 → u.flag Fld.trial = false →
        let a := (u.rd Reg.secUpdLo).toNat / 64 * 64 + (u.rd Reg.secUpdHi).toNat * 2 ^ 32
        let n := bits (u.rd Reg.secUpdLen).toNat 0 26
        exec (.fwUpdate at_) s = .next (({ u with fw := { u.fw with update := some (a, n), updAborted := false } } : State).setFld Fld.updStatus 1))
      ∧ (∀ a n, u.fw.update = some (a, n) → u.fw.updAborted = false → u.hostRefuses a n = false →
        let image := u.hostBytes a n
        (n = 4096 + Header.bodyLen (image.take 4096) →
          let v := u.writeSlot u.otherSlot image
          exec (.fwUpdateDone at_) s = .next (if u.imageOk (image.take 4096) (image.drop 4096)
            then (({ v with fw := { v.fw with update := none } } : State).setFld Fld.updStatus 2).tellUpdate 0x0822
            else u.failUpdate 3))
        ∧ (n ≠ 4096 + Header.bodyLen (image.take 4096) → exec (.fwUpdateDone at_) s = .next (u.failUpdate 3)))
      ∧ (∀ a n, u.fw.update = some (a, n) → u.fw.updAborted = true → exec (.fwUpdateDone at_) s = .next (u.failUpdate 6))
      ∧ (u.fld Fld.bootState = 2 → exec (.fwConfirm at_) s = .next
        ((u.setSlotBits (u.fld Fld.bootSlot) (putBits (u.slotBits (u.fld Fld.bootSlot)) 1 1 0)).setFld Fld.trial 0))
      ∧ (u.flag Fld.trial = true → exec (.burnSvn at_) s = .next (u.setFld Fld.updStatus 4))
      ∧ (u.flag Fld.trial = false → exec (.burnSvn at_) s = .next (if u.minSvn < u.fld Fld.svn
        then ({ u with fw := { u.fw with burnedSvn := u.fld Fld.svn } } : State).setFld Fld.minSvn (u.fld Fld.svn) else u)))
    ∧ (u.up = true → u.fld Fld.attStatus ≠ 1 →
      (u.flag Fld.debugOpened = true → exec (.attestationRequest at_) s = .next (u.setFld Fld.attStatus 3))
      ∧ (u.flag Fld.debugOpened = false →
        let a := (u.rd Reg.secAttLo).toNat / 64 * 64 + (u.rd Reg.secAttHi).toNat * 2 ^ 32
        let nonce := (List.range 8).flatMap fun n => u.regBytes (Reg.secAttNonce n)
        exec (.attestationRequest at_) s
          = .next (({ u with fw := { u.fw with report := some (a, nonce) } } : State).setFld Fld.attStatus 1)))
    ∧ (∀ a nonce, u.fw.report = some (a, nonce) → u.hostAborts a 384 = false →
      exec (.attestationReportWritten at_) s = .next
        ((({ u with fw := { u.fw with report := none } } : State).putHost a (u.attestation nonce)).setFld Fld.attStatus 2)))

/-- An image is acceptable exactly when: it has the header format, the part, the body length and the entry that the layout gives, and
zeros in its reserved bytes; its key is not revoked, and Kuermou's signature verifies; its svn is not below the minimum that fuses
hold; under an enrolled owner, the owner's signature verifies under that owner's key, and a key it would enrol is that key; with no
owner enrolled, an image that would enrol one carries a signature that verifies under the key it would enrol. -/
def Obligations.ImageAcceptable : Prop :=
  ∀ (s : State) (h : Header) (body : List Byte),
    let d := imageDigest h body
    s.imageOk h body = true ↔
      (h.num 0 2 = 1 ∧ h.num 2 2 = 0x2560 ∧ h.bodyLen % 64 = 0 ∧ 64 ≤ h.bodyLen ∧ h.bodyLen ≤ 33546240 ∧ h.num 12 4 < h.bodyLen
        ∧ bit h.flags 7 = false ∧ bits h.flags 2 2 = 0 ∧ h.num 5 1 < 64 ∧ h.num 6 2 = 0 ∧ h.num 16 16 = 0 ∧ h.num 64 64 = 0
        ∧ (∀ b ∈ h.drop 256, b = 0))
      ∧ Config.keyRevoked h.keyIdx = false
      ∧ edVerify (leBytes 32 (Config.kuermouKey h.keyIdx).toNat) (h.sub 128 64) d = true
      ∧ s.minSvn ≤ h.svn
      ∧ (∀ k, s.ownerKey = some k → h.ownerSig = true ∧ edVerify (leBytes 32 k) (h.sub 192 64) d = true
        ∧ (h.enroll = false ∨ h.enrollKey = leBytes 32 k))
      ∧ (s.ownerKey = none → h.enroll = true → h.ownerSig = true ∧ edVerify h.enrollKey (h.sub 192 64) d = true)

/-! ## Sideband: JTAG, power, temperature, clocks, wear and the SMBus endpoint -/

/-- BYPASS, IDCODE, SAMPLE_PRELOAD, EXTEST and KUERMOU_PRIVATE_DEBUG: the port runs while the module is powered; IDCODE shifts out
0xA2560F4B; SAMPLE/PRELOAD captures the covered pins and loads the boundary; EXTEST is BYPASS while a context exists after the
lock; the private instruction needs open debug before the lock. No JTAG instruction changes a register, a memory or a queue. -/
def Obligations.JtagInstructions : Prop :=
  (∀ (s : State) (at_ : Nat) (l : List Bool),
    let u := s.advanceTo at_
    u.jtagOn = true →
    exec (.bypass at_) s = .next { u with pins := { u.pins with jtag := .bypass, scanOut := [0] } }
    ∧ exec (.idcode at_) s = .next { u with pins := { u.pins with jtag := .idcode, scanOut := [0xA2560F4B] } }
    ∧ exec (.samplePreload at_ l) s
      = .next { u with pins := { u.pins with jtag := .samplePreload, scanOut := u.coveredPins, boundary := l } }
    ∧ ((u.flag Fld.bootLock = false ∨ u.anyCtx = false) →
      exec (.extest at_) s = .next { u with pins := { u.pins with jtag := .extest, scanOut := u.coveredPins } })
    ∧ (u.flag Fld.bootLock = true → u.anyCtx = true →
      exec (.extest at_) s = .next { u with pins := { u.pins with jtag := .bypass, scanOut := [0] } })
    ∧ (u.flag Fld.bootLock = false → u.flag Fld.debugOpen = true →
      exec (.kuermouPrivateDebug at_) s = .next { u with pins := { u.pins with jtag := .private_, scanOut := [] } })
    ∧ (u.flag Fld.bootLock = true → exec (.kuermouPrivateDebug at_) s = .next { u with pins := { u.pins with jtag := .bypass, scanOut := [0] } }))
  ∧ ∀ (s t : State) (at_ : Nat) (l : List Bool) (c : Instr),
    (c = .bypass at_ ∨ c = .idcode at_ ∨ c = .samplePreload at_ l ∨ c = .extest at_ ∨ c = .kuermouPrivateDebug at_) →
    exec c s = .next t →
    (∀ off, (off < Reg.pwr ∨ Reg.sec ≤ off) → t.rd off = s.rd off) ∧ t.mem = s.mem ∧ t.core = s.core ∧ t.host = s.host ∧ t.fw = s.fw
      ∧ t.quarries = s.quarries ∧ t.ctx = s.ctx ∧ t.err = s.err ∧ t.vein = s.vein ∧ t.pins.phase = s.pins.phase

/-- PWR_EN_RISE, PWR_GOOD_RISE, PWR_EN_FALL, PERST_ASSERT, INPUT_UNDERVOLTAGE and INPUT_OVERVOLTAGE: the module powers up, latches its straps
when power is good, and starts anew when PERST# or power is lost; regulators that turned off of themselves stay off until PWR_EN
has been low for 100 ms. -/
def Obligations.PowerSequence : Prop :=
  ∀ (s : State) (at_ feed node slot : Nat),
    let u := s.advanceTo at_
    (u.pins.phase = .unpowered → u.deaf = false →
      let v : State := { u with pins := { u.pins with phase := .powerUp, pwrEn := true } }
      (u.pwr.lowSince + 10000000 ≤ u.now → exec (.pwrEnRise at_) s = .next { v with pwr := { v.pwr with lockout := false } })
      ∧ (u.now < u.pwr.lowSince + 10000000 → exec (.pwrEnRise at_) s = .next v))
    ∧ (u.pins.phase = .powerUp → u.pwr.lockout = false → feed < 16 → node < 8 → slot < 64 →
      let w := strapsWord (BitVec.ofNat 4 feed, BitVec.ofNat 3 node, BitVec.ofNat 6 slot)
      exec (.pwrGoodRise at_ feed node slot) s
        = .next ({ u with pins := { u.pins with phase := .reset, pwrGood := true, straps := w } } : State).loadFuses
      ∧ w.toNat = feed * 4096 + node * 256 + slot)
    ∧ (u.pwr.lockout = true → exec (.pwrGoodRise at_ feed node slot) s = .next u)
    ∧ (u.pins.pwrEn = true → u.deaf = false → exec (.pwrEnFall at_) s
      = .next (({ u with pwr := { u.pwr with lowSince := u.now } } : State).anew .unpowered false false))
    ∧ (u.pins.phase ≠ .unpowered → u.pins.phase ≠ .powerUp →
      let off := ({ u with pwr := { u.pwr with lockout := true } } : State).anew .powerUp true false
      (u.deaf = false → exec (.perstAssert at_) s = .next (u.anew .reset true true))
        ∧ exec (.inputUndervoltage at_) s = .next off ∧ exec (.inputOvervoltage at_) s = .next off)

/-- What a module that starts anew keeps and loses: time, the boot flash but for an update that was being written, what the fuses hold, the
straps, host memory and the waiting commands are kept; every register but those that the fuses and straps fill is at its reset
value; no context exists, no stream is bound, no record is open and no command is held. -/
def Obligations.StartsAnew : Prop :=
  ∀ (s : State) (phase : Phase) (en good : Bool),
    let t := s.anew phase en good
    t.now = s.now ∧ t.fw.burnedSvn = s.fw.burnedSvn ∧ t.fw.owner = s.fw.owner ∧ t.mem.host = s.mem.host ∧ t.pending = s.pending
      ∧ t.freeCtr = s.freeCtr ∧ (s.fw.update = none → t.fw.flash = s.fw.flash)
      ∧ t.rd Reg.glbStraps = s.pins.straps ∧ t.anyCtx = false ∧ (∀ c n, (t.stream c n).state = .unbound)
      ∧ (∀ i, (t.errRec i).state ≠ .opened) ∧ t.host.cmds = [] ∧ t.host.compls = [] ∧ (∀ q, (t.quarry q).count = 0)
      ∧ (∀ off, off < Reg.sec → off ≠ Reg.glbStraps → t.rd off = Reg.resetWord off)
      ∧ t.mem.ls = [] ∧ t.mem.phys = [] ∧ t.mem.sramEpoch = s.mem.sramEpoch + 1 ∧ t.pins.phase = phase

/-- INPUT_VOLTAGE, POWER_SAMPLE and CAP_STEP: an input outside 44 V to 58 V is reported once; a 1 ms average above the lesser of 2,200 W and
50 A at the input voltage halves the clock, where a slab stands above the floor; the cap lowers the clock's request by 25 MHz every
50 µs while the average is above it. -/
def Obligations.PowerLimits : Prop :=
  (∀ mv, ceilingW mv = min 2200 (50 * mv / 1000)) ∧
  ∀ (s : State) (at_ mv ca avg win : Nat),
    let u := s.advanceTo at_
    u.up = true →
    (44000 ≤ mv → mv ≤ 58000 → exec (.inputVoltage at_ mv) s = .next ((u.setFld Fld.inputMv mv).setFld Fld.inputRange 0))
    ∧ ((mv < 44000 ∨ 58000 < mv) → (u.setFld Fld.inputMv mv).flag Fld.inputRange = false →
      exec (.inputVoltage at_ mv) s = .next (((u.setFld Fld.inputMv mv).setFld Fld.inputRange 1).report { code := 0x0705 }))
    ∧ (let v := (((u.setFld Fld.inputMv mv).setFld Fld.inputCa ca).setFld Fld.avg1ms avg).setFld Fld.avgWin win
       avg ≤ ceilingW mv → exec (.powerSample at_ mv ca avg win) s = .next
        ({ v with pwr := { v.pwr with withhold := v.pwr.withhold && decide (2100 ≤ avg), ceilReq := 0 } } : State).setClocks)
    ∧ (let v := (((u.setFld Fld.inputMv mv).setFld Fld.inputCa ca).setFld Fld.avg1ms avg).setFld Fld.avgWin win
       ceilingW mv < avg → (([0, 1, 2, 3] : List Nat).all fun i => v.permitted i == 950) = false → exec (.powerSample at_ mv ca avg win) s = .next
        ({ v with pwr := { v.pwr with withhold := v.pwr.withhold && decide (2100 ≤ avg), ceilReq := v.halvedClock } } : State).setClocks)
    ∧ (u.pwr.capAt + 5000 ≤ u.now → u.flag Fld.capEn = true → u.fld Fld.capW < u.fld Fld.avgWin →
      let f := if u.pwr.capReq = 0 then 1900 else u.pwr.capReq
      exec (.capStep at_) s
        = .next ({ u with pwr := { u.pwr with capReq := max 950 (f - 25), capAt := u.now } } : State).setClocks)
    ∧ (u.now < u.pwr.capAt + 5000 → exec (.capStep at_) s = .next u)

/-- No request takes a slab's clock below 0.95 GHz, and none but droop stretch does: the clock that the requests leave lies between 950 MHz
and the weathering maximum (or the floor), THROTTLE_IN# holds it at 950 MHz, and droop halves what is left. -/
def Obligations.ClockFloor : Prop :=
  ∀ (s : State) (i : Nat),
    950 ≤ s.requested i ∧ s.requested i ≤ max 950 (s.fld (Fld.wearMhz i))
      ∧ 950 ≤ s.permitted i ∧ s.permitted i ≤ s.requested i
      ∧ (s.pwr.throttleAt.isSome = true → s.permitted i = 950)
      ∧ ((s.slab i).drooped = false → (s.slab i).droopRamp = none → s.clockOf i = s.permitted i)
      ∧ ((s.slab i).drooped = true → s.clockOf i = s.permitted i / 2)
      ∧ s.permitted i / 2 ≤ s.clockOf i ∧ s.clockOf i ≤ s.permitted i

/-- THERMAL_THROTTLE, THERMAL_TRIP, THROTTLE_IN_ASSERT, THROTTLE_IN_RELEASE, THROTTLE_IN_PULSE and THROTTLE_HELD: a unit above its threshold
slows by 50 MHz at each step, no sooner than 100 µs after the last, and is reported once per excursion; a sensor above trip_c turns the regulators off; THROTTLE_IN# is counted
and acted on, and one held for 1 s is reported once. -/
def Obligations.ThermalAndThrottle : Prop :=
  ∀ (s : State) (at_ unit temp : Nat),
    let u := s.advanceTo at_
    u.up = true →
    (unit < 37 →
      let v := u.sense unit temp
      let lim := v.fld (if unit < 5 then Fld.throttleC else Fld.stackThrottleC)
      (lim < temp → v.isHot unit = false → exec (.thermalThrottle at_ unit temp) s
        = .next ((((v.setHot unit true).setThermal unit lowered).setClocks).report { code := 0x0702 }))
      ∧ (v.isHot unit = true → lim < temp + 2 → v.hotDue unit = true → exec (.thermalThrottle at_ unit temp) s
        = .next ((v.setHot unit true).setThermal unit lowered).setClocks)
      ∧ (v.isHot unit = true → lim < temp + 2 → v.hotDue unit = false → exec (.thermalThrottle at_ unit temp) s = .next v)
      ∧ (v.isHot unit = true → temp + 2 ≤ lim → exec (.thermalThrottle at_ unit temp) s
        = .next ((v.setHot unit false).setThermal unit fun _ => 0).setClocks)
      ∧ (v.isHot unit = false → temp ≤ lim → exec (.thermalThrottle at_ unit temp) s = .next v))
    ∧ (unit < 37 → u.fld Fld.tripC < temp → exec (.thermalTrip at_ unit temp) s = .next (u.sense unit temp).regulatorsOff)
    ∧ (temp ≤ u.fld Fld.tripC → exec (.thermalTrip at_ unit temp) s = .next u)
    ∧ (u.deaf = false →
      (u.flag Fld.throttleIn = false →
        let v : State := { u with pwr := { u.pwr with throttleAt := some u.now, throttleTold := false, throttleRamp := none } }
        exec (.throttleInAssert at_) s = .next (((v.setFld Fld.throttleIn 1).bump Fld.assertions).setClocks))
      ∧ (u.flag Fld.throttleIn = true →
        let v : State := { u with pwr := { u.pwr with throttleAt := none, throttleRamp := some u.now } }
        exec (.throttleInRelease at_) s = .next (v.setFld Fld.throttleIn 0).setClocks)
      ∧ exec (.throttleInPulse at_) s = .next (u.bump Fld.filtered))
    ∧ (∀ t, u.pwr.throttleAt = some t → u.pwr.throttleTold = false →
      (t + 100000000 ≤ u.now → exec (.throttleHeld at_) s
        = .next (({ u with pwr := { u.pwr with throttleTold := true } } : State).report { code := 0x0703 }))
      ∧ (u.now < t + 100000000 → exec (.throttleHeld at_) s = .next u))

/-- DROOP, CANARY_STRETCH and DROOP_RECOVERY: a stretch halves the clock of its slab and is counted, and one more in a millisecond than the
configured number is a storm; the clock returns from the recovery on.

REFCLK_LOST, REFCLK_RESTORED, WEAR_PLAN, PLAN_NOW and WEAR_PLAN_DUE: the loss of the 100 MHz reference is fatal and that of the 156.25 MHz
reference takes the ports down; a wear plan is made when one is due, which fences the cores and then the slabs that no clock serves, and
one that is 24 h late is reported. -/
def Obligations.DroopAndWear : Prop :=
  (∀ (s : State) (at_ i : Nat),
    let u := s.advanceTo at_
    let b := u.slab i
    let l := (b.droopAt.filter fun t => decide (u.now < t + 100000)) ++ [u.now]
    u.up = true → i < 4 →
    exec (.droop at_ i) s = exec (.canaryStretch at_ i) s
    ∧ (l.length ≤ u.fld Fld.stormPerMs → exec (.droop at_ i) s
      = .next ((u.setSlab i { b with drooped := true, droopRamp := none, droopAt := l }).bump (Fld.droops i)).setClocks)
    ∧ (u.fld Fld.stormPerMs < l.length → exec (.droop at_ i) s
      = .next (((((u.setSlab i { b with drooped := true, droopRamp := none, droopAt := [] }).bump (Fld.droops i)).setClocks).report
          { code := 0x0704, index := i }).raiseGroups i))
    ∧ (b.drooped = true → exec (.droopRecovery at_ i) s
      = .next (u.setSlab i { b with drooped := false, droopRamp := some u.now }).setClocks)
    ∧ (b.drooped = false → exec (.droopRecovery at_ i) s = .next u))
  ∧ (∀ (s : State) (at_ : Nat) (steps mhz failed slabs : List Nat),
    let u := s.advanceTo at_
    (u.up = true → exec (.refclkLost at_ 100) s = .next ((u.report { code := 0x0706, detail := 100 }).makeFatal 0x0706))
    ∧ (u.up = true → ∀ m, m ≠ 100 →
      exec (.refclkLost at_ m) s = .next ((List.range 16).foldl (fun t p =>
        if t.fld (Fld.portState p) = psDisabled ∨ t.fld (Fld.portState p) = psFailed then t else t.loseLink p 0x0302)
        ((u.setFld Fld.ref156Lost 1).report { code := 0x0706, detail := 156 })))
    ∧ exec (.refclkRestored at_) s = .next (u.setFld Fld.ref156Lost 0)
    ∧ (u.up = true → exec (.planNow at_) s = .next { u with pwr := { u.pwr with planNow := true } })
    ∧ (u.pins.phase = .running → u.err.flintDown = false → u.planDue = true →
      let v := (List.range 24).foldl (fun t g => t.planGroup g (steps.getD g 0)) u
      let v := ([0, 1, 2, 3] : List Nat).foldl (fun t i =>
        t.planSlab i (if (List.range 6).any fun r => steps.getD (6 * i + r) 0 == 0 then mhz.getD i 950 else 1900)) v
      let v := ((List.range 160).filter fun c => failed.contains c && !slabs.contains (c / 40)).foldl (fun t c =>
        if t.coreFenced c then t else t.raise { code := 0x0264, domain := domCore, index := c, core := some c, detail := 0x0708 }) v
      let v := (([0, 1, 2, 3] : List Nat).filter slabs.contains).foldl (fun t i =>
        if t.fenceBit domSlab i then t else t.raise { code := 0x0264, domain := domSlab, index := i, detail := 0x0708 }) v
      exec (.wearPlan at_ steps mhz failed slabs) s = .next
        ((({ v with pwr := { v.pwr with wearAt := some v.now, planNow := false } } : State).setFld Fld.wearPlanDue 0).checkWear.setClocks))
    ∧ (u.planDue = false → exec (.wearPlan at_ steps mhz failed slabs) s = .next u)
    ∧ (∀ t, u.planDueAt = some t → u.pins.phase = .running → u.flag Fld.wearPlanDue = false →
      (t + 8640000000000 ≤ u.now → exec (.wearPlanDue at_) s = .next ((u.setFld Fld.wearPlanDue 1).report { code := 0x0709 }))
      ∧ (u.now < t + 8640000000000 → exec (.wearPlanDue at_) s = .next u)))

/-- The SMBus endpoint, commands of MCTP and PLDM discovery: SET_ENDPOINT_ID, GET_ENDPOINT_ID, GET_MCTP_VERSION_SUPPORT,
GET_MESSAGE_TYPE_SUPPORT, GetTID, GetPLDMVersion, GetPLDMTypes, GetPLDMCommands, and a command it does not support. A value that the
spec does not give in a reply is a free value (log entry 3). While Flint restarts nothing answers.

The sensors and their records: GetPDRRepositoryInfo, GetPDR, GetSensorReading, GetStateSensorReadings and SENSOR_REFRESH. Eleven records,
sensors 0 to 6 numeric and 7 to 10 of state; any other number is refused with its code; a reading is the one last refreshed, at most
every 100 ms. What a record holds is a free value (log entry 3). -/
def Obligations.SmbusEndpoint : Prop :=
  (∀ (s : State) (at_ : Nat),
    let u := s.advanceTo at_
    let answer (r : Reply) : Host.Outcome State Fault Refusal := .next { u with pins := { u.pins with reply := some r } }
    (u.answers false = true →
      (∀ eid, 8 ≤ eid → eid < 255 → exec (.setEndpointId at_ eid) s
        = .next { u with pins := { u.pins with eid := eid, reply := some ⟨0, [eid]⟩ } })
      ∧ (∀ eid, (eid < 8 ∨ 255 ≤ eid) → exec (.setEndpointId at_ eid) s = answer ⟨ccInvalidData, []⟩)
      ∧ exec (.getEndpointId at_) s = answer ⟨0, [u.pins.eid]⟩
      ∧ exec (.getMessageTypeSupport at_) s = answer ⟨0, [0, 1]⟩
      ∧ exec (.getpldmtypes at_) s = answer ⟨0, [0, 2]⟩
      ∧ (∀ ty, (ty = 0 ∨ ty = 2) → exec (.getpldmcommands at_ ty) s = answer ⟨0, pldmCommands ty⟩)
      ∧ (∀ ty, ty ≠ 0 → ty ≠ 2 → exec (.getpldmcommands at_ ty) s = answer ⟨ccInvalidType, []⟩
        ∧ exec (.getpldmversion at_ ty) s = answer ⟨ccInvalidType, []⟩)
      ∧ exec (.unsupportedPldmCmd at_) s = answer ⟨ccUnsupported, []⟩
      ∧ (∃ v t, exec (.getMctpVersionSupport at_) s = .next t ∧ t.pins = { u.pins with reply := some ⟨0, [v]⟩ } ∧ t.regs = u.regs
        ∧ t.mem = u.mem)
      ∧ ∃ v t, exec (.getpldmversion at_ 0) s = .next t ∧ t.pins = { u.pins with reply := some ⟨0, [v]⟩ } ∧ t.regs = u.regs ∧ t.mem = u.mem)
    ∧ (u.answers true = true →
      ∃ v t, exec (.gettid at_) s = .next t ∧ v < 256 ∧ t.pins = { u.pins with reply := some ⟨0, [v]⟩ } ∧ t.regs = u.regs ∧ t.mem = u.mem)
    ∧ (u.answers false = false → exec (.getEndpointId at_) s = .next { u with pins := { u.pins with reply := none } }))
  ∧ (∀ (s : State) (at_ : Nat),
    let u := s.advanceTo at_
    let answer (r : Reply) : Host.Outcome State Fault Refusal := .next { u with pins := { u.pins with reply := some r } }
    (u.answers true = true →
      exec (.getpdrrepositoryinfo at_) s = answer ⟨0, [11]⟩
      ∧ (∀ n, n < 7 → exec (.getsensorreading at_ n) s = answer ⟨0, [u.pwr.readings.getD n 0]⟩)
      ∧ (∀ n, 7 ≤ n → exec (.getsensorreading at_ n) s = answer ⟨ccInvalidSensor, []⟩)
      ∧ (∀ n, 7 ≤ n → n < 11 → exec (.getstatesensorreadings at_ n) s = answer ⟨0, [u.pwr.readings.getD n 0]⟩)
      ∧ (∀ n, (n < 7 ∨ 11 ≤ n) → exec (.getstatesensorreadings at_ n) s = answer ⟨ccInvalidSensor, []⟩)
      ∧ (∀ n, 11 ≤ n → exec (.getpdr at_ n) s = answer ⟨ccInvalidRecord, []⟩)
      ∧ ∀ n, n < 11 → ∃ v t, exec (.getpdr at_ n) s = .next t ∧ t.pins = { u.pins with reply := some ⟨0, [n, v]⟩ } ∧ t.regs = u.regs
        ∧ t.mem = u.mem)
    ∧ ((u.pins.phase = .running ∨ u.pins.phase = .fatal) → u.err.flintDown = false →
      (u.pwr.readAt = none → exec (.sensorRefresh at_) s = .next { u with pwr := { u.pwr with readings := u.sensors, readAt := some u.now } })
      ∧ ∀ t, u.pwr.readAt = some t →
        (t + 10000000 ≤ u.now → exec (.sensorRefresh at_) s = .next { u with pwr := { u.pwr with readings := u.sensors, readAt := some u.now } })
        ∧ (u.now < t + 10000000 → exec (.sensorRefresh at_) s = .next u)))

/-! ## The physical map and the number formats -/

/-- Two addresses of main memory never share a place in a channel: an address in a slice or in the global window lies in one of the
1,024 sub-channels, and its sub-channel and its channel offset together say which address it is, whichever of the two interleaves
places it and whatever MEM_LAYOUT.global_gib holds. Bank c of Geode lies from 0x1000_0000_0000 + c × 0x0400_0000 on. -/
def Obligations.ChannelsDoNotAlias : Prop :=
  (∀ (s : State) (a b : Nat), ((s.place a).subChannel).isSome = true → (s.place a).subChannel = (s.place b).subChannel →
    (s.place a).chanOff (s.fld Fld.globalGib) = (s.place b).chanOff (s.fld Fld.globalGib) → a = b)
  ∧ (∀ (s : State) (a k : Nat), (s.place a).subChannel = some k → k < 1024)
  ∧ ∀ (s : State) (c o : Nat), c < 160 → o < 0x04000000 → s.place (0x100000000000 + c * 0x04000000 + o) = .bank c o

/-- The formats: each pattern of each of the twelve formats that is no NaN is the encoding of the value that it decodes to, and a
conversion of that value into its own format returns it unchanged and raises no flag, in every rounding mode.

The rounding of a magnitude m × 2^e to a multiple of 2^u: nearest-even is within half of 2^u and takes the even one of two that are
as near; toward zero drops what lies below; stochastic rounding with the draw r leaves an exact value and otherwise moves away from
zero when the fraction's first 16 bits and r carry. -/
def Obligations.NumberFormats : Prop :=
  (∀ (f : Fmt), f ∈ [Fmt.bf16, Fmt.f16, Fmt.e4m3, Fmt.e5m2, Fmt.ofCode 4, Fmt.ofCode 5, Fmt.e3m2, Fmt.e2m3, Fmt.e2m1, Fmt.int8, Fmt.f32, Fmt.a40] →
    ∀ w, w < 2 ^ f.width → (f.decode w).isNan = false →
      f.encode (f.decode w) = w ∧ ∀ r : Rnd, (f.convert r (f.decode w)).2 = 0 ∧ f.encode (f.convert r (f.decode w)).1 = w)
  ∧ (∀ (m : Nat) (e u : Int), e < u →
    let d := 2 ^ (u - e).toNat
    (∃ q, roundAt .nearest u m e = (q, u) ∧ 2 * (q * d) ≤ 2 * m + d ∧ 2 * m ≤ 2 * (q * d) + d
      ∧ (2 * (q * d) = 2 * m + d ∨ 2 * m = 2 * (q * d) + d → q % 2 = 0))
    ∧ roundAt .zero u m e = (m / d, u)
    ∧ ∀ r, r < 65536 → roundAt (.stoch r) u m e
      = (if m % d = 0 then m / d else if 65536 ≤ m % d * 65536 / d + r then m / d + 1 else m / d, u))
end

