-- ==== Sys2Proof/Laws/Maps.lean ====
section
/-! SUPPORT. The laws of sparse maps: a read after a write, and the canonical form. -/

namespace Sys2Proof.Machine

variable {α : Type} [DecidableEq α] {d : Nat → α}

@[simp] theorem SMap.get_nil {α : Type} (d : Nat → α) (a : Nat) : SMap.get d [] a = d a := rfl

/-- A write leaves every other key alone. -/
theorem SMap.get_put_of_ne {m : SMap α} {a b : Nat} {v : α} (h : b ≠ a) : SMap.get d (SMap.put d m a v) b = SMap.get d m b := by
  induction m with
  | nil => unfold SMap.put; split <;> simp [SMap.get, h]
  | cons e r ih =>
    obtain ⟨k, w⟩ := e
    unfold SMap.put
    split
    · split <;> simp [SMap.get, h]
    · split
      · rename_i hk
        subst hk
        split <;> simp [SMap.get, h]
      · simp [SMap.get, ih]

/-- A value other than the default reads back in any map. -/
theorem SMap.get_put_of_ne_default {m : SMap α} {a : Nat} {v : α} (h : v ≠ d a) : SMap.get d (SMap.put d m a v) a = v := by
  induction m with
  | nil => simp [SMap.put, SMap.get, h]
  | cons e r ih =>
    obtain ⟨k, w⟩ := e
    unfold SMap.put
    split
    · simp [SMap.get]
    · split
      · simp [SMap.get]
      · rename_i hk
        simp [SMap.get, hk, ih]

/-- A map in canonical form from `lo` on lists nothing below `lo`. -/
theorem SMap.get_of_lt {m : SMap α} {lo a : Nat} (h : SMap.wfFrom d lo m = true) (ha : a < lo) : SMap.get d m a = d a := by
  induction m generalizing lo with
  | nil => rfl
  | cons e r ih =>
    obtain ⟨k, w⟩ := e
    simp only [SMap.wfFrom, Bool.and_eq_true, decide_eq_true_eq] at h
    have : a ≠ k := by omega
    simp only [SMap.get, this, if_false]
    exact ih h.2 (by omega)

theorem SMap.get_put_same_from {m : SMap α} {lo a : Nat} {v : α} (h : SMap.wfFrom d lo m = true) :
    SMap.get d (SMap.put d m a v) a = v := by
  induction m generalizing lo with
  | nil =>
    unfold SMap.put
    split
    · simp_all [SMap.get]
    · simp [SMap.get]
  | cons e r ih =>
    obtain ⟨k, w⟩ := e
    simp only [SMap.wfFrom, Bool.and_eq_true, decide_eq_true_eq] at h
    unfold SMap.put
    split
    · rename_i hk
      split
      · rename_i hv
        have : a ≠ k := by omega
        simp only [SMap.get, this, if_false]
        rw [SMap.get_of_lt h.2 (by omega), hv]
      · simp [SMap.get]
    · split
      · rename_i hk
        subst hk
        split
        · rename_i hv
          rw [SMap.get_of_lt h.2 (by omega), hv]
        · simp [SMap.get]
      · rename_i hk
        simp only [SMap.get, hk, if_false]
        exact ih h.2

/-- A read after a write of the same key gives the value written, in a map in canonical form. -/
theorem SMap.get_put_same {m : SMap α} {a : Nat} {v : α} (h : SMap.wf d m = true) : SMap.get d (SMap.put d m a v) a = v :=
  SMap.get_put_same_from h

theorem SMap.wfFrom_mono {m : SMap α} {lo lo' : Nat} (h : SMap.wfFrom d lo m = true) (hl : lo' ≤ lo) :
    SMap.wfFrom d lo' m = true := by
  cases m with
  | nil => rfl
  | cons e r =>
    simp only [SMap.wfFrom, Bool.and_eq_true, decide_eq_true_eq] at h ⊢
    exact ⟨⟨by omega, h.1.2⟩, h.2⟩

theorem SMap.wfFrom_put {m : SMap α} {lo a : Nat} {v : α} (h : SMap.wfFrom d lo m = true) (ha : lo ≤ a) :
    SMap.wfFrom d lo (SMap.put d m a v) = true := by
  induction m generalizing lo with
  | nil =>
    unfold SMap.put
    split
    · rfl
    · simp [SMap.wfFrom, *]
  | cons e r ih =>
    obtain ⟨k, w⟩ := e
    have h0 := h
    simp only [SMap.wfFrom, Bool.and_eq_true, decide_eq_true_eq] at h
    unfold SMap.put
    split
    · rename_i hk
      split
      · exact h0
      · rename_i hv
        simp only [SMap.wfFrom, Bool.and_eq_true, decide_eq_true_eq]
        exact ⟨⟨ha, hv⟩, ⟨by omega, h.1.2⟩, h.2⟩
    · split
      · rename_i hk
        subst hk
        split
        · exact SMap.wfFrom_mono h.2 (by omega)
        · rename_i hv
          simp only [SMap.wfFrom, Bool.and_eq_true, decide_eq_true_eq]
          exact ⟨⟨ha, hv⟩, h.2⟩
      · simp only [SMap.wfFrom, Bool.and_eq_true, decide_eq_true_eq]
        exact ⟨h.1, ih h.2 (by omega)⟩

/-- A write keeps the canonical form. -/
theorem SMap.wf_put {m : SMap α} {a : Nat} {v : α} (h : SMap.wf d m = true) : SMap.wf d (SMap.put d m a v) = true :=
  SMap.wfFrom_put h (Nat.zero_le a)

theorem SMap.wfFrom_filter {m : SMap α} {lo : Nat} (p : Nat × α → Bool) (h : SMap.wfFrom d lo m = true) :
    SMap.wfFrom d lo (m.filter p) = true := by
  induction m generalizing lo with
  | nil => rfl
  | cons e r ih =>
    obtain ⟨k, w⟩ := e
    simp only [SMap.wfFrom, Bool.and_eq_true, decide_eq_true_eq] at h
    rw [List.filter_cons]
    split
    · simp only [SMap.wfFrom, Bool.and_eq_true, decide_eq_true_eq]
      exact ⟨h.1, ih h.2⟩
    · exact SMap.wfFrom_mono (ih h.2) (by omega)

/-- Leaving entries out keeps the canonical form. -/
theorem SMap.wf_filter {m : SMap α} (p : Nat × α → Bool) (h : SMap.wf d m = true) : SMap.wf d (m.filter p) = true :=
  SMap.wfFrom_filter p h

theorem SMap.wf_drop {m : SMap α} (p : Nat → Bool) (h : SMap.wf d m = true) : SMap.wf d (SMap.drop p m) = true :=
  SMap.wfFrom_filter _ h

/-- Writes one after the other keep the canonical form. -/
theorem SMap.wf_foldl {β : Type} {f : SMap α → β → SMap α} (l : List β) {m : SMap α} (h : SMap.wf d m = true)
    (hf : ∀ m x, SMap.wf d m = true → SMap.wf d (f m x) = true) : SMap.wf d (l.foldl f m) = true := by
  induction l generalizing m with
  | nil => exact h
  | cons x r ih => exact ih (hf _ _ h)

theorem SMap.wf_foldl_put {β : Type} (l : List β) (k : β → Nat) (v : β → α) {m : SMap α} (h : SMap.wf d m = true) :
    SMap.wf d (l.foldl (fun m x => SMap.put d m (k x) (v x)) m) = true :=
  SMap.wf_foldl l h fun _ _ hm => SMap.wf_put hm

theorem SMap.wfFrom_congr {d' : Nat → α} {m : SMap α} {lo : Nat} (h : SMap.wfFrom d lo m = true)
    (hd : ∀ e ∈ m, d' e.1 = d e.1) : SMap.wfFrom d' lo m = true := by
  induction m generalizing lo with
  | nil => rfl
  | cons e r ih =>
    obtain ⟨k, w⟩ := e
    simp only [SMap.wfFrom, Bool.and_eq_true, decide_eq_true_eq] at h ⊢
    refine ⟨⟨h.1.1, ?_⟩, ih h.2 fun e he => hd e (List.mem_cons_of_mem _ he)⟩
    rw [hd (k, w) List.mem_cons_self]
    exact h.1.2

/-- The canonical form stands when what unlisted keys read as changes elsewhere. -/
theorem SMap.wf_congr {d' : Nat → α} {m : SMap α} (h : SMap.wf d m = true) (hd : ∀ e ∈ m, d' e.1 = d e.1) :
    SMap.wf d' m = true := SMap.wfFrom_congr h hd

/-- Writes of keys other than `b` leave it alone. -/
theorem SMap.get_foldl_put_of_not_mem (l : List Nat) (f : Nat → α) {m : SMap α} {b : Nat} (h : b ∉ l) :
    SMap.get d (l.foldl (fun g i => SMap.put d g i (f i)) m) b = SMap.get d m b := by
  induction l generalizing m with
  | nil => rfl
  | cons x r ih =>
    simp only [List.mem_cons, not_or] at h
    simp only [List.foldl_cons]
    rw [ih h.2, SMap.get_put_of_ne h.1]

omit [DecidableEq α] in
theorem SMap.get_drop {m : SMap α} {p : Nat → Bool} {b : Nat} (h : p b = false) : SMap.get d (SMap.drop p m) b = SMap.get d m b := by
  induction m with
  | nil => rfl
  | cons e r ih =>
    obtain ⟨k, w⟩ := e
    simp only [SMap.drop, List.filter_cons] at ih ⊢
    by_cases hk : b = k
    · subst hk
      simp [h, SMap.get]
    · split <;> simp [SMap.get, hk, ih]

end Sys2Proof.Machine
end

