-- ==== Sys2Proof/Laws/Kept.lean ====
section
/-! SUPPORT. What every operation keeps, whatever else it does: the queue of commands, the order of time, the count of free
values, the fuses that are burned, and the canonical form with the identification registers (`Sound`). One relation between the
state before and the state after, and how it passes through the shapes of a definition. -/

namespace Sys2Proof.Machine

/-- `t` keeps of `s` what every operation keeps. -/
structure Kept (s t : State) : Prop where
  queue : t.pending = s.pending
  clock : s.now ≤ t.now
  free : s.freeCtr ≤ t.freeCtr
  svn : s.fw.burnedSvn ≤ t.fw.burnedSvn
  owner : ∀ k, s.fw.owner = some k → t.fw.owner = some k
  mem : Memory.wf s.mem = true → Memory.wf t.mem = true
  sound : Sound s → Sound t

theorem Kept.refl (s : State) : Kept s s := ⟨rfl, Nat.le_refl _, Nat.le_refl _, Nat.le_refl _, fun _ h => h, id, id⟩

theorem Kept.trans {s t u : State} (h : Kept s t) (g : Kept t u) : Kept s u :=
  ⟨g.queue.trans h.queue, Nat.le_trans h.clock g.clock, Nat.le_trans h.free g.free, Nat.le_trans h.svn g.svn,
    fun k hk => g.owner k (h.owner k hk), fun hm => g.mem (h.mem hm), fun hs => g.sound (h.sound hs)⟩

/-- An update of other parts of the state. -/
theorem Kept.other {s t u : State} (h : Kept s t) (hp : u.pending = t.pending) (hn : u.now = t.now) (hf : u.freeCtr = t.freeCtr)
    (hw : u.fw = t.fw) (hr : u.regs = t.regs) (hm : u.mem = t.mem) : Kept s u :=
  h.trans ⟨hp, Nat.le_of_eq hn.symm, Nat.le_of_eq hf.symm, Nat.le_of_eq (by rw [hw]), by rw [hw]; exact fun _ h => h, by rw [hm]; exact id,
    fun g => ⟨by rw [hr]; exact g.regs, by rw [hm]; exact g.mem, fun o ho => by simpa only [State.rd, hr] using g.ident o ho⟩⟩

/-- An update of other parts of the state, as a structure literal writes it. -/
theorem Kept.mk_ {s t : State} {quarries core ctx host err ws kv pwr vein coll fos blk pins} (h : Kept s t) :
    Kept s (State.mk t.now t.regs quarries core t.mem ctx host err ws kv pwr vein coll fos t.fw blk pins t.freeCtr t.pending) :=
  h.other rfl rfl rfl rfl rfl rfl

/-- An update of the memories that keeps their canonical form. -/
theorem Kept.memory {s t u : State} (h : Kept s t) (hp : u.pending = t.pending) (hn : u.now = t.now) (hf : u.freeCtr = t.freeCtr)
    (hw : u.fw = t.fw) (hr : u.regs = t.regs) (hm : Memory.wf t.mem = true → Memory.wf u.mem = true) : Kept s u :=
  h.trans ⟨hp, Nat.le_of_eq hn.symm, Nat.le_of_eq hf.symm, Nat.le_of_eq (by rw [hw]), by rw [hw]; exact fun _ h => h, hm,
    fun g => ⟨by rw [hr]; exact g.regs, hm g.mem, fun o ho => by simpa only [State.rd, hr] using g.ident o ho⟩⟩

/-- An update of the registers alone. -/
theorem Kept.registers {s t u : State} (h : Kept s t) (hp : u.pending = t.pending) (hn : u.now = t.now)
    (hf : u.freeCtr = t.freeCtr) (hw : u.fw = t.fw) (hm : u.mem = t.mem)
    (hr : SMap.wf Reg.resetWord t.regs = true → SMap.wf Reg.resetWord u.regs = true)
    (hi : SMap.wf Reg.resetWord t.regs = true → ∀ off, Hardwired off → t.rd off = Reg.resetWord off → u.rd off = Reg.resetWord off) :
    Kept s u :=
  h.trans ⟨hp, Nat.le_of_eq hn.symm, Nat.le_of_eq hf.symm, Nat.le_of_eq (by rw [hw]), by rw [hw]; exact fun _ h => h, by rw [hm]; exact id,
    fun g => ⟨hr g.regs, by rw [hm]; exact g.mem, fun o ho => hi g.regs o ho (g.ident o ho)⟩⟩

/-- An update of the memories alone, as a structure literal writes it. -/
theorem Kept.mem_ {s t : State} {quarries core mem ctx host err ws kv pwr vein coll fos blk pins} (h : Kept s t)
    (hm : Memory.wf t.mem = true → Memory.wf mem = true) :
    Kept s (State.mk t.now t.regs quarries core mem ctx host err ws kv pwr vein coll fos t.fw blk pins t.freeCtr t.pending) :=
  h.memory rfl rfl rfl rfl rfl hm

/-- An update of what firmware holds that burns no fuse, as a structure literal writes it. -/
theorem Kept.fw_ {s t : State} {quarries core ctx host err ws kv pwr vein coll fos fw blk pins} (h : Kept s t)
    (hs : fw.burnedSvn = t.fw.burnedSvn) (ho : fw.owner = t.fw.owner) :
    Kept s (State.mk t.now t.regs quarries core t.mem ctx host err ws kv pwr vein coll fos fw blk pins t.freeCtr t.pending) :=
  h.trans ⟨rfl, Nat.le_refl _, Nat.le_refl _, Nat.le_of_eq hs.symm, fun _ hk => ho.trans hk, id, fun g => ⟨g.regs, g.mem, g.ident⟩⟩

/-- The canonical form of the memories, part by part. -/
structure MemoryWf (m : MemSt) : Prop where
  phys : SMap.wf m.physDefault m.phys = true
  poison : SMap.wf (fun _ => false) m.poison = true
  fossil : SMap.wf (fun _ => 0) m.fossil = true
  ls : SMap.wf m.lsDefault m.ls = true
  lsPoison : SMap.wf (fun _ => false) m.lsPoison = true
  stat : SMap.wf m.statDefault m.stat = true
  statPoison : SMap.wf (fun _ => false) m.statPoison = true
  acc : SMap.wf m.accDefault m.acc = true
  accPoison : SMap.wf (fun _ => false) m.accPoison = true
  accLost : SMap.wf (fun _ => 0) m.accLost = true
  accGone : SMap.wf (fun _ => 0) m.accGone = true
  statLost : SMap.wf (fun _ => 0) m.statLost = true
  latent : SMap.wf (fun _ => 0) m.latent = true
  localLatent : SMap.wf (fun _ => false) m.localLatent = true
  frameCe : SMap.wf (fun _ => 0) m.frameCe = true
  bursting : SMap.wf (fun _ => false) m.bursting = true
  host : SMap.wf (fun _ => 0) m.host = true

theorem Memory.wf_iff {m : MemSt} : Memory.wf m = true ↔ MemoryWf m := by
  simp only [Memory.wf, Bool.and_eq_true]
  constructor
  · rintro ⟨⟨⟨⟨⟨⟨⟨⟨⟨⟨⟨⟨⟨⟨⟨⟨h1, h2⟩, h3⟩, h4⟩, h5⟩, h6⟩, h7⟩, h8⟩, h9⟩, h10⟩, h11⟩, h12⟩, h13⟩, h14⟩, h15⟩, h16⟩, h17⟩
    exact ⟨h1, h2, h3, h4, h5, h6, h7, h8, h9, h10, h11, h12, h13, h14, h15, h16, h17⟩
  · rintro ⟨h1, h2, h3, h4, h5, h6, h7, h8, h9, h10, h11, h12, h13, h14, h15, h16, h17⟩
    exact ⟨⟨⟨⟨⟨⟨⟨⟨⟨⟨⟨⟨⟨⟨⟨⟨h1, h2⟩, h3⟩, h4⟩, h5⟩, h6⟩, h7⟩, h8⟩, h9⟩, h10⟩, h11⟩, h12⟩, h13⟩, h14⟩, h15⟩, h16⟩, h17⟩

theorem Kept.ite {s t u : State} {c : Prop} [Decidable c] (h : c → Kept s t) (g : ¬c → Kept s u) :
    Kept s (if c then t else u) := by
  split
  · exact h ‹_›
  · exact g ‹_›

theorem Kept.cond {s t u : State} {c : Bool} (h : Kept s t) (g : Kept s u) : Kept s (bif c then t else u) := by
  cases c
  · exact g
  · exact h

/-- A fold whose every step keeps it. -/
theorem Kept.fold {β : Type} {f : State → β → State} {l : List β} {s t : State} (hf : ∀ t x, Kept t (f t x)) (h : Kept s t) :
    Kept s (l.foldl f t) := by
  induction l generalizing t with
  | nil => exact h
  | cons x r ih => exact ih (h.trans (hf t x))

/-- A fold that carries something beside the state. -/
theorem Kept.fold₂ {β γ : Type} {f : State × γ → β → State × γ} {l : List β} {s : State} {t : State × γ}
    (hf : ∀ t x, Kept t.1 (f t x).1) (h : Kept s t.1) : Kept s (l.foldl f t).1 := by
  induction l generalizing t with
  | nil => exact h
  | cons x r ih => exact ih (h.trans (hf t x))

/-- The same, the state second. -/
theorem Kept.fold₃ {β γ : Type} {f : γ × State → β → γ × State} {l : List β} {s : State} {t : γ × State}
    (hf : ∀ t x, Kept t.2 (f t x).2) (h : Kept s t.2) : Kept s (l.foldl f t).2 := by
  induction l generalizing t with
  | nil => exact h
  | cons x r ih => exact ih (h.trans (hf t x))

theorem Kept.of_fst {α : Type} {s t : State} {x : State × α} {a : α} (h : Kept s x.1) (e : x = (t, a)) : Kept s t := by
  rw [e] at h
  exact h

theorem Kept.of_snd {α : Type} {s t : State} {x : α × State} {a : α} (h : Kept s x.2) (e : x = (a, t)) : Kept s t := by
  rw [e] at h
  exact h

/-! ## What unlisted cells read as -/

theorem MemSt.statDefault_congr {m n : MemSt} {k : Nat} (h : n.sramEpoch = m.sramEpoch)
    (hl : SMap.get (fun _ => 0) n.statLost (k / 2 ^ 18 / 40 * 64 + k % 2 ^ 18 / 4096)
      = SMap.get (fun _ => 0) m.statLost (k / 2 ^ 18 / 40 * 64 + k % 2 ^ 18 / 4096)) : n.statDefault k = m.statDefault k := by
  unfold MemSt.statDefault
  rw [h, hl]

theorem MemSt.accDefault_congr {m n : MemSt} {k : Nat} (h : n.sramEpoch = m.sramEpoch)
    (hl : SMap.get (fun _ => 0) n.accLost (k / 1024 / 128 / 40 * 128 + k / 1024 % 128)
      = SMap.get (fun _ => 0) m.accLost (k / 1024 / 128 / 40 * 128 + k / 1024 % 128))
    (hg : SMap.get (fun _ => 0) n.accGone (k / 1024) = SMap.get (fun _ => 0) m.accGone (k / 1024)) :
    n.accDefault k = m.accDefault k := by
  unfold MemSt.accDefault
  rw [h, hl, hg]

/-! ## Registers -/

theorem Kept.wr (s : State) (off : Nat) (w : Word) (h : ¬Hardwired off) : Kept s (s.wr off w) := by
  refine (Kept.refl s).registers rfl rfl rfl rfl rfl SMap.wf_put fun _ o ho hs => ?_
  have : o ≠ off := fun e => h (e ▸ ho)
  unfold State.rd State.wr
  rw [SMap.get_put_of_ne this]
  exact hs

/-! ## Operations that may answer nothing, or with a refusal -/

/-- What an operation answers, if it answers, keeps it. -/
def KeptO (s : State) (o : Option State) : Prop := ∀ t, o = some t → Kept s t

theorem KeptO.none (s : State) : KeptO s none := fun _ h => nomatch h

theorem KeptO.some {s t : State} (h : Kept s t) : KeptO s (some t) := fun _ e => Option.some.inj e ▸ h

theorem KeptO.ite {s : State} {c : Prop} [Decidable c] {a b : Option State} (h : c → KeptO s a) (g : ¬c → KeptO s b) :
    KeptO s (if c then a else b) := by
  split
  · exact h ‹_›
  · exact g ‹_›

theorem KeptO.map {α : Type} {s : State} {f : α → State} {o : Option α} (h : ∀ a, Kept s (f a)) : KeptO s (o.map f) := by
  intro t e
  obtain ⟨a, _, rfl⟩ := Option.map_eq_some_iff.1 e
  exact h a

theorem KeptO.after {s : State} {f : State → State} {o : Option State} (h : KeptO s o) (g : ∀ t, Kept t (f t)) :
    KeptO s (o.map f) := by
  intro t e
  obtain ⟨a, ha, rfl⟩ := Option.map_eq_some_iff.1 e
  exact (h a ha).trans (g a)

theorem KeptO.findSome {α : Type} {s : State} {f : α → Option State} {l : List α} (h : ∀ a, KeptO s (f a)) :
    KeptO s (l.findSome? f) := by
  intro t e
  obtain ⟨a, _, ha⟩ := List.exists_of_findSome?_eq_some e
  exact h a t ha

theorem KeptO.trans {s t : State} {o : Option State} (h : Kept s t) (g : KeptO t o) : KeptO s o := fun u e => h.trans (g u e)

/-- The same for an operation that may answer with an error instead. -/
def KeptX {ε : Type} (s : State) (o : Except ε State) : Prop := ∀ t, o = .ok t → Kept s t

theorem KeptX.toOption {ε : Type} {s : State} {o : Except ε State} (h : KeptX s o) : KeptO s o.toOption := by
  cases o with
  | ok a => exact KeptO.some (h a rfl)
  | error e => exact KeptO.none s

/-- A policy's answer: a state in either case. -/
def KeptA (s : State) (o : Applied) : Prop :=
  match o with
  | .ok t => Kept s t
  | .error e => Kept s e.2.2

theorem KeptA.ok {s t : State} (h : Kept s t) : KeptA s (.ok t) := h

theorem KeptA.error {s t : State} {a b : Nat} (h : Kept s t) : KeptA s (.error (a, b, t)) := h

theorem KeptA.ite {s : State} {c : Prop} [Decidable c] {a b : Applied} (h : c → KeptA s a) (g : ¬c → KeptA s b) :
    KeptA s (if c then a else b) := by
  split
  · exact h ‹_›
  · exact g ‹_›

theorem KeptA.trans {s t : State} {o : Applied} (h : Kept s t) (g : KeptA t o) : KeptA s o := by
  cases o with
  | ok a => exact Kept.trans h g
  | error e => exact Kept.trans h g

theorem KeptA.of_ok {s t : State} {o : Applied} (h : KeptA s o) (e : o = .ok t) : Kept s t := by
  rw [e] at h
  exact h

theorem KeptA.of_error {s t : State} {o : Applied} {a b : Nat} (h : KeptA s o) (e : o = .error (a, b, t)) : Kept s t := by
  rw [e] at h
  exact h

/-! ## Computations of a unit -/

/-- Whatever state it starts from, the computation keeps it, whether it answers or stops. -/
def KeptE {α : Type} (m : Exec α) : Prop := ∀ s, Kept s (m s).2

theorem KeptE.intro {α : Type} {m : Exec α} (h : ∀ s, Kept s (m s).2) : KeptE m := h

theorem KeptE.result {α : Type} {m : Exec α} (h : KeptE m) {s t : State} {r : Except Stop α} (e : m s = (r, t)) : Kept s t :=
  Kept.of_snd (h s) e

theorem KeptE.pure {α : Type} (a : α) : KeptE (pure a : Exec α) := fun s => Kept.refl s

theorem KeptE.bind {α β : Type} {m : Exec α} {f : α → Exec β} (h : KeptE m) (g : ∀ a, KeptE (f a)) : KeptE (m >>= f) := by
  intro s
  have hs := h s
  show Kept s ((ExceptT.bind m f) s).2
  unfold ExceptT.bind ExceptT.mk
  show Kept s (ExceptT.bindCont f (m s).1 (m s).2).2
  unfold ExceptT.bindCont
  cases (m s).1 with
  | ok a => exact hs.trans (g a _)
  | error e => exact hs

theorem KeptE.map {α β : Type} {m : Exec α} {f : α → β} (h : KeptE m) : KeptE (f <$> m) := by
  intro s
  have e : ((f <$> m) s).2 = (m s).2 := by
    show ((ExceptT.map f m) s).2 = _
    unfold ExceptT.map ExceptT.mk
    show ((StateT.bind m _) s).2 = _
    unfold StateT.bind
    generalize m s = x
    obtain ⟨r, t⟩ := x
    cases r <;> rfl
  rw [e]
  exact h s

theorem KeptE.ite {α : Type} {c : Prop} [Decidable c] {m n : Exec α} (h : c → KeptE m) (g : ¬c → KeptE n) :
    KeptE (if c then m else n) := by
  split
  · exact h ‹_›
  · exact g ‹_›

theorem KeptE.stop {α : Type} (e : Stop) : KeptE (Exec.stop e : Exec α) := fun s => Kept.refl s

theorem KeptE.ask {α : Type} (f : State → α) : KeptE (Exec.ask f) := fun s => Kept.refl s

theorem KeptE.doState {f : State → State} (h : ∀ s, Kept s (f s)) : KeptE (Exec.doState f) := h

theorem KeptE.ofState {α : Type} {f : State → α × State} (h : ∀ s, Kept s (f s).2) : KeptE (Exec.ofState f) := h

theorem KeptE.orElse {f : State → Option State} {stop : Exec Unit} (h : ∀ s, KeptO s (f s)) (g : KeptE stop) :
    KeptE (Exec.orElse f stop) := by
  intro s
  unfold Exec.orElse
  split
  · exact h s _ ‹_›
  · exact g s

theorem KeptE.check (b : Bool) (e : Stop) : KeptE (Exec.check b e) := by
  unfold Exec.check
  exact KeptE.ite (fun _ => KeptE.pure _) (fun _ => KeptE.stop e)

theorem KeptE.each {α : Type} {l : List α} {f : α → Exec Unit} (h : ∀ a, KeptE (f a)) : KeptE (Exec.each l f) := by
  induction l with
  | nil => exact KeptE.pure _
  | cons a r ih => exact KeptE.bind (h a) fun _ => ih

theorem KeptE.collect {α β : Type} {l : List α} {f : α → Exec β} (h : ∀ a, KeptE (f a)) : KeptE (Exec.collect l f) := by
  induction l with
  | nil => exact KeptE.pure _
  | cons a r ih => exact KeptE.bind (h a) fun _ => KeptE.bind ih fun _ => KeptE.pure _

theorem KeptE.fold {α β : Type} {l : List α} {b : β} {f : β → α → Exec β} (h : ∀ b a, KeptE (f b a)) :
    KeptE (Exec.fold l b f) := by
  induction l generalizing b with
  | nil => exact KeptE.pure _
  | cons a r ih => exact KeptE.bind (h b a) fun _ => ih

theorem Kept.fresh (s : State) (n : Nat) : Kept s (s.fresh n).2 :=
  ⟨rfl, Nat.le_refl _, Nat.le_succ _, Nat.le_refl _, fun _ h => h, id, fun h => ⟨h.regs, h.mem, h.ident⟩⟩

theorem KeptE.free (n : Nat) : KeptE (Exec.free n) := KeptE.ofState fun s => Kept.fresh s n

end Sys2Proof.Machine
end

