-- ==== Sys2Proof/Laws/Soft.lean ====
section
/-! SUPPORT. No named register but the identification registers is one of them: the offsets of the register map apart. -/

namespace Sys2Proof.Machine

theorem soft_of_le {off : Nat} (h : 40 ≤ off) : ¬Hardwired off := by
  unfold Hardwired Reg.glbIdent Reg.glbCap Reg.glbCap2 Reg.glbSerialLo Reg.glbSerialHi
  omega

theorem soft_low {off : Nat} (h : off = 16 ∨ off = 20 ∨ off = 24) : ¬Hardwired off := by
  unfold Hardwired Reg.glbIdent Reg.glbCap Reg.glbCap2 Reg.glbSerialLo Reg.glbSerialHi
  omega

/-! ## Registers -/

theorem Reg.hif_soft : ¬Hardwired Reg.hif := soft_of_le (by decide)
theorem Reg.str_soft : ¬Hardwired Reg.str := soft_of_le (by decide)
theorem Reg.ctx_soft : ¬Hardwired Reg.ctx := soft_of_le (by decide)
theorem Reg.mem_soft : ¬Hardwired Reg.mem := soft_of_le (by decide)
theorem Reg.vei_soft : ¬Hardwired Reg.vei := soft_of_le (by decide)
theorem Reg.col_soft : ¬Hardwired Reg.col := soft_of_le (by decide)
theorem Reg.err_soft : ¬Hardwired Reg.err := soft_of_le (by decide)
theorem Reg.fos_soft : ¬Hardwired Reg.fos := soft_of_le (by decide)
theorem Reg.pwr_soft : ¬Hardwired Reg.pwr := soft_of_le (by decide)
theorem Reg.sec_soft : ¬Hardwired Reg.sec := soft_of_le (by decide)
theorem Reg.slb_soft (s : Nat) : ¬Hardwired (Reg.slb s) := soft_of_le (by simp only [Reg.slb]; omega)
theorem Reg.glbStraps_soft : ¬Hardwired Reg.glbStraps := soft_low (by decide)
theorem Reg.glbCores_soft : ¬Hardwired Reg.glbCores := soft_low (by decide)
theorem Reg.glbStat_soft : ¬Hardwired Reg.glbStat := soft_low (by decide)
theorem Reg.hifStat_soft : ¬Hardwired Reg.hifStat := soft_of_le (by decide)
theorem Reg.hifEvt_soft : ¬Hardwired Reg.hifEvt := soft_of_le (by decide)
theorem Reg.hifBar4_soft : ¬Hardwired Reg.hifBar4 := soft_of_le (by decide)
theorem Reg.ring_soft (r : Nat) : ¬Hardwired (Reg.ring r) := soft_of_le (by simp only [Reg.ring]; omega)
theorem Reg.sqBaseLo_soft (r : Nat) : ¬Hardwired (Reg.sqBaseLo r) := soft_of_le (by simp only [Reg.sqBaseLo, Reg.ring]; omega)
theorem Reg.sqBaseHi_soft (r : Nat) : ¬Hardwired (Reg.sqBaseHi r) := soft_of_le (by simp only [Reg.sqBaseHi, Reg.ring]; omega)
theorem Reg.sqCfg_soft (r : Nat) : ¬Hardwired (Reg.sqCfg r) := soft_of_le (by simp only [Reg.sqCfg, Reg.ring]; omega)
theorem Reg.sqHead_soft (r : Nat) : ¬Hardwired (Reg.sqHead r) := soft_of_le (by simp only [Reg.sqHead, Reg.ring]; omega)
theorem Reg.cqBaseLo_soft (r : Nat) : ¬Hardwired (Reg.cqBaseLo r) := soft_of_le (by simp only [Reg.cqBaseLo, Reg.ring]; omega)
theorem Reg.cqBaseHi_soft (r : Nat) : ¬Hardwired (Reg.cqBaseHi r) := soft_of_le (by simp only [Reg.cqBaseHi, Reg.ring]; omega)
theorem Reg.cqCfg_soft (r : Nat) : ¬Hardwired (Reg.cqCfg r) := soft_of_le (by simp only [Reg.cqCfg, Reg.ring]; omega)
theorem Reg.cqTail_soft (r : Nat) : ¬Hardwired (Reg.cqTail r) := soft_of_le (by simp only [Reg.cqTail, Reg.ring]; omega)
theorem Reg.strCtrl_soft : ¬Hardwired Reg.strCtrl := soft_of_le (by decide)
theorem Reg.strPeriod_soft : ¬Hardwired Reg.strPeriod := soft_of_le (by decide)
theorem Reg.strDomain_soft : ¬Hardwired Reg.strDomain := soft_of_le (by decide)
theorem Reg.strStat_soft (q : Nat) : ¬Hardwired (Reg.strStat q) := soft_of_le (by simp only [Reg.strStat]; omega)
theorem Reg.strCountLo_soft (q : Nat) : ¬Hardwired (Reg.strCountLo q) := soft_of_le (by simp only [Reg.strCountLo]; omega)
theorem Reg.strCountHi_soft (q : Nat) : ¬Hardwired (Reg.strCountHi q) := soft_of_le (by simp only [Reg.strCountHi]; omega)
theorem Reg.strStretchCnt_soft (q : Nat) : ¬Hardwired (Reg.strStretchCnt q) := soft_of_le (by simp only [Reg.strStretchCnt]; omega)
theorem Reg.strStretchMax_soft (q : Nat) : ¬Hardwired (Reg.strStretchMax q) := soft_of_le (by simp only [Reg.strStretchMax]; omega)
theorem Reg.strFaultCnt_soft (q : Nat) : ¬Hardwired (Reg.strFaultCnt q) := soft_of_le (by simp only [Reg.strFaultCnt]; omega)
theorem Reg.ctxMode_soft : ¬Hardwired Reg.ctxMode := soft_of_le (by decide)
theorem Reg.ctxStat_soft : ¬Hardwired Reg.ctxStat := soft_of_le (by decide)
theorem Reg.ctxState_soft (c : Nat) : ¬Hardwired (Reg.ctxState c) := soft_of_le (by simp only [Reg.ctxState]; omega)
theorem Reg.ctxGeode_soft (c : Nat) : ¬Hardwired (Reg.ctxGeode c) := soft_of_le (by simp only [Reg.ctxGeode]; omega)
theorem Reg.ctxCore_soft (c : Nat) : ¬Hardwired (Reg.ctxCore c) := soft_of_le (by simp only [Reg.ctxCore]; omega)
theorem Reg.ctxLocal_soft (c : Nat) : ¬Hardwired (Reg.ctxLocal c) := soft_of_le (by simp only [Reg.ctxLocal]; omega)
theorem Reg.ctxMain_soft (c : Nat) : ¬Hardwired (Reg.ctxMain c) := soft_of_le (by simp only [Reg.ctxMain]; omega)
theorem Reg.ctxGlobal_soft (c : Nat) : ¬Hardwired (Reg.ctxGlobal c) := soft_of_le (by simp only [Reg.ctxGlobal]; omega)
theorem Reg.memLayout_soft : ¬Hardwired Reg.memLayout := soft_of_le (by decide)
theorem Reg.memScrub_soft : ¬Hardwired Reg.memScrub := soft_of_le (by decide)
theorem Reg.memStat_soft : ¬Hardwired Reg.memStat := soft_of_le (by decide)
theorem Reg.memTlbInvLo_soft : ¬Hardwired Reg.memTlbInvLo := soft_of_le (by decide)
theorem Reg.memTlbInvHi_soft : ¬Hardwired Reg.memTlbInvHi := soft_of_le (by decide)
theorem Reg.veiModule_soft : ¬Hardwired Reg.veiModule := soft_of_le (by decide)
theorem Reg.veiStat_soft : ¬Hardwired Reg.veiStat := soft_of_le (by decide)
theorem Reg.veiJob_soft (c : Nat) : ¬Hardwired (Reg.veiJob c) := soft_of_le (by simp only [Reg.veiJob]; omega)
theorem Reg.veiRouteIdx_soft : ¬Hardwired Reg.veiRouteIdx := soft_of_le (by decide)
theorem Reg.veiRouteData_soft : ¬Hardwired Reg.veiRouteData := soft_of_le (by decide)
theorem Reg.veiPoolIdx_soft : ¬Hardwired Reg.veiPoolIdx := soft_of_le (by decide)
theorem Reg.veiPoolData_soft : ¬Hardwired Reg.veiPoolData := soft_of_le (by decide)
theorem Reg.portCfg_soft (p : Nat) : ¬Hardwired (Reg.portCfg p) := soft_of_le (by simp only [Reg.portCfg]; omega)
theorem Reg.portStat_soft (p : Nat) : ¬Hardwired (Reg.portStat p) := soft_of_le (by simp only [Reg.portStat]; omega)
theorem Reg.portReplays_soft (p : Nat) : ¬Hardwired (Reg.portReplays p) := soft_of_le (by simp only [Reg.portReplays]; omega)
theorem Reg.portFec_soft (p : Nat) : ¬Hardwired (Reg.portFec p) := soft_of_le (by simp only [Reg.portFec]; omega)
theorem Reg.portMaxEp_soft (p : Nat) : ¬Hardwired (Reg.portMaxEp p) := soft_of_le (by simp only [Reg.portMaxEp]; omega)
theorem Reg.colStat_soft : ¬Hardwired Reg.colStat := soft_of_le (by decide)
theorem Reg.colGroupIdx_soft : ¬Hardwired Reg.colGroupIdx := soft_of_le (by decide)
theorem Reg.colGroupLo_soft : ¬Hardwired Reg.colGroupLo := soft_of_le (by decide)
theorem Reg.colGroupHi_soft : ¬Hardwired Reg.colGroupHi := soft_of_le (by decide)
theorem Reg.errCtrl_soft : ¬Hardwired Reg.errCtrl := soft_of_le (by decide)
theorem Reg.errStat_soft : ¬Hardwired Reg.errStat := soft_of_le (by decide)
theorem Reg.errNext_soft : ¬Hardwired Reg.errNext := soft_of_le (by decide)
theorem Reg.errEvidLo_soft : ¬Hardwired Reg.errEvidLo := soft_of_le (by decide)
theorem Reg.errEvidHi_soft : ¬Hardwired Reg.errEvidHi := soft_of_le (by decide)
theorem Reg.errEvidCfg_soft : ¬Hardwired Reg.errEvidCfg := soft_of_le (by decide)
theorem Reg.errScreenLo_soft : ¬Hardwired Reg.errScreenLo := soft_of_le (by decide)
theorem Reg.errScreenHi_soft : ¬Hardwired Reg.errScreenHi := soft_of_le (by decide)
theorem Reg.errScreenCtrl_soft : ¬Hardwired Reg.errScreenCtrl := soft_of_le (by decide)
theorem Reg.errAssayChk_soft : ¬Hardwired Reg.errAssayChk := soft_of_le (by decide)
theorem Reg.errAssaySkip_soft : ¬Hardwired Reg.errAssaySkip := soft_of_le (by decide)
theorem Reg.fosSetLo_soft : ¬Hardwired Reg.fosSetLo := soft_of_le (by decide)
theorem Reg.fosSetHi_soft : ¬Hardwired Reg.fosSetHi := soft_of_le (by decide)
theorem Reg.fosSetCnt_soft : ¬Hardwired Reg.fosSetCnt := soft_of_le (by decide)
theorem Reg.fosInWin_soft : ¬Hardwired Reg.fosInWin := soft_of_le (by decide)
theorem Reg.fosInH0_soft : ¬Hardwired Reg.fosInH0 := soft_of_le (by decide)
theorem Reg.fosInH1_soft : ¬Hardwired Reg.fosInH1 := soft_of_le (by decide)
theorem Reg.fosInSize_soft : ¬Hardwired Reg.fosInSize := soft_of_le (by decide)
theorem Reg.fosBuddyIn_soft : ¬Hardwired Reg.fosBuddyIn := soft_of_le (by decide)
theorem Reg.fosBuddyEpoch_soft : ¬Hardwired Reg.fosBuddyEpoch := soft_of_le (by decide)
theorem Reg.fosBuddyStat_soft : ¬Hardwired Reg.fosBuddyStat := soft_of_le (by decide)
theorem Reg.fosStat_soft : ¬Hardwired Reg.fosStat := soft_of_le (by decide)
theorem Reg.fosEpoch_soft : ¬Hardwired Reg.fosEpoch := soft_of_le (by decide)
theorem Reg.fosCommitted_soft : ¬Hardwired Reg.fosCommitted := soft_of_le (by decide)
theorem Reg.pwrCap_soft : ¬Hardwired Reg.pwrCap := soft_of_le (by decide)
theorem Reg.pwrStat_soft : ¬Hardwired Reg.pwrStat := soft_of_le (by decide)
theorem Reg.pwrInput_soft : ¬Hardwired Reg.pwrInput := soft_of_le (by decide)
theorem Reg.pwrPower_soft : ¬Hardwired Reg.pwrPower := soft_of_le (by decide)
theorem Reg.pwrDroopCfg_soft : ¬Hardwired Reg.pwrDroopCfg := soft_of_le (by decide)
theorem Reg.pwrDroopCnt_soft (s : Nat) : ¬Hardwired (Reg.pwrDroopCnt s) := soft_of_le (by simp only [Reg.pwrDroopCnt]; omega)
theorem Reg.pwrThrottleCnt_soft : ¬Hardwired Reg.pwrThrottleCnt := soft_of_le (by decide)
theorem Reg.pwrTemp_soft : ¬Hardwired Reg.pwrTemp := soft_of_le (by decide)
theorem Reg.pwrThermLim_soft : ¬Hardwired Reg.pwrThermLim := soft_of_le (by decide)
theorem Reg.pwrWear_soft : ¬Hardwired Reg.pwrWear := soft_of_le (by decide)
theorem Reg.pwrWearCtrl_soft : ¬Hardwired Reg.pwrWearCtrl := soft_of_le (by decide)
theorem Reg.pwrSlabF_soft (s : Nat) : ¬Hardwired (Reg.pwrSlabF s) := soft_of_le (by simp only [Reg.pwrSlabF]; omega)
theorem Reg.pwrWearGrp_soft (g : Nat) : ¬Hardwired (Reg.pwrWearGrp g) := soft_of_le (by simp only [Reg.pwrWearGrp]; omega)
theorem Reg.secLock_soft : ¬Hardwired Reg.secLock := soft_of_le (by decide)
theorem Reg.secBootStat_soft : ¬Hardwired Reg.secBootStat := soft_of_le (by decide)
theorem Reg.secProt_soft : ¬Hardwired Reg.secProt := soft_of_le (by decide)
theorem Reg.secDebug_soft : ¬Hardwired Reg.secDebug := soft_of_le (by decide)
theorem Reg.secOwnerCtrl_soft : ¬Hardwired Reg.secOwnerCtrl := soft_of_le (by decide)
theorem Reg.secOwnerKey_soft (n : Nat) : ¬Hardwired (Reg.secOwnerKey n) := soft_of_le (by simp only [Reg.secOwnerKey]; omega)
theorem Reg.secUpdLo_soft : ¬Hardwired Reg.secUpdLo := soft_of_le (by decide)
theorem Reg.secUpdHi_soft : ¬Hardwired Reg.secUpdHi := soft_of_le (by decide)
theorem Reg.secUpdLen_soft : ¬Hardwired Reg.secUpdLen := soft_of_le (by decide)
theorem Reg.secUpdCtrl_soft : ¬Hardwired Reg.secUpdCtrl := soft_of_le (by decide)
theorem Reg.secUpdStat_soft : ¬Hardwired Reg.secUpdStat := soft_of_le (by decide)
theorem Reg.secAttLo_soft : ¬Hardwired Reg.secAttLo := soft_of_le (by decide)
theorem Reg.secAttHi_soft : ¬Hardwired Reg.secAttHi := soft_of_le (by decide)
theorem Reg.secAttNonce_soft (n : Nat) : ¬Hardwired (Reg.secAttNonce n) := soft_of_le (by simp only [Reg.secAttNonce]; omega)
theorem Reg.secAttCtrl_soft : ¬Hardwired Reg.secAttCtrl := soft_of_le (by decide)
theorem Reg.secAttStat_soft : ¬Hardwired Reg.secAttStat := soft_of_le (by decide)
theorem Reg.siteMapLo_soft (s : Nat) : ¬Hardwired (Reg.siteMapLo s) := soft_of_le (by simp only [Reg.siteMapLo, Reg.slb]; omega)
theorem Reg.siteMapHi_soft (s : Nat) : ¬Hardwired (Reg.siteMapHi s) := soft_of_le (by simp only [Reg.siteMapHi, Reg.slb]; omega)
theorem Reg.fenceLo_soft (s : Nat) : ¬Hardwired (Reg.fenceLo s) := soft_of_le (by simp only [Reg.fenceLo, Reg.slb]; omega)
theorem Reg.fenceHi_soft (s : Nat) : ¬Hardwired (Reg.fenceHi s) := soft_of_le (by simp only [Reg.fenceHi, Reg.slb]; omega)

/-! ## Fields -/

theorem Fld.hostWrReject_soft : ¬Hardwired Fld.hostWrReject.reg := Reg.glbStat_soft
theorem Fld.fatal_soft : ¬Hardwired Fld.fatal.reg := Reg.glbStat_soft
theorem Fld.coresFenced_soft : ¬Hardwired Fld.coresFenced.reg := Reg.glbCores_soft
theorem Fld.coresActive_soft : ¬Hardwired Fld.coresActive.reg := Reg.glbCores_soft
theorem Fld.hifCfgReject_soft : ¬Hardwired Fld.hifCfgReject.reg := Reg.hifStat_soft
theorem Fld.badDoorbell_soft : ¬Hardwired Fld.badDoorbell.reg := Reg.hifStat_soft
theorem Fld.hifWidth_soft : ¬Hardwired Fld.hifWidth.reg := Reg.hifStat_soft
theorem Fld.evtEnable_soft : ¬Hardwired Fld.evtEnable.reg := Reg.hifEvt_soft
theorem Fld.evtCq_soft : ¬Hardwired Fld.evtCq.reg := Reg.hifEvt_soft
theorem Fld.bar4Enable_soft : ¬Hardwired Fld.bar4Enable.reg := Reg.hifBar4_soft
theorem Fld.bar4Base_soft : ¬Hardwired Fld.bar4Base.reg := Reg.hifBar4_soft
theorem Fld.sqEnable_soft (r : Nat) : ¬Hardwired (Fld.sqEnable r).reg := Reg.sqCfg_soft r
theorem Fld.sqCq_soft (r : Nat) : ¬Hardwired (Fld.sqCq r).reg := Reg.sqCfg_soft r
theorem Fld.sqLog2_soft (r : Nat) : ¬Hardwired (Fld.sqLog2 r).reg := Reg.sqCfg_soft r
theorem Fld.sqHead_soft (r : Nat) : ¬Hardwired (Fld.sqHead r).reg := Reg.sqHead_soft r
theorem Fld.cqEnable_soft (r : Nat) : ¬Hardwired (Fld.cqEnable r).reg := Reg.cqCfg_soft r
theorem Fld.cqModCount_soft (r : Nat) : ¬Hardwired (Fld.cqModCount r).reg := Reg.cqCfg_soft r
theorem Fld.cqModUs_soft (r : Nat) : ¬Hardwired (Fld.cqModUs r).reg := Reg.cqCfg_soft r
theorem Fld.cqVector_soft (r : Nat) : ¬Hardwired (Fld.cqVector r).reg := Reg.cqCfg_soft r
theorem Fld.cqLog2_soft (r : Nat) : ¬Hardwired (Fld.cqLog2 r).reg := Reg.cqCfg_soft r
theorem Fld.cqTail_soft (r : Nat) : ¬Hardwired (Fld.cqTail r).reg := Reg.cqTail_soft r
theorem Fld.overrunLimit_soft : ¬Hardwired Fld.overrunLimit.reg := Reg.strCtrl_soft
theorem Fld.outEn_soft : ¬Hardwired Fld.outEn.reg := Reg.strCtrl_soft
theorem Fld.holdoverEn_soft : ¬Hardwired Fld.holdoverEn.reg := Reg.strCtrl_soft
theorem Fld.run_soft : ¬Hardwired Fld.run.reg := Reg.strCtrl_soft
theorem Fld.upPort_soft : ¬Hardwired Fld.upPort.reg := Reg.strCtrl_soft
theorem Fld.source_soft : ¬Hardwired Fld.source.reg := Reg.strCtrl_soft
theorem Fld.minGap_soft : ¬Hardwired Fld.minGap.reg := Reg.strPeriod_soft
theorem Fld.periodUs_soft : ¬Hardwired Fld.periodUs.reg := Reg.strPeriod_soft
theorem Fld.domainId_soft : ¬Hardwired Fld.domainId.reg := Reg.strDomain_soft
theorem Fld.role_soft : ¬Hardwired Fld.role.reg := Reg.strDomain_soft
theorem Fld.downPorts_soft : ¬Hardwired Fld.downPorts.reg := Reg.strDomain_soft
theorem Fld.lateSrc_soft (q : Nat) : ¬Hardwired (Fld.lateSrc q).reg := Reg.strStat_soft q
theorem Fld.strCfgReject_soft (q : Nat) : ¬Hardwired (Fld.strCfgReject q).reg := Reg.strStat_soft q
theorem Fld.hold_soft (q : Nat) : ¬Hardwired (Fld.hold q).reg := Reg.strStat_soft q
theorem Fld.holdover_soft (q : Nat) : ¬Hardwired (Fld.holdover q).reg := Reg.strStat_soft q
theorem Fld.done_soft (q : Nat) : ¬Hardwired (Fld.done q).reg := Reg.strStat_soft q
theorem Fld.stretchCnt_soft (q : Nat) : ¬Hardwired (Fld.stretchCnt q).reg := Reg.strStretchCnt_soft q
theorem Fld.stretchMax_soft (q : Nat) : ¬Hardwired (Fld.stretchMax q).reg := Reg.strStretchMax_soft q
theorem Fld.earlyEdges_soft (q : Nat) : ¬Hardwired (Fld.earlyEdges q).reg := Reg.strFaultCnt_soft q
theorem Fld.premature_soft (q : Nat) : ¬Hardwired (Fld.premature q).reg := Reg.strFaultCnt_soft q
theorem Fld.mode_soft : ¬Hardwired Fld.mode.reg := Reg.ctxMode_soft
theorem Fld.ctxCfgReject_soft : ¬Hardwired Fld.ctxCfgReject.reg := Reg.ctxStat_soft
theorem Fld.ctxExists_soft (c : Nat) : ¬Hardwired (Fld.ctxExists c).reg := Reg.ctxStat_soft
theorem Fld.ctxState_soft (c : Nat) : ¬Hardwired (Fld.ctxState c).reg := Reg.ctxState_soft c
theorem Fld.resident_soft (c : Nat) : ¬Hardwired (Fld.resident c).reg := Reg.ctxState_soft c
theorem Fld.swapping_soft (c : Nat) : ¬Hardwired (Fld.swapping c).reg := Reg.ctxState_soft c
theorem Fld.ctxQuarry_soft (c : Nat) : ¬Hardwired (Fld.ctxQuarry c).reg := Reg.ctxState_soft c
theorem Fld.ctxPrio_soft (c : Nat) : ¬Hardwired (Fld.ctxPrio c).reg := Reg.ctxState_soft c
theorem Fld.partner_soft (c : Nat) : ¬Hardwired (Fld.partner c).reg := Reg.ctxState_soft c
theorem Fld.partnerValid_soft (c : Nat) : ¬Hardwired (Fld.partnerValid c).reg := Reg.ctxState_soft c
theorem Fld.donateStrata_soft (c : Nat) : ¬Hardwired (Fld.donateStrata c).reg := Reg.ctxState_soft c
theorem Fld.swaps_soft (c : Nat) : ¬Hardwired (Fld.swaps c).reg := Reg.ctxState_soft c
theorem Fld.geodeBase_soft (c : Nat) : ¬Hardwired (Fld.geodeBase c).reg := Reg.ctxGeode_soft c
theorem Fld.geodeSize_soft (c : Nat) : ¬Hardwired (Fld.geodeSize c).reg := Reg.ctxGeode_soft c
theorem Fld.streamBase_soft (c : Nat) : ¬Hardwired (Fld.streamBase c).reg := Reg.ctxCore_soft c
theorem Fld.streamCount_soft (c : Nat) : ¬Hardwired (Fld.streamCount c).reg := Reg.ctxCore_soft c
theorem Fld.slotBase_soft (c : Nat) : ¬Hardwired (Fld.slotBase c).reg := Reg.ctxCore_soft c
theorem Fld.slotCount_soft (c : Nat) : ¬Hardwired (Fld.slotCount c).reg := Reg.ctxCore_soft c
theorem Fld.statBase_soft (c : Nat) : ¬Hardwired (Fld.statBase c).reg := Reg.ctxLocal_soft c
theorem Fld.statUnits_soft (c : Nat) : ¬Hardwired (Fld.statUnits c).reg := Reg.ctxLocal_soft c
theorem Fld.lsBase_soft (c : Nat) : ¬Hardwired (Fld.lsBase c).reg := Reg.ctxLocal_soft c
theorem Fld.lsUnits_soft (c : Nat) : ¬Hardwired (Fld.lsUnits c).reg := Reg.ctxLocal_soft c
theorem Fld.mainBase_soft (c : Nat) : ¬Hardwired (Fld.mainBase c).reg := Reg.ctxMain_soft c
theorem Fld.mainSize_soft (c : Nat) : ¬Hardwired (Fld.mainSize c).reg := Reg.ctxMain_soft c
theorem Fld.globalBase_soft (c : Nat) : ¬Hardwired (Fld.globalBase c).reg := Reg.ctxGlobal_soft c
theorem Fld.globalSize_soft (c : Nat) : ¬Hardwired (Fld.globalSize c).reg := Reg.ctxGlobal_soft c
theorem Fld.buddyGib_soft : ¬Hardwired Fld.buddyGib.reg := Reg.memLayout_soft
theorem Fld.globalGib_soft : ¬Hardwired Fld.globalGib.reg := Reg.memLayout_soft
theorem Fld.scrubEn_soft : ¬Hardwired Fld.scrubEn.reg := Reg.memScrub_soft
theorem Fld.frameCe_soft : ¬Hardwired Fld.frameCe.reg := Reg.memScrub_soft
theorem Fld.scrubPeriod_soft : ¬Hardwired Fld.scrubPeriod.reg := Reg.memScrub_soft
theorem Fld.scrubActive_soft : ¬Hardwired Fld.scrubActive.reg := Reg.memStat_soft
theorem Fld.memCfgReject_soft : ¬Hardwired Fld.memCfgReject.reg := Reg.memStat_soft
theorem Fld.invBusy_soft : ¬Hardwired Fld.invBusy.reg := Reg.memStat_soft
theorem Fld.moduleValid_soft : ¬Hardwired Fld.moduleValid.reg := Reg.veiModule_soft
theorem Fld.moduleId_soft : ¬Hardwired Fld.moduleId.reg := Reg.veiModule_soft
theorem Fld.dropped_soft : ¬Hardwired Fld.dropped.reg := Reg.veiStat_soft
theorem Fld.veiCfgReject_soft : ¬Hardwired Fld.veiCfgReject.reg := Reg.veiStat_soft
theorem Fld.jobValid_soft (c : Nat) : ¬Hardwired (Fld.jobValid c).reg := Reg.veiJob_soft c
theorem Fld.jobId_soft (c : Nat) : ¬Hardwired (Fld.jobId c).reg := Reg.veiJob_soft c
theorem Fld.portEnable_soft (p : Nat) : ¬Hardwired (Fld.portEnable p).reg := Reg.portCfg_soft p
theorem Fld.degradeEn_soft (p : Nat) : ¬Hardwired (Fld.degradeEn p).reg := Reg.portCfg_soft p
theorem Fld.retryBudget_soft (p : Nat) : ¬Hardwired (Fld.retryBudget p).reg := Reg.portCfg_soft p
theorem Fld.portPeer_soft (p : Nat) : ¬Hardwired (Fld.portPeer p).reg := Reg.portStat_soft p
theorem Fld.lanesOk_soft (p : Nat) : ¬Hardwired (Fld.lanesOk p).reg := Reg.portStat_soft p
theorem Fld.episode_soft (p : Nat) : ¬Hardwired (Fld.episode p).reg := Reg.portStat_soft p
theorem Fld.portState_soft (p : Nat) : ¬Hardwired (Fld.portState p).reg := Reg.portStat_soft p
theorem Fld.episodes_soft (p : Nat) : ¬Hardwired (Fld.episodes p).reg := Reg.portReplays_soft p
theorem Fld.badGroups_soft (p : Nat) : ¬Hardwired (Fld.badGroups p).reg := Reg.portFec_soft p
theorem Fld.maxEp_soft (p : Nat) : ¬Hardwired (Fld.maxEp p).reg := Reg.portMaxEp_soft p
theorem Fld.colBusy_soft (e : Nat) : ¬Hardwired (Fld.colBusy e).reg := Reg.colStat_soft
theorem Fld.dirValid_soft : ¬Hardwired Fld.dirValid.reg := Reg.colStat_soft
theorem Fld.dirCtx_soft : ¬Hardwired Fld.dirCtx.reg := Reg.colStat_soft
theorem Fld.colCfgReject_soft : ¬Hardwired Fld.colCfgReject.reg := Reg.colStat_soft
theorem Fld.reserveEn_soft : ¬Hardwired Fld.reserveEn.reg := Reg.errCtrl_soft
theorem Fld.assayLevel_soft : ¬Hardwired Fld.assayLevel.reg := Reg.errCtrl_soft
theorem Fld.sampleLog2_soft : ¬Hardwired Fld.sampleLog2.reg := Reg.errCtrl_soft
theorem Fld.errOpen_soft : ¬Hardwired Fld.errOpen.reg := Reg.errStat_soft
theorem Fld.errLost_soft : ¬Hardwired Fld.errLost.reg := Reg.errStat_soft
theorem Fld.wdTrips_soft : ¬Hardwired Fld.wdTrips.reg := Reg.errStat_soft
theorem Fld.lastValid_soft : ¬Hardwired Fld.lastValid.reg := Reg.errStat_soft
theorem Fld.replayBusy_soft : ¬Hardwired Fld.replayBusy.reg := Reg.errStat_soft
theorem Fld.screenBusy_soft : ¬Hardwired Fld.screenBusy.reg := Reg.errStat_soft
theorem Fld.degraded_soft : ¬Hardwired Fld.degraded.reg := Reg.errStat_soft
theorem Fld.errCfgReject_soft : ¬Hardwired Fld.errCfgReject.reg := Reg.errStat_soft
theorem Fld.errNext_soft : ¬Hardwired Fld.errNext.reg := Reg.errNext_soft
theorem Fld.evidEnable_soft : ¬Hardwired Fld.evidEnable.reg := Reg.errEvidCfg_soft
theorem Fld.evidSlotsM1_soft : ¬Hardwired Fld.evidSlotsM1.reg := Reg.errEvidCfg_soft
theorem Fld.screenCount_soft : ¬Hardwired Fld.screenCount.reg := Reg.errScreenCtrl_soft
theorem Fld.assayChk_soft : ¬Hardwired Fld.assayChk.reg := Reg.errAssayChk_soft
theorem Fld.assaySkip_soft : ¬Hardwired Fld.assaySkip.reg := Reg.errAssaySkip_soft
theorem Fld.fosSetCnt_soft : ¬Hardwired Fld.fosSetCnt.reg := Reg.fosSetCnt_soft
theorem Fld.fosInPages_soft : ¬Hardwired Fld.fosInPages.reg := Reg.fosInSize_soft
theorem Fld.buddyEn_soft : ¬Hardwired Fld.buddyEn.reg := Reg.fosBuddyIn_soft
theorem Fld.buddySender_soft : ¬Hardwired Fld.buddySender.reg := Reg.fosBuddyIn_soft
theorem Fld.buddyEpoch_soft : ¬Hardwired Fld.buddyEpoch.reg := Reg.fosBuddyEpoch_soft
theorem Fld.buddyValid_soft : ¬Hardwired Fld.buddyValid.reg := Reg.fosBuddyStat_soft
theorem Fld.buddyLanding_soft : ¬Hardwired Fld.buddyLanding.reg := Reg.fosBuddyStat_soft
theorem Fld.buddyFilling_soft : ¬Hardwired Fld.buddyFilling.reg := Reg.fosBuddyStat_soft
theorem Fld.buddyPages_soft : ¬Hardwired Fld.buddyPages.reg := Reg.fosBuddyStat_soft
theorem Fld.bounced_soft : ¬Hardwired Fld.bounced.reg := Reg.fosStat_soft
theorem Fld.fosCfgReject_soft : ¬Hardwired Fld.fosCfgReject.reg := Reg.fosStat_soft
theorem Fld.fosUpdated_soft : ¬Hardwired Fld.fosUpdated.reg := Reg.fosStat_soft
theorem Fld.partial__soft : ¬Hardwired Fld.partial_.reg := Reg.fosStat_soft
theorem Fld.fosState_soft : ¬Hardwired Fld.fosState.reg := Reg.fosStat_soft
theorem Fld.fosEpoch_soft : ¬Hardwired Fld.fosEpoch.reg := Reg.fosEpoch_soft
theorem Fld.fosCommitted_soft : ¬Hardwired Fld.fosCommitted.reg := Reg.fosCommitted_soft
theorem Fld.capEn_soft : ¬Hardwired Fld.capEn.reg := Reg.pwrCap_soft
theorem Fld.capW_soft : ¬Hardwired Fld.capW.reg := Reg.pwrCap_soft
theorem Fld.capWindow_soft : ¬Hardwired Fld.capWindow.reg := Reg.pwrCap_soft
theorem Fld.ref156Lost_soft : ¬Hardwired Fld.ref156Lost.reg := Reg.pwrStat_soft
theorem Fld.wearPlanDue_soft : ¬Hardwired Fld.wearPlanDue.reg := Reg.pwrStat_soft
theorem Fld.inputRange_soft : ¬Hardwired Fld.inputRange.reg := Reg.pwrStat_soft
theorem Fld.ceiling_soft : ¬Hardwired Fld.ceiling.reg := Reg.pwrStat_soft
theorem Fld.capping_soft : ¬Hardwired Fld.capping.reg := Reg.pwrStat_soft
theorem Fld.thermal_soft : ¬Hardwired Fld.thermal.reg := Reg.pwrStat_soft
theorem Fld.throttleIn_soft : ¬Hardwired Fld.throttleIn.reg := Reg.pwrStat_soft
theorem Fld.floor_soft : ¬Hardwired Fld.floor.reg := Reg.pwrStat_soft
theorem Fld.inputMv_soft : ¬Hardwired Fld.inputMv.reg := Reg.pwrInput_soft
theorem Fld.inputCa_soft : ¬Hardwired Fld.inputCa.reg := Reg.pwrInput_soft
theorem Fld.avg1ms_soft : ¬Hardwired Fld.avg1ms.reg := Reg.pwrPower_soft
theorem Fld.avgWin_soft : ¬Hardwired Fld.avgWin.reg := Reg.pwrPower_soft
theorem Fld.stormPerMs_soft : ¬Hardwired Fld.stormPerMs.reg := Reg.pwrDroopCfg_soft
theorem Fld.droopThresh_soft : ¬Hardwired Fld.droopThresh.reg := Reg.pwrDroopCfg_soft
theorem Fld.droops_soft (s : Nat) : ¬Hardwired (Fld.droops s).reg := Reg.pwrDroopCnt_soft s
theorem Fld.filtered_soft : ¬Hardwired Fld.filtered.reg := Reg.pwrThrottleCnt_soft
theorem Fld.assertions_soft : ¬Hardwired Fld.assertions.reg := Reg.pwrThrottleCnt_soft
theorem Fld.hubC_soft : ¬Hardwired Fld.hubC.reg := Reg.pwrTemp_soft
theorem Fld.stackC_soft : ¬Hardwired Fld.stackC.reg := Reg.pwrTemp_soft
theorem Fld.slabC_soft : ¬Hardwired Fld.slabC.reg := Reg.pwrTemp_soft
theorem Fld.tripC_soft : ¬Hardwired Fld.tripC.reg := Reg.pwrThermLim_soft
theorem Fld.throttleC_soft : ¬Hardwired Fld.throttleC.reg := Reg.pwrThermLim_soft
theorem Fld.stackThrottleC_soft : ¬Hardwired Fld.stackThrottleC.reg := Reg.pwrThermLim_soft
theorem Fld.wearLow_soft : ¬Hardwired Fld.wearLow.reg := Reg.pwrWear_soft
theorem Fld.wearIndex_soft : ¬Hardwired Fld.wearIndex.reg := Reg.pwrWear_soft
theorem Fld.wearPeriod_soft : ¬Hardwired Fld.wearPeriod.reg := Reg.pwrWearCtrl_soft
theorem Fld.wearMhz_soft (s : Nat) : ¬Hardwired (Fld.wearMhz s).reg := Reg.pwrSlabF_soft s
theorem Fld.fMhz_soft (s : Nat) : ¬Hardwired (Fld.fMhz s).reg := Reg.pwrSlabF_soft s
theorem Fld.grpIndex_soft (g : Nat) : ¬Hardwired (Fld.grpIndex g).reg := Reg.pwrWearGrp_soft g
theorem Fld.grpMv_soft (g : Nat) : ¬Hardwired (Fld.grpMv g).reg := Reg.pwrWearGrp_soft g
theorem Fld.bootLock_soft : ¬Hardwired Fld.bootLock.reg := Reg.secLock_soft
theorem Fld.keyIdx_soft : ¬Hardwired Fld.keyIdx.reg := Reg.secBootStat_soft
theorem Fld.svn_soft : ¬Hardwired Fld.svn.reg := Reg.secBootStat_soft
theorem Fld.minSvn_soft : ¬Hardwired Fld.minSvn.reg := Reg.secBootStat_soft
theorem Fld.ownerEnrolled_soft : ¬Hardwired Fld.ownerEnrolled.reg := Reg.secBootStat_soft
theorem Fld.debugOpened_soft : ¬Hardwired Fld.debugOpened.reg := Reg.secBootStat_soft
theorem Fld.trial_soft : ¬Hardwired Fld.trial.reg := Reg.secBootStat_soft
theorem Fld.fallback_soft : ¬Hardwired Fld.fallback.reg := Reg.secBootStat_soft
theorem Fld.bootSlot_soft : ¬Hardwired Fld.bootSlot.reg := Reg.secBootStat_soft
theorem Fld.bootState_soft : ¬Hardwired Fld.bootState.reg := Reg.secBootStat_soft
theorem Fld.ctxEnable_soft : ¬Hardwired Fld.ctxEnable.reg := Reg.secProt_soft
theorem Fld.quarryModes_soft : ¬Hardwired Fld.quarryModes.reg := Reg.secProt_soft
theorem Fld.debugOpen_soft : ¬Hardwired Fld.debugOpen.reg := Reg.secDebug_soft
theorem Fld.enroll_soft : ¬Hardwired Fld.enroll.reg := Reg.secOwnerCtrl_soft
theorem Fld.updStatus_soft : ¬Hardwired Fld.updStatus.reg := Reg.secUpdStat_soft
theorem Fld.attStatus_soft : ¬Hardwired Fld.attStatus.reg := Reg.secAttStat_soft

end Sys2Proof.Machine
end

