-- ==== Sys2Proof/Laws/KeptOps.lean ====
section
/-! SUPPORT. Every operation of Machine/Ops.lean keeps what `Kept` says. -/

namespace Sys2Proof.Machine

theorem State.setFld_kept (s : State) (f : Fld) (v : Nat) (h : ¬Hardwired f.reg) : Kept s (State.setFld s f v) :=
  Kept.wr _ _ _ h

theorem State.bump_kept (s : State) (f : Fld) (k : Nat) (h : ¬Hardwired f.reg) : Kept s (State.bump s f k) :=
  Kept.wr _ _ _ h

theorem State.freshBytes_kept (s : State) (n : Nat) : Kept s (State.freshBytes s n).2 := by
  induction n generalizing s with
  | zero => exact Kept.refl s
  | succ n ih => exact (Kept.fresh s 256).trans (ih _)

theorem State.setQuarry_kept (s : State) (q : Nat) (v : Quarry) : Kept s (State.setQuarry s q v) := by
  unfold State.setQuarry
  repeat' first
    | with_reducible exact Kept.refl _
    | with_reducible apply Kept.mk_ ?_

theorem State.setSlab_kept (s : State) (i : Nat) (v : Slab) : Kept s (State.setSlab s i v) := by
  unfold State.setSlab
  extract_lets l1
  try clear_value l1
  repeat' first
    | with_reducible exact Kept.refl _
    | with_reducible apply Kept.mk_ ?_

theorem State.runSlab_kept (s : State) (dt : Nat) (i : Nat) : Kept s (State.runSlab s dt i) := by
  unfold State.runSlab
  extract_lets l1 l2
  try clear_value l1
  try clear_value l2
  repeat' first
    | with_reducible exact Kept.refl _
    | with_reducible apply Kept.trans ?_ (State.setSlab_kept _ _ _)

theorem State.runTo_kept (s : State) (t : Nat) (h : s.now ≤ t) : Kept s (State.runTo s t) := by
  have g : Kept s ((((s.runSlab (t - s.now) 0).runSlab (t - s.now) 1).runSlab (t - s.now) 2).runSlab (t - s.now) 3) :=
    (((State.runSlab_kept ..).trans (State.runSlab_kept ..)).trans (State.runSlab_kept ..)).trans (State.runSlab_kept ..)
  exact ⟨g.queue, h, g.free, g.svn, g.owner, g.mem, fun hs => ⟨(g.sound hs).regs, (g.sound hs).mem, (g.sound hs).ident⟩⟩

theorem State.setClocks_kept (s : State) : Kept s (State.setClocks s) := by
  unfold State.setClocks
  extract_lets l1 l2 l3 l4 l5
  try clear_value l1
  have h2 : Kept s l2 := by
    unfold l2
    repeat' first
      | with_reducible exact Kept.refl _
      | with_reducible apply Kept.trans ?_ (State.setFld_kept _ _ _ ?_)
      | with_reducible apply Kept.fold (fun _ _ => ?_) ?_
      | with_reducible exact Fld.fMhz_soft _
  try clear_value l2
  have h3 : Kept s l3 := by
    unfold l3
    repeat' first
      | with_reducible assumption
      | with_reducible apply Kept.trans ?_ (State.setFld_kept _ _ _ ?_)
      | with_reducible exact Fld.floor_soft
  try clear_value l3
  have h4 : Kept s l4 := by
    unfold l4
    repeat' first
      | with_reducible assumption
      | with_reducible apply Kept.trans ?_ (State.setFld_kept _ _ _ ?_)
      | with_reducible exact Fld.thermal_soft
  try clear_value l4
  have h5 : Kept s l5 := by
    unfold l5
    repeat' first
      | with_reducible assumption
      | with_reducible apply Kept.trans ?_ (State.setFld_kept _ _ _ ?_)
      | with_reducible exact Fld.capping_soft
  try clear_value l5
  repeat' first
    | with_reducible assumption
    | with_reducible apply Kept.trans ?_ (State.setFld_kept _ _ _ ?_)
    | with_reducible exact Fld.ceiling_soft

/-- The next step of a clock lies ahead. -/
theorem stepsAhead_gt {now n b : Nat} {r : Option Nat} (h : b ∈ stepsAhead now r n) : now < b := by
  unfold stepsAhead at h
  split at h
  · rw [List.mem_filter] at h
    exact of_decide_eq_true h.2
  · cases h

theorem State.nextStep_gt {s : State} {b : Nat} (h : s.nextStep = some b) : s.now < b := by
  have hm := List.min?_mem h
  rw [List.mem_append, List.mem_flatMap] at hm
  obtain hm | ⟨i, _, hm⟩ := hm
  · exact stepsAhead_gt hm
  · exact stepsAhead_gt hm

theorem State.advanceN_kept (s : State) (t n : Nat) (h : s.now ≤ t) : Kept s (s.advanceN t n) := by
  induction n generalizing s with
  | zero => exact State.runTo_kept s t h
  | succ n ih =>
    unfold State.advanceN
    split
    · rename_i b hb
      refine Kept.ite (fun hbt => ?_) (fun _ => State.runTo_kept s t h)
      have hr := State.runTo_kept s b (Nat.le_of_lt (State.nextStep_gt hb))
      have hn : (s.runTo b).setClocks.now = b := rfl
      exact (hr.trans (State.setClocks_kept _)).trans (ih _ (by rw [hn]; exact hbt))
    · exact State.runTo_kept s t h

/-- No bit of an identification register takes a write. -/
theorem hardwired_fixed {off : Nat} {r : RegInfo} (h : Hardwired off) (e : Reg.info off = some r) : r.rw = 0 ∧ r.w1c = 0 := by
  have key : ∀ o : Nat, (Reg.info o).map (fun r => (r.rw, r.w1c)) = some (0, 0) → Reg.info o = some r → r.rw = 0 ∧ r.w1c = 0 := by
    intro o ho he
    rw [he] at ho
    exact ⟨congrArg Prod.fst (Option.some.inj ho), congrArg Prod.snd (Option.some.inj ho)⟩
  obtain rfl | rfl | rfl | rfl | rfl := h
  · exact key _ (by decide) e
  · exact key _ (by decide) e
  · exact key _ (by decide) e
  · exact key _ (by decide) e
  · exact key _ (by decide) e

/-- A write of the bits that a register has leaves the identification registers: none of their bits is writable. -/
theorem State.plainWrite_kept (s : State) (off : Nat) (v : Word) : Kept s (s.plainWrite off v) := by
  unfold State.plainWrite
  split
  · rename_i r hr
    refine (Kept.refl s).registers rfl rfl rfl rfl rfl SMap.wf_put fun hw o ho hs => ?_
    by_cases he : o = off
    · subst he
      obtain ⟨h1, h2⟩ := hardwired_fixed ho hr
      have hz : (BitVec.ofNat 32 0 : Word) = 0#32 := rfl
      unfold State.rd State.wr
      rw [SMap.get_put_same hw, h1, h2, hz]
      simp only [BitVec.and_zero, BitVec.not_zero, BitVec.and_allOnes, BitVec.or_zero]
      exact hs
    · unfold State.rd State.wr
      rw [SMap.get_put_of_ne he]
      exact hs
  · exact Kept.refl s

theorem State.setCtx_kept (s : State) (c : Nat) (v : Ctx) : Kept s (State.setCtx s c v) := by
  unfold State.setCtx
  extract_lets l1
  try clear_value l1
  repeat' first
    | with_reducible exact Kept.refl _
    | with_reducible apply Kept.mk_ ?_

theorem State.setStream_kept (s : State) (c : Nat) (n : Nat) (v : Stream) : Kept s (State.setStream s c n v) := by
  unfold State.setStream
  extract_lets l1
  try clear_value l1
  repeat' first
    | with_reducible exact Kept.refl _
    | with_reducible apply Kept.mk_ ?_

theorem State.mapStreams_kept (s : State) (f : Nat → Stream → Stream) : Kept s (State.mapStreams s f) := by
  unfold State.mapStreams
  repeat' first
    | with_reducible exact Kept.refl _
    | with_reducible apply Kept.trans ?_ (State.setStream_kept _ _ _ _)
    | with_reducible apply Kept.fold (fun _ _ => ?_) ?_

theorem State.setSem_kept (s : State) (k : Nat) (v : Sem) : Kept s (State.setSem s k v) := by
  unfold State.setSem
  extract_lets l1
  try clear_value l1
  repeat' first
    | with_reducible exact Kept.refl _
    | with_reducible apply Kept.mk_ ?_

theorem State.noteQuarry_kept (s : State) (q : Nat) : Kept s (State.noteQuarry s q) := by
  unfold State.noteQuarry
  extract_lets l1 l2 l3
  try clear_value l1
  try clear_value l2
  try clear_value l3
  repeat' first
    | with_reducible exact Kept.refl _
    | split
    | with_reducible apply Kept.mk_ ?_

theorem State.noteBlocked_kept (s : State) : Kept s (State.noteBlocked s) := by
  unfold State.noteBlocked
  repeat' first
    | with_reducible exact Kept.refl _
    | with_reducible apply Kept.trans ?_ (State.noteQuarry_kept _ _)

theorem State.noteBlocked_now (s : State) : s.noteBlocked.now = s.now := rfl

theorem State.advanceTo_kept (s : State) (t : Nat) : Kept s (s.advanceTo t) := by
  unfold State.advanceTo
  refine Kept.ite (fun _ => Kept.refl s) (fun h => ?_)
  exact (State.noteBlocked_kept s).trans (State.advanceN_kept _ _ _ (by rw [State.noteBlocked_now]; omega))

theorem State.setTile_kept (s : State) (v : Tile) : Kept s (State.setTile s v) := by
  unfold State.setTile
  extract_lets l1
  try clear_value l1
  repeat' first
    | with_reducible exact Kept.refl _
    | with_reducible apply Kept.mk_ ?_

theorem State.dropTile_kept (s : State) (c : Nat) (n : Nat) : Kept s (State.dropTile s c n) := by
  unfold State.dropTile
  extract_lets l1
  try clear_value l1
  repeat' first
    | with_reducible exact Kept.refl _
    | with_reducible apply Kept.mk_ ?_

theorem State.setFence_kept (s : State) (dom : Nat) (i : Nat) : Kept s (State.setFence s dom i) := by
  unfold State.setFence
  extract_lets l1
  try clear_value l1
  repeat' first
    | with_reducible exact Kept.refl _
    | with_reducible apply Kept.mk_ ?_

theorem State.setHostByte_kept (s : State) (a : Nat) (b : Byte) : Kept s (State.setHostByte s a b) := by
  refine (Kept.refl s).memory rfl rfl rfl rfl rfl fun h => ?_
  simp only [Memory.wf, Bool.and_eq_true] at h ⊢
  exact ⟨h.1, SMap.wf_put h.2⟩

theorem State.putHost_kept (s : State) (a : Nat) (l : List Byte) : Kept s (State.putHost s a l) := by
  induction l generalizing s a with
  | nil => exact Kept.refl s
  | cons b r ih => exact (State.setHostByte_kept s a b).trans (ih _ _)

end Sys2Proof.Machine
end

