-- ==== Sys2Proof/Laws/KeptRaise.lean ====
section
/-! SUPPORT. Every operation of Machine/Raise.lean keeps what `Kept` says. -/

namespace Sys2Proof.Machine

theorem State.post_kept (s : State) (c : Compl) : Kept s (State.post s c) := by
  unfold State.post
  extract_lets l1
  try clear_value l1
  repeat' first
    | with_reducible exact Kept.refl _
    | with_reducible apply Kept.mk_ ?_

theorem State.postEvent_kept (s : State) (code : Nat) (idx : Nat) (count : Nat) (ctx : Option Nat) : Kept s (State.postEvent s code idx count ctx) := by
  unfold State.postEvent
  repeat' first
    | with_reducible exact Kept.refl _
    | with_reducible apply Kept.ite (fun _ => ?_) (fun _ => ?_)
    | with_reducible apply Kept.trans ?_ (State.post_kept _ _)

theorem State.setRec_kept (s : State) (i : Nat) (r : ErrRec) : Kept s (State.setRec s i r) := by
  unfold State.setRec
  extract_lets l1
  try clear_value l1
  repeat' first
    | with_reducible exact Kept.refl _
    | with_reducible apply Kept.mk_ ?_

theorem State.countOpen_kept (s : State) : Kept s (State.countOpen s) := by
  unfold State.countOpen
  repeat' first
    | with_reducible exact Kept.refl _
    | with_reducible apply Kept.trans ?_ (State.setFld_kept _ _ _ ?_)
    | with_reducible exact Fld.errOpen_soft

theorem State.mergeRec_kept (s : State) (k : Nat) (e : ErrInfo) : Kept s (State.mergeRec s k e) := by
  unfold State.mergeRec
  extract_lets l1
  try clear_value l1
  repeat' first
    | with_reducible exact Kept.refl _
    | with_reducible apply Kept.trans ?_ (State.setRec_kept _ _ _)

theorem State.openRecord_kept (s : State) (e : ErrInfo) (parent : Option Nat) : Kept s (State.openRecord s e parent) := by
  unfold State.openRecord
  extract_lets l1 l2
  try clear_value l1
  try clear_value l2
  repeat' first
    | with_reducible exact Kept.refl _
    | with_reducible apply Kept.ite (fun _ => ?_) (fun _ => ?_)
    | with_reducible apply Kept.trans ?_ (State.bump_kept _ _ _ ?_)
    | with_reducible apply Kept.trans ?_ (State.setRec_kept _ _ _)
    | with_reducible apply Kept.trans ?_ (State.setFld_kept _ _ _ ?_)
    | with_reducible apply Kept.trans ?_ (State.postEvent_kept _ _ _ _ _)
    | with_reducible apply Kept.trans ?_ (State.countOpen_kept _)
    | with_reducible exact Fld.errLost_soft
    | with_reducible exact Fld.errNext_soft
    | with_reducible exact Fld.lastValid_soft
    | split
    | with_reducible apply Kept.mk_ ?_

theorem State.report_kept (s : State) (e : ErrInfo) : Kept s (State.report s e) := by
  unfold State.report
  repeat' first
    | with_reducible exact Kept.refl _
    | with_reducible apply Kept.trans ?_ (State.openRecord_kept _ _ _)

theorem State.stopTiles_kept (s : State) (p : Tile → Bool) : Kept s (State.stopTiles s p) := by
  unfold State.stopTiles
  extract_lets l1 l2
  try clear_value l1
  try clear_value l2
  repeat' first
    | with_reducible exact Kept.refl _
    | with_reducible apply Kept.mk_ ?_

theorem State.closeDonations_kept (s : State) (p : Donation → Bool) : Kept s (State.closeDonations s p) := by
  unfold State.closeDonations
  extract_lets l1
  try clear_value l1
  repeat' first
    | with_reducible exact Kept.refl _
    | with_reducible apply Kept.mk_ ?_

theorem State.dropQueues_kept (s : State) (c : Nat) : Kept s (State.dropQueues s c) := by
  unfold State.dropQueues
  extract_lets l1
  try clear_value l1
  repeat' first
    | with_reducible exact Kept.refl _
    | with_reducible apply Kept.mk_ ?_

theorem State.setSlot_kept (s : State) (q : Nat) (v : Slot) : Kept s (State.setSlot s q v) := by
  unfold State.setSlot
  extract_lets l1
  try clear_value l1
  repeat' first
    | with_reducible exact Kept.refl _
    | with_reducible apply Kept.mk_ ?_

theorem State.postSequence_kept (s : State) (q : Nat) (status : Nat) (endCode : Nat) : Kept s (State.postSequence s q status endCode) := by
  unfold State.postSequence
  extract_lets l1 l2
  try clear_value l1
  try clear_value l2
  repeat' first
    | with_reducible exact Kept.refl _
    | with_reducible apply Kept.trans ?_ (State.post_kept _ _)

theorem State.kvWake_kept (s : State) (p : KvWait → Bool) : Kept s (State.kvWake s p) := by
  unfold State.kvWake
  extract_lets l1 l2 l3
  try clear_value l1
  try clear_value l2
  have h3 : Kept s l3 := by
    unfold l3
    repeat' first
      | with_reducible exact Kept.refl _
      | with_reducible apply Kept.mk_ ?_
  try clear_value l3
  repeat' first
    | with_reducible exact Kept.refl _
    | with_reducible assumption
    | with_reducible apply Kept.trans ?_ (State.setStream_kept _ _ _ _)
    | with_reducible apply Kept.fold (fun _ _ => ?_) ?_

theorem State.versionWake_kept (s : State) (q : Nat) : Kept s (State.versionWake s q) := by
  unfold State.versionWake
  repeat' first
    | with_reducible exact Kept.refl _
    | with_reducible apply Kept.trans ?_ (State.mapStreams_kept _ _)

theorem State.failSequence_kept (s : State) (q : Nat) (code : Nat) (idx : Nat) : Kept s (State.failSequence s q code idx) := by
  unfold State.failSequence
  extract_lets l1 l2 l3 l4 l5 l6 l7 l8 l9
  try clear_value l1
  have h2 : Kept s l2 := by
    unfold l2
    repeat' first
      | with_reducible exact Kept.refl _
      | with_reducible apply Kept.trans ?_ (State.setSlot_kept _ _ _)
  try clear_value l2
  try clear_value l3
  have h4 : Kept s l4 := by
    unfold l4
    repeat' first
      | with_reducible assumption
      | with_reducible apply Kept.trans ?_ (State.setCtx_kept _ _ _)
  try clear_value l4
  have h5 : Kept s l5 := by
    unfold l5
    repeat' first
      | with_reducible assumption
      | with_reducible apply Kept.trans ?_ (State.versionWake_kept _ _)
      | with_reducible apply Kept.trans ?_ (State.kvWake_kept _ _)
  try clear_value l5
  try clear_value l6
  have h7 : Kept s l7 := by
    unfold l7
    repeat' first
      | with_reducible assumption
      | with_reducible apply Kept.trans ?_ (State.mapStreams_kept _ _)
  try clear_value l7
  try clear_value l8
  have h9 : Kept s l9 := by
    unfold l9
    repeat' first
      | with_reducible assumption
      | with_reducible apply Kept.mk_ ?_
  try clear_value l9
  repeat' first
    | with_reducible exact Kept.refl _
    | with_reducible assumption
    | with_reducible apply Kept.ite (fun _ => ?_) (fun _ => ?_)
    | with_reducible apply Kept.trans ?_ (State.postSequence_kept _ _ _ _)

theorem State.dropWaits_kept (s : State) (c : Nat) : Kept s (State.dropWaits s c) := by
  unfold State.dropWaits
  extract_lets l1
  try clear_value l1
  repeat' first
    | with_reducible exact Kept.refl _
    | with_reducible apply Kept.mk_ ?_

theorem State.setShard_kept (s : State) (c : Nat) (n : Nat) (v : Shard) : Kept s (State.setShard s c n v) := by
  unfold State.setShard
  extract_lets l1
  try clear_value l1
  repeat' first
    | with_reducible exact Kept.refl _
    | with_reducible apply Kept.mk_ ?_

theorem State.dropShards_kept (s : State) (c : Nat) : Kept s (State.dropShards s c) := by
  unfold State.dropShards
  extract_lets l1 l2
  have h1 : Kept s l1 := by
    unfold l1
    repeat' first
      | with_reducible exact Kept.refl _
      | with_reducible apply Kept.trans ?_ (State.setShard_kept _ _ _ _)
      | with_reducible apply Kept.fold (fun _ _ => ?_) ?_
  try clear_value l1
  try clear_value l2
  repeat' first
    | with_reducible assumption
    | with_reducible apply Kept.mk_ ?_

theorem State.loseLocal_kept (s : State) (c : Nat) : Kept s (State.loseLocal s c) := by
  refine (Kept.refl s).memory rfl rfl rfl rfl rfl fun h => ?_
  simp only [Memory.wf, Bool.and_eq_true] at h ⊢
  obtain ⟨⟨⟨⟨⟨⟨⟨⟨⟨⟨⟨⟨⟨⟨⟨⟨h1, h2⟩, h3⟩, h4⟩, h5⟩, h6⟩, h7⟩, h8⟩, h9⟩, h10⟩, h11⟩, h12⟩, h13⟩, h14⟩, h15⟩, h16⟩, h17⟩ := h
  refine ⟨⟨⟨⟨⟨⟨⟨⟨⟨⟨⟨⟨⟨⟨⟨⟨h1, h2⟩, h3⟩, h4⟩, h5⟩, ?_⟩, h7⟩, ?_⟩, h9⟩, ?_⟩, h11⟩, ?_⟩, h13⟩, h14⟩, h15⟩, h16⟩, h17⟩
  · refine SMap.wf_congr (SMap.wf_filter _ h6) fun e he => ?_
    have hm := (List.mem_filter.1 he).2
    simp only [Bool.not_eq_true', List.contains_eq_mem, decide_eq_false_iff_not] at hm
    exact MemSt.statDefault_congr rfl (SMap.get_foldl_put_of_not_mem _ _ hm)
  · refine SMap.wf_congr (SMap.wf_filter _ h8) fun e he => ?_
    have hm := (List.mem_filter.1 he).2
    simp only [Bool.not_eq_true', List.contains_eq_mem, decide_eq_false_iff_not] at hm
    exact MemSt.accDefault_congr rfl (SMap.get_foldl_put_of_not_mem _ _ hm) rfl
  · exact SMap.wf_foldl _ h10 fun m x hm => SMap.wf_put hm
  · exact SMap.wf_foldl _ h12 fun m x hm => SMap.wf_put hm

theorem State.setPort_kept (s : State) (p : Nat) (b : Port) : Kept s (State.setPort s p b) := by
  unfold State.setPort
  extract_lets l1
  try clear_value l1
  repeat' first
    | with_reducible exact Kept.refl _
    | with_reducible apply Kept.mk_ ?_

theorem State.collBusy_kept (s : State) : Kept s (State.collBusy s) := by
  unfold State.collBusy
  repeat' first
    | with_reducible exact Kept.refl _
    | with_reducible apply Kept.trans ?_ (State.setFld_kept _ _ _ ?_)
    | with_reducible apply Kept.fold (fun _ _ => ?_) ?_
    | with_reducible exact Fld.colBusy_soft _

theorem State.setXfers_kept (s : State) (l : List Xfer) : Kept s (State.setXfers s l) := by
  unfold State.setXfers
  extract_lets l1
  try clear_value l1
  repeat' first
    | with_reducible exact Kept.refl _
    | with_reducible apply Kept.trans ?_ (State.collBusy_kept _)
    | with_reducible apply Kept.mk_ ?_

theorem State.freePool_kept (s : State) (p : Nat) (pool : Nat) (n : Nat) : Kept s (State.freePool s p pool n) := by
  unfold State.freePool
  extract_lets l1
  try clear_value l1
  repeat' first
    | with_reducible exact Kept.refl _
    | with_reducible apply Kept.ite (fun _ => ?_) (fun _ => ?_)
    | with_reducible apply Kept.trans ?_ (State.setPort_kept _ _ _)

theorem State.dropHeld_kept (s : State) (c : Nat) : Kept s (State.dropHeld s c) := by
  unfold State.dropHeld
  extract_lets l1 l2
  have h1 : Kept s l1 := by
    unfold l1
    repeat' first
      | with_reducible exact Kept.refl _
      | with_reducible apply Kept.trans ?_ (State.freePool_kept _ _ _ _)
      | with_reducible apply Kept.fold (fun _ _ => ?_) ?_
      | split
  try clear_value l1
  try clear_value l2
  repeat' first
    | with_reducible assumption
    | with_reducible apply Kept.mk_ ?_

theorem State.endCtxTransfers_kept (s : State) (c : Nat) : Kept s (State.endCtxTransfers s c) := by
  unfold State.endCtxTransfers
  extract_lets l1 l2 l3 l4 l5 l6
  have h1 : Kept s l1 := by
    unfold l1
    repeat' first
      | with_reducible exact Kept.refl _
      | with_reducible apply Kept.trans ?_ (State.setXfers_kept _ _)
  try clear_value l1
  try clear_value l2
  have h3 : Kept s l3 := by
    unfold l3
    repeat' first
      | with_reducible assumption
      | with_reducible apply Kept.mk_ ?_
  try clear_value l3
  have h4 : Kept s l4 := by
    unfold l4
    repeat' first
      | with_reducible assumption
      | with_reducible apply Kept.trans ?_ (State.setFld_kept _ _ _ ?_)
      | with_reducible apply Kept.trans ?_ (State.dropHeld_kept _ _)
      | with_reducible exact Fld.jobValid_soft _
  try clear_value l4
  try clear_value l5
  have h6 : Kept s l6 := by
    unfold l6
    repeat' first
      | with_reducible assumption
      | with_reducible apply Kept.trans ?_ (State.setCtx_kept _ _ _)
  try clear_value l6
  repeat' first
    | with_reducible assumption
    | with_reducible apply Kept.trans ?_ (State.loseLocal_kept _ _)
    | with_reducible apply Kept.trans ?_ (State.dropShards_kept _ _)

theorem State.idleLanes_kept (s : State) : Kept s (State.idleLanes s) := by
  unfold State.idleLanes
  repeat' first
    | with_reducible exact Kept.refl _
    | with_reducible apply Kept.trans ?_ (State.setFld_kept _ _ _ ?_)
    | with_reducible apply Kept.trans ?_ (State.setPort_kept _ _ _)
    | with_reducible apply Kept.fold (fun _ _ => ?_) ?_
    | with_reducible exact Fld.portState_soft _

theorem State.completeCmd_kept (s : State) (id : Nat) (status : Nat) (tail : Nat) : Kept s (State.completeCmd s id status tail) := by
  unfold State.completeCmd
  extract_lets l1 l2
  try clear_value l1
  have h2 : Kept s l2 := by
    unfold l2
    repeat' first
      | with_reducible exact Kept.refl _
      | with_reducible apply Kept.mk_ ?_
  try clear_value l2
  repeat' first
    | with_reducible exact Kept.refl _
    | with_reducible assumption
    | with_reducible apply Kept.trans ?_ (State.post_kept _ _)
    | split

theorem State.completeSome_kept (s : State) (id : Option Nat) (status : Nat) (tail : Nat) : Kept s (State.completeSome s id status tail) := by
  unfold State.completeSome
  repeat' first
    | with_reducible exact Kept.refl _
    | with_reducible apply Kept.trans ?_ (State.completeCmd_kept _ _ _ _)
    | split

theorem State.fossilField_kept (s : State) (pa v : Nat) : Kept s (State.fossilField s pa v) := by
  refine (Kept.refl s).memory rfl rfl rfl rfl rfl fun h => Memory.wf_iff.2 { Memory.wf_iff.1 h with fossil := ?_ }
  have hd := SMap.wf_drop (fun k => decide (pa / 64 ≤ k) && decide (k < pa / 64 + 32768)) (Memory.wf_iff.1 h).fossil
  show SMap.wf _ (if v = 0 then _ else _) = true
  split
  · exact hd
  · exact SMap.wf_foldl _ hd fun m x hm => SMap.wf_put hm

theorem State.countBounced_kept (s : State) : Kept s (State.countBounced s) := by
  unfold State.countBounced
  repeat' first
    | with_reducible exact Kept.refl _
    | with_reducible apply Kept.trans ?_ (State.setFld_kept _ _ _ ?_)
    | with_reducible exact Fld.bounced_soft

theorem State.endEpoch_kept (s : State) : Kept s (State.endEpoch s) := by
  unfold State.endEpoch
  extract_lets l1 l2 l3
  try clear_value l1
  have h2 : Kept s l2 := by
    unfold l2
    repeat' first
      | with_reducible exact Kept.refl _
      | with_reducible apply Kept.trans ?_ (State.fossilField_kept _ _ _)
      | with_reducible apply Kept.fold (fun _ _ => ?_) ?_
  try clear_value l2
  try clear_value l3
  repeat' first
    | with_reducible assumption
    | with_reducible apply Kept.trans ?_ (State.setFld_kept _ _ _ ?_)
    | with_reducible exact Fld.fosState_soft
    | with_reducible exact Fld.bounced_soft
    | with_reducible apply Kept.mk_ ?_

theorem State.releaseHold_kept (s : State) (e : Nat) : Kept s (State.releaseHold s e) := by
  unfold State.releaseHold
  extract_lets l1
  try clear_value l1
  repeat' first
    | with_reducible exact Kept.refl _
    | with_reducible apply Kept.mk_ ?_

theorem State.abandonEpoch_kept (s : State) (e : Epoch) : Kept s (State.abandonEpoch s e) := by
  unfold State.abandonEpoch
  extract_lets l1 l2 l3
  have h1 : Kept s l1 := by
    unfold l1
    repeat' first
      | with_reducible exact Kept.refl _
      | with_reducible apply Kept.trans ?_ (State.setFld_kept _ _ _ ?_)
      | with_reducible apply Kept.trans ?_ (State.releaseHold_kept _ _)
      | with_reducible apply Kept.trans ?_ (State.endEpoch_kept _)
      | with_reducible exact Fld.fosEpoch_soft
  try clear_value l1
  try clear_value l2
  have h3 : Kept s l3 := by
    unfold l3
    repeat' first
      | with_reducible assumption
      | with_reducible apply Kept.mk_ ?_
  try clear_value l3
  repeat' first
    | with_reducible assumption
    | with_reducible apply Kept.trans ?_ (State.completeSome_kept _ _ _ _)

theorem State.epochFault_kept (s : State) (c : Nat) : Kept s (State.epochFault s c) := by
  unfold State.epochFault
  repeat' first
    | with_reducible exact Kept.refl _
    | with_reducible apply Kept.ite (fun _ => ?_) (fun _ => ?_)
    | with_reducible apply Kept.trans ?_ (State.abandonEpoch_kept _ _)
    | split

theorem State.loseBuddy_kept (s : State) : Kept s (State.loseBuddy s) := by
  unfold State.loseBuddy
  extract_lets l1
  try clear_value l1
  repeat' first
    | with_reducible exact Kept.refl _
    | with_reducible apply Kept.ite (fun _ => ?_) (fun _ => ?_)
    | with_reducible apply Kept.trans ?_ (State.setFld_kept _ _ _ ?_)
    | with_reducible apply Kept.trans ?_ (State.report_kept _ _)
    | with_reducible exact Fld.fosState_soft
    | split
    | with_reducible apply Kept.mk_ ?_

theorem State.loseFill_kept (s : State) : Kept s (State.loseFill s) := by
  unfold State.loseFill
  extract_lets l1
  try clear_value l1
  repeat' first
    | with_reducible exact Kept.refl _
    | with_reducible apply Kept.trans ?_ (State.setFld_kept _ _ _ ?_)
    | with_reducible apply Kept.trans ?_ (State.completeCmd_kept _ _ _ _)
    | with_reducible apply Kept.trans ?_ (State.report_kept _ _)
    | with_reducible exact Fld.partial__soft
    | with_reducible exact Fld.ctxState_soft _
    | split
    | with_reducible apply Kept.mk_ ?_

theorem State.buddyRouteFail_kept (s : State) (dst : Nat) : Kept s (State.buddyRouteFail s dst) := by
  unfold State.buddyRouteFail
  extract_lets l1 l2 l3
  have h1 : Kept s l1 := by
    unfold l1
    repeat' first
      | with_reducible exact Kept.refl _
      | with_reducible apply Kept.ite (fun _ => ?_) (fun _ => ?_)
      | with_reducible apply Kept.trans ?_ (State.loseBuddy_kept _)
  try clear_value l1
  have h2 : Kept s l2 := by
    unfold l2
    repeat' first
      | with_reducible assumption
      | with_reducible apply Kept.ite (fun _ => ?_) (fun _ => ?_)
      | with_reducible apply Kept.trans ?_ (State.loseFill_kept _)
  try clear_value l2
  try clear_value l3
  repeat' first
    | with_reducible assumption
    | with_reducible apply Kept.ite (fun _ => ?_) (fun _ => ?_)
    | with_reducible apply Kept.trans ?_ (State.setFld_kept _ _ _ ?_)
    | with_reducible exact Fld.buddyLanding_soft
    | with_reducible apply Kept.mk_ ?_

theorem State.buddyPortLost_kept (s : State) (p : Nat) : Kept s (State.buddyPortLost s p) := by
  unfold State.buddyPortLost
  extract_lets l1 l2
  try clear_value l1
  try clear_value l2
  repeat' first
    | with_reducible exact Kept.refl _
    | with_reducible apply Kept.trans ?_ (State.buddyRouteFail_kept _ _)
    | with_reducible apply Kept.fold (fun _ _ => ?_) ?_

theorem State.faultNow_kept (s : State) (c : Nat) (code : Nat) : Kept s (State.faultNow s c code) := by
  unfold State.faultNow
  extract_lets l1 l2 l3 l4 l5 l6
  have h1 : Kept s l1 := by
    unfold l1
    repeat' first
      | with_reducible exact Kept.refl _
      | with_reducible apply Kept.trans ?_ (State.setFld_kept _ _ _ ?_)
      | with_reducible exact Fld.ctxState_soft _
  try clear_value l1
  try clear_value l2
  have h3 : Kept s l3 := by
    unfold l3
    repeat' first
      | with_reducible assumption
      | with_reducible apply Kept.trans ?_ (State.setCtx_kept _ _ _)
  try clear_value l3
  have h4 : Kept s l4 := by
    unfold l4
    repeat' first
      | with_reducible assumption
      | with_reducible apply Kept.trans ?_ (State.mapStreams_kept _ _)
  try clear_value l4
  have h5 : Kept s l5 := by
    unfold l5
    repeat' first
      | with_reducible assumption
      | with_reducible apply Kept.trans ?_ (State.stopTiles_kept _ _)
  try clear_value l5
  have h6 : Kept s l6 := by
    unfold l6
    repeat' first
      | with_reducible assumption
      | with_reducible apply Kept.trans ?_ (State.closeDonations_kept _ _)
  try clear_value l6
  repeat' first
    | with_reducible assumption
    | with_reducible apply Kept.trans ?_ (State.epochFault_kept _ _)
    | with_reducible apply Kept.trans ?_ (State.endCtxTransfers_kept _ _)
    | with_reducible apply Kept.trans ?_ (State.dropWaits_kept _ _)
    | with_reducible apply Kept.trans ?_ (State.dropQueues_kept _ _)

theorem State.faultCtx_kept (s : State) (c : Nat) (code : Nat) : Kept s (State.faultCtx s c code) := by
  unfold State.faultCtx
  extract_lets l1
  try clear_value l1
  repeat' first
    | with_reducible exact Kept.refl _
    | with_reducible apply Kept.ite (fun _ => ?_) (fun _ => ?_)
    | with_reducible apply Kept.trans ?_ (State.setCtx_kept _ _ _)
    | with_reducible apply Kept.trans ?_ (State.faultNow_kept _ _ _)

theorem State.markFenced_kept (s : State) (core : Nat) : Kept s (State.markFenced s core) := by
  unfold State.markFenced
  extract_lets l1 l2
  repeat' first
    | exact soft_of_le (by unfold l2; split <;> simp only [Reg.fenceLo, Reg.fenceHi, Reg.slb] <;> omega)
    | with_reducible exact Kept.refl _
    | with_reducible apply Kept.ite (fun _ => ?_) (fun _ => ?_)
    | with_reducible apply Kept.trans ?_ (State.setFld_kept _ _ _ ?_)
    | with_reducible apply Kept.trans ?_ (State.bump_kept _ _ _ ?_)
    | with_reducible exact Fld.coresFenced_soft
    | with_reducible exact Fld.coresActive_soft

theorem State.checkDegraded_kept (s : State) : Kept s (State.checkDegraded s) := by
  unfold State.checkDegraded
  repeat' first
    | with_reducible exact Kept.refl _
    | with_reducible apply Kept.ite (fun _ => ?_) (fun _ => ?_)
    | with_reducible apply Kept.trans ?_ (State.report_kept _ _)
    | with_reducible apply Kept.trans ?_ (State.setFld_kept _ _ _ ?_)
    | with_reducible exact Fld.degraded_soft

theorem State.fenceCore_kept (s : State) (core : Nat) : Kept s (State.fenceCore s core) := by
  unfold State.fenceCore
  extract_lets l1 l2 l3 l4 l5 l6 l7 l8
  try clear_value l1
  have h2 : Kept s l2 := by
    unfold l2
    repeat' first
      | with_reducible exact Kept.refl _
      | with_reducible apply Kept.trans ?_ (State.markFenced_kept _ _)
  try clear_value l2
  try clear_value l3
  have h4 : Kept s l4 := by
    unfold l4
    repeat' first
      | with_reducible assumption
      | with_reducible apply Kept.mk_ ?_
  try clear_value l4
  try clear_value l5
  try clear_value l6
  try clear_value l7
  have h8 : Kept s l8 := by
    unfold l8
    repeat' first
      | with_reducible assumption
      | with_reducible apply Kept.mk_ ?_
  try clear_value l8
  repeat' first
    | with_reducible assumption
    | with_reducible apply Kept.trans ?_ (State.checkDegraded_kept _)

theorem State.fenceCores_kept (s : State) (l : List Nat) : Kept s (State.fenceCores s l) := by
  unfold State.fenceCores
  repeat' first
    | with_reducible exact Kept.refl _
    | with_reducible apply Kept.trans ?_ (State.fenceCore_kept _ _)
    | with_reducible apply Kept.fold (fun _ _ => ?_) ?_

theorem State.raiseCtx_kept (s : State) (e : ErrInfo) (c : Nat) : Kept s (State.raiseCtx s e c) := by
  unfold State.raiseCtx
  extract_lets l1
  try clear_value l1
  repeat' first
    | with_reducible exact Kept.refl _
    | with_reducible apply Kept.trans ?_ (State.mergeRec_kept _ _ _)
    | with_reducible apply Kept.trans ?_ (State.faultCtx_kept _ _ _)
    | with_reducible apply Kept.trans ?_ (State.openRecord_kept _ _ _)
    | split

theorem State.loseQuarry_kept (s : State) (q : Nat) : Kept s (State.loseQuarry s q) := by
  unfold State.loseQuarry
  repeat' first
    | with_reducible exact Kept.refl _
    | with_reducible apply Kept.ite (fun _ => ?_) (fun _ => ?_)
    | with_reducible apply Kept.trans ?_ (State.raiseCtx_kept _ _ _)
    | with_reducible apply Kept.fold (fun _ _ => ?_) ?_

theorem State.fenceUnit_kept (s : State) (dom : Nat) (i : Nat) : Kept s (State.fenceUnit s dom i) := by
  unfold State.fenceUnit
  extract_lets l1 l2
  have h1 : Kept s l1 := by
    unfold l1
    repeat' first
      | with_reducible exact Kept.refl _
      | with_reducible apply Kept.trans ?_ (State.setFence_kept _ _ _)
  try clear_value l1
  have h2 : Kept s l2 := by
    unfold l2
    repeat' first
      | with_reducible assumption
      | with_reducible apply Kept.trans ?_ (State.fenceCores_kept _ _)
  try clear_value l2
  repeat' first
    | with_reducible assumption
    | with_reducible apply Kept.ite (fun _ => ?_) (fun _ => ?_)
    | with_reducible apply Kept.trans ?_ (State.fenceCore_kept _ _)
    | with_reducible apply Kept.trans ?_ (State.loseQuarry_kept _ _)

theorem State.noteFenced_kept (s : State) (dom : Nat) (i : Nat) (code : Nat) : Kept s (State.noteFenced s dom i code) := by
  unfold State.noteFenced
  repeat' first
    | with_reducible exact Kept.refl _
    | with_reducible apply Kept.ite (fun _ => ?_) (fun _ => ?_)
    | with_reducible apply Kept.trans ?_ (State.mergeRec_kept _ _ _)
    | with_reducible apply Kept.trans ?_ (State.setRec_kept _ _ _)
    | split

theorem State.refuseCommands_kept (s : State) : Kept s (State.refuseCommands s) := by
  unfold State.refuseCommands
  extract_lets l1 l2
  have h1 : Kept s l1 := by
    unfold l1
    repeat' first
      | with_reducible exact Kept.refl _
      | with_reducible apply Kept.trans ?_ (State.completeCmd_kept _ _ _ _)
      | with_reducible apply Kept.fold (fun _ _ => ?_) ?_
  try clear_value l1
  try clear_value l2
  repeat' first
    | with_reducible assumption
    | with_reducible apply Kept.mk_ ?_

theorem State.makeFatal_kept (s : State) (code : Nat) : Kept s (State.makeFatal s code) := by
  unfold State.makeFatal
  extract_lets l1 l2 l3 l4 l5 l6 l7
  have h1 : Kept s l1 := by
    unfold l1
    repeat' first
      | with_reducible exact Kept.refl _
      | with_reducible apply Kept.trans ?_ (State.setFld_kept _ _ _ ?_)
      | with_reducible exact Fld.fatal_soft
  try clear_value l1
  try clear_value l2
  have h3 : Kept s l3 := by
    unfold l3
    repeat' first
      | with_reducible assumption
      | with_reducible apply Kept.mk_ ?_
  try clear_value l3
  have h4 : Kept s l4 := by
    unfold l4
    repeat' first
      | with_reducible exact Kept.refl _
      | with_reducible assumption
      | with_reducible apply Kept.ite (fun _ => ?_) (fun _ => ?_)
      | with_reducible apply Kept.trans ?_ (State.faultCtx_kept _ _ _)
      | with_reducible apply Kept.fold (fun _ _ => ?_) ?_
  try clear_value l4
  have h5 : Kept s l5 := by
    unfold l5
    repeat' first
      | with_reducible assumption
      | with_reducible apply Kept.trans ?_ (State.refuseCommands_kept _)
      | with_reducible apply Kept.trans ?_ (State.idleLanes_kept _)
  try clear_value l5
  try clear_value l6
  have h7 : Kept s l7 := by
    unfold l7
    repeat' first
      | with_reducible assumption
      | with_reducible apply Kept.mk_ ?_
  try clear_value l7
  repeat' first
    | with_reducible exact Kept.refl _
    | with_reducible assumption
    | with_reducible apply Kept.ite (fun _ => ?_) (fun _ => ?_)
    | with_reducible apply Kept.trans ?_ (State.postEvent_kept _ _ _ _ _)

theorem State.linkFailed_kept (s : State) (p : Xfer → Bool) : Kept s (State.linkFailed s p) := by
  unfold State.linkFailed
  extract_lets l1 l2 l3 l4 l5
  try clear_value l1
  try clear_value l2
  have h3 : Kept s l3 := by
    unfold l3
    repeat' first
      | with_reducible exact Kept.refl _
      | with_reducible apply Kept.trans ?_ (State.setXfers_kept _ _)
  try clear_value l3
  try clear_value l4
  have h5 : Kept s l5 := by
    unfold l5
    repeat' first
      | with_reducible assumption
      | with_reducible apply Kept.mk_ ?_
  try clear_value l5
  repeat' first
    | with_reducible exact Kept.refl _
    | with_reducible assumption
    | with_reducible apply Kept.ite (fun _ => ?_) (fun _ => ?_)
    | with_reducible apply Kept.trans ?_ (State.raiseCtx_kept _ _ _)
    | with_reducible apply Kept.fold (fun _ _ => ?_) ?_

theorem State.closeEpisode_kept (s : State) (p : Nat) : Kept s (State.closeEpisode s p) := by
  unfold State.closeEpisode
  extract_lets l1 l2
  try clear_value l1
  have h2 : Kept s l2 := by
    unfold l2
    repeat' first
      | with_reducible exact Kept.refl _
      | with_reducible apply Kept.ite (fun _ => ?_) (fun _ => ?_)
      | with_reducible apply Kept.trans ?_ (State.setFld_kept _ _ _ ?_)
      | with_reducible exact Fld.maxEp_soft _
  try clear_value l2
  repeat' first
    | with_reducible exact Kept.refl _
    | with_reducible assumption
    | with_reducible apply Kept.ite (fun _ => ?_) (fun _ => ?_)
    | with_reducible apply Kept.trans ?_ (State.setFld_kept _ _ _ ?_)
    | with_reducible exact Fld.episode_soft _

theorem State.endFillRead_kept (s : State) : Kept s (State.endFillRead s) := by
  unfold State.endFillRead
  extract_lets l1
  try clear_value l1
  repeat' first
    | with_reducible exact Kept.refl _
    | with_reducible apply Kept.ite (fun _ => ?_) (fun _ => ?_)
    | with_reducible apply Kept.trans ?_ (State.setFld_kept _ _ _ ?_)
    | with_reducible exact Fld.buddyFilling_soft

theorem State.leaveBuffer_kept (header : Nat) (t : State) (o : OutPkt) : Kept t (State.leaveBuffer header t o) := by
  unfold State.leaveBuffer
  repeat' first
    | with_reducible exact Kept.refl _
    | with_reducible apply Kept.trans ?_ (State.freePool_kept _ _ _ _)
    | split

theorem State.cutTransit_kept (s : State) (p : Nat) : Kept s (State.cutTransit s p) := by
  unfold State.cutTransit
  extract_lets l1 l2 l3
  have h1 : Kept s l1 := by
    unfold l1
    repeat' first
      | with_reducible exact Kept.refl _
      | with_reducible apply Kept.trans ?_ (State.leaveBuffer_kept _ _ _)
      | with_reducible apply Kept.fold (fun _ _ => ?_) ?_
  try clear_value l1
  try clear_value l2
  try clear_value l3
  repeat' first
    | with_reducible exact Kept.refl _
    | with_reducible assumption
    | with_reducible apply Kept.trans ?_ (State.setPort_kept _ _ _)
    | with_reducible apply Kept.fold (fun _ _ => ?_) ?_

theorem State.failPort_kept (s : State) (p : Nat) : Kept s (State.failPort s p) := by
  unfold State.failPort
  extract_lets l1 l2 l3 l4
  have h1 : Kept s l1 := by
    unfold l1
    repeat' first
      | with_reducible exact Kept.refl _
      | with_reducible apply Kept.trans ?_ (State.cutTransit_kept _ _)
      | with_reducible apply Kept.trans ?_ (State.setFld_kept _ _ _ ?_)
      | with_reducible apply Kept.trans ?_ (State.closeEpisode_kept _ _)
      | with_reducible exact Fld.portState_soft _
  try clear_value l1
  have h2 : Kept s l2 := by
    unfold l2
    repeat' first
      | with_reducible assumption
      | with_reducible apply Kept.trans ?_ (State.setPort_kept _ _ _)
  try clear_value l2
  try clear_value l3
  have h4 : Kept s l4 := by
    unfold l4
    repeat' first
      | with_reducible assumption
      | with_reducible apply Kept.mk_ ?_
  try clear_value l4
  repeat' first
    | with_reducible exact Kept.refl _
    | with_reducible assumption
    | with_reducible apply Kept.ite (fun _ => ?_) (fun _ => ?_)
    | with_reducible apply Kept.trans ?_ (State.endFillRead_kept _)
    | with_reducible apply Kept.trans ?_ (State.buddyPortLost_kept _ _)
    | with_reducible apply Kept.trans ?_ (State.linkFailed_kept _ _)

theorem State.strike_kept (s : State) (e : ErrInfo) : Kept s (State.strike s e) := by
  unfold State.strike
  repeat' first
    | with_reducible exact Kept.refl _
    | with_reducible apply Kept.ite (fun _ => ?_) (fun _ => ?_)
    | with_reducible apply Kept.trans ?_ (State.failSequence_kept _ _ _ _)
    | with_reducible apply Kept.trans ?_ (State.faultCtx_kept _ _ _)
    | with_reducible apply Kept.trans ?_ (State.failPort_kept _ _)
    | with_reducible apply Kept.trans ?_ (State.makeFatal_kept _ _)
    | with_reducible apply Kept.trans ?_ (State.noteFenced_kept _ _ _ _)
    | with_reducible apply Kept.trans ?_ (State.fenceUnit_kept _ _ _)

theorem State.raise_kept (s : State) (e : ErrInfo) : Kept s (State.raise s e) := by
  unfold State.raise
  repeat' first
    | with_reducible exact Kept.refl _
    | with_reducible apply Kept.trans ?_ (State.mergeRec_kept _ _ _)
    | with_reducible apply Kept.trans ?_ (State.strike_kept _ _)
    | with_reducible apply Kept.trans ?_ (State.openRecord_kept _ _ _)
    | split

theorem State.raiseInHandling_kept (s : State) (k : Nat) (e : ErrInfo) : Kept s (State.raiseInHandling s k e) := by
  unfold State.raiseInHandling
  repeat' first
    | with_reducible exact Kept.refl _
    | with_reducible apply Kept.trans ?_ (State.strike_kept _ _)
    | with_reducible apply Kept.trans ?_ (State.openRecord_kept _ _ _)
    | split

theorem State.ctxError_kept (s : State) (c : Nat) (core : Nat) (code : Nat) (desc : Nat) : Kept s (State.ctxError s c core code desc) := by
  unfold State.ctxError
  repeat' first
    | with_reducible exact Kept.refl _
    | with_reducible apply Kept.trans ?_ (State.raiseCtx_kept _ _ _)

end Sys2Proof.Machine
end

