-- ==== Sys2Proof/Laws/KeptTranslate.lean ====
section
/-! SUPPORT. Every operation of Machine/Translate.lean keeps what `Kept` says. -/

namespace Sys2Proof.Machine

theorem State.setPhysByte_kept (s : State) (pa : Nat) (b : Byte) : Kept s (State.setPhysByte s pa b) := by
  unfold State.setPhysByte
  extract_lets l1
  repeat' first
    | with_reducible exact Kept.refl _
    | refine Kept.mem_ ?_ (fun h => Memory.wf_iff.2 { Memory.wf_iff.1 h with phys := SMap.wf_put (Memory.wf_iff.1 h).phys })

theorem State.putPhys_kept (s : State) (pa : Nat) (l : List Byte) : Kept s (State.putPhys s pa l) := by
  induction l generalizing s pa with
  | nil => exact Kept.refl s
  | cons b r ih => exact (State.setPhysByte_kept s pa b).trans (ih _ _)

theorem State.setLsByte_kept (s : State) (core : Nat) (off : Nat) (b : Byte) : Kept s (State.setLsByte s core off b) := by
  unfold State.setLsByte
  extract_lets l1
  repeat' first
    | with_reducible exact Kept.refl _
    | refine Kept.mem_ ?_ (fun h => Memory.wf_iff.2 { Memory.wf_iff.1 h with ls := SMap.wf_put (Memory.wf_iff.1 h).ls })

theorem State.putLs_kept (s : State) (core off : Nat) (l : List Byte) : Kept s (State.putLs s core off l) := by
  induction l generalizing s off with
  | nil => exact Kept.refl s
  | cons b r ih => exact (State.setLsByte_kept s core off b).trans (ih _ _)

theorem State.setAcc_kept (s : State) (core : Nat) (slot : Nat) (i : Nat) (j : Nat) (v : BitVec 40) : Kept s (State.setAcc s core slot i j v) := by
  unfold State.setAcc
  extract_lets l1
  repeat' first
    | with_reducible exact Kept.refl _
    | refine Kept.mem_ ?_ (fun h => Memory.wf_iff.2 { Memory.wf_iff.1 h with acc := SMap.wf_put (Memory.wf_iff.1 h).acc })

theorem State.setAccPoison_kept (s : State) (core : Nat) (slot : Nat) (i : Nat) (p : Bool) : Kept s (State.setAccPoison s core slot i p) := by
  unfold State.setAccPoison
  extract_lets l1
  repeat' first
    | with_reducible exact Kept.refl _
    | refine Kept.mem_ ?_ (fun h => Memory.wf_iff.2 { Memory.wf_iff.1 h with accPoison := SMap.wf_put (Memory.wf_iff.1 h).accPoison })

theorem State.setPoison_kept (s : State) (pa : Nat) (p : Bool) : Kept s (State.setPoison s pa p) := by
  unfold State.setPoison
  extract_lets l1
  repeat' first
    | with_reducible exact Kept.refl _
    | refine Kept.mem_ ?_ (fun h => Memory.wf_iff.2 { Memory.wf_iff.1 h with poison := SMap.wf_put (Memory.wf_iff.1 h).poison })

theorem State.clearLatent_kept (s : State) (pa : Nat) (p : Nat → Bool) : Kept s (State.clearLatent s pa p) := by
  unfold State.clearLatent
  extract_lets l1
  repeat' first
    | with_reducible exact Kept.refl _
    | refine Kept.mem_ ?_ (fun h => Memory.wf_iff.2 { Memory.wf_iff.1 h with latent := SMap.wf_foldl_put _ _ _ (Memory.wf_iff.1 h).latent })

theorem State.setFossil_kept (s : State) (pa : Nat) (v : BitVec 2) : Kept s (State.setFossil s pa v) := by
  unfold State.setFossil
  extract_lets l1
  repeat' first
    | with_reducible exact Kept.refl _
    | refine Kept.mem_ ?_ (fun h => Memory.wf_iff.2 { Memory.wf_iff.1 h with fossil := SMap.wf_put (Memory.wf_iff.1 h).fossil })

theorem State.readAs_kept (s : State) (pa : Nat) (i : Nat) (e : BitVec 72) : Kept s (State.readAs s pa i e) := by
  unfold State.readAs
  extract_lets l1 l2
  try clear_value l1
  have h2 : Kept s l2 := by
    unfold l2
    repeat' first
      | with_reducible exact Kept.refl _
      | with_reducible apply Kept.trans ?_ (State.putPhys_kept _ _ _)
  try clear_value l2
  repeat' first
    | with_reducible assumption
    | with_reducible apply Kept.ite (fun _ => ?_) (fun _ => ?_)
    | with_reducible apply Kept.trans ?_ (State.setFossil_kept _ _ _)
    | split

theorem State.retire_kept (s : State) (pa : Nat) : Kept s (State.retire s pa) := by
  unfold State.retire
  extract_lets l1 l2 l3 l4
  have h3 : Kept s l3 := by
    unfold l3
    repeat' first
      | with_reducible exact Kept.refl _
      | with_reducible apply Kept.trans ?_ (State.report_kept _ _)
  repeat' first
    | with_reducible exact Kept.refl _
    | with_reducible assumption
    | with_reducible apply Kept.ite (fun _ => ?_) (fun _ => ?_)
    | refine Kept.mem_ ?_ (fun h => h)

theorem State.countChannel_kept (s : State) (ch : Nat) : Kept s (State.countChannel s ch) := by
  refine (Kept.refl s).memory rfl rfl rfl rfl rfl fun h => Memory.wf_iff.2 { Memory.wf_iff.1 h with bursting := ?_ }
  show SMap.wf _ (if _ then _ else _) = true
  split
  · exact SMap.wf_put (Memory.wf_iff.1 h).bursting
  · exact (Memory.wf_iff.1 h).bursting

theorem State.countCorrected_kept (s : State) (pa : Nat) : Kept s (State.countCorrected s pa) := by
  unfold State.countCorrected
  extract_lets l1 l2 l3 l4 l5
  have h4 : Kept s l4 := by
    unfold l4
    repeat' first
      | with_reducible exact Kept.refl _
      | refine Kept.mem_ ?_ (fun h => Memory.wf_iff.2 { Memory.wf_iff.1 h with frameCe := SMap.wf_put (Memory.wf_iff.1 h).frameCe })
  have h5 : Kept s l5 := by
    unfold l5
    repeat' first
      | with_reducible assumption
      | with_reducible apply Kept.trans ?_ (State.countChannel_kept _ _)
      | split
  repeat' first
    | with_reducible assumption
    | with_reducible apply Kept.ite (fun _ => ?_) (fun _ => ?_)
    | with_reducible apply Kept.trans ?_ (State.retire_kept _ _)

theorem State.foundUe_kept (s : State) (pa : Nat) : Kept s (State.foundUe s pa) := by
  unfold State.foundUe
  extract_lets l1
  try clear_value l1
  repeat' first
    | with_reducible exact Kept.refl _
    | with_reducible apply Kept.trans ?_ (State.retire_kept _ _)
    | with_reducible apply Kept.trans ?_ (State.report_kept _ _)
    | with_reducible apply Kept.trans ?_ (State.setPoison_kept _ _ _)

theorem State.readWord_kept (s : State) (pa : Nat) (i : Nat) : Kept s (State.readWord s pa i) := by
  unfold State.readWord
  extract_lets l1 l2 l3 l4 l5
  try clear_value l1
  have h2 : Kept s l2 := by
    unfold l2
    repeat' first
      | with_reducible exact Kept.refl _
      | with_reducible apply Kept.trans ?_ (State.clearLatent_kept _ _ _)
  try clear_value l2
  try clear_value l3
  have h4 : Kept s l4.2 := by
    unfold l4
    repeat' first
      | with_reducible assumption
      | with_reducible apply Kept.trans ?_ (Kept.fresh _ _)
  try clear_value l4
  have h5 : Kept s l5.2 := by
    unfold l5
    repeat' first
      | with_reducible assumption
      | with_reducible apply Kept.trans ?_ (State.freshBytes_kept _ _)
  try clear_value l5
  repeat' first
    | with_reducible exact Kept.refl _
    | with_reducible assumption
    | with_reducible apply Kept.ite (fun _ => ?_) (fun _ => ?_)
    | with_reducible apply Kept.trans ?_ (State.countCorrected_kept _ _)
    | with_reducible apply Kept.trans ?_ (State.foundUe_kept _ _)
    | with_reducible apply Kept.trans ?_ (State.readAs_kept _ _ _ _)
    | with_reducible apply Kept.trans ?_ (State.putPhys_kept _ _ _)

theorem State.readAll_kept (s : State) (pa : Nat) (l : List (BitVec 72)) : Kept s (State.readAll s pa l) := by
  unfold State.readAll
  repeat' first
    | with_reducible exact Kept.refl _
    | with_reducible apply Kept.trans ?_ (State.readAs_kept _ _ _ _)
    | with_reducible apply Kept.fold (fun _ _ => ?_) ?_

theorem State.readStack_kept (s : State) (pa : Nat) : Kept s (State.readStack s pa) := by
  unfold State.readStack
  extract_lets l1 l2 l3 l4 l5 l6
  try clear_value l1
  try clear_value l2
  have h3 : Kept s l3 := by
    unfold l3
    repeat' first
      | with_reducible exact Kept.refl _
      | with_reducible apply Kept.trans ?_ (State.clearLatent_kept _ _ _)
  try clear_value l3
  have h4 : Kept s l4.2 := by
    unfold l4
    repeat' first
      | with_reducible assumption
      | with_reducible apply Kept.trans ?_ (Kept.fresh _ _)
  try clear_value l4
  have h5 : Kept s l5.2 := by
    unfold l5
    repeat' first
      | with_reducible assumption
      | with_reducible apply Kept.trans ?_ (State.freshBytes_kept _ _)
  try clear_value l5
  have h6 : Kept s l6.2 := by
    unfold l6
    repeat' first
      | with_reducible assumption
      | with_reducible apply Kept.trans ?_ (Kept.fresh _ _)
  try clear_value l6
  repeat' first
    | with_reducible exact Kept.refl _
    | with_reducible assumption
    | with_reducible apply Kept.ite (fun _ => ?_) (fun _ => ?_)
    | with_reducible apply Kept.trans ?_ (State.countCorrected_kept _ _)
    | with_reducible apply Kept.trans ?_ (State.foundUe_kept _ _)
    | with_reducible apply Kept.trans ?_ (State.readAll_kept _ _ _)
    | with_reducible apply Kept.trans ?_ (State.setFossil_kept _ _ _)
    | with_reducible apply Kept.trans ?_ (State.setPoison_kept _ _ _)
    | with_reducible apply Kept.trans ?_ (State.putPhys_kept _ _ _)

theorem State.readCheck_kept (s : State) (pa : Nat) (p : Nat → Bool) : Kept s (State.readCheck s pa p) := by
  unfold State.readCheck
  repeat' first
    | with_reducible exact Kept.refl _
    | with_reducible apply Kept.trans ?_ (State.readWord_kept _ _ _)
    | with_reducible apply Kept.trans ?_ (State.readStack_kept _ _)
    | with_reducible apply Kept.fold (fun _ _ => ?_) ?_
    | split

theorem State.readGran_kept (s : State) (pa : Nat) : Kept s (State.readGran s pa).2 := by
  unfold State.readGran
  extract_lets l1 l2
  try clear_value l1
  have h2 : Kept s l2 := by
    unfold l2
    repeat' first
      | with_reducible exact Kept.refl _
      | with_reducible apply Kept.trans ?_ (State.readCheck_kept _ _ _)
  try clear_value l2
  repeat' first
    | with_reducible exact Kept.refl _
    | with_reducible assumption
    | split

theorem State.writeGran_kept (s : State) (pa : Nat) (off : Nat) (b : List Byte) (poisoned : Bool) : Kept s (State.writeGran s pa off b poisoned) := by
  unfold State.writeGran
  extract_lets l1 l2 l3
  try clear_value l1
  try clear_value l2
  try clear_value l3
  repeat' first
    | with_reducible exact Kept.refl _
    | with_reducible apply Kept.ite (fun _ => ?_) (fun _ => ?_)
    | with_reducible apply Kept.trans ?_ (State.setPoison_kept _ _ _)
    | with_reducible apply Kept.trans ?_ (State.putPhys_kept _ _ _)
    | with_reducible apply Kept.trans ?_ (State.clearLatent_kept _ _ _)
    | with_reducible apply Kept.trans ?_ (State.readCheck_kept _ _ _)
    | split

theorem State.walkRead_kept (s : State) (pa : Nat) : Kept s (State.walkRead s pa).2 := by
  unfold State.walkRead
  extract_lets l1
  have h1 : Kept s l1.2 := by
    unfold l1
    repeat' first
      | with_reducible exact Kept.refl _
      | with_reducible apply Kept.trans ?_ (State.readGran_kept _ _)
  try clear_value l1
  repeat' first
    | with_reducible assumption

theorem State.walkEntry_kept (s : State) (c : Nat) (va : Nat) (t : Nat) (l : Level) : Kept s (State.walkEntry s c va t l).2 := by
  unfold State.walkEntry
  extract_lets l1 l2 l3 l4
  have h1 : Kept s l1.2 := by
    unfold l1
    repeat' first
      | with_reducible exact Kept.refl _
      | with_reducible apply Kept.trans ?_ (State.walkRead_kept _ _)
  try clear_value l1
  have h2 : Kept s l2 := by
    unfold l2
    repeat' first
      | with_reducible assumption
  try clear_value l2
  try clear_value l3
  try clear_value l4
  repeat' first
    | with_reducible exact Kept.refl _
    | with_reducible assumption
    | split

theorem State.walkFill_kept (s : State) (unit : Option Nat) (l : List TlbEntry) : Kept s (State.walkFill s unit l) := by
  unfold State.walkFill
  extract_lets l1 l2 l3
  repeat' first
    | with_reducible exact Kept.refl _
    | split
    | refine Kept.mem_ ?_ (fun h => h)

theorem State.walkFrom_kept (s : State) (unit : Option Nat) (c va t : Nat) (l : List Level) (acc : List TlbEntry) :
    Kept s (State.walkFrom s unit c va t l acc).2 := by
  induction l generalizing s t acc with
  | nil => exact Kept.refl s
  | cons x r ih =>
    unfold State.walkFrom
    extract_lets size ptr held m fresh f m' z
    have hm : Kept s m.2 := State.walkEntry_kept ..
    have hf : Kept s f.2 := Kept.fresh ..
    have hm' : Kept s m'.2 := hf.trans (State.walkEntry_kept ..)
    have hz : Kept s z.2 := by
      unfold z
      split
      · exact hm'
      · exact hm
    split
    · exact hf.trans (ih _ _ _)
    · split
      · exact hz
      · exact hz.trans (State.walkFill_kept ..)
      · exact hz.trans (ih _ _ _)

theorem State.walk_kept (s : State) (unit : Option Nat) (c : Nat) (va : Nat) : Kept s (State.walk s unit c va).2 := by
  unfold State.walk
  repeat' first
    | with_reducible exact Kept.refl _
    | with_reducible apply Kept.trans ?_ (State.walkFrom_kept _ _ _ _ _ _ _)

theorem State.tlbFill_kept (s : State) (core : Nat) (c : Nat) (l : Leaf) : Kept s (State.tlbFill s core c l) := by
  unfold State.tlbFill
  extract_lets l1 l2 l3 l4
  repeat' first
    | with_reducible exact Kept.refl _
    | refine Kept.mem_ ?_ (fun h => h)

theorem State.leafFor_kept (s : State) (core : Nat) (c : Nat) (va : Nat) : Kept s (State.leafFor s core c va).2 := by
  unfold State.leafFor
  extract_lets l1 l2
  have h1 : ∀ x, Kept x (l1 x).2 := by
    intro x
    unfold l1
    repeat' first
      | with_reducible exact Kept.refl _
      | with_reducible apply Kept.trans ?_ (State.tlbFill_kept _ _ _ _)
      | apply Kept.trans ?_ (Kept.of_snd (State.walk_kept _ _ _ _) (by with_reducible assumption))
      | split
  have h2 : Kept s l2.2 := by
    unfold l2
    repeat' first
      | with_reducible exact Kept.refl _
      | with_reducible apply Kept.trans ?_ (Kept.fresh _ _)
  try clear_value l2
  repeat' first
    | with_reducible apply Kept.trans ?_ (h1 _)
    | with_reducible exact Kept.refl _
    | with_reducible assumption
    | split

theorem translate_kept (core : Nat) (c : Nat) (va : Nat) (write : Bool) : KeptE (translate core c va write) := by
  unfold translate
  extract_lets l1 l2
  try clear_value l1
  have h2 : ∀ x0, KeptE (l2 x0) := by
    intro _
    unfold l2
    repeat' first
      | with_reducible exact Kept.refl _
      | with_reducible apply Kept.trans ?_ (State.leafFor_kept _ _ _ _)
      | with_reducible exact KeptE.pure _
      | with_reducible exact KeptE.stop _
      | with_reducible exact KeptE.check _ _
      | with_reducible apply KeptE.bind ?_ (fun _ => ?_)
      | with_reducible apply KeptE.ofState (fun _ => ?_)
      | split
  repeat' first
    | with_reducible exact Kept.refl _
    | with_reducible apply Kept.trans ?_ (State.leafFor_kept _ _ _ _)
    | with_reducible exact KeptE.pure _
    | with_reducible exact KeptE.stop _
    | with_reducible exact KeptE.ask _
    | with_reducible exact KeptE.check _ _
    | with_reducible apply KeptE.bind ?_ (fun _ => ?_)
    | with_reducible apply KeptE.ofState (fun _ => ?_)
    | split

theorem State.localFound_kept (s : State) (key : Nat) (core : Nat) (mark : State → State) (h_mark : ∀ x0, Kept x0 (mark x0)) : Kept s (State.localFound s key core mark) := by
  unfold State.localFound
  extract_lets l1 l2
  have h2 : Kept s l2 := by
    unfold l2
    repeat' first
      | with_reducible exact Kept.refl _
      | refine Kept.mem_ ?_ (fun h => Memory.wf_iff.2 { Memory.wf_iff.1 h with localLatent := SMap.wf_put (Memory.wf_iff.1 h).localLatent })
  repeat' first
    | with_reducible exact Kept.refl _
    | with_reducible assumption
    | with_reducible apply Kept.ite (fun _ => ?_) (fun _ => ?_)
    | with_reducible apply Kept.trans ?_ (State.report_kept _ _)
    | with_reducible apply Kept.trans ?_ (h_mark _)

theorem State.setLsPoison_kept (s : State) (core : Nat) (off : Nat) (p : Bool) : Kept s (State.setLsPoison s core off p) := by
  unfold State.setLsPoison
  extract_lets l1
  repeat' first
    | with_reducible exact Kept.refl _
    | refine Kept.mem_ ?_ (fun h => Memory.wf_iff.2 { Memory.wf_iff.1 h with lsPoison := SMap.wf_put (Memory.wf_iff.1 h).lsPoison })

theorem State.readLsGran_kept (s : State) (core : Nat) (off : Nat) : Kept s (State.readLsGran s core off).2 := by
  unfold State.readLsGran
  extract_lets l1
  have h1 : Kept s l1 := by
    unfold l1
    repeat' first
      | with_reducible exact Kept.refl _
      | with_reducible apply Kept.trans ?_ (State.localFound_kept (h_mark := fun _ => ?_) _ _ _ _)
      | with_reducible apply Kept.trans ?_ (State.setLsPoison_kept _ _ _ _)
  try clear_value l1
  repeat' first
    | with_reducible assumption

theorem State.writeLsGran_kept (s : State) (core : Nat) (off : Nat) (b : List Byte) (poisoned : Bool) : Kept s (State.writeLsGran s core off b poisoned) := by
  unfold State.writeLsGran
  extract_lets l1 l2 l3
  have h1 : Kept s l1 := by
    unfold l1
    repeat' first
      | with_reducible exact Kept.refl _
      | with_reducible apply Kept.trans ?_ (State.putLs_kept _ _ _ _)
  have h3 : Kept s l3 := by
    unfold l3
    repeat' first
      | with_reducible assumption
      | refine Kept.mem_ ?_ (fun h => Memory.wf_iff.2 { Memory.wf_iff.1 h with localLatent := SMap.wf_put (Memory.wf_iff.1 h).localLatent })
  repeat' first
    | with_reducible assumption
    | with_reducible apply Kept.ite (fun _ => ?_) (fun _ => ?_)
    | with_reducible apply Kept.trans ?_ (State.setLsPoison_kept _ _ _ _)

theorem tierCheck_kept (tier : Option Nat) (pa : Nat) : KeptE (tierCheck tier pa) := by
  unfold tierCheck
  repeat' first
    | with_reducible exact KeptE.pure _
    | with_reducible exact KeptE.stop _
    | with_reducible exact KeptE.ask _
    | with_reducible apply KeptE.bind ?_ (fun _ => ?_)
    | split

theorem State.noteAccess_kept (s : State) (kind : Nat) (a : Nat) (b : List Byte) : Kept s (State.noteAccess s kind a b) := by
  unfold State.noteAccess
  extract_lets l1
  try clear_value l1
  repeat' first
    | with_reducible exact Kept.refl _
    | split
    | with_reducible apply Kept.mk_ ?_

theorem livePiece_kept (core : Nat) (c : Nat) (a : Addr) (k : Nat) (tier : Option Nat) : KeptE (livePiece core c a k tier) := by
  unfold livePiece
  repeat' first
    | with_reducible exact Kept.refl _
    | with_reducible apply Kept.trans ?_ (State.readGran_kept _ _)
    | with_reducible apply Kept.trans ?_ (State.noteAccess_kept _ _ _ _)
    | with_reducible apply Kept.trans ?_ (State.readLsGran_kept _ _ _)
    | with_reducible exact KeptE.pure _
    | with_reducible exact KeptE.ask _
    | with_reducible apply KeptE.bind ?_ (fun _ => ?_)
    | with_reducible apply KeptE.ite (fun _ => ?_) (fun _ => ?_)
    | with_reducible apply KeptE.doState (fun _ => ?_)
    | with_reducible apply KeptE.ofState (fun _ => ?_)
    | with_reducible exact translate_kept _ _ _ _
    | with_reducible exact tierCheck_kept _ _

theorem State.feedBytes_kept (s : State) (l : List EvidRegion) (space : Bool) (a : Nat) (k : Nat) : Kept s (State.feedBytes s l space a k).2 := by
  unfold State.feedBytes
  extract_lets l1
  have h1 : Kept s l1.2 := by
    unfold l1
    repeat' first
      | with_reducible exact Kept.refl _
      | with_reducible apply Kept.trans ?_ (State.freshBytes_kept _ _)
  try clear_value l1
  repeat' first
    | with_reducible assumption

theorem readPiece_kept (core : Nat) (c : Nat) (a : Addr) (k : Nat) (tier : Option Nat) : KeptE (readPiece core c a k tier) := by
  unfold readPiece
  repeat' first
    | with_reducible exact Kept.refl _
    | with_reducible apply Kept.trans ?_ (State.feedBytes_kept _ _ _ _ _)
    | with_reducible exact KeptE.pure _
    | with_reducible exact KeptE.ask _
    | with_reducible apply KeptE.bind ?_ (fun _ => ?_)
    | with_reducible apply KeptE.ofState (fun _ => ?_)
    | with_reducible exact livePiece_kept _ _ _ _ _
    | split

theorem readTell_kept (core : Nat) (c : Nat) (a : Addr) (n : Nat) (tier : optParam (Option Nat) none) : KeptE (readTell core c a n tier) := by
  unfold readTell
  repeat' first
    | with_reducible exact KeptE.pure _
    | with_reducible apply KeptE.bind ?_ (fun _ => ?_)
    | with_reducible apply KeptE.collect (fun _ => ?_)
    | with_reducible exact readPiece_kept _ _ _ _ _

theorem readCopy_kept (core : Nat) (c : Nat) (a : Addr) (n : Nat) (tier : optParam (Option Nat) none) : KeptE (readCopy core c a n tier) := by
  unfold readCopy
  repeat' first
    | with_reducible exact KeptE.pure _
    | with_reducible apply KeptE.bind ?_ (fun _ => ?_)
    | with_reducible apply KeptE.collect (fun _ => ?_)
    | with_reducible exact readPiece_kept _ _ _ _ _

theorem readUse_kept (core : Nat) (c : Nat) (a : Addr) (n : Nat) (tier : optParam (Option Nat) none) : KeptE (readUse core c a n tier) := by
  unfold readUse
  repeat' first
    | with_reducible exact KeptE.pure _
    | with_reducible exact KeptE.check _ _
    | with_reducible apply KeptE.bind ?_ (fun _ => ?_)
    | with_reducible apply KeptE.collect (fun _ => ?_)
    | with_reducible exact readPiece_kept _ _ _ _ _

theorem storePhys_kept (pa : Nat) (b : List Byte) (poisoned : Bool) : KeptE (storePhys pa b poisoned) := by
  unfold storePhys
  repeat' first
    | with_reducible exact Kept.refl _
    | with_reducible apply Kept.trans ?_ (State.writeGran_kept _ _ _ _ _)
    | with_reducible exact KeptE.ask _
    | with_reducible exact KeptE.check _ _
    | with_reducible apply KeptE.bind ?_ (fun _ => ?_)
    | with_reducible apply KeptE.doState (fun _ => ?_)

theorem livePut_kept (core : Nat) (c : Nat) (a : Addr) (part : List Byte) (poisoned : Bool) (tier : Option Nat) : KeptE (livePut core c a part poisoned tier) := by
  unfold livePut
  repeat' first
    | with_reducible exact Kept.refl _
    | with_reducible apply Kept.trans ?_ (State.writeLsGran_kept _ _ _ _ _)
    | with_reducible exact KeptE.ask _
    | with_reducible apply KeptE.bind ?_ (fun _ => ?_)
    | with_reducible apply KeptE.ite (fun _ => ?_) (fun _ => ?_)
    | with_reducible apply KeptE.doState (fun _ => ?_)
    | with_reducible exact translate_kept _ _ _ _
    | with_reducible exact tierCheck_kept _ _
    | with_reducible exact storePhys_kept _ _ _

theorem State.feedPut_kept (s : State) (a : Addr) (b : List Byte) : Kept s (State.feedPut s a b) := by
  unfold State.feedPut
  extract_lets l1
  try clear_value l1
  repeat' first
    | with_reducible exact Kept.refl _
    | with_reducible apply Kept.mk_ ?_

theorem writeMem_kept (core : Nat) (c : Nat) (a : Addr) (b : List Byte) (poisoned : Bool) (tier : optParam (Option Nat) none) : KeptE (writeMem core c a b poisoned tier) := by
  unfold writeMem
  repeat' first
    | with_reducible exact Kept.refl _
    | with_reducible apply Kept.trans ?_ (State.noteAccess_kept _ _ _ _)
    | with_reducible apply Kept.trans ?_ (State.feedPut_kept _ _ _)
    | with_reducible exact KeptE.ask _
    | with_reducible apply KeptE.bind ?_ (fun _ => ?_)
    | with_reducible apply KeptE.ite (fun _ => ?_) (fun _ => ?_)
    | with_reducible apply KeptE.each (fun _ => ?_)
    | with_reducible apply KeptE.doState (fun _ => ?_)
    | with_reducible exact livePut_kept _ _ _ _ _ _

theorem settlePoison_kept (core : Nat) (c : Nat) (a : Addr) (p : Bool) : KeptE (settlePoison core c a p) := by
  unfold settlePoison
  repeat' first
    | with_reducible exact Kept.refl _
    | with_reducible apply Kept.ite (fun _ => ?_) (fun _ => ?_)
    | with_reducible apply Kept.trans ?_ (State.setPoison_kept _ _ _)
    | with_reducible apply Kept.trans ?_ (State.setLsPoison_kept _ _ _ _)
    | with_reducible exact KeptE.pure _
    | with_reducible exact KeptE.ask _
    | with_reducible apply KeptE.bind ?_ (fun _ => ?_)
    | with_reducible apply KeptE.ite (fun _ => ?_) (fun _ => ?_)
    | with_reducible apply KeptE.doState (fun _ => ?_)
    | with_reducible exact translate_kept _ _ _ _

theorem probeTier_kept (core : Nat) (c : Nat) (a : Addr) (n : Nat) (code : Nat) : KeptE (probeTier core c a n code) := by
  unfold probeTier
  repeat' first
    | with_reducible exact Kept.refl _
    | with_reducible exact KeptE.pure _
    | with_reducible apply KeptE.ite (fun _ => ?_) (fun _ => ?_)
    | with_reducible apply KeptE.each (fun _ => ?_)
    | split
    | refine KeptE.intro (fun _ => ?_)

end Sys2Proof.Machine
end

