-- ==== Sys2Proof/Laws/KeptApprox.lean ====
section
/-! SUPPORT. Every operation of Machine/Approx.lean keeps what `Kept` says. -/

namespace Sys2Proof.Machine

theorem within32_kept (v : Num) (w : Num) : KeptE (within32 v w) := by
  unfold within32
  extract_lets l1
  try clear_value l1
  repeat' first
    | with_reducible exact KeptE.pure _
    | with_reducible exact KeptE.free _
    | with_reducible apply KeptE.bind ?_ (fun _ => ?_)
    | with_reducible apply KeptE.ite (fun _ => ?_) (fun _ => ?_)

theorem within32Ulp_kept (k : Nat) (v : Num) : KeptE (within32Ulp k v) := by
  unfold within32Ulp
  repeat' first
    | with_reducible exact within32_kept _ _

theorem exp2Op_kept (a : Num) : KeptE (exp2Op a) := by
  unfold exp2Op
  repeat' first
    | with_reducible exact KeptE.pure _
    | with_reducible apply KeptE.ite (fun _ => ?_) (fun _ => ?_)
    | with_reducible exact within32Ulp_kept _ _
    | split

theorem log2Op_kept (a : Num) : KeptE (log2Op a) := by
  unfold log2Op
  extract_lets l1
  try clear_value l1
  repeat' first
    | with_reducible exact KeptE.pure _
    | with_reducible apply KeptE.ite (fun _ => ?_) (fun _ => ?_)
    | with_reducible exact within32_kept _ _
    | split

theorem rcpOp_kept (a : Num) : KeptE (rcpOp a) := by
  unfold rcpOp
  repeat' first
    | with_reducible exact KeptE.pure _
    | with_reducible apply KeptE.ite (fun _ => ?_) (fun _ => ?_)
    | with_reducible exact within32Ulp_kept _ _
    | split

theorem rsqrtOp_kept (a : Num) : KeptE (rsqrtOp a) := by
  unfold rsqrtOp
  repeat' first
    | with_reducible exact KeptE.pure _
    | with_reducible apply KeptE.ite (fun _ => ?_) (fun _ => ?_)
    | with_reducible exact within32Ulp_kept _ _
    | split

theorem expOp_kept (a : Num) : KeptE (expOp a) := by
  unfold expOp
  repeat' first
    | with_reducible exact KeptE.pure _
    | with_reducible apply KeptE.ite (fun _ => ?_) (fun _ => ?_)
    | with_reducible exact within32Ulp_kept _ _
    | split

theorem lnOp_kept (a : Num) : KeptE (lnOp a) := by
  unfold lnOp
  repeat' first
    | with_reducible exact KeptE.pure _
    | with_reducible apply KeptE.ite (fun _ => ?_) (fun _ => ?_)
    | with_reducible exact within32Ulp_kept _ _
    | split

theorem activate_kept (act : Nat) (x : Num) : KeptE (activate act x) := by
  unfold activate
  repeat' first
    | with_reducible exact KeptE.pure _
    | with_reducible apply KeptE.ite (fun _ => ?_) (fun _ => ?_)
    | with_reducible exact within32_kept _ _
    | with_reducible exact within32Ulp_kept _ _
    | split

end Sys2Proof.Machine
end

