-- ==== Sys2Proof/Laws/KeptFlags.lean ====
section
/-! SUPPORT. Every operation of Machine/Flags.lean keeps what `Kept` says. -/

namespace Sys2Proof.Machine

theorem State.setTele_kept (s : State) (c : Nat) (i : Nat) (t : Tele) : Kept s (State.setTele s c i t) := by
  unfold State.setTele
  extract_lets l1
  try clear_value l1
  repeat' first
    | with_reducible exact Kept.refl _
    | with_reducible apply Kept.mk_ ?_

theorem State.absorb_kept (s : State) (c : Nat) (core : Nat) (stream : Nat) (tag : Nat) (t : Tally) (isTile : Bool) (long : Bool) : Kept s (State.absorb s c core stream tag t isTile long) := by
  unfold State.absorb
  extract_lets l1 l2 l3 l4 l5 l6
  try clear_value l1
  have h2 : Kept s l2 := by
    unfold l2
    repeat' first
      | with_reducible exact Kept.refl _
      | with_reducible apply Kept.trans ?_ (State.setStream_kept _ _ _ _)
  try clear_value l2
  try clear_value l3
  have h4 : Kept s l4 := by
    unfold l4
    repeat' first
      | with_reducible assumption
      | with_reducible apply Kept.trans ?_ (State.setCtx_kept _ _ _)
  try clear_value l4
  try clear_value l5
  try clear_value l6
  repeat' first
    | with_reducible assumption
    | with_reducible apply Kept.trans ?_ (State.setTele_kept _ _ _ _)

theorem State.absorbStep_kept (s : State) (c : Nat) (f : BitVec 6) : Kept s (State.absorbStep s c f) := by
  unfold State.absorbStep
  extract_lets l1
  try clear_value l1
  repeat' first
    | with_reducible exact Kept.refl _
    | with_reducible apply Kept.trans ?_ (State.setCtx_kept _ _ _)

end Sys2Proof.Machine
end

