-- ==== Sys2Proof/Laws/KeptEvidence.lean ====
section
/-! SUPPORT. Every operation of Machine/Evidence.lean keeps what `Kept` says. -/

namespace Sys2Proof.Machine

theorem State.setEvid_kept (s : State) (i : Nat) (v : Evid) : Kept s (State.setEvid s i v) := by
  unfold State.setEvid
  extract_lets l1
  try clear_value l1
  repeat' first
    | with_reducible exact Kept.refl _
    | with_reducible apply Kept.mk_ ?_

theorem State.placeBytes_kept (s : State) (t : Tile) (p : EvidPlace) : Kept s (State.placeBytes s t p).2 := by
  unfold State.placeBytes
  split
  · exact Kept.refl s
  · have h := readCopy_kept t.core t.ctx ⟨p.space, p.lo⟩ (p.hi - p.lo) none s
    split
    · rename_i e; rw [e] at h; exact h
    · rename_i e; rw [e] at h; exact h.trans (State.freshBytes_kept ..)

theorem State.evidRegions_kept (s : State) (t : Tile) (ins : List (Nat × Nat × List Byte)) (outs : List (Nat × Nat × List Byte)) : Kept s (State.evidRegions s t ins outs).2 := by
  unfold State.evidRegions
  extract_lets l1 l2
  try clear_value l1
  have h2 : Kept s l2.2 := by
    unfold l2
    repeat' first
      | with_reducible exact Kept.refl _
      | with_reducible apply Kept.trans ?_ (State.placeBytes_kept _ _ _)
      | with_reducible apply Kept.fold₃ (fun _ _ => ?_) ?_
  try clear_value l2
  repeat' first
    | with_reducible exact Kept.refl _
    | with_reducible assumption
    | split

theorem State.capture_kept (s : State) (t : Tile) (source : Nat) (checker : Nat) (sigP : Nat) (sigC : Nat) (ins : List (Nat × Nat × List Byte)) (outs : List (Nat × Nat × List Byte)) : Kept s (State.capture s t source checker sigP sigC ins outs) := by
  unfold State.capture
  extract_lets l1 l2 l3 l4 l5 l6 l7 l8 l9
  try clear_value l1
  try clear_value l2
  have h3 : Kept s l3.2 := by
    unfold l3
    repeat' first
      | with_reducible exact Kept.refl _
      | with_reducible apply Kept.trans ?_ (State.evidRegions_kept _ _ _ _)
  try clear_value l3
  have h4 : Kept s l4 := by
    unfold l4
    repeat' first
      | with_reducible assumption
  try clear_value l4
  try clear_value l5
  have h6 : Kept s l6 := by
    unfold l6
    repeat' first
      | with_reducible assumption
      | with_reducible apply Kept.trans ?_ (State.setEvid_kept _ _ _)
  try clear_value l6
  try clear_value l7
  have h8 : Kept s l8 := by
    unfold l8
    repeat' first
      | with_reducible assumption
      | with_reducible apply Kept.mk_ ?_
  try clear_value l8
  have h9 : Kept s l9 := by
    unfold l9
    repeat' first
      | with_reducible assumption
      | with_reducible apply Kept.trans ?_ (State.setRec_kept _ _ _)
      | split
  try clear_value l9
  repeat' first
    | with_reducible exact Kept.refl _
    | with_reducible assumption
    | with_reducible apply Kept.ite (fun _ => ?_) (fun _ => ?_)
    | with_reducible apply Kept.trans ?_ (State.setFld_kept _ _ _ ?_)
    | with_reducible exact Fld.replayBusy_soft

theorem State.logged_kept (s : State) : Kept s (State.logged s) := by
  unfold State.logged
  extract_lets l1
  try clear_value l1
  repeat' first
    | with_reducible exact Kept.refl _
    | with_reducible apply Kept.mk_ ?_

end Sys2Proof.Machine
end

