-- ==== Sys2Proof/Laws/KeptSequences.lean ====
section
/-! SUPPORT. Every operation of Machine/Sequences.lean keeps what `Kept` says. -/

namespace Sys2Proof.Machine

theorem State.mapFrame_kept (s : State) (c : Nat) (q : Nat) (va : Nat) (pa : Nat) (e : Nat) : Kept s (State.mapFrame s c q va pa e) := by
  unfold State.mapFrame
  extract_lets l1 l2
  have h1 : Kept s l1 := by
    unfold l1
    repeat' first
      | with_reducible exact Kept.refl _
      | with_reducible apply Kept.trans ?_ (State.writeGran_kept _ _ _ _ _)
  try clear_value l1
  try clear_value l2
  repeat' first
    | with_reducible assumption
    | with_reducible apply Kept.mk_ ?_

theorem State.makeTable_kept (s : State) (c : Nat) (pa : Nat) (e : Nat) (l : Level) : Kept s (State.makeTable s c pa e l) := by
  unfold State.makeTable
  extract_lets l1 l2
  have h1 : Kept s l1 := by
    unfold l1
    repeat' first
      | with_reducible exact Kept.refl _
      | with_reducible apply Kept.trans ?_ (State.writeGran_kept _ _ _ _ _)
      | with_reducible apply Kept.fold (fun _ _ => ?_) ?_
  try clear_value l1
  have h2 : Kept s l2 := by
    unfold l2
    repeat' first
      | with_reducible assumption
      | with_reducible apply Kept.trans ?_ (State.writeGran_kept _ _ _ _ _)
  try clear_value l2
  repeat' first
    | with_reducible assumption
    | with_reducible apply Kept.trans ?_ (State.setCtx_kept _ _ _)

theorem State.mapDown_kept (s : State) (c : Nat) (q : Nat) (va : Nat) (e : Nat) (l : List Level) (f : List Nat) :
    Kept s (State.mapDown s c q va e l f) := by
  induction f generalizing s e l with
  | nil => cases l <;> exact Kept.refl _
  | cons pa f ih => cases l with
    | nil => exact State.mapFrame_kept ..
    | cons l rest => exact (State.makeTable_kept ..).trans (ih ..)

theorem State.loseWaits_kept (s : State) (q : Nat) : Kept s (State.loseWaits s q) := by
  unfold State.loseWaits
  extract_lets l1 l2
  try clear_value l1
  try clear_value l2
  repeat' first
    | with_reducible exact Kept.refl _
    | with_reducible apply Kept.mk_ ?_

theorem State.forget_kept (s : State) (c : Nat) (va : Nat) : Kept s (State.forget s c va) := by
  unfold State.forget
  extract_lets l1
  repeat' first
    | with_reducible exact Kept.refl _
    | refine Kept.mem_ ?_ (fun h => h)

theorem State.unmapFrame_kept (s : State) (f : KvFrame) : Kept s (State.unmapFrame s f) := by
  unfold State.unmapFrame
  extract_lets l1 l2 l3
  have h1 : Kept s l1 := by
    unfold l1
    repeat' first
      | with_reducible exact Kept.refl _
      | with_reducible apply Kept.trans ?_ (State.writeGran_kept _ _ _ _ _)
      | split
  try clear_value l1
  have h2 : Kept s l2 := by
    unfold l2
    repeat' first
      | with_reducible assumption
      | with_reducible apply Kept.trans ?_ (State.forget_kept _ _ _)
  try clear_value l2
  try clear_value l3
  repeat' first
    | with_reducible assumption
    | with_reducible apply Kept.mk_ ?_

theorem State.unmapFrames_kept (s : State) (p : KvFrame → Bool) : Kept s (State.unmapFrames s p) := by
  unfold State.unmapFrames
  repeat' first
    | with_reducible exact Kept.refl _
    | with_reducible apply Kept.trans ?_ (State.unmapFrame_kept _ _)
    | with_reducible apply Kept.fold (fun _ _ => ?_) ?_

theorem State.releaseSlot_kept (s : State) (q : Nat) : Kept s (State.releaseSlot s q) := by
  unfold State.releaseSlot
  extract_lets l1
  have h1 : Kept s l1 := by
    unfold l1
    repeat' first
      | with_reducible exact Kept.refl _
      | with_reducible apply Kept.trans ?_ (State.unmapFrames_kept _ _)
  try clear_value l1
  repeat' first
    | with_reducible assumption
    | with_reducible apply Kept.trans ?_ (State.setSlot_kept _ _ _)

theorem State.endSequences_kept (s : State) (c : Nat) : Kept s (State.endSequences s c) := by
  unfold State.endSequences
  repeat' first
    | with_reducible exact Kept.refl _
    | with_reducible apply Kept.ite (fun _ => ?_) (fun _ => ?_)
    | with_reducible apply Kept.trans ?_ (State.postSequence_kept _ _ _ _)
    | with_reducible apply Kept.trans ?_ (State.releaseSlot_kept _ _)
    | with_reducible apply Kept.fold (fun _ _ => ?_) ?_

end Sys2Proof.Machine
end

