-- ==== Sys2Proof/Laws/KeptPort.lean ====
section
/-! SUPPORT. Every operation of Machine/Port.lean keeps what `Kept` says. -/

namespace Sys2Proof.Machine

theorem State.emit_kept (s : State) (p : Nat) (f : WireFlit) : Kept s (State.emit s p f).2 := by
  unfold State.emit
  extract_lets l1
  try clear_value l1
  repeat' first
    | with_reducible exact Kept.refl _
    | with_reducible apply Kept.trans ?_ (State.setPort_kept _ _ _)

theorem State.freeFlit_kept (s : State) (o : OutPkt) : Kept s (State.freeFlit s o) := by
  unfold State.freeFlit
  repeat' first
    | with_reducible exact Kept.refl _
    | with_reducible apply Kept.trans ?_ (State.freePool_kept _ _ _ _)
    | split

theorem State.startPacket_kept (s : State) (p : Nat) (o : OutPkt) : Kept s (State.startPacket s p o).2 := by
  unfold State.startPacket
  extract_lets l1 l2 l3 l4 l5 l6 l7 l8 l9
  try clear_value l1
  try clear_value l2
  have h3 : Kept s l3 := by
    unfold l3
    repeat' first
      | with_reducible exact Kept.refl _
      | with_reducible apply Kept.trans ?_ (State.freeFlit_kept _ _)
  try clear_value l3
  try clear_value l4
  try clear_value l5
  try clear_value l6
  try clear_value l7
  try clear_value l8
  try clear_value l9
  repeat' first
    | with_reducible assumption
    | with_reducible apply Kept.trans ?_ (State.emit_kept _ _ _)
    | with_reducible apply Kept.trans ?_ (State.setPort_kept _ _ _)

theorem State.sendData_kept (s : State) (p : Nat) (o : OutPkt) (d : Nat × Nat) (rest : List (Nat × Nat)) : Kept s (State.sendData s p o d rest).2 := by
  unfold State.sendData
  extract_lets l1 l2 l3 l4 l5
  have h1 : Kept s l1 := by
    unfold l1
    repeat' first
      | with_reducible exact Kept.refl _
      | with_reducible apply Kept.trans ?_ (State.freeFlit_kept _ _)
  try clear_value l1
  try clear_value l2
  try clear_value l3
  try clear_value l4
  try clear_value l5
  repeat' first
    | with_reducible assumption
    | with_reducible apply Kept.trans ?_ (State.emit_kept _ _ _)
    | with_reducible apply Kept.trans ?_ (State.setPort_kept _ _ _)

theorem State.channelFlit_kept (s : State) (p vc : Nat) (r : WireFlit × State) (h : s.channelFlit p vc = some r) : Kept s r.2 := by
  unfold State.channelFlit at h
  split at h
  · split at h
    · exact Option.some.inj h ▸ State.sendData_kept ..
    · cases h
  · obtain ⟨o, -, rfl⟩ := Option.map_eq_some_iff.1 h
    exact State.startPacket_kept ..

theorem State.turnFlit_kept (s : State) (p : Nat) (r : WireFlit × State) (h : s.turnFlit p = some r) : Kept s r.2 := by
  obtain ⟨i, -, hi⟩ := List.exists_of_findSome?_eq_some h
  obtain ⟨q, hq, rfl⟩ := Option.map_eq_some_iff.1 hi
  exact (State.channelFlit_kept s p _ q hq).trans (State.setPort_kept _ _ _)

theorem State.nextFlit_kept (s : State) (p : Nat) (r : WireFlit × State) (h : s.nextFlit p = some r) : Kept s r.2 := by
  unfold State.nextFlit at h
  dsimp only at h
  split at h
  · exact Option.some.inj h ▸ State.setPort_kept ..
  · exact Option.some.inj h ▸ State.setPort_kept ..
  · split at h
    · cases h
    · split at h
      · exact Option.some.inj h ▸ State.startPacket_kept ..
      · split at h
        · exact State.channelFlit_kept _ _ _ _ (by rw [← h]; assumption)
        · exact State.turnFlit_kept _ _ _ h

theorem State.slots_kept (s : State) (p n : Nat) : Kept s (State.slots s p n).2 := by
  induction n generalizing s with
  | zero => exact Kept.refl s
  | succ n ih =>
    unfold State.slots
    split
    · exact (State.nextFlit_kept s p _ (by assumption)).trans (ih _)
    · exact ih _

theorem State.sendGroup_kept (s : State) (p : Nat) : Kept s (State.sendGroup s p) := by
  unfold State.sendGroup
  extract_lets l1 l2 l3 l4 l5
  try clear_value l1
  have h2 : Kept s l2 := by
    unfold l2
    repeat' first
      | with_reducible exact Kept.refl _
      | with_reducible apply Kept.trans ?_ (State.setPort_kept _ _ _)
  try clear_value l2
  have h3 : Kept s l3.2 := by
    unfold l3
    repeat' first
      | with_reducible assumption
      | with_reducible apply Kept.trans ?_ (State.slots_kept _ _ _)
      | split
  try clear_value l3
  have h4 : Kept s l4 := by
    unfold l4
    repeat' first
      | with_reducible assumption
  try clear_value l4
  try clear_value l5
  repeat' first
    | with_reducible assumption
    | with_reducible apply Kept.mk_ ?_

theorem State.sendGroups_kept (s : State) (p n : Nat) : Kept s (State.sendGroups s p n) := by
  induction n generalizing s with
  | zero => exact Kept.refl s
  | succ n ih =>
    unfold State.sendGroups
    exact Kept.ite (fun _ => (State.sendGroup_kept ..).trans (ih _)) (fun _ => Kept.refl s)

theorem State.pump_kept (s : State) (p : Nat) : Kept s (State.pump s p) := by
  unfold State.pump
  extract_lets l1 l2 l3
  try clear_value l1
  have h2 : Kept s l2 := by
    unfold l2
    repeat' first
      | with_reducible exact Kept.refl _
      | with_reducible apply Kept.trans ?_ (State.sendGroups_kept _ _ _)
  try clear_value l2
  try clear_value l3
  repeat' first
    | with_reducible exact Kept.refl _
    | with_reducible assumption
    | with_reducible apply Kept.ite (fun _ => ?_) (fun _ => ?_)
    | with_reducible apply Kept.trans ?_ (State.endFillRead_kept _)
    | with_reducible apply Kept.trans ?_ (State.setPort_kept _ _ _)

theorem State.pumpAll_kept (s : State) : Kept s (State.pumpAll s) := by
  unfold State.pumpAll
  repeat' first
    | with_reducible exact Kept.refl _
    | with_reducible apply Kept.trans ?_ (State.pump_kept _ _)
    | with_reducible apply Kept.fold (fun _ _ => ?_) ?_

theorem State.enterPort_kept (s : State) (p : Nat) (o : OutPkt) : Kept s (State.enterPort s p o) := by
  unfold State.enterPort
  extract_lets l1 l2
  have h1 : Kept s l1 := by
    unfold l1
    repeat' first
      | with_reducible exact Kept.refl _
      | with_reducible apply Kept.trans ?_ (State.pump_kept _ _)
  try clear_value l1
  try clear_value l2
  repeat' first
    | with_reducible assumption
    | with_reducible apply Kept.trans ?_ (State.setPort_kept _ _ _)

theorem State.send_kept (s : State) (p : Nat) (k : Packet) : Kept s (State.send s p k) := by
  unfold State.send
  repeat' first
    | with_reducible exact Kept.refl _
    | with_reducible apply Kept.ite (fun _ => ?_) (fun _ => ?_)
    | with_reducible apply Kept.trans ?_ (State.enterPort_kept _ _ _)

theorem State.countDrop_kept (s : State) : Kept s (State.countDrop s) := by
  unfold State.countDrop
  extract_lets l1 l2
  have h1 : Kept s l1 := by
    unfold l1
    repeat' first
      | with_reducible exact Kept.refl _
      | with_reducible apply Kept.trans ?_ (State.bump_kept _ _ _ ?_)
      | with_reducible exact Fld.dropped_soft
  try clear_value l1
  try clear_value l2
  repeat' first
    | with_reducible assumption
    | with_reducible apply Kept.ite (fun _ => ?_) (fun _ => ?_)
    | with_reducible apply Kept.trans ?_ (State.report_kept _ _)
    | with_reducible apply Kept.mk_ ?_

theorem State.routeFail_kept (s : State) (dst : Nat) (job : Nat) : Kept s (State.routeFail s dst job) := by
  unfold State.routeFail
  repeat' first
    | with_reducible exact Kept.refl _
    | with_reducible apply Kept.ite (fun _ => ?_) (fun _ => ?_)
    | with_reducible apply Kept.trans ?_ (State.buddyRouteFail_kept _ _)
    | with_reducible apply Kept.trans ?_ (State.linkFailed_kept _ _)
    | split

theorem State.notice_kept (s : State) (k : Packet) : Kept s (State.notice s k) := by
  unfold State.notice
  extract_lets l1 l2 l3 l4
  try clear_value l1
  try clear_value l2
  have h3 : Kept s l3 := by
    unfold l3
    repeat' first
      | with_reducible exact Kept.refl _
      | with_reducible apply Kept.mk_ ?_
  try clear_value l3
  try clear_value l4
  repeat' first
    | with_reducible exact Kept.refl _
    | with_reducible assumption
    | with_reducible apply Kept.ite (fun _ => ?_) (fun _ => ?_)
    | with_reducible apply Kept.trans ?_ (State.routeFail_kept _ _ _)
    | with_reducible apply Kept.trans ?_ (State.enterPort_kept _ _ _)
    | with_reducible apply Kept.trans ?_ (State.countDrop_kept _)
    | split
    | with_reducible apply Kept.mk_ ?_

theorem State.dropPacket_kept (s : State) (k : Packet) : Kept s (State.dropPacket s k) := by
  unfold State.dropPacket
  repeat' first
    | with_reducible exact Kept.refl _
    | with_reducible apply Kept.ite (fun _ => ?_) (fun _ => ?_)
    | with_reducible apply Kept.trans ?_ (State.countDrop_kept _)
    | with_reducible apply Kept.trans ?_ (State.notice_kept _ _)

theorem State.routeOut_kept (s : State) (k : Packet) : Kept s (State.routeOut s k) := by
  unfold State.routeOut
  repeat' first
    | with_reducible exact Kept.refl _
    | with_reducible apply Kept.trans ?_ (State.enterPort_kept _ _ _)
    | with_reducible apply Kept.trans ?_ (State.dropPacket_kept _ _)
    | split

theorem State.sendControl_kept (s : State) (p : Nat) (nak : Bool) : Kept s (State.sendControl s p nak) := by
  unfold State.sendControl
  extract_lets l1 l2
  have h1 : Kept s l1 := by
    unfold l1
    repeat' first
      | with_reducible exact Kept.refl _
      | with_reducible apply Kept.trans ?_ (State.pump_kept _ _)
  try clear_value l1
  try clear_value l2
  repeat' first
    | with_reducible exact Kept.refl _
    | with_reducible assumption
    | with_reducible apply Kept.ite (fun _ => ?_) (fun _ => ?_)
    | with_reducible apply Kept.trans ?_ (State.setPort_kept _ _ _)

theorem State.startReplay_kept (s : State) (p : Nat) (n : Nat) : Kept s (State.startReplay s p n) := by
  unfold State.startReplay
  extract_lets l1 l2 l3 l4
  have h1 : Kept s l1 := by
    unfold l1
    repeat' first
      | with_reducible exact Kept.refl _
      | with_reducible apply Kept.trans ?_ (State.pump_kept _ _)
  try clear_value l1
  try clear_value l2
  have h3 : Kept s l3 := by
    unfold l3
    repeat' first
      | with_reducible assumption
      | with_reducible apply Kept.ite (fun _ => ?_) (fun _ => ?_)
      | with_reducible apply Kept.trans ?_ (State.setPort_kept _ _ _)
      | with_reducible apply Kept.trans ?_ (State.setFld_kept _ _ _ ?_)
      | with_reducible apply Kept.trans ?_ (State.bump_kept _ _ _ ?_)
      | with_reducible exact Fld.episode_soft _
      | with_reducible exact Fld.episodes_soft _
  try clear_value l3
  try clear_value l4
  repeat' first
    | with_reducible assumption
    | with_reducible apply Kept.trans ?_ (State.setPort_kept _ _ _)
    | split

theorem State.portControl_kept (s : State) (p : Nat) (c : LinkControl) : Kept s (State.portControl s p c) := by
  unfold State.portControl
  extract_lets l1 l2 l3 l4 l5 l6
  have h1 : Kept s l1 := by
    unfold l1
    repeat' first
      | with_reducible exact Kept.refl _
      | with_reducible apply Kept.trans ?_ (State.pump_kept _ _)
  try clear_value l1
  try clear_value l2
  try clear_value l3
  try clear_value l4
  have h5 : Kept s l5 := by
    unfold l5
    repeat' first
      | with_reducible assumption
      | with_reducible apply Kept.trans ?_ (State.setPort_kept _ _ _)
  try clear_value l5
  have h6 : Kept s l6 := by
    unfold l6
    repeat' first
      | with_reducible assumption
      | with_reducible apply Kept.ite (fun _ => ?_) (fun _ => ?_)
      | with_reducible apply Kept.trans ?_ (State.closeEpisode_kept _ _)
  try clear_value l6
  repeat' first
    | with_reducible exact Kept.refl _
    | with_reducible assumption
    | with_reducible apply Kept.ite (fun _ => ?_) (fun _ => ?_)
    | with_reducible apply Kept.trans ?_ (State.startReplay_kept _ _ _)

end Sys2Proof.Machine
end

