-- ==== Sys2Proof/Laws/KeptEpoch.lean ====
section
/-! SUPPORT. Every operation of Machine/Epoch.lean keeps what `Kept` says. -/

namespace Sys2Proof.Machine

theorem State.readGrans_kept (s : State) (pa : Nat) (l : List Nat) : Kept s (State.readGrans s pa l).2 := by
  induction l generalizing s with
  | nil => exact Kept.refl s
  | cons i r ih => exact (State.readGran_kept s (pa + 64 * i)).trans (ih _)

theorem State.readFosPage_kept (s : State) (pa : Nat) : Kept s (State.readFosPage s pa).2 := by
  unfold State.readFosPage
  exact State.readGrans_kept s pa _

theorem State.writeFosPage_kept (s : State) (pa : Nat) (l : List Gran) : Kept s (State.writeFosPage s pa l) := by
  unfold State.writeFosPage
  repeat' first
    | with_reducible exact Kept.refl _
    | with_reducible apply Kept.trans ?_ (State.writeGran_kept _ _ _ _ _)
    | with_reducible apply Kept.fold (fun _ _ => ?_) ?_

theorem State.touchPage_kept (s : State) (pa : Nat) : Kept s (State.touchPage s pa) := by
  unfold State.touchPage
  repeat' first
    | with_reducible exact Kept.refl _
    | with_reducible apply Kept.ite (fun _ => ?_) (fun _ => ?_)
    | with_reducible apply Kept.trans ?_ (State.readFosPage_kept _ _)
    | with_reducible apply Kept.trans ?_ (State.fossilField_kept _ _ _)
    | with_reducible apply Kept.trans ?_ (State.writeFosPage_kept _ _ _)
    | with_reducible apply Kept.trans ?_ (State.countBounced_kept _)
    | split
    | with_reducible apply Kept.mk_ ?_

theorem State.setTrain_kept (s : State) (c : Nat) : Kept s (State.setTrain s c) := by
  unfold State.setTrain
  extract_lets l1 l2
  try clear_value l1
  try clear_value l2
  repeat' first
    | with_reducible exact Kept.refl _
    | with_reducible apply Kept.ite (fun _ => ?_) (fun _ => ?_)
    | with_reducible apply Kept.mk_ ?_

theorem State.mapWindow_kept (s : State) (c : Nat) (h : Nat) : Kept s (State.mapWindow s c h) := by
  unfold State.mapWindow
  extract_lets l1 l2 l3
  have h2 : Kept s l2 := by
    unfold l2
    repeat' first
      | with_reducible exact Kept.refl _
      | with_reducible apply Kept.trans ?_ (State.writeGran_kept _ _ _ _ _)
      | with_reducible apply Kept.fold (fun _ _ => ?_) ?_
      | split
  repeat' first
    | with_reducible assumption
    | refine Kept.mem_ ?_ (fun h => h)

theorem State.openEpoch_kept (s : State) (e : Epoch) (count : BitVec 48) : Kept s (State.openEpoch s e count) := by
  unfold State.openEpoch
  extract_lets l1 l2
  try clear_value l1
  have h2 : Kept s l2 := by
    unfold l2
    repeat' first
      | with_reducible exact Kept.refl _
      | with_reducible apply Kept.mk_ ?_
  try clear_value l2
  repeat' first
    | with_reducible assumption
    | with_reducible apply Kept.trans ?_ (State.completeSome_kept _ _ _ _)
    | with_reducible apply Kept.trans ?_ (State.setFld_kept _ _ _ ?_)
    | with_reducible exact Fld.fosState_soft

theorem State.enterMap_kept (s : State) : Kept s (State.enterMap s) := by
  unfold State.enterMap
  repeat' first
    | with_reducible exact Kept.refl _
    | with_reducible apply Kept.ite (fun _ => ?_) (fun _ => ?_)
    | with_reducible apply Kept.trans ?_ (State.touchPage_kept _ _)
    | with_reducible apply Kept.trans ?_ (State.mapWindow_kept _ _ _)
    | with_reducible apply Kept.fold (fun _ _ => ?_) ?_
    | split
    | with_reducible apply Kept.mk_ ?_

theorem State.boundary_kept (s : State) (c : Nat) (v : Nat) : Kept s (State.boundary s c v) := by
  unfold State.boundary
  extract_lets l1 l2 l3 l4 l5
  try clear_value l1
  have h2 : Kept s l2 := by
    unfold l2
    repeat' first
      | with_reducible exact Kept.refl _
      | with_reducible apply Kept.trans ?_ (State.setFld_kept _ _ _ ?_)
      | with_reducible exact Fld.fosUpdated_soft
      | with_reducible apply Kept.mk_ ?_
  try clear_value l2
  try clear_value l3
  have h4 : Kept s l4 := by
    unfold l4
    repeat' first
      | with_reducible assumption
      | with_reducible apply Kept.ite (fun _ => ?_) (fun _ => ?_)
      | with_reducible apply Kept.trans ?_ (State.openEpoch_kept _ _ _)
      | split
      | with_reducible apply Kept.mk_ ?_
  try clear_value l4
  try clear_value l5
  repeat' first
    | with_reducible assumption
    | with_reducible apply Kept.ite (fun _ => ?_) (fun _ => ?_)
    | with_reducible apply Kept.mk_ ?_

theorem State.stepBoundary_kept (s : State) (q : Nat) : Kept s (State.stepBoundary s q) := by
  unfold State.stepBoundary
  extract_lets l1 l2 l3 l4
  have h1 : Kept s l1 := by
    unfold l1
    repeat' first
      | with_reducible exact Kept.refl _
      | with_reducible apply Kept.trans ?_ (State.enterMap_kept _)
  try clear_value l1
  try clear_value l2
  try clear_value l3
  have h4 : Kept s l4 := by
    unfold l4
    repeat' first
      | with_reducible assumption
      | with_reducible apply Kept.mk_ ?_
  try clear_value l4
  repeat' first
    | with_reducible exact Kept.refl _
    | with_reducible assumption
    | with_reducible apply Kept.ite (fun _ => ?_) (fun _ => ?_)
    | with_reducible apply Kept.trans ?_ (State.boundary_kept _ _ _)
    | split

end Sys2Proof.Machine
end

