-- ==== Sys2Proof/Laws/KeptStrata.lean ====
section
/-! SUPPORT. Every operation of Machine/Strata.lean keeps what `Kept` says. -/

namespace Sys2Proof.Machine

theorem State.sendDown_kept (s : State) (m : Packet) : Kept s (State.sendDown s m) := by
  unfold State.sendDown
  repeat' first
    | with_reducible exact Kept.refl _
    | with_reducible apply Kept.trans ?_ (State.send_kept _ _ _)
    | with_reducible apply Kept.fold (fun _ _ => ?_) ?_

theorem State.driveOut_kept (s : State) : Kept s (State.driveOut s) := by
  unfold State.driveOut
  extract_lets l1
  try clear_value l1
  repeat' first
    | with_reducible exact Kept.refl _
    | with_reducible apply Kept.ite (fun _ => ?_) (fun _ => ?_)
    | with_reducible apply Kept.mk_ ?_

theorem State.reportDone_kept (s : State) : Kept s (State.reportDone s) := by
  unfold State.reportDone
  extract_lets l1 l2 l3
  try clear_value l1
  have h2 : Kept s l2 := by
    unfold l2
    repeat' first
      | with_reducible exact Kept.refl _
      | with_reducible apply Kept.trans ?_ (State.setQuarry_kept _ _ _)
  try clear_value l2
  have h3 : Kept s l3 := by
    unfold l3
    repeat' first
      | with_reducible assumption
      | with_reducible apply Kept.ite (fun _ => ?_) (fun _ => ?_)
      | with_reducible apply Kept.trans ?_ (State.send_kept _ _ _)
  try clear_value l3
  repeat' first
    | with_reducible exact Kept.refl _
    | with_reducible assumption
    | with_reducible apply Kept.ite (fun _ => ?_) (fun _ => ?_)
    | with_reducible apply Kept.trans ?_ (State.driveOut_kept _)

theorem State.setPlan_kept (s : State) (c : Nat) (core : Nat) (p : Plan) : Kept s (State.setPlan s c core p) := by
  unfold State.setPlan
  extract_lets l1
  try clear_value l1
  repeat' first
    | with_reducible exact Kept.refl _
    | with_reducible apply Kept.mk_ ?_

theorem State.releaseStream_kept (s : State) (c : Nat) (core : Nat) (n : Nat) : Kept s (State.releaseStream s c core n) := by
  unfold State.releaseStream
  extract_lets l1
  try clear_value l1
  repeat' first
    | with_reducible exact Kept.refl _
    | with_reducible apply Kept.ite (fun _ => ?_) (fun _ => ?_)
    | with_reducible apply Kept.trans ?_ (State.setStream_kept _ _ _ _)

theorem State.releaseCore_kept (s : State) (c : Nat) (core : Nat) : Kept s (State.releaseCore s c core) := by
  unfold State.releaseCore
  extract_lets l1
  try clear_value l1
  repeat' first
    | with_reducible exact Kept.refl _
    | with_reducible apply Kept.trans ?_ (State.releaseStream_kept _ _ _ _)
    | with_reducible apply Kept.trans ?_ (State.setPlan_kept _ _ _ _)
    | with_reducible apply Kept.trans ?_ (State.raiseCtx_kept _ _ _)
    | with_reducible apply Kept.fold (fun _ _ => ?_) ?_
    | apply Kept.trans ?_ (KeptE.result (readCopy_kept _ _ _ _ _) (by with_reducible assumption))
    | split

theorem State.placeTiles_kept (s : State) (c : Nat) : Kept s (State.placeTiles s c) := by
  unfold State.placeTiles
  repeat' first
    | with_reducible exact Kept.refl _
    | with_reducible apply Kept.fold (fun _ _ => ?_) ?_
    | split
    | with_reducible apply Kept.mk_ ?_

theorem State.releaseCtx_kept (s : State) (c : Nat) : Kept s (State.releaseCtx s c) := by
  unfold State.releaseCtx
  repeat' first
    | with_reducible exact Kept.refl _
    | with_reducible apply Kept.ite (fun _ => ?_) (fun _ => ?_)
    | with_reducible apply Kept.trans ?_ (State.placeTiles_kept _ _)
    | with_reducible apply Kept.trans ?_ (State.releaseCore_kept _ _ _)
    | with_reducible apply Kept.fold (fun _ _ => ?_) ?_

theorem State.releasePlan_kept (s : State) (q : Nat) : Kept s (State.releasePlan s q) := by
  unfold State.releasePlan
  repeat' first
    | with_reducible exact Kept.refl _
    | with_reducible apply Kept.ite (fun _ => ?_) (fun _ => ?_)
    | with_reducible apply Kept.trans ?_ (State.releaseCtx_kept _ _)
    | with_reducible apply Kept.fold (fun _ _ => ?_) ?_

theorem State.noteStretch_kept (s : State) (q : Nat) : Kept s (State.noteStretch s q) := by
  unfold State.noteStretch
  extract_lets l1 l2
  try clear_value l1
  have h2 : Kept s l2 := by
    unfold l2
    repeat' first
      | with_reducible exact Kept.refl _
      | with_reducible apply Kept.ite (fun _ => ?_) (fun _ => ?_)
      | with_reducible apply Kept.trans ?_ (State.bump_kept _ _ _ ?_)
      | with_reducible exact Fld.stretchCnt_soft _
  try clear_value l2
  repeat' first
    | with_reducible assumption
    | with_reducible apply Kept.ite (fun _ => ?_) (fun _ => ?_)
    | with_reducible apply Kept.trans ?_ (State.setFld_kept _ _ _ ?_)
    | with_reducible exact Fld.stretchMax_soft _

theorem State.tickBudgets_kept (s : State) (q : Nat) : Kept s (State.tickBudgets s q) := by
  unfold State.tickBudgets
  extract_lets l1 l2 l3 l4
  try clear_value l1
  try clear_value l2
  try clear_value l3
  try clear_value l4
  repeat' first
    | with_reducible exact Kept.refl _
    | with_reducible apply Kept.mk_ ?_

theorem State.dirTick_kept (s : State) (q : Nat) : Kept s (State.dirTick s q) := by
  unfold State.dirTick
  extract_lets l1
  try clear_value l1
  repeat' first
    | with_reducible exact Kept.refl _
    | with_reducible apply Kept.ite (fun _ => ?_) (fun _ => ?_)
    | with_reducible apply Kept.trans ?_ (State.setFld_kept _ _ _ ?_)
    | with_reducible exact Fld.dirValid_soft
    | with_reducible exact Fld.dirCtx_soft
    | split
    | with_reducible apply Kept.mk_ ?_

theorem State.acceptTick_kept (s : State) (q : Nat) (count : BitVec 48) (external : Bool) (release : Bool) : Kept s (State.acceptTick s q count external release) := by
  unfold State.acceptTick
  extract_lets l1 l2 l3 l4 l5 l6 l7 l8 l9 l10 l11 l12
  try clear_value l1
  have h2 : Kept s l2 := by
    unfold l2
    repeat' first
      | with_reducible exact Kept.refl _
      | with_reducible apply Kept.ite (fun _ => ?_) (fun _ => ?_)
      | with_reducible apply Kept.trans ?_ (State.noteStretch_kept _ _)
  try clear_value l2
  have h3 : Kept s l3 := by
    unfold l3
    repeat' first
      | with_reducible assumption
      | with_reducible apply Kept.ite (fun _ => ?_) (fun _ => ?_)
      | with_reducible apply Kept.trans ?_ (State.setFld_kept _ _ _ ?_)
      | with_reducible exact Fld.lateSrc_soft _
      | split
  try clear_value l3
  try clear_value l4
  have h5 : Kept s l5 := by
    unfold l5
    repeat' first
      | with_reducible assumption
      | with_reducible apply Kept.trans ?_ (State.setQuarry_kept _ _ _)
  try clear_value l5
  have h6 : Kept s l6 := by
    unfold l6
    repeat' first
      | with_reducible assumption
      | with_reducible apply Kept.trans ?_ (State.setFld_kept _ _ _ ?_)
      | with_reducible exact Fld.done_soft _
  try clear_value l6
  try clear_value l7
  have h8 : Kept s l8 := by
    unfold l8
    repeat' first
      | with_reducible assumption
      | with_reducible apply Kept.ite (fun _ => ?_) (fun _ => ?_)
      | with_reducible apply Kept.mk_ ?_
  try clear_value l8
  try clear_value l9
  have h10 : Kept s l10 := by
    unfold l10
    repeat' first
      | with_reducible assumption
      | with_reducible apply Kept.mk_ ?_
  try clear_value l10
  have h11 : Kept s l11 := by
    unfold l11
    repeat' first
      | with_reducible assumption
      | with_reducible apply Kept.trans ?_ (State.stepBoundary_kept _ _)
      | with_reducible apply Kept.trans ?_ (State.loseWaits_kept _ _)
      | with_reducible apply Kept.trans ?_ (State.tickBudgets_kept _ _)
  try clear_value l11
  have h12 : Kept s l12 := by
    unfold l12
    repeat' first
      | with_reducible assumption
      | with_reducible apply Kept.trans ?_ (State.dirTick_kept _ _)
  try clear_value l12
  repeat' first
    | with_reducible assumption
    | with_reducible apply Kept.ite (fun _ => ?_) (fun _ => ?_)
    | with_reducible apply Kept.trans ?_ (State.releasePlan_kept _ _)

theorem State.tickEvent_kept (s : State) (q : Nat) (code : Nat) (dflt : Bool) (victims : List Nat) : Kept s (State.tickEvent s q code dflt victims) := by
  unfold State.tickEvent
  extract_lets l1 l2 l3
  try clear_value l1
  have h2 : Kept s l2 := by
    unfold l2
    repeat' first
      | with_reducible exact Kept.refl _
      | with_reducible apply Kept.trans ?_ (State.report_kept _ _)
  try clear_value l2
  try clear_value l3
  repeat' first
    | with_reducible exact Kept.refl _
    | with_reducible assumption
    | with_reducible apply Kept.ite (fun _ => ?_) (fun _ => ?_)
    | with_reducible apply Kept.trans ?_ (State.report_kept _ _)
    | with_reducible apply Kept.trans ?_ (State.raiseCtx_kept _ _ _)
    | with_reducible apply Kept.fold (fun _ _ => ?_) ?_
    | with_reducible apply Kept.mk_ ?_

theorem State.abortJobs_kept (s : State) (q : Nat) (master : Nat) : Kept s (State.abortJobs s q master) := by
  unfold State.abortJobs
  repeat' first
    | with_reducible exact Kept.refl _
    | with_reducible apply Kept.trans ?_ (State.raiseCtx_kept _ _ _)
    | with_reducible apply Kept.fold (fun _ _ => ?_) ?_

theorem State.abortBy_kept (s : State) (abort : Option Nat) : Kept s (State.abortBy s abort) := by
  unfold State.abortBy
  repeat' first
    | with_reducible exact Kept.refl _
    | with_reducible apply Kept.trans ?_ (State.abortJobs_kept _ _ _)
    | split

theorem State.externalTick_kept (s : State) (carried : Option (BitVec 48)) (abort : Option Nat) (fwd : State → State) (h_fwd : ∀ x0, Kept x0 (fwd x0)) : Kept s (State.externalTick s carried abort fwd) := by
  unfold State.externalTick
  extract_lets l1 l2 l3 l4 l5 l6 l7 l8 l9 l10 l11
  try clear_value l1
  try clear_value l2
  try clear_value l3
  have h4 : Kept s l4 := by
    unfold l4
    repeat' first
      | with_reducible exact Kept.refl _
      | with_reducible apply Kept.trans ?_ (State.setFld_kept _ _ _ ?_)
      | with_reducible apply Kept.trans ?_ (h_fwd _)
      | with_reducible exact Fld.holdover_soft _
  try clear_value l4
  have h5 : Kept s l5 := by
    unfold l5
    repeat' first
      | with_reducible exact Kept.refl _
      | with_reducible apply Kept.trans ?_ (h_fwd _)
  try clear_value l5
  try clear_value l6
  try clear_value l7
  have h8 : Kept s l8 := by
    unfold l8
    repeat' first
      | with_reducible assumption
      | with_reducible apply Kept.trans ?_ (State.setFld_kept _ _ _ ?_)
      | with_reducible exact Fld.hold_soft _
  try clear_value l8
  have h9 : Kept s l9 := by
    unfold l9
    repeat' first
      | with_reducible assumption
      | with_reducible apply Kept.ite (fun _ => ?_) (fun _ => ?_)
      | with_reducible apply Kept.trans ?_ (State.bump_kept _ _ _ ?_)
      | with_reducible exact Fld.premature_soft _
  try clear_value l9
  have h10 : Kept s l10 := by
    unfold l10
    repeat' first
      | with_reducible assumption
      | with_reducible apply Kept.trans ?_ (State.abortBy_kept _ _)
      | with_reducible apply Kept.trans ?_ (State.acceptTick_kept _ _ _ _ _)
  try clear_value l10
  have h11 : Kept s l11 := by
    unfold l11
    repeat' first
      | with_reducible assumption
      | with_reducible apply Kept.ite (fun _ => ?_) (fun _ => ?_)
      | with_reducible apply Kept.trans ?_ (State.tickEvent_kept _ _ _ _ _)
  try clear_value l11
  repeat' first
    | with_reducible exact Kept.refl _
    | with_reducible assumption
    | with_reducible apply Kept.ite (fun _ => ?_) (fun _ => ?_)
    | with_reducible apply Kept.trans ?_ (State.abortBy_kept _ _)
    | with_reducible apply Kept.trans ?_ (State.acceptTick_kept _ _ _ _ _)
    | with_reducible apply Kept.trans ?_ (State.bump_kept _ _ _ ?_)
    | with_reducible apply Kept.trans ?_ (State.tickEvent_kept _ _ _ _ _)
    | with_reducible exact Fld.premature_soft _
    | with_reducible exact Fld.earlyEdges_soft _

theorem stratumInEdge_kept (at_ : Nat) (s : State) : Kept s (stratumInEdge at_ s) := by
  unfold stratumInEdge
  extract_lets l1
  have h1 : Kept s l1 := by
    unfold l1
    repeat' first
      | with_reducible exact Kept.refl _
      | with_reducible apply Kept.trans ?_ (State.advanceTo_kept _ _)
  try clear_value l1
  repeat' first
    | with_reducible exact Kept.refl _
    | with_reducible assumption
    | with_reducible apply Kept.ite (fun _ => ?_) (fun _ => ?_)
    | with_reducible apply Kept.trans ?_ (State.externalTick_kept (h_fwd := fun _ => ?_) _ _ _ _)
    | with_reducible apply Kept.trans ?_ (State.sendDown_kept _ _)

theorem tickSymbolReceived_kept (at_ : Nat) (port : Nat) (master : Nat) (domain : Nat) (count : BitVec 48) (abort : Bool) (s : State) : Kept s (tickSymbolReceived at_ port master domain count abort s) := by
  unfold tickSymbolReceived
  extract_lets l1
  have h1 : Kept s l1 := by
    unfold l1
    repeat' first
      | with_reducible exact Kept.refl _
      | with_reducible apply Kept.trans ?_ (State.advanceTo_kept _ _)
  try clear_value l1
  repeat' first
    | with_reducible exact Kept.refl _
    | with_reducible assumption
    | with_reducible apply Kept.ite (fun _ => ?_) (fun _ => ?_)
    | with_reducible apply Kept.trans ?_ (State.externalTick_kept (h_fwd := fun _ => ?_) _ _ _ _)
    | with_reducible apply Kept.trans ?_ (State.sendDown_kept _ _)

theorem State.masterSymbol_kept (s : State) (q : Nat) (abort : Bool) : Kept s (State.masterSymbol s q abort) := by
  unfold State.masterSymbol
  repeat' first
    | with_reducible exact Kept.refl _
    | with_reducible apply Kept.ite (fun _ => ?_) (fun _ => ?_)
    | with_reducible apply Kept.trans ?_ (State.sendDown_kept _ _)

theorem masterTickIssue_kept (at_ : Nat) (quarry : Nat) (s : State) : Kept s (masterTickIssue at_ quarry s) := by
  unfold masterTickIssue
  extract_lets l1
  have h1 : Kept s l1 := by
    unfold l1
    repeat' first
      | with_reducible exact Kept.refl _
      | with_reducible apply Kept.trans ?_ (State.advanceTo_kept _ _)
  try clear_value l1
  repeat' first
    | with_reducible assumption
    | with_reducible apply Kept.ite (fun _ => ?_) (fun _ => ?_)
    | with_reducible apply Kept.trans ?_ (State.acceptTick_kept _ _ _ _ _)
    | with_reducible apply Kept.trans ?_ (State.masterSymbol_kept _ _ _)

theorem holdoverTick_kept (at_ : Nat) (s : State) : Kept s (holdoverTick at_ s) := by
  unfold holdoverTick
  extract_lets l1 l2 l3 l4 l5
  have h1 : Kept s l1 := by
    unfold l1
    repeat' first
      | with_reducible exact Kept.refl _
      | with_reducible apply Kept.trans ?_ (State.advanceTo_kept _ _)
  try clear_value l1
  try clear_value l2
  try clear_value l3
  have h4 : Kept s l4 := by
    unfold l4
    repeat' first
      | with_reducible assumption
      | with_reducible apply Kept.trans ?_ (State.acceptTick_kept _ _ _ _ _)
  try clear_value l4
  try clear_value l5
  repeat' first
    | with_reducible assumption
    | with_reducible apply Kept.ite (fun _ => ?_) (fun _ => ?_)
    | with_reducible apply Kept.trans ?_ (State.setQuarry_kept _ _ _)

theorem stretchSymbolSend_kept (at_ : Nat) (s : State) : Kept s (stretchSymbolSend at_ s) := by
  unfold stretchSymbolSend
  extract_lets l1 l2
  have h1 : Kept s l1 := by
    unfold l1
    repeat' first
      | with_reducible exact Kept.refl _
      | with_reducible apply Kept.trans ?_ (State.advanceTo_kept _ _)
  try clear_value l1
  try clear_value l2
  repeat' first
    | with_reducible assumption
    | with_reducible apply Kept.ite (fun _ => ?_) (fun _ => ?_)
    | with_reducible apply Kept.trans ?_ (State.setQuarry_kept _ _ _)
    | with_reducible apply Kept.trans ?_ (State.sendDown_kept _ _)

theorem stretchSymbolReceived_kept (at_ : Nat) (port : Nat) (master : Nat) (domain : Nat) (count : BitVec 48) (s : State) : Kept s (stretchSymbolReceived at_ port master domain count s) := by
  unfold stretchSymbolReceived
  extract_lets l1 l2 l3
  have h1 : Kept s l1 := by
    unfold l1
    repeat' first
      | with_reducible exact Kept.refl _
      | with_reducible apply Kept.trans ?_ (State.advanceTo_kept _ _)
  try clear_value l1
  have h2 : Kept s l2 := by
    unfold l2
    repeat' first
      | with_reducible assumption
      | with_reducible apply Kept.trans ?_ (State.sendDown_kept _ _)
  try clear_value l2
  try clear_value l3
  repeat' first
    | with_reducible assumption
    | with_reducible apply Kept.ite (fun _ => ?_) (fun _ => ?_)
    | with_reducible apply Kept.trans ?_ (State.setQuarry_kept _ _ _)

theorem doneSymbolReceived_kept (at_ : Nat) (port : Nat) (domain : Nat) (count : BitVec 48) (s : State) : Kept s (doneSymbolReceived at_ port domain count s) := by
  unfold doneSymbolReceived
  extract_lets l1 l2
  have h1 : Kept s l1 := by
    unfold l1
    repeat' first
      | with_reducible exact Kept.refl _
      | with_reducible apply Kept.trans ?_ (State.advanceTo_kept _ _)
  try clear_value l1
  try clear_value l2
  repeat' first
    | with_reducible assumption
    | with_reducible apply Kept.ite (fun _ => ?_) (fun _ => ?_)
    | with_reducible apply Kept.trans ?_ (State.reportDone_kept _)
    | with_reducible apply Kept.trans ?_ (State.setQuarry_kept _ _ _)

theorem moduleDone_kept (at_ : Nat) (quarry : Nat) (s : State) : Kept s (moduleDone at_ quarry s) := by
  unfold moduleDone
  extract_lets l1 l2 l3 l4
  have h1 : Kept s l1 := by
    unfold l1
    repeat' first
      | with_reducible exact Kept.refl _
      | with_reducible apply Kept.trans ?_ (State.advanceTo_kept _ _)
  try clear_value l1
  try clear_value l2
  have h3 : Kept s l3 := by
    unfold l3
    repeat' first
      | with_reducible assumption
      | with_reducible apply Kept.trans ?_ (State.setFld_kept _ _ _ ?_)
      | with_reducible exact Fld.done_soft _
  try clear_value l3
  have h4 : Kept s l4 := by
    unfold l4
    repeat' first
      | with_reducible assumption
      | with_reducible apply Kept.trans ?_ (State.setQuarry_kept _ _ _)
  try clear_value l4
  repeat' first
    | with_reducible assumption
    | with_reducible apply Kept.ite (fun _ => ?_) (fun _ => ?_)
    | with_reducible apply Kept.trans ?_ (State.reportDone_kept _)

theorem State.overrunQuarry_kept (s : State) (q : Nat) : Kept s (State.overrunQuarry s q) := by
  unfold State.overrunQuarry
  extract_lets l1 l2 l3 l4 l5
  try clear_value l1
  try clear_value l2
  have h3 : Kept s l3 := by
    unfold l3
    repeat' first
      | with_reducible exact Kept.refl _
      | with_reducible apply Kept.trans ?_ (State.setQuarry_kept _ _ _)
  try clear_value l3
  have h4 : Kept s l4 := by
    unfold l4
    repeat' first
      | with_reducible assumption
      | with_reducible apply Kept.trans ?_ (State.tickEvent_kept _ _ _ _ _)
  try clear_value l4
  try clear_value l5
  repeat' first
    | with_reducible exact Kept.refl _
    | with_reducible assumption
    | with_reducible apply Kept.ite (fun _ => ?_) (fun _ => ?_)
    | with_reducible apply Kept.trans ?_ (State.setQuarry_kept _ _ _)

theorem stratumOverrun_kept (at_ : Nat) (quarry : Nat) (s : State) : Kept s (stratumOverrun at_ quarry s) := by
  unfold stratumOverrun
  extract_lets l1
  have h1 : Kept s l1 := by
    unfold l1
    repeat' first
      | with_reducible exact Kept.refl _
      | with_reducible apply Kept.trans ?_ (State.advanceTo_kept _ _)
  try clear_value l1
  repeat' first
    | with_reducible assumption
    | with_reducible apply Kept.ite (fun _ => ?_) (fun _ => ?_)
    | with_reducible apply Kept.trans ?_ (State.overrunQuarry_kept _ _)

theorem State.abortTick_kept (s : State) : Kept s (State.abortTick s) := by
  unfold State.abortTick
  extract_lets l1
  have h1 : Kept s l1 := by
    unfold l1
    repeat' first
      | with_reducible exact Kept.refl _
      | with_reducible apply Kept.trans ?_ (State.acceptTick_kept _ _ _ _ _)
      | with_reducible apply Kept.trans ?_ (State.masterSymbol_kept _ _ _)
  try clear_value l1
  repeat' first
    | with_reducible assumption
    | with_reducible apply Kept.trans ?_ (State.abortJobs_kept _ _ _)

theorem domainOverrun_kept (at_ : Nat) (s : State) : Kept s (domainOverrun at_ s) := by
  unfold domainOverrun
  extract_lets l1 l2 l3 l4 l5 l6 l7
  have h1 : Kept s l1 := by
    unfold l1
    repeat' first
      | with_reducible exact Kept.refl _
      | with_reducible apply Kept.trans ?_ (State.advanceTo_kept _ _)
  try clear_value l1
  try clear_value l2
  have h3 : Kept s l3 := by
    unfold l3
    repeat' first
      | with_reducible assumption
      | with_reducible apply Kept.trans ?_ (State.overrunQuarry_kept _ _)
  try clear_value l3
  try clear_value l4
  have h5 : Kept s l5 := by
    unfold l5
    repeat' first
      | with_reducible assumption
      | with_reducible apply Kept.trans ?_ (State.setQuarry_kept _ _ _)
  try clear_value l5
  have h6 : Kept s l6 := by
    unfold l6
    repeat' first
      | with_reducible assumption
      | with_reducible apply Kept.trans ?_ (State.report_kept _ _)
  try clear_value l6
  try clear_value l7
  repeat' first
    | with_reducible assumption
    | with_reducible apply Kept.ite (fun _ => ?_) (fun _ => ?_)
    | with_reducible apply Kept.trans ?_ (State.abortTick_kept _)
    | with_reducible apply Kept.mk_ ?_

theorem State.loseTick_kept (s : State) (code : Nat) : Kept s (State.loseTick s code) := by
  unfold State.loseTick
  extract_lets l1 l2 l3
  have h1 : Kept s l1 := by
    unfold l1
    repeat' first
      | with_reducible exact Kept.refl _
      | with_reducible apply Kept.ite (fun _ => ?_) (fun _ => ?_)
      | with_reducible apply Kept.trans ?_ (State.setFld_kept _ _ _ ?_)
      | with_reducible exact Fld.holdover_soft _
      | with_reducible exact Fld.hold_soft _
  try clear_value l1
  try clear_value l2
  have h3 : Kept s l3 := by
    unfold l3
    repeat' first
      | with_reducible assumption
      | with_reducible apply Kept.trans ?_ (State.setQuarry_kept _ _ _)
  try clear_value l3
  repeat' first
    | with_reducible assumption
    | with_reducible apply Kept.trans ?_ (State.tickEvent_kept _ _ _ _ _)

theorem tickLost_kept (at_ : Nat) (s : State) : Kept s (tickLost at_ s) := by
  unfold tickLost
  extract_lets l1
  have h1 : Kept s l1 := by
    unfold l1
    repeat' first
      | with_reducible exact Kept.refl _
      | with_reducible apply Kept.trans ?_ (State.advanceTo_kept _ _)
  try clear_value l1
  repeat' first
    | with_reducible assumption
    | with_reducible apply Kept.ite (fun _ => ?_) (fun _ => ?_)
    | with_reducible apply Kept.trans ?_ (State.loseTick_kept _ _)

theorem tickStuck_kept (at_ : Nat) (since : Nat) (s : State) : Kept s (tickStuck at_ since s) := by
  unfold tickStuck
  extract_lets l1
  have h1 : Kept s l1 := by
    unfold l1
    repeat' first
      | with_reducible exact Kept.refl _
      | with_reducible apply Kept.trans ?_ (State.advanceTo_kept _ _)
  try clear_value l1
  repeat' first
    | with_reducible assumption
    | with_reducible apply Kept.ite (fun _ => ?_) (fun _ => ?_)
    | with_reducible apply Kept.trans ?_ (State.loseTick_kept _ _)

theorem State.startRun_kept (s : State) (q : Nat) : Kept s (State.startRun s q) := by
  unfold State.startRun
  extract_lets l1 l2 l3
  try clear_value l1
  have h2 : Kept s l2 := by
    unfold l2
    repeat' first
      | with_reducible exact Kept.refl _
      | with_reducible apply Kept.trans ?_ (State.setQuarry_kept _ _ _)
  try clear_value l2
  have h3 : Kept s l3 := by
    unfold l3
    repeat' first
      | with_reducible assumption
      | with_reducible apply Kept.trans ?_ (State.setFld_kept _ _ _ ?_)
      | with_reducible exact Fld.done_soft _
  try clear_value l3
  repeat' first
    | with_reducible assumption
    | with_reducible apply Kept.trans ?_ (Kept.wr _ _ _ ?_)
    | with_reducible exact Reg.strStretchCnt_soft _
    | with_reducible exact Reg.strStretchMax_soft _
    | with_reducible exact Reg.strFaultCnt_soft _

theorem State.stopRun_kept (s : State) (q : Nat) : Kept s (State.stopRun s q) := by
  unfold State.stopRun
  repeat' first
    | with_reducible exact Kept.refl _
    | with_reducible apply Kept.trans ?_ (State.setFld_kept _ _ _ ?_)
    | with_reducible exact Fld.holdover_soft _
    | with_reducible exact Fld.hold_soft _

theorem State.runChange_kept (s : State) (was : Bool) : Kept s (State.runChange s was) := by
  unfold State.runChange
  extract_lets l1
  try clear_value l1
  repeat' first
    | with_reducible exact Kept.refl _
    | with_reducible apply Kept.ite (fun _ => ?_) (fun _ => ?_)
    | with_reducible apply Kept.trans ?_ (State.startRun_kept _ _)
    | with_reducible apply Kept.trans ?_ (State.stopRun_kept _ _)
    | with_reducible apply Kept.fold (fun _ _ => ?_) ?_

theorem State.strWrite_kept (s : State) (off : Nat) (value : Word) (h : ¬Hardwired off) : Kept s (State.strWrite s off value) := by
  unfold State.strWrite
  dsimp only
  refine Kept.ite (fun _ => Kept.ite (fun _ => Kept.refl s) fun _ =>
    ((Kept.wr _ _ _ h).trans (State.runChange_kept ..)).trans (State.driveOut_kept _)) fun _ => ?_
  exact State.setFld_kept _ _ _ (Fld.strCfgReject_soft _)

theorem strConfigWrite_kept (at_ : Nat) (party : Party) (off : Nat) (value : Word) (s : State) : Kept s (strConfigWrite at_ party off value s) := by
  unfold strConfigWrite
  extract_lets l1
  have h1 : Kept s l1 := by
    unfold l1
    repeat' first
      | with_reducible exact Kept.refl _
      | with_reducible apply Kept.trans ?_ (State.advanceTo_kept _ _)
  try clear_value l1
  repeat' first
    | (obtain ⟨hc | hc | hc, _⟩ := ‹(off = Reg.strCtrl ∨ off = Reg.strPeriod ∨ off = Reg.strDomain) ∧ _› <;> rw [hc] <;> first | exact Reg.strCtrl_soft | exact Reg.strPeriod_soft | exact Reg.strDomain_soft)
    | with_reducible assumption
    | with_reducible apply Kept.ite (fun _ => ?_) (fun _ => ?_)
    | with_reducible apply Kept.trans ?_ (State.setFld_kept _ _ _ ?_)
    | with_reducible apply Kept.trans ?_ (State.strWrite_kept _ _ _ ?_)
    | with_reducible exact Fld.hostWrReject_soft
    | split

theorem strCountLoRead_kept (party : Party) (quarry : Nat) (s : State) : Kept s (strCountLoRead party quarry s) := by
  unfold strCountLoRead
  extract_lets l1 l2 l3 l4 l5 l6
  try clear_value l1
  try clear_value l2
  try clear_value l3
  have h4 : Kept s l4 := by
    unfold l4
    repeat' first
      | with_reducible exact Kept.refl _
      | with_reducible apply Kept.trans ?_ (State.setQuarry_kept _ _ _)
  try clear_value l4
  try clear_value l5
  try clear_value l6
  repeat' first
    | with_reducible exact Kept.refl _
    | with_reducible assumption
    | with_reducible apply Kept.ite (fun _ => ?_) (fun _ => ?_)
    | with_reducible apply Kept.mk_ ?_

theorem strCountWrite_kept (party : Party) (quarry : Nat) (hi : Bool) (value : Word) (s : State) : Kept s (strCountWrite party quarry hi value s) := by
  unfold strCountWrite
  extract_lets l1 l2
  try clear_value l1
  try clear_value l2
  repeat' first
    | with_reducible exact Kept.refl _
    | with_reducible apply Kept.ite (fun _ => ?_) (fun _ => ?_)
    | with_reducible apply Kept.trans ?_ (State.setFld_kept _ _ _ ?_)
    | with_reducible apply Kept.trans ?_ (State.setQuarry_kept _ _ _)
    | with_reducible exact Fld.hostWrReject_soft
    | split

end Sys2Proof.Machine
end

