-- ==== Sys2Proof/Laws/KeptStreams.lean ====
section
/-! SUPPORT. Every operation of Machine/Streams.lean keeps what `Kept` says. -/

namespace Sys2Proof.Machine

theorem State.waitOn_kept (s : State) (core : Nat) (n : Nat) (key : Nat) : Kept s (State.waitOn s core n key) := by
  unfold State.waitOn
  extract_lets l1 l2 l3 l4 l5
  try clear_value l1
  try clear_value l2
  have h3 : Kept s l3 := by
    unfold l3
    repeat' first
      | with_reducible exact Kept.refl _
      | with_reducible apply Kept.trans ?_ (State.setStream_kept _ _ _ _)
  try clear_value l3
  try clear_value l4
  try clear_value l5
  repeat' first
    | with_reducible assumption
    | with_reducible apply Kept.ite (fun _ => ?_) (fun _ => ?_)
    | with_reducible apply Kept.mk_ ?_

theorem State.wake_kept (s : State) (core : Nat) (n : Nat) : Kept s (State.wake s core n) := by
  unfold State.wake
  extract_lets l1 l2
  try clear_value l1
  have h2 : Kept s l2 := by
    unfold l2
    repeat' first
      | with_reducible exact Kept.refl _
      | with_reducible apply Kept.trans ?_ (State.setStream_kept _ _ _ _)
  try clear_value l2
  repeat' first
    | with_reducible assumption
    | with_reducible apply Kept.trans ?_ (State.closeDonations_kept _ _)

theorem State.senseWaits_kept (s : State) (key : Nat) : Kept s (State.senseWaits s key) := by
  unfold State.senseWaits
  repeat' first
    | with_reducible exact Kept.refl _
    | with_reducible apply Kept.trans ?_ (State.mapStreams_kept _ _)

theorem State.takeWait_kept (s : State) (core : Nat) (d : Nat) : Kept s (State.takeWait s core d) := by
  unfold State.takeWait
  extract_lets l1 l2
  try clear_value l1
  try clear_value l2
  repeat' first
    | with_reducible exact Kept.refl _
    | with_reducible apply Kept.ite (fun _ => ?_) (fun _ => ?_)
    | with_reducible apply Kept.trans ?_ (State.senseWaits_kept _ _)
    | with_reducible apply Kept.trans ?_ (State.setSem_kept _ _ _)

theorem State.semAdd_kept (s : State) (k : Nat) (v : Nat) : Kept s (State.semAdd s k v).1 := by
  unfold State.semAdd
  extract_lets l1 l2
  try clear_value l1
  try clear_value l2
  repeat' first
    | with_reducible exact Kept.refl _
    | with_reducible apply Kept.trans ?_ (State.setSem_kept _ _ _)
    | split

theorem State.semSet_kept (s : State) (k : Nat) (v : Nat) : Kept s (State.semSet s k v) := by
  unfold State.semSet
  extract_lets l1
  try clear_value l1
  repeat' first
    | with_reducible exact Kept.refl _
    | with_reducible apply Kept.trans ?_ (State.setSem_kept _ _ _)

theorem State.signalOne_kept (s : State) (c : Nat) (core : Nat) (desc : Nat) (ref : Nat) (v : Nat) (set : Bool) : Kept s (State.signalOne s c core desc ref v set).1 := by
  unfold State.signalOne
  extract_lets l1 l2
  try clear_value l1
  have h2 : Kept s l2.1 := by
    unfold l2
    repeat' first
      | with_reducible exact Kept.refl _
      | with_reducible apply Kept.trans ?_ (State.semAdd_kept _ _ _)
  try clear_value l2
  repeat' first
    | with_reducible exact Kept.refl _
    | with_reducible assumption
    | with_reducible apply Kept.trans ?_ (State.ctxError_kept _ _ _ _ _)
    | with_reducible apply Kept.trans ?_ (State.semSet_kept _ _ _)
    | split

theorem State.signalHeader_kept (s : State) (c : Nat) (core : Nat) (desc : Nat) : Kept s (State.signalHeader s c core desc) := by
  unfold State.signalHeader
  repeat' first
    | with_reducible exact Kept.refl _
    | with_reducible apply Kept.ite (fun _ => ?_) (fun _ => ?_)
    | with_reducible apply Kept.trans ?_ (State.signalOne_kept _ _ _ _ _ _ _)

theorem prefetch_kept (core c : Nat) (st : Stream) (n pc : Nat) : KeptE (prefetch core c st n pc) := by
  induction n generalizing pc with
  | zero => exact KeptE.pure _
  | succ n ih =>
    unfold prefetch
    refine KeptE.ite (fun _ => ?_) (fun _ => KeptE.pure _)
    split
    · exact KeptE.bind (ih _) fun _ => KeptE.pure _
    · refine KeptE.intro fun s => ?_
      have h := readCopy_kept core c ⟨true, pc⟩ 64 none s
      split
      · rename_i e; rw [e] at h
        exact h.trans (KeptE.bind (ih _) (fun _ => KeptE.pure _) _)
      · rename_i e; rw [e] at h; exact h

theorem fetchHead_kept (core : Nat) (st : Stream) : KeptE (fetchHead core st) := by
  unfold fetchHead
  repeat' first
    | with_reducible exact KeptE.pure _
    | with_reducible apply KeptE.bind ?_ (fun _ => ?_)
    | with_reducible exact prefetch_kept _ _ _ _ _
    | with_reducible exact readCopy_kept _ _ _ _ _
    | split

theorem descriptorIssue_kept (at_ : Nat) (core : Nat) (stream : Nat) (s : State) : Kept s (descriptorIssue at_ core stream s) := by
  unfold descriptorIssue
  extract_lets l1 l2
  have h1 : Kept s l1 := by
    unfold l1
    repeat' first
      | with_reducible exact Kept.refl _
      | with_reducible apply Kept.trans ?_ (State.advanceTo_kept _ _)
  try clear_value l1
  try clear_value l2
  repeat' first
    | with_reducible assumption
    | with_reducible apply Kept.ite (fun _ => ?_) (fun _ => ?_)
    | with_reducible apply Kept.trans ?_ (State.ctxError_kept _ _ _ _ _)
    | with_reducible apply Kept.trans ?_ (State.raiseCtx_kept _ _ _)
    | with_reducible apply Kept.trans ?_ (State.setStream_kept _ _ _ _)
    | apply Kept.trans ?_ (KeptE.result (fetchHead_kept _ _) (by with_reducible assumption))
    | split

theorem State.goTo_kept (s : State) (core : Nat) (n : Nat) (pc : Nat) : Kept s (State.goTo s core n pc) := by
  unfold State.goTo
  extract_lets l1
  try clear_value l1
  repeat' first
    | with_reducible exact Kept.refl _
    | with_reducible apply Kept.trans ?_ (State.setStream_kept _ _ _ _)

theorem State.goOn_kept (s : State) (core : Nat) (n : Nat) : Kept s (State.goOn s core n) := by
  unfold State.goOn
  repeat' first
    | with_reducible exact Kept.refl _
    | with_reducible apply Kept.trans ?_ (State.goTo_kept _ _ _ _)

theorem State.assaySelect_kept (s : State) (core : Nat) (c : Nat) (d : Nat) (count : BitVec 48) : Kept s (State.assaySelect s core c d count).1 := by
  unfold State.assaySelect
  extract_lets l1 l2 l3
  try clear_value l1
  try clear_value l2
  have h3 : Kept s l3 := by
    unfold l3
    repeat' first
      | with_reducible exact Kept.refl _
      | with_reducible apply Kept.ite (fun _ => ?_) (fun _ => ?_)
      | with_reducible apply Kept.mk_ ?_
  try clear_value l3
  repeat' first
    | with_reducible exact Kept.refl _
    | with_reducible assumption
    | with_reducible apply Kept.ite (fun _ => ?_) (fun _ => ?_)
    | with_reducible apply Kept.trans ?_ (State.bump_kept _ _ _ ?_)
    | with_reducible exact Fld.assaySkip_soft
    | split

theorem State.takeOrdinal_kept (s : State) (core : Nat) (d : Nat) : Kept s (State.takeOrdinal s core d).2 := by
  unfold State.takeOrdinal
  extract_lets l1 l2
  try clear_value l1
  try clear_value l2
  repeat' first
    | with_reducible exact Kept.refl _
    | split
    | with_reducible apply Kept.mk_ ?_

theorem State.beginTile_kept (s : State) (t : Tile) : Kept s (State.beginTile s t) := by
  unfold State.beginTile
  extract_lets l1 l2 l3 l4 l5 l6 l7 l8
  have h1 : Kept s l1.2 := by
    unfold l1
    repeat' first
      | with_reducible exact Kept.refl _
      | with_reducible apply Kept.trans ?_ (State.takeOrdinal_kept _ _ _)
  try clear_value l1
  have h2 : Kept s l2 := by
    unfold l2
    repeat' first
      | with_reducible assumption
  try clear_value l2
  try clear_value l3
  have h4 : Kept s l4.1 := by
    unfold l4
    repeat' first
      | with_reducible assumption
      | with_reducible apply Kept.trans ?_ (State.assaySelect_kept _ _ _ _ _)
  try clear_value l4
  have h5 : Kept s l5 := by
    unfold l5
    repeat' first
      | with_reducible assumption
  try clear_value l5
  try clear_value l6
  try clear_value l7
  try clear_value l8
  repeat' first
    | with_reducible assumption
    | with_reducible apply Kept.mk_ ?_

theorem State.startTile_kept (s : State) (core : Nat) (n : Nat) (e : Engine) : Kept s (State.startTile s core n e) := by
  unfold State.startTile
  extract_lets l1 l2 l3 l4
  try clear_value l1
  have h2 : Kept s l2 := by
    unfold l2
    repeat' first
      | with_reducible exact Kept.refl _
      | with_reducible apply Kept.ite (fun _ => ?_) (fun _ => ?_)
      | with_reducible apply Kept.trans ?_ (State.takeWait_kept _ _ _)
  try clear_value l2
  try clear_value l3
  have h4 : Kept s l4 := by
    unfold l4
    repeat' first
      | with_reducible assumption
      | with_reducible apply Kept.trans ?_ (State.setStream_kept _ _ _ _)
  try clear_value l4
  repeat' first
    | with_reducible assumption
    | with_reducible apply Kept.trans ?_ (State.beginTile_kept _ _)

theorem State.startPlaced_kept (s : State) (t : Tile) : Kept s (State.startPlaced s t) := by
  unfold State.startPlaced
  repeat' first
    | with_reducible exact Kept.refl _
    | with_reducible apply Kept.trans ?_ (State.beginTile_kept _ _)
    | with_reducible apply Kept.trans ?_ (State.dropTile_kept _ _ _)

theorem State.pickFrom_kept (s : State) (core : Nat) (e : Engine) (n : Nat) : Kept s (State.pickFrom s core e n) := by
  induction n generalizing s with
  | zero => exact Kept.refl s
  | succ n ih =>
    unfold State.pickFrom
    split
    · exact Kept.refl s
    · refine Kept.ite (fun _ => State.startTile_kept ..) fun _ => Kept.ite (fun _ => ?_) fun _ =>
        Kept.ite (fun _ => Kept.ite (fun _ => Kept.refl s) fun _ => State.startTile_kept ..) fun _ => ?_
      · exact (State.ctxError_kept ..).trans (ih _)
      · exact (State.waitOn_kept ..).trans (ih _)

theorem tilePick_kept (at_ : Nat) (core : Nat) (engine : Engine) (s : State) : Kept s (tilePick at_ core engine s) := by
  unfold tilePick
  extract_lets l1
  have h1 : Kept s l1 := by
    unfold l1
    repeat' first
      | with_reducible exact Kept.refl _
      | with_reducible apply Kept.trans ?_ (State.advanceTo_kept _ _)
  try clear_value l1
  repeat' first
    | with_reducible assumption
    | with_reducible apply Kept.ite (fun _ => ?_) (fun _ => ?_)
    | with_reducible apply Kept.trans ?_ (State.startPlaced_kept _ _)
    | with_reducible apply Kept.trans ?_ (State.pickFrom_kept _ _ _ _)
    | split

theorem State.enqueue_kept (s : State) (core : Nat) (n : Nat) : Kept s (State.enqueue s core n) := by
  unfold State.enqueue
  extract_lets l1 l2 l3 l4
  try clear_value l1
  try clear_value l2
  try clear_value l3
  try clear_value l4
  repeat' first
    | with_reducible exact Kept.refl _
    | split
    | with_reducible apply Kept.mk_ ?_

theorem queueAdmission_kept (at_ : Nat) (core : Nat) (stream : Nat) (s : State) : Kept s (queueAdmission at_ core stream s) := by
  unfold queueAdmission
  extract_lets l1 l2 l3 l4 l5
  have h1 : Kept s l1 := by
    unfold l1
    repeat' first
      | with_reducible exact Kept.refl _
      | with_reducible apply Kept.trans ?_ (State.advanceTo_kept _ _)
  try clear_value l1
  try clear_value l2
  have h3 : Kept s l3 := by
    unfold l3
    repeat' first
      | with_reducible assumption
      | with_reducible apply Kept.ite (fun _ => ?_) (fun _ => ?_)
      | with_reducible apply Kept.trans ?_ (State.wake_kept _ _ _)
  try clear_value l3
  try clear_value l4
  try clear_value l5
  repeat' first
    | with_reducible assumption
    | with_reducible apply Kept.ite (fun _ => ?_) (fun _ => ?_)
    | with_reducible apply Kept.trans ?_ (State.setStream_kept _ _ _ _)
    | with_reducible apply Kept.trans ?_ (State.ctxError_kept _ _ _ _ _)
    | with_reducible apply Kept.trans ?_ (State.goOn_kept _ _ _)
    | with_reducible apply Kept.trans ?_ (State.enqueue_kept _ _ _)
    | with_reducible apply Kept.trans ?_ (State.takeWait_kept _ _ _)
    | with_reducible apply Kept.trans ?_ (State.waitOn_kept _ _ _ _)

theorem State.rewait_kept (s : State) (key : Nat) (sk : Nat) : Kept s (State.rewait s key sk) := by
  unfold State.rewait
  extract_lets l1 l2 l3
  try clear_value l1
  try clear_value l2
  try clear_value l3
  repeat' first
    | with_reducible exact Kept.refl _
    | with_reducible apply Kept.ite (fun _ => ?_) (fun _ => ?_)
    | with_reducible apply Kept.trans ?_ (State.ctxError_kept _ _ _ _ _)
    | with_reducible apply Kept.trans ?_ (State.wake_kept _ _ _)

theorem State.rewaitAll_kept (s : State) (key : Nat) : Kept s (State.rewaitAll s key) := by
  unfold State.rewaitAll
  repeat' first
    | with_reducible exact Kept.refl _
    | with_reducible apply Kept.trans ?_ (State.senseWaits_kept _ _)
    | with_reducible apply Kept.trans ?_ (State.rewait_kept _ _ _)
    | with_reducible apply Kept.fold (fun _ _ => ?_) ?_

theorem semaphoreWake_kept (at_ : Nat) (key : Nat) (s : State) : Kept s (semaphoreWake at_ key s) := by
  unfold semaphoreWake
  repeat' first
    | with_reducible exact Kept.refl _
    | with_reducible apply Kept.trans ?_ (State.rewaitAll_kept _ _)
    | with_reducible apply Kept.trans ?_ (State.advanceTo_kept _ _)

theorem State.postJobEnd_kept (s : State) (c : Nat) (status : Nat) : Kept s (State.postJobEnd s c status) := by
  unfold State.postJobEnd
  extract_lets l1 l2 l3
  try clear_value l1
  try clear_value l2
  try clear_value l3
  repeat' first
    | with_reducible exact Kept.refl _
    | with_reducible apply Kept.trans ?_ (State.post_kept _ _)

theorem State.idleStreams_kept (s : State) (c : Nat) : Kept s (State.idleStreams s c) := by
  unfold State.idleStreams
  repeat' first
    | with_reducible exact Kept.refl _
    | with_reducible apply Kept.trans ?_ (State.mapStreams_kept _ _)
    | with_reducible apply Kept.trans ?_ (State.closeDonations_kept _ _)

theorem State.endJob_kept (s : State) (c : Nat) (status : Nat) : Kept s (State.endJob s c status) := by
  unfold State.endJob
  extract_lets l1 l2
  have h1 : Kept s l1 := by
    unfold l1
    repeat' first
      | with_reducible exact Kept.refl _
      | with_reducible apply Kept.trans ?_ (State.postJobEnd_kept _ _ _)
  try clear_value l1
  try clear_value l2
  repeat' first
    | with_reducible exact Kept.refl _
    | with_reducible assumption
    | with_reducible apply Kept.ite (fun _ => ?_) (fun _ => ?_)
    | with_reducible apply Kept.trans ?_ (State.idleStreams_kept _ _)
    | with_reducible apply Kept.trans ?_ (State.endSequences_kept _ _)
    | with_reducible apply Kept.trans ?_ (State.setCtx_kept _ _ _)

theorem State.control_kept (s : State) (core : Nat) (n : Nat) (op : Nat) (act : Nat → State → State) (h_act : ∀ x0 x1, Kept x1 (act x0 x1)) : Kept s (State.control s core n op act) := by
  unfold State.control
  extract_lets l1 l2
  try clear_value l1
  try clear_value l2
  repeat' first
    | with_reducible exact Kept.refl _
    | with_reducible apply Kept.ite (fun _ => ?_) (fun _ => ?_)
    | with_reducible apply Kept.trans ?_ (State.ctxError_kept _ _ _ _ _)
    | with_reducible apply Kept.trans ?_ (State.takeWait_kept _ _ _)
    | with_reducible apply Kept.trans ?_ (State.waitOn_kept _ _ _ _)
    | with_reducible apply Kept.trans ?_ (h_act _ _)

theorem waitCtl_kept (at_ : Nat) (core : Nat) (stream : Nat) (s : State) : Kept s (waitCtl at_ core stream s) := by
  unfold waitCtl
  repeat' first
    | with_reducible exact Kept.refl _
    | with_reducible apply Kept.trans ?_ (State.control_kept (h_act := fun _ _ => ?_) _ _ _ _ _)
    | with_reducible apply Kept.trans ?_ (State.advanceTo_kept _ _)
    | with_reducible apply Kept.trans ?_ (State.goOn_kept _ _ _)

theorem State.signals_kept (s : State) (c core desc : Nat) (l : List (Nat × Nat × Bool)) :
    Kept s (State.signals s c core desc l).1 := by
  induction l generalizing s with
  | nil => exact Kept.refl s
  | cons t r ih =>
    unfold State.signals
    have h := State.signalOne_kept s c core desc t.1 t.2.1 t.2.2
    extract_lets x
    split
    · exact h.trans (ih _)
    · exact h

theorem signalCtl_kept (at_ : Nat) (core : Nat) (stream : Nat) (s : State) : Kept s (signalCtl at_ core stream s) := by
  unfold signalCtl
  repeat' first
    | with_reducible exact Kept.refl _
    | with_reducible apply Kept.ite (fun _ => ?_) (fun _ => ?_)
    | with_reducible apply Kept.trans ?_ (State.control_kept (h_act := fun _ _ => ?_) _ _ _ _ _)
    | with_reducible apply Kept.trans ?_ (State.advanceTo_kept _ _)
    | with_reducible apply Kept.trans ?_ (State.signals_kept _ _ _ _ _)
    | with_reducible apply Kept.trans ?_ (State.goOn_kept _ _ _)

theorem loopCtl_kept (at_ : Nat) (core : Nat) (stream : Nat) (s : State) : Kept s (loopCtl at_ core stream s) := by
  unfold loopCtl
  repeat' first
    | with_reducible exact Kept.refl _
    | with_reducible apply Kept.ite (fun _ => ?_) (fun _ => ?_)
    | with_reducible apply Kept.trans ?_ (State.control_kept (h_act := fun _ _ => ?_) _ _ _ _ _)
    | with_reducible apply Kept.trans ?_ (State.advanceTo_kept _ _)
    | with_reducible apply Kept.trans ?_ (State.setStream_kept _ _ _ _)
    | with_reducible apply Kept.trans ?_ (State.goOn_kept _ _ _)
    | with_reducible apply Kept.trans ?_ (State.goTo_kept _ _ _ _)

theorem branchCtl_kept (at_ : Nat) (core : Nat) (stream : Nat) (s : State) : Kept s (branchCtl at_ core stream s) := by
  unfold branchCtl
  repeat' first
    | with_reducible exact Kept.refl _
    | with_reducible apply Kept.ite (fun _ => ?_) (fun _ => ?_)
    | with_reducible apply Kept.trans ?_ (State.control_kept (h_act := fun _ _ => ?_) _ _ _ _ _)
    | with_reducible apply Kept.trans ?_ (State.advanceTo_kept _ _)
    | with_reducible apply Kept.trans ?_ (State.ctxError_kept _ _ _ _ _)
    | with_reducible apply Kept.trans ?_ (State.goTo_kept _ _ _ _)
    | with_reducible apply Kept.trans ?_ (State.goOn_kept _ _ _)

theorem yieldCtl_kept (at_ : Nat) (core : Nat) (stream : Nat) (s : State) : Kept s (yieldCtl at_ core stream s) := by
  unfold yieldCtl
  repeat' first
    | with_reducible exact Kept.refl _
    | with_reducible apply Kept.trans ?_ (State.control_kept (h_act := fun _ _ => ?_) _ _ _ _ _)
    | with_reducible apply Kept.trans ?_ (State.advanceTo_kept _ _)
    | with_reducible apply Kept.trans ?_ (State.setStream_kept _ _ _ _)

theorem endCtl_kept (at_ : Nat) (core : Nat) (stream : Nat) (s : State) : Kept s (endCtl at_ core stream s) := by
  unfold endCtl
  repeat' first
    | with_reducible exact Kept.refl _
    | with_reducible apply Kept.ite (fun _ => ?_) (fun _ => ?_)
    | with_reducible apply Kept.trans ?_ (State.control_kept (h_act := fun _ _ => ?_) _ _ _ _ _)
    | with_reducible apply Kept.trans ?_ (State.advanceTo_kept _ _)
    | with_reducible apply Kept.trans ?_ (State.setStream_kept _ _ _ _)
    | with_reducible apply Kept.trans ?_ (State.endJob_kept _ _ _)
    | with_reducible apply Kept.trans ?_ (State.setFld_kept _ _ _ ?_)
    | with_reducible exact Fld.ctxState_soft _

theorem State.finishTile_kept (s : State) (t : Tile) : Kept s (State.finishTile s t) := by
  unfold State.finishTile
  extract_lets l1 l2 l3 l4 l5
  have h1 : Kept s l1 := by
    unfold l1
    repeat' first
      | with_reducible exact Kept.refl _
      | with_reducible apply Kept.trans ?_ (State.dropTile_kept _ _ _)
  try clear_value l1
  try clear_value l2
  have h3 : Kept s l3 := by
    unfold l3
    repeat' first
      | with_reducible assumption
      | with_reducible apply Kept.mk_ ?_
  try clear_value l3
  try clear_value l4
  have h5 : Kept s l5 := by
    unfold l5
    repeat' first
      | with_reducible assumption
      | with_reducible apply Kept.trans ?_ (State.absorb_kept _ _ _ _ _ _ _ _)
  try clear_value l5
  repeat' first
    | with_reducible assumption
    | with_reducible apply Kept.trans ?_ (State.raiseCtx_kept _ _ _)
    | with_reducible apply Kept.trans ?_ (State.signalHeader_kept _ _ _ _)
    | with_reducible apply Kept.trans ?_ (State.goOn_kept _ _ _)
    | split

theorem tileFinish_kept (at_ : Nat) (core : Nat) (stream : Nat) (s : State) : Kept s (tileFinish at_ core stream s) := by
  unfold tileFinish
  extract_lets l1
  have h1 : Kept s l1 := by
    unfold l1
    repeat' first
      | with_reducible exact Kept.refl _
      | with_reducible apply Kept.trans ?_ (State.advanceTo_kept _ _)
  try clear_value l1
  repeat' first
    | with_reducible assumption
    | with_reducible apply Kept.ite (fun _ => ?_) (fun _ => ?_)
    | with_reducible apply Kept.trans ?_ (State.dropTile_kept _ _ _)
    | with_reducible apply Kept.trans ?_ (State.setStream_kept _ _ _ _)
    | with_reducible apply Kept.trans ?_ (State.setTile_kept _ _)
    | with_reducible apply Kept.trans ?_ (State.finishTile_kept _ _)
    | split

theorem tileGuard_kept (at_ : Nat) (core : Nat) (stream : Nat) (s : State) : Kept s (tileGuard at_ core stream s) := by
  unfold tileGuard
  extract_lets l1
  have h1 : Kept s l1 := by
    unfold l1
    repeat' first
      | with_reducible exact Kept.refl _
      | with_reducible apply Kept.trans ?_ (State.advanceTo_kept _ _)
  try clear_value l1
  repeat' first
    | with_reducible assumption
    | with_reducible apply Kept.ite (fun _ => ?_) (fun _ => ?_)
    | with_reducible apply Kept.trans ?_ (State.setTile_kept _ _)
    | with_reducible apply Kept.trans ?_ (State.ctxError_kept _ _ _ _ _)
    | split

theorem coreHang_kept (at_ : Nat) (core : Nat) (s : State) : Kept s (coreHang at_ core s) := by
  unfold coreHang
  extract_lets l1
  have h1 : Kept s l1 := by
    unfold l1
    repeat' first
      | with_reducible exact Kept.refl _
      | with_reducible apply Kept.trans ?_ (State.advanceTo_kept _ _)
  try clear_value l1
  repeat' first
    | with_reducible assumption
    | with_reducible apply Kept.trans ?_ (State.raiseInHandling_kept _ _ _)
    | with_reducible apply Kept.trans ?_ (State.raise_kept _ _)
    | split

theorem putTile_kept (t : Tile) (f : Tile → Tile) : KeptE (putTile t f) := by
  unfold putTile
  repeat' first
    | with_reducible exact Kept.refl _
    | with_reducible apply Kept.trans ?_ (State.setTile_kept _ _)
    | with_reducible apply KeptE.doState (fun _ => ?_)

theorem noteElements_kept (t : Tile) (count : Bool) (l : List (Nat × BitVec 6)) : KeptE (noteElements t count l) := by
  unfold noteElements
  repeat' first
    | with_reducible exact putTile_kept _ _

theorem State.beginLog_kept (s : State) (t : Tile) : Kept s (State.beginLog s t) := by
  unfold State.beginLog
  repeat' first
    | with_reducible exact Kept.refl _
    | with_reducible apply Kept.ite (fun _ => ?_) (fun _ => ?_)
    | with_reducible apply Kept.trans ?_ (State.logged_kept _)

theorem State.endLog_kept (s : State) (t : Tile) : Kept s (State.endLog s t).1 := by
  unfold State.endLog
  extract_lets l1
  try clear_value l1
  repeat' first
    | with_reducible exact Kept.refl _
    | with_reducible apply Kept.mk_ ?_

theorem State.runTile_kept (s : State) (core : Nat) (stream : Nat) (op : Nat) (work : Tile → Exec Tally) (clean : optParam (Tile → Exec Tally) work) (h_work : ∀ x0, KeptE (work x0)) : Kept s (State.runTile s core stream op work clean) := by
  unfold State.runTile
  repeat' first
    | with_reducible exact Kept.refl _
    | with_reducible apply Kept.ite (fun _ => ?_) (fun _ => ?_)
    | with_reducible apply Kept.trans ?_ (State.beginLog_kept _ _)
    | with_reducible apply Kept.trans ?_ (State.endLog_kept _ _)
    | with_reducible apply Kept.trans ?_ (State.setTile_kept _ _)
    | with_reducible apply Kept.trans ?_ (State.raiseCtx_kept _ _ _)
    | with_reducible apply Kept.trans ?_ (State.capture_kept _ _ _ _ _ _ _ _)
    | apply Kept.trans ?_ (KeptE.result (h_work _) (by with_reducible assumption))
    | split

end Sys2Proof.Machine
end

