-- ==== Sys2Proof/Laws/KeptMatrix.lean ====
section
/-! SUPPORT. Every operation of Machine/Matrix.lean keeps what `Kept` says. -/

namespace Sys2Proof.Machine

theorem lsNumber_kept (core : Nat) (c : Nat) (off : Nat) (n : Nat) : KeptE (lsNumber core c off n) := by
  unfold lsNumber
  repeat' first
    | with_reducible exact KeptE.pure _
    | with_reducible apply KeptE.bind ?_ (fun _ => ?_)
    | with_reducible exact readUse_kept _ _ _ _ _

theorem lsFloats_kept (core : Nat) (c : Nat) (off : Nat) (n : Nat) : KeptE (lsFloats core c off n) := by
  unfold lsFloats
  repeat' first
    | with_reducible exact KeptE.pure _
    | with_reducible apply KeptE.bind ?_ (fun _ => ?_)
    | with_reducible exact readUse_kept _ _ _ _ _

theorem readMatParam_kept (core : Nat) (c : Nat) (b : MatBody) (ew : Bool) (epi : Bool) : KeptE (readMatParam core c b ew epi) := by
  unfold readMatParam
  repeat' first
    | with_reducible exact KeptE.pure _
    | with_reducible exact KeptE.ask _
    | with_reducible exact KeptE.check _ _
    | with_reducible apply KeptE.bind ?_ (fun _ => ?_)
    | with_reducible exact lsNumber_kept _ _ _ _

theorem liveOf_kept (core : Nat) (c : Nat) (en : Bool) (off : Nat) (count : Nat) : KeptE (liveOf core c en off count) := by
  unfold liveOf
  repeat' first
    | with_reducible exact KeptE.pure _
    | with_reducible apply KeptE.bind ?_ (fun _ => ?_)
    | with_reducible apply KeptE.ite (fun _ => ?_) (fun _ => ?_)
    | with_reducible exact lsNumber_kept _ _ _ _

theorem fetchRow_kept (core : Nat) (c : Nat) (o : MatOperand) (row : Nat) (k0 : Nat) (n : Nat) : KeptE (fetchRow core c o row k0 n) := by
  unfold fetchRow
  extract_lets l1
  try clear_value l1
  repeat' first
    | with_reducible exact KeptE.pure _
    | with_reducible apply KeptE.bind ?_ (fun _ => ?_)
    | with_reducible apply KeptE.ite (fun _ => ?_) (fun _ => ?_)
    | with_reducible exact readTell_kept _ _ _ _ _

theorem probeOperand_kept (core : Nat) (c : Nat) (o : MatOperand) (rows : List Nat) (n : Nat) : KeptE (probeOperand core c o rows n) := by
  unfold probeOperand
  repeat' first
    | with_reducible exact KeptE.pure _
    | with_reducible apply KeptE.bind ?_ (fun _ => ?_)
    | with_reducible apply KeptE.ite (fun _ => ?_) (fun _ => ?_)
    | with_reducible apply KeptE.each (fun _ => ?_)
    | with_reducible exact probeTier_kept _ _ _ _ _

theorem probeOut_kept (core : Nat) (c : Nat) (b : MatBody) (p : MatParam) (rows : List Nat) : KeptE (probeOut core c b p rows) := by
  unfold probeOut
  repeat' first
    | with_reducible exact probeOperand_kept _ _ _ _ _

theorem lsEntries_kept (core : Nat) (c : Nat) (off : Nat) (n : Nat) (live : List Nat) : KeptE (lsEntries core c off n live) := by
  unfold lsEntries
  repeat' first
    | with_reducible exact KeptE.pure _
    | with_reducible apply KeptE.bind ?_ (fun _ => ?_)
    | with_reducible apply KeptE.ite (fun _ => ?_) (fun _ => ?_)
    | with_reducible apply KeptE.collect (fun _ => ?_)
    | with_reducible exact lsFloats_kept _ _ _ _

theorem readEpi_kept (t : Tile) (b : MatBody) (p : MatParam) (rows : List Nat) (cols : List Nat) : KeptE (readEpi t b p rows cols) := by
  unfold readEpi
  extract_lets l1
  have h1 : ∀ x0, KeptE (l1 x0) := by
    intro _
    unfold l1
    repeat' first
      | with_reducible exact KeptE.pure _
      | with_reducible exact KeptE.ask _
      | with_reducible apply KeptE.bind ?_ (fun _ => ?_)
      | with_reducible apply KeptE.ite (fun _ => ?_) (fun _ => ?_)
      | with_reducible exact lsEntries_kept _ _ _ _ _
  repeat' first
    | with_reducible exact h1 _
    | with_reducible exact KeptE.pure _
    | with_reducible apply KeptE.bind ?_ (fun _ => ?_)
    | with_reducible apply KeptE.ite (fun _ => ?_) (fun _ => ?_)
    | with_reducible exact lsEntries_kept _ _ _ _ _

theorem epiElement_kept (x : Epi) (i : Nat) (j : Nat) (acc : Num) (fl : BitVec 6) : KeptE (epiElement x i j acc fl) := by
  unfold epiElement
  extract_lets l1 l2 l3 l4 l5 l6
  try clear_value l1
  try clear_value l2
  try clear_value l3
  try clear_value l4
  try clear_value l5
  try clear_value l6
  repeat' first
    | with_reducible exact KeptE.pure _
    | with_reducible apply KeptE.bind ?_ (fun _ => ?_)
    | with_reducible apply KeptE.ite (fun _ => ?_) (fun _ => ?_)
    | with_reducible exact activate_kept _ _

theorem epiRow_kept (t : Tile) (x : Epi) (bn : Nat) (i : Nat) (l : List (Nat × NumF)) : KeptE (epiRow t x bn i l) := by
  unfold epiRow
  extract_lets l1 l2 l3 l4 l5
  try clear_value l1
  try clear_value l2
  try clear_value l3
  try clear_value l4
  try clear_value l5
  repeat' first
    | with_reducible exact KeptE.pure _
    | with_reducible apply KeptE.bind ?_ (fun _ => ?_)
    | with_reducible apply KeptE.ite (fun _ => ?_) (fun _ => ?_)
    | with_reducible apply KeptE.each (fun _ => ?_)
    | with_reducible exact writeMem_kept _ _ _ _ _ _

theorem epiBlock_kept (t : Tile) (x : Epi) (bn : Nat) (rows : List Nat) (cols : List Nat) (acc : Nat → Nat → NumF) (y : Tally × Num) : KeptE (epiBlock t x bn rows cols acc y) := by
  unfold epiBlock
  repeat' first
    | with_reducible exact KeptE.pure _
    | with_reducible apply KeptE.bind ?_ (fun _ => ?_)
    | with_reducible apply KeptE.collect (fun _ => ?_)
    | with_reducible apply KeptE.fold (fun _ _ => ?_)
    | with_reducible exact epiElement_kept _ _ _ _ _
    | with_reducible exact epiRow_kept _ _ _ _ _

theorem writeAmax_kept (core : Nat) (c : Nat) (off : Nat) (a : Num) : KeptE (writeAmax core c off a) := by
  unfold writeAmax
  repeat' first
    | with_reducible apply KeptE.bind ?_ (fun _ => ?_)
    | with_reducible exact lsFloats_kept _ _ _ _
    | with_reducible exact writeMem_kept _ _ _ _ _ _

theorem endAmax_kept (core : Nat) (c : Nat) (on : Bool) (off : Nat) (y : Tally × Num) : KeptE (endAmax core c on off y) := by
  unfold endAmax
  extract_lets l1
  try clear_value l1
  repeat' first
    | with_reducible exact KeptE.pure _
    | with_reducible apply KeptE.bind ?_ (fun _ => ?_)
    | with_reducible apply KeptE.ite (fun _ => ?_) (fun _ => ?_)
    | with_reducible exact writeAmax_kept _ _ _ _

theorem State.setAccNum_kept (s : State) (core : Nat) (slot : Nat) (i : Nat) (j : Nat) (v : Num) : Kept s (State.setAccNum s core slot i j v) := by
  unfold State.setAccNum
  repeat' first
    | with_reducible exact Kept.refl _
    | with_reducible apply Kept.trans ?_ (State.setAcc_kept _ _ _ _ _ _)

theorem State.flagRows_kept (s : State) (core : Nat) (slot : Nat) (p : Bool) (l : List Nat) : Kept s (State.flagRows s core slot p l) := by
  unfold State.flagRows
  repeat' first
    | with_reducible exact Kept.refl _
    | with_reducible apply Kept.trans ?_ (State.setAccPoison_kept _ _ _ _ _)
    | with_reducible apply Kept.fold (fun _ _ => ?_) ?_

theorem seeRows_kept (core : Nat) (slot : Nat) (l : List Nat) : KeptE (seeRows core slot l) := by
  unfold seeRows
  repeat' first
    | with_reducible exact Kept.refl _
    | with_reducible apply Kept.trans ?_ (State.localFound_kept (h_mark := fun _ => ?_) _ _ _ _)
    | with_reducible apply Kept.trans ?_ (State.setAccPoison_kept _ _ _ _ _)
    | with_reducible apply KeptE.each (fun _ => ?_)
    | with_reducible apply KeptE.doState (fun _ => ?_)

theorem State.freshRows_kept (s : State) (core : Nat) (slot : Nat) (l : List Nat) : Kept s (State.freshRows s core slot l) := by
  unfold State.freshRows
  extract_lets l1 l2 l3
  repeat' first
    | with_reducible exact Kept.refl _
    | with_reducible apply Kept.trans ?_ (State.flagRows_kept _ _ _ _ _)
    | refine Kept.mem_ ?_ (fun h => Memory.wf_iff.2 { Memory.wf_iff.1 h with localLatent := SMap.wf_foldl_put _ _ _ (Memory.wf_iff.1 h).localLatent })

theorem matPass_kept (r : MatRun) (rows : List Nat) (cols : List Nat) (slot : Nat) (n : Nat) (p : Nat) (shared_ : Bool) (y : Tally × (Nat → Nat → BitVec 6)) : KeptE (matPass r rows cols slot n p shared_ y) := by
  unfold matPass
  extract_lets l1 l2 l3 l4 l5 l6
  try clear_value l1
  try clear_value l2
  try clear_value l3
  try clear_value l4
  try clear_value l5
  try clear_value l6
  repeat' first
    | with_reducible exact Kept.refl _
    | with_reducible apply Kept.trans ?_ (State.flagRows_kept _ _ _ _ _)
    | with_reducible apply Kept.trans ?_ (State.freshRows_kept _ _ _ _)
    | with_reducible apply Kept.trans ?_ (State.setAccNum_kept _ _ _ _ _ _)
    | with_reducible exact KeptE.pure _
    | with_reducible exact KeptE.stop _
    | with_reducible exact KeptE.ask _
    | with_reducible exact KeptE.check _ _
    | with_reducible apply KeptE.bind ?_ (fun _ => ?_)
    | with_reducible apply KeptE.ite (fun _ => ?_) (fun _ => ?_)
    | with_reducible apply KeptE.collect (fun _ => ?_)
    | with_reducible apply KeptE.doState (fun _ => ?_)
    | with_reducible exact fetchRow_kept _ _ _ _ _ _
    | with_reducible exact seeRows_kept _ _ _
    | with_reducible apply Kept.fold (fun _ _ => ?_) ?_
    | split

theorem matBlock_kept (r : MatRun) (x : Option Epi) (rows : List Nat) (cols : List Nat) (bm : Nat) (bn : Nat) (y : Tally × Num) : KeptE (matBlock r x rows cols bm bn y) := by
  unfold matBlock
  extract_lets l1 l2 l3 l4 l5
  try clear_value l1
  try clear_value l2
  try clear_value l3
  try clear_value l4
  try clear_value l5
  repeat' first
    | with_reducible exact KeptE.pure _
    | with_reducible exact KeptE.ask _
    | with_reducible apply KeptE.bind ?_ (fun _ => ?_)
    | with_reducible apply KeptE.fold (fun _ _ => ?_)
    | with_reducible exact matPass_kept _ _ _ _ _ _ _ _
    | with_reducible exact epiBlock_kept _ _ _ _ _ _ _
    | split

theorem matmulWork_kept (fault : Option LaneFault) (t : Tile) : KeptE (matmulWork fault t) := by
  unfold matmulWork
  extract_lets l1 l2 l3
  try clear_value l1
  try clear_value l2
  have h3 : ∀ x0, KeptE (l3 x0) := by
    intro _
    unfold l3
    repeat' first
      | with_reducible exact KeptE.pure _
      | with_reducible apply KeptE.bind ?_ (fun _ => ?_)
      | with_reducible apply KeptE.ite (fun _ => ?_) (fun _ => ?_)
      | with_reducible apply KeptE.fold (fun _ _ => ?_)
      | with_reducible exact liveOf_kept _ _ _ _ _
      | with_reducible exact probeOperand_kept _ _ _ _ _
      | with_reducible exact matBlock_kept _ _ _ _ _ _ _
      | with_reducible exact endAmax_kept _ _ _ _ _
      | with_reducible exact probeOut_kept _ _ _ _ _
      | with_reducible exact readEpi_kept _ _ _ _ _
  repeat' first
    | with_reducible exact h3 _
    | with_reducible exact KeptE.pure _
    | with_reducible apply KeptE.bind ?_ (fun _ => ?_)
    | with_reducible apply KeptE.ite (fun _ => ?_) (fun _ => ?_)
    | with_reducible exact readMatParam_kept _ _ _ _ _

theorem epilogueWork_kept (t : Tile) : KeptE (epilogueWork t) := by
  unfold epilogueWork
  extract_lets l1
  try clear_value l1
  repeat' first
    | with_reducible exact KeptE.ask _
    | with_reducible exact KeptE.check _ _
    | with_reducible apply KeptE.bind ?_ (fun _ => ?_)
    | with_reducible apply KeptE.fold (fun _ _ => ?_)
    | with_reducible exact readMatParam_kept _ _ _ _ _
    | with_reducible exact liveOf_kept _ _ _ _ _
    | with_reducible exact probeOut_kept _ _ _ _ _
    | with_reducible exact readEpi_kept _ _ _ _ _
    | with_reducible exact seeRows_kept _ _ _
    | with_reducible exact epiBlock_kept _ _ _ _ _ _ _
    | with_reducible exact endAmax_kept _ _ _ _ _

theorem fetchElem_kept (core : Nat) (c : Nat) (o : MatOperand) (row : Nat) (j : Nat) : KeptE (fetchElem core c o row j) := by
  unfold fetchElem
  extract_lets l1 l2
  try clear_value l1
  try clear_value l2
  repeat' first
    | with_reducible exact KeptE.pure _
    | with_reducible apply KeptE.bind ?_ (fun _ => ?_)
    | with_reducible apply KeptE.ite (fun _ => ?_) (fun _ => ?_)
    | with_reducible exact readUse_kept _ _ _ _ _

theorem elementwiseWork_kept (t : Tile) : KeptE (elementwiseWork t) := by
  unfold elementwiseWork
  extract_lets l1
  try clear_value l1
  repeat' first
    | with_reducible exact KeptE.pure _
    | with_reducible apply KeptE.bind ?_ (fun _ => ?_)
    | with_reducible apply KeptE.ite (fun _ => ?_) (fun _ => ?_)
    | with_reducible apply KeptE.collect (fun _ => ?_)
    | with_reducible apply KeptE.fold (fun _ _ => ?_)
    | with_reducible exact readMatParam_kept _ _ _ _ _
    | with_reducible exact liveOf_kept _ _ _ _ _
    | with_reducible exact probeOperand_kept _ _ _ _ _
    | with_reducible exact probeOut_kept _ _ _ _ _
    | with_reducible exact readEpi_kept _ _ _ _ _
    | with_reducible exact fetchElem_kept _ _ _ _ _
    | with_reducible exact epiBlock_kept _ _ _ _ _ _ _
    | with_reducible exact endAmax_kept _ _ _ _ _

theorem addSlots_kept (core : Nat) (d : Nat) (src : Nat → Nat → Num) (bad : Nat → Bool) : KeptE (addSlots core d src bad) := by
  unfold addSlots
  repeat' first
    | with_reducible exact Kept.refl _
    | with_reducible apply Kept.ite (fun _ => ?_) (fun _ => ?_)
    | with_reducible apply Kept.trans ?_ (State.setAccPoison_kept _ _ _ _ _)
    | with_reducible apply Kept.trans ?_ (State.setAccNum_kept _ _ _ _ _ _)
    | with_reducible exact KeptE.pure _
    | with_reducible exact KeptE.ask _
    | with_reducible apply KeptE.bind ?_ (fun _ => ?_)
    | with_reducible apply KeptE.collect (fun _ => ?_)
    | with_reducible apply KeptE.doState (fun _ => ?_)

theorem combineWork_kept (t : Tile) : KeptE (combineWork t) := by
  unfold combineWork
  extract_lets l1
  try clear_value l1
  repeat' first
    | with_reducible exact KeptE.pure _
    | with_reducible exact KeptE.ask _
    | with_reducible apply KeptE.bind ?_ (fun _ => ?_)
    | with_reducible apply KeptE.fold (fun _ _ => ?_)
    | with_reducible exact seeRows_kept _ _ _
    | with_reducible exact addSlots_kept _ _ _ _

theorem spillWork_kept (t : Tile) : KeptE (spillWork t) := by
  unfold spillWork
  extract_lets l1 l2
  try clear_value l1
  try clear_value l2
  repeat' first
    | with_reducible exact KeptE.pure _
    | with_reducible exact KeptE.ask _
    | with_reducible apply KeptE.bind ?_ (fun _ => ?_)
    | with_reducible apply KeptE.ite (fun _ => ?_) (fun _ => ?_)
    | with_reducible apply KeptE.each (fun _ => ?_)
    | with_reducible exact probeTier_kept _ _ _ _ _
    | with_reducible exact seeRows_kept _ _ _
    | with_reducible exact writeMem_kept _ _ _ _ _ _
    | with_reducible exact settlePoison_kept _ _ _ _

theorem fillSlotsWork_kept (t : Tile) : KeptE (fillSlotsWork t) := by
  unfold fillSlotsWork
  extract_lets l1
  try clear_value l1
  repeat' first
    | with_reducible exact Kept.refl _
    | with_reducible apply Kept.trans ?_ (State.setAccPoison_kept _ _ _ _ _)
    | with_reducible apply Kept.trans ?_ (State.freshRows_kept _ _ _ _)
    | with_reducible apply Kept.trans ?_ (State.setAcc_kept _ _ _ _ _ _)
    | with_reducible exact KeptE.pure _
    | with_reducible exact KeptE.ask _
    | with_reducible apply KeptE.bind ?_ (fun _ => ?_)
    | with_reducible apply KeptE.each (fun _ => ?_)
    | with_reducible apply KeptE.doState (fun _ => ?_)
    | with_reducible exact probeTier_kept _ _ _ _ _
    | with_reducible exact readCopy_kept _ _ _ _ _
    | with_reducible apply Kept.fold (fun _ _ => ?_) ?_

theorem State.reduceTo_kept (s : State) (t : Tile) (r : Nat) : Kept s (State.reduceTo s t r) := by
  unfold State.reduceTo
  repeat' first
    | with_reducible exact Kept.refl _
    | with_reducible apply Kept.trans ?_ (State.setTile_kept _ _)
    | split

theorem reduceStart_kept (core : Nat) (stream : Nat) (s : State) : Kept s (reduceStart core stream s) := by
  unfold reduceStart
  repeat' first
    | with_reducible exact Kept.refl _
    | with_reducible apply Kept.ite (fun _ => ?_) (fun _ => ?_)
    | with_reducible apply Kept.trans ?_ (State.reduceTo_kept _ _ _)
    | split

theorem State.stopReduce_kept (s : State) (x : Tile) : Kept s (State.stopReduce s x) := by
  unfold State.stopReduce
  repeat' first
    | with_reducible exact Kept.refl _
    | with_reducible apply Kept.trans ?_ (State.ctxError_kept _ _ _ _ _)
    | with_reducible apply Kept.trans ?_ (State.setTile_kept _ _)

theorem pullWork_kept (t : Tile) (b : ReduceBody) (u : Tile) (d : ReduceBody) : KeptE (pullWork t b u d) := by
  unfold pullWork
  repeat' first
    | with_reducible exact KeptE.ask _
    | with_reducible apply KeptE.bind ?_ (fun _ => ?_)
    | with_reducible apply KeptE.each (fun _ => ?_)
    | with_reducible exact seeRows_kept _ _ _
    | with_reducible exact addSlots_kept _ _ _ _
    | with_reducible exact noteElements_kept _ _ _

theorem reducePull_kept (core : Nat) (stream : Nat) (sender : Nat) (s : State) : Kept s (reducePull core stream sender s) := by
  unfold reducePull
  repeat' first
    | with_reducible exact Kept.refl _
    | with_reducible apply Kept.ite (fun _ => ?_) (fun _ => ?_)
    | with_reducible apply Kept.trans ?_ (State.stopReduce_kept _ _)
    | with_reducible apply Kept.trans ?_ (State.reduceTo_kept _ _ _)
    | with_reducible apply Kept.trans ?_ (State.setTile_kept _ _)
    | apply Kept.trans ?_ (KeptE.result (pullWork_kept _ _ _ _) (by with_reducible assumption))
    | split

end Sys2Proof.Machine
end

