-- ==== Sys2Proof/Laws/KeptRowEngine.lean ====
section
/-! SUPPORT. Every operation of Machine/RowEngine.lean keeps what `Kept` says. -/

namespace Sys2Proof.Machine

theorem State.setStatByte_kept (s : State) (core : Nat) (off : Nat) (b : Byte) : Kept s (State.setStatByte s core off b) := by
  unfold State.setStatByte
  extract_lets l1
  repeat' first
    | with_reducible exact Kept.refl _
    | refine Kept.mem_ ?_ (fun h => Memory.wf_iff.2 { Memory.wf_iff.1 h with stat := SMap.wf_put (Memory.wf_iff.1 h).stat })

theorem State.putStat_kept (s : State) (core : Nat) (k : Nat) (b : List Byte) : Kept s (State.putStat s core k b) := by
  unfold State.putStat
  repeat' first
    | with_reducible exact Kept.refl _
    | with_reducible apply Kept.trans ?_ (State.setStatByte_kept _ _ _ _)
    | with_reducible apply Kept.fold (fun _ _ => ?_) ?_

theorem State.setStatBad_kept (s : State) (core : Nat) (k : Nat) (p : Bool) : Kept s (State.setStatBad s core k p) := by
  unfold State.setStatBad
  extract_lets l1
  repeat' first
    | with_reducible exact Kept.refl _
    | refine Kept.mem_ ?_ (fun h => Memory.wf_iff.2 { Memory.wf_iff.1 h with statPoison := SMap.wf_put (Memory.wf_iff.1 h).statPoison })

theorem State.seeStat_kept (s : State) (core : Nat) (k : Nat) : Kept s (State.seeStat s core k) := by
  unfold State.seeStat
  repeat' first
    | with_reducible exact Kept.refl _
    | with_reducible apply Kept.trans ?_ (State.localFound_kept (h_mark := fun _ => ?_) _ _ _ _)
    | with_reducible apply Kept.trans ?_ (State.setStatBad_kept _ _ _ _)

theorem State.writeStat_kept (s : State) (core : Nat) (k : Nat) (r : StatRec) : Kept s (State.writeStat s core k r) := by
  unfold State.writeStat
  extract_lets l1 l2
  have h2 : Kept s l2 := by
    unfold l2
    repeat' first
      | with_reducible exact Kept.refl _
      | refine Kept.mem_ ?_ (fun h => Memory.wf_iff.2 { Memory.wf_iff.1 h with localLatent := SMap.wf_put (Memory.wf_iff.1 h).localLatent })
  repeat' first
    | with_reducible assumption
    | with_reducible apply Kept.trans ?_ (State.setStatBad_kept _ _ _ _)
    | with_reducible apply Kept.trans ?_ (State.putStat_kept _ _ _ _)

theorem readStat_kept (core : Nat) (c : Nat) (n : Nat) : KeptE (readStat core c n) := by
  unfold readStat
  repeat' first
    | with_reducible exact Kept.refl _
    | with_reducible apply Kept.trans ?_ (State.seeStat_kept _ _ _)
    | with_reducible exact KeptE.ask _
    | with_reducible exact KeptE.check _ _
    | with_reducible apply KeptE.bind ?_ (fun _ => ?_)
    | with_reducible apply KeptE.doState (fun _ => ?_)

theorem storeStat_kept (core : Nat) (c : Nat) (n : Nat) (r : StatRec) : KeptE (storeStat core c n r) := by
  unfold storeStat
  repeat' first
    | with_reducible exact Kept.refl _
    | with_reducible apply Kept.trans ?_ (State.noteAccess_kept _ _ _ _)
    | with_reducible apply Kept.trans ?_ (State.writeStat_kept _ _ _ _)
    | with_reducible apply KeptE.doState (fun _ => ?_)

theorem readStats_kept (core : Nat) (c : Nat) (op : Nat) (b : RowBody) : KeptE (readStats core c op b) := by
  unfold readStats
  extract_lets l1
  try clear_value l1
  repeat' first
    | with_reducible exact KeptE.pure _
    | with_reducible exact KeptE.check _ _
    | with_reducible apply KeptE.bind ?_ (fun _ => ?_)
    | with_reducible apply KeptE.ite (fun _ => ?_) (fun _ => ?_)
    | with_reducible apply KeptE.collect (fun _ => ?_)
    | with_reducible exact readStat_kept _ _ _

theorem readRowParam_kept (core : Nat) (c : Nat) (op : Nat) (b : RowBody) : KeptE (readRowParam core c op b) := by
  unfold readRowParam
  repeat' first
    | with_reducible exact KeptE.pure _
    | with_reducible exact KeptE.ask _
    | with_reducible exact KeptE.check _ _
    | with_reducible apply KeptE.bind ?_ (fun _ => ?_)
    | with_reducible exact lsNumber_kept _ _ _ _

theorem maskOf_kept (core : Nat) (c : Nat) (b : RowBody) (p : RowParam) (r : Nat) : KeptE (maskOf core c b p r) := by
  unfold maskOf
  repeat' first
    | with_reducible exact KeptE.pure _
    | with_reducible apply KeptE.bind ?_ (fun _ => ?_)
    | with_reducible exact lsNumber_kept _ _ _ _
    | split

theorem readRow_kept (core : Nat) (c : Nat) (a : Addr) (f : Fmt) (n : Nat) (masked : Nat → Bool) : KeptE (readRow core c a f n masked) := by
  unfold readRow
  extract_lets l1
  try clear_value l1
  repeat' first
    | with_reducible exact KeptE.pure _
    | with_reducible apply KeptE.bind ?_ (fun _ => ?_)
    | with_reducible apply KeptE.ite (fun _ => ?_) (fun _ => ?_)
    | with_reducible apply KeptE.collect (fun _ => ?_)
    | with_reducible exact readUse_kept _ _ _ _ _

theorem writeRow_kept (core : Nat) (c : Nat) (a : Addr) (f : Fmt) (l : List NumF) : KeptE (writeRow core c a f l) := by
  unfold writeRow
  extract_lets l1
  try clear_value l1
  repeat' first
    | with_reducible exact KeptE.pure _
    | with_reducible apply KeptE.bind ?_ (fun _ => ?_)
    | with_reducible exact writeMem_kept _ _ _ _ _ _

theorem RowView.maxSum_kept (v : RowView) : KeptE (RowView.maxSum v) := by
  unfold RowView.maxSum
  extract_lets l1
  try clear_value l1
  repeat' first
    | with_reducible exact KeptE.pure _
    | with_reducible apply KeptE.bind ?_ (fun _ => ?_)
    | with_reducible apply KeptE.collect (fun _ => ?_)
    | with_reducible exact expOp_kept _
    | split

theorem foldScaled_kept (r : StatRec) (v : RowView) : KeptE (foldScaled r v) := by
  unfold foldScaled
  repeat' first
    | with_reducible exact KeptE.pure _
    | with_reducible apply KeptE.bind ?_ (fun _ => ?_)
    | with_reducible apply KeptE.ite (fun _ => ?_) (fun _ => ?_)
    | with_reducible exact RowView.maxSum_kept _
    | with_reducible exact expOp_kept _

theorem foldChunk_kept (r : StatRec) (v : RowView) : KeptE (foldChunk r v) := by
  unfold foldChunk
  repeat' first
    | with_reducible exact KeptE.pure _
    | with_reducible apply KeptE.bind ?_ (fun _ => ?_)
    | with_reducible exact foldScaled_kept _ _

theorem StatRec.finish_kept (r : StatRec) : KeptE (StatRec.finish r) := by
  unfold StatRec.finish
  repeat' first
    | with_reducible exact KeptE.pure _
    | with_reducible apply KeptE.bind ?_ (fun _ => ?_)
    | with_reducible exact lnOp_kept _
    | split

theorem softmaxOut_kept (r : StatRec) (v : RowView) (fl : BitVec 6) : KeptE (softmaxOut r v fl) := by
  unfold softmaxOut
  repeat' first
    | with_reducible exact KeptE.pure _
    | with_reducible apply KeptE.bind ?_ (fun _ => ?_)
    | with_reducible apply KeptE.ite (fun _ => ?_) (fun _ => ?_)
    | with_reducible apply KeptE.collect (fun _ => ?_)
    | with_reducible exact expOp_kept _
    | split

theorem rowView_kept (core : Nat) (c : Nat) (b : RowBody) (p : RowParam) (r : Nat) : KeptE (rowView core c b p r) := by
  unfold rowView
  repeat' first
    | with_reducible exact KeptE.pure _
    | with_reducible apply KeptE.bind ?_ (fun _ => ?_)
    | with_reducible exact maskOf_kept _ _ _ _ _
    | with_reducible exact readRow_kept _ _ _ _ _ _

theorem softmaxFwdRow_kept (t : Tile) (b : RowBody) (p : RowParam) (r : Nat) (old : StatRec) (y : Tally) : KeptE (softmaxFwdRow t b p r old y) := by
  unfold softmaxFwdRow
  repeat' first
    | with_reducible exact KeptE.pure _
    | with_reducible apply KeptE.bind ?_ (fun _ => ?_)
    | with_reducible apply KeptE.ite (fun _ => ?_) (fun _ => ?_)
    | with_reducible exact rowView_kept _ _ _ _ _
    | with_reducible exact softmaxOut_kept _ _ _
    | with_reducible exact writeRow_kept _ _ _ _ _
    | with_reducible exact foldChunk_kept _ _
    | with_reducible exact StatRec.finish_kept _
    | with_reducible exact storeStat_kept _ _ _ _
    | split

theorem probeRows_kept (t : Tile) (op : Nat) (b : RowBody) : KeptE (probeRows t op b) := by
  unfold probeRows
  repeat' first
    | with_reducible exact KeptE.pure _
    | with_reducible apply KeptE.bind ?_ (fun _ => ?_)
    | with_reducible apply KeptE.ite (fun _ => ?_) (fun _ => ?_)
    | with_reducible apply KeptE.each (fun _ => ?_)
    | with_reducible exact probeTier_kept _ _ _ _ _

theorem rowStart_kept (t : Tile) (op : Nat) : KeptE (rowStart t op) := by
  unfold rowStart
  extract_lets l1
  try clear_value l1
  repeat' first
    | with_reducible exact KeptE.pure _
    | with_reducible apply KeptE.bind ?_ (fun _ => ?_)
    | with_reducible exact readRowParam_kept _ _ _ _
    | with_reducible exact probeRows_kept _ _ _
    | with_reducible exact readStats_kept _ _ _ _

theorem eachRow_kept {β : Type} (b : RowBody) (l : List StatRec) (y : β) (f : Nat → StatRec → β → Exec β)
    (h_f : ∀ x0 x1 x2, KeptE (f x0 x1 x2)) : KeptE (eachRow b l y f) :=
  KeptE.fold fun _ _ => h_f _ _ _

theorem softmaxFwdWork_kept (t : Tile) : KeptE (softmaxFwdWork t) := by
  unfold softmaxFwdWork
  repeat' first
    | with_reducible apply KeptE.bind ?_ (fun _ => ?_)
    | with_reducible exact rowStart_kept _ _
    | with_reducible apply eachRow_kept (h_f := fun _ _ _ => ?_) _ _ _ _
    | with_reducible exact softmaxFwdRow_kept _ _ _ _ _ _

theorem dyRow_kept (t : Tile) (b : RowBody) (r : Nat) (m : Nat → Bool) : KeptE (dyRow t b r m) := by
  unfold dyRow
  repeat' first
    | with_reducible exact readRow_kept _ _ _ _ _ _

theorem softmaxP_kept (v : RowView) (lse : Num) : KeptE (softmaxP v lse) := by
  unfold softmaxP
  repeat' first
    | with_reducible exact KeptE.pure _
    | with_reducible apply KeptE.bind ?_ (fun _ => ?_)
    | with_reducible apply KeptE.ite (fun _ => ?_) (fun _ => ?_)
    | with_reducible apply KeptE.collect (fun _ => ?_)
    | with_reducible exact expOp_kept _

theorem softmaxBwdRow_kept (t : Tile) (b : RowBody) (p : RowParam) (r : Nat) (st : StatRec) (y : Tally) : KeptE (softmaxBwdRow t b p r st y) := by
  unfold softmaxBwdRow
  extract_lets l1
  try clear_value l1
  repeat' first
    | with_reducible exact KeptE.pure _
    | with_reducible apply KeptE.bind ?_ (fun _ => ?_)
    | with_reducible apply KeptE.ite (fun _ => ?_) (fun _ => ?_)
    | with_reducible exact rowView_kept _ _ _ _ _
    | with_reducible exact dyRow_kept _ _ _ _
    | with_reducible exact writeRow_kept _ _ _ _ _
    | with_reducible exact writeMem_kept _ _ _ _ _ _
    | with_reducible exact lsFloats_kept _ _ _ _
    | with_reducible exact softmaxP_kept _ _
    | split

theorem softmaxBwdWork_kept (t : Tile) : KeptE (softmaxBwdWork t) := by
  unfold softmaxBwdWork
  repeat' first
    | with_reducible apply KeptE.bind ?_ (fun _ => ?_)
    | with_reducible exact rowStart_kept _ _
    | with_reducible apply eachRow_kept (h_f := fun _ _ _ => ?_) _ _ _ _
    | with_reducible exact softmaxBwdRow_kept _ _ _ _ _ _

theorem normStats_kept (rms : Bool) (eps : Num) (x : List Num) : KeptE (normStats rms eps x) := by
  unfold normStats
  extract_lets l1 l2 l3 l4
  try clear_value l1
  try clear_value l2
  try clear_value l3
  try clear_value l4
  repeat' first
    | with_reducible exact KeptE.pure _
    | with_reducible apply KeptE.bind ?_ (fun _ => ?_)
    | with_reducible exact rsqrtOp_kept _

theorem rowVector_kept (t : Tile) (on : Bool) (off : Nat) (cols : Nat) (d : Num) : KeptE (rowVector t on off cols d) := by
  unfold rowVector
  repeat' first
    | with_reducible exact KeptE.pure _
    | with_reducible apply KeptE.ite (fun _ => ?_) (fun _ => ?_)
    | with_reducible exact lsFloats_kept _ _ _ _

theorem normFwdRow_kept (t : Tile) (op : Nat) (b : RowBody) (eps : Num) (gamma : List Num) (beta : List Num) (r : Nat) (y : Tally) : KeptE (normFwdRow t op b eps gamma beta r y) := by
  unfold normFwdRow
  extract_lets l1
  try clear_value l1
  repeat' first
    | with_reducible exact KeptE.pure _
    | with_reducible apply KeptE.bind ?_ (fun _ => ?_)
    | with_reducible apply KeptE.ite (fun _ => ?_) (fun _ => ?_)
    | with_reducible exact readRow_kept _ _ _ _ _ _
    | with_reducible exact writeRow_kept _ _ _ _ _
    | with_reducible exact storeStat_kept _ _ _ _
    | with_reducible exact normStats_kept _ _ _

theorem normFwdWork_kept (op : Nat) (t : Tile) : KeptE (normFwdWork op t) := by
  unfold normFwdWork
  repeat' first
    | with_reducible apply KeptE.bind ?_ (fun _ => ?_)
    | with_reducible exact rowStart_kept _ _
    | with_reducible exact rowVector_kept _ _ _ _ _
    | with_reducible apply eachRow_kept (h_f := fun _ _ _ => ?_) _ _ _ _
    | with_reducible exact normFwdRow_kept _ _ _ _ _ _ _ _

theorem normBwdRow_kept (t : Tile) (op : Nat) (b : RowBody) (gamma : List Num) (r : Nat) (st : StatRec) (y : NormAcc) : KeptE (normBwdRow t op b gamma r st y) := by
  unfold normBwdRow
  extract_lets l1
  try clear_value l1
  repeat' first
    | with_reducible exact KeptE.pure _
    | with_reducible apply KeptE.bind ?_ (fun _ => ?_)
    | with_reducible exact readRow_kept _ _ _ _ _ _
    | with_reducible exact dyRow_kept _ _ _ _
    | with_reducible exact writeRow_kept _ _ _ _ _

theorem normBwdWork_kept (op : Nat) (t : Tile) : KeptE (normBwdWork op t) := by
  unfold normBwdWork
  repeat' first
    | with_reducible exact KeptE.pure _
    | with_reducible apply KeptE.bind ?_ (fun _ => ?_)
    | with_reducible apply KeptE.ite (fun _ => ?_) (fun _ => ?_)
    | with_reducible exact rowStart_kept _ _
    | with_reducible exact rowVector_kept _ _ _ _ _
    | with_reducible apply eachRow_kept (h_f := fun _ _ _ => ?_) _ _ _ _
    | with_reducible exact normBwdRow_kept _ _ _ _ _ _ _
    | with_reducible exact writeMem_kept _ _ _ _ _ _

theorem statsSpillWork_kept (t : Tile) : KeptE (statsSpillWork t) := by
  unfold statsSpillWork
  extract_lets l1
  try clear_value l1
  repeat' first
    | with_reducible exact Kept.refl _
    | with_reducible apply Kept.trans ?_ (State.seeStat_kept _ _ _)
    | with_reducible exact KeptE.pure _
    | with_reducible exact KeptE.ask _
    | with_reducible apply KeptE.bind ?_ (fun _ => ?_)
    | with_reducible apply KeptE.ite (fun _ => ?_) (fun _ => ?_)
    | with_reducible apply KeptE.each (fun _ => ?_)
    | with_reducible apply KeptE.doState (fun _ => ?_)
    | with_reducible exact probeTier_kept _ _ _ _ _
    | with_reducible exact writeMem_kept _ _ _ _ _ _
    | with_reducible exact settlePoison_kept _ _ _ _

theorem statsFillWork_kept (t : Tile) : KeptE (statsFillWork t) := by
  unfold statsFillWork
  extract_lets l1
  try clear_value l1
  repeat' first
    | with_reducible exact Kept.refl _
    | with_reducible apply Kept.trans ?_ (State.setStatBad_kept _ _ _ _)
    | with_reducible apply Kept.trans ?_ (State.putStat_kept _ _ _ _)
    | with_reducible apply Kept.trans ?_ (State.writeStat_kept _ _ _ _)
    | with_reducible exact KeptE.pure _
    | with_reducible apply KeptE.bind ?_ (fun _ => ?_)
    | with_reducible apply KeptE.each (fun _ => ?_)
    | with_reducible apply KeptE.doState (fun _ => ?_)
    | with_reducible exact probeTier_kept _ _ _ _ _
    | with_reducible exact readCopy_kept _ _ _ _ _

end Sys2Proof.Machine
end

