-- ==== Sys2Proof/Laws/KeptKv.lean ====
section
/-! SUPPORT. Every operation of Machine/Kv.lean keeps what `Kept` says. -/

namespace Sys2Proof.Machine

theorem kvStop_kept {α : Type} (a : Addr) (x : Exec α) (h_x : KeptE x) : KeptE (kvStop a x) := by
  intro s
  unfold kvStop
  split
  · have h := KeptE.result h_x (by assumption)
    extract_lets va
    split
    · exact h
    · split
      · exact h
      · exact h
  · exact h_x s

theorem pipeTell_kept (core : Nat) (c : Nat) (a : Addr) (n : Nat) (tier : Option Nat) : KeptE (pipeTell core c a n tier) := by
  unfold pipeTell
  repeat' first
    | with_reducible exact KeptE.pure _
    | with_reducible apply KeptE.bind ?_ (fun _ => ?_)
    | with_reducible apply KeptE.collect (fun _ => ?_)
    | with_reducible apply kvStop_kept (h_x := ?_) _ _
    | with_reducible exact readTell_kept _ _ _ _ _

theorem pipeUse_kept (core : Nat) (c : Nat) (a : Addr) (n : Nat) (tier : Option Nat) : KeptE (pipeUse core c a n tier) := by
  unfold pipeUse
  repeat' first
    | with_reducible exact KeptE.pure _
    | with_reducible exact KeptE.stop _
    | with_reducible apply KeptE.bind ?_ (fun _ => ?_)
    | with_reducible exact pipeTell_kept _ _ _ _ _
    | split

theorem pipeWrite_kept (core : Nat) (c : Nat) (a : Addr) (b : List Byte) (poisoned : Bool) (tier : Option Nat) : KeptE (pipeWrite core c a b poisoned tier) := by
  unfold pipeWrite
  repeat' first
    | with_reducible apply KeptE.each (fun _ => ?_)
    | with_reducible apply kvStop_kept (h_x := ?_) _ _
    | with_reducible exact writeMem_kept _ _ _ _ _ _

theorem readRecord_kept (core : Nat) (c : Nat) (q : Nat) (idx : Nat) (va : Nat) (tier : Option Nat) : KeptE (readRecord core c q idx va tier) := by
  unfold readRecord
  repeat' first
    | with_reducible exact KeptE.pure _
    | with_reducible exact KeptE.check _ _
    | with_reducible apply KeptE.bind ?_ (fun _ => ?_)
    | with_reducible exact readTell_kept _ _ _ _ _

theorem writeRecord_kept (core : Nat) (c : Nat) (va : Nat) (r : KvRec) (tier : Option Nat) : KeptE (writeRecord core c va r tier) := by
  unfold writeRecord
  repeat' first
    | with_reducible exact writeMem_kept _ _ _ _ _ _

theorem pagePoisoned_kept (core : Nat) (c : Nat) (q : Nat) (idx : Nat) (va : Nat) (tier : Option Nat) : KeptE (pagePoisoned core c q idx va tier) := by
  unfold pagePoisoned
  repeat' first
    | with_reducible exact KeptE.stop _
    | with_reducible apply KeptE.bind ?_ (fun _ => ?_)
    | with_reducible exact readTell_kept _ _ _ _ _
    | with_reducible exact writeMem_kept _ _ _ _ _ _

theorem State.failPage_kept (s : State) (c : Nat) (core : Nat) (q : Nat) (code : Nat) (idx : Nat) : Kept s (State.failPage s c core q code idx) := by
  unfold State.failPage
  repeat' first
    | with_reducible exact Kept.refl _
    | with_reducible apply Kept.trans ?_ (State.failSequence_kept _ _ _ _)
    | with_reducible apply Kept.trans ?_ (State.raise_kept _ _)

theorem State.endForReplay_kept (s : State) (t : Tile) (w : WaitFor) : Kept s (State.endForReplay s t w) := by
  unfold State.endForReplay
  extract_lets l1 l2
  try clear_value l1
  try clear_value l2
  repeat' first
    | with_reducible exact Kept.refl _
    | with_reducible apply Kept.trans ?_ (State.setStream_kept _ _ _ _)
    | with_reducible apply Kept.trans ?_ (State.dropTile_kept _ _ _)

theorem State.raiseFor_kept (s : State) (t : Tile) (code : Nat) (phys : Nat) : Kept s (State.raiseFor s t code phys) := by
  unfold State.raiseFor
  repeat' first
    | with_reducible exact Kept.refl _
    | with_reducible apply Kept.trans ?_ (State.raiseCtx_kept _ _ _)

theorem State.extendFault_kept (s : State) (t : Tile) (q : Nat) (va : Nat) (code : Nat) : Kept s (State.extendFault s t q va code) := by
  unfold State.extendFault
  extract_lets l1 l2 l3 l4 l5
  try clear_value l1
  have h2 : Kept s l2 := by
    unfold l2
    repeat' first
      | with_reducible exact Kept.refl _
      | with_reducible apply Kept.trans ?_ (State.setSlot_kept _ _ _)
  try clear_value l2
  try clear_value l3
  have h4 : Kept s l4 := by
    unfold l4
    repeat' first
      | with_reducible assumption
      | with_reducible apply Kept.trans ?_ (State.endForReplay_kept _ _ _)
  try clear_value l4
  try clear_value l5
  repeat' first
    | with_reducible assumption
    | with_reducible apply Kept.ite (fun _ => ?_) (fun _ => ?_)
    | with_reducible apply Kept.trans ?_ (State.wake_kept _ _ _)
    | with_reducible apply Kept.trans ?_ (State.failPage_kept _ _ _ _ _ _)
    | with_reducible apply Kept.trans ?_ (State.raiseFor_kept _ _ _ _)
    | with_reducible apply Kept.mk_ ?_

theorem State.versionFault_kept (s : State) (t : Tile) (q : Nat) (va : Nat) (odd : Bool) : Kept s (State.versionFault s t q va odd) := by
  unfold State.versionFault
  extract_lets l1 l2
  try clear_value l1
  have h2 : Kept s l2 := by
    unfold l2
    repeat' first
      | with_reducible exact Kept.refl _
      | with_reducible apply Kept.trans ?_ (State.endForReplay_kept _ _ _)
      | with_reducible apply Kept.trans ?_ (State.setSlot_kept _ _ _)
  try clear_value l2
  repeat' first
    | with_reducible assumption
    | with_reducible apply Kept.ite (fun _ => ?_) (fun _ => ?_)
    | with_reducible apply Kept.trans ?_ (State.wake_kept _ _ _)

theorem State.pipeStop_kept (s : State) (t : Tile) (ins : List (Nat × Nat × List Byte)) (a3 : Stop) : Kept s (State.pipeStop s t ins a3) := by
  unfold State.pipeStop
  repeat' first
    | with_reducible exact Kept.refl _
    | with_reducible apply Kept.ite (fun _ => ?_) (fun _ => ?_)
    | with_reducible apply Kept.trans ?_ (State.raiseFor_kept _ _ _ _)
    | with_reducible apply Kept.trans ?_ (State.setTile_kept _ _)
    | with_reducible apply Kept.trans ?_ (State.capture_kept _ _ _ _ _ _ _ _)
    | with_reducible apply Kept.trans ?_ (State.extendFault_kept _ _ _ _ _)
    | with_reducible apply Kept.trans ?_ (State.versionFault_kept _ _ _ _ _)
    | split

theorem State.stagesRun_kept (core stream : Nat) (stage : Tile → Exec Bool) (n : Nat) (s : State)
    (h_stage : ∀ t, KeptE (stage t)) : Kept s (State.stagesRun core stream stage n s).2 := by
  induction n generalizing s with
  | zero => exact Kept.refl s
  | succ n ih =>
    unfold State.stagesRun
    split
    · exact Kept.refl s
    · split
      · exact KeptE.result (h_stage _) (by assumption)
      · exact (KeptE.result (h_stage _) (by assumption)).trans (ih _)
      · exact ((KeptE.result (h_stage _) (by assumption)).trans (State.failPage_kept ..)).trans (ih _)
      · exact KeptE.result (h_stage _) (by assumption)

theorem State.keepLog_kept (s : State) (core : Nat) (stream : Nat) (t : Tile) : Kept s (State.keepLog s core stream t) := by
  unfold State.keepLog
  extract_lets l1
  have h1 : Kept s l1.1 := by
    unfold l1
    repeat' first
      | with_reducible exact Kept.refl _
      | with_reducible apply Kept.trans ?_ (State.endLog_kept _ _)
  try clear_value l1
  repeat' first
    | with_reducible assumption
    | with_reducible apply Kept.trans ?_ (State.setTile_kept _ _)

theorem State.pipeRun_kept (op core stream : Nat) (stage clean : Tile → Exec Bool) (n : Nat) (s : State)
    (h_stage : ∀ t, KeptE (stage t)) : Kept s (State.pipeRun op core stream stage clean n s) := by
  induction n generalizing s with
  | zero => exact Kept.refl s
  | succ n ih =>
    unfold State.pipeRun
    split
    · exact Kept.refl s
    · rename_i t _
      have hb : Kept s (s.beginLog t) := State.beginLog_kept ..
      refine Kept.ite (fun _ => ?_) fun _ => Kept.refl s
      split
      · have hs := hb.trans (KeptE.result (h_stage t) (by assumption))
        exact (hs.trans (State.endLog_kept ..)).trans (State.setTile_kept ..)
      · have hs := hb.trans (KeptE.result (h_stage t) (by assumption))
        exact (hs.trans (State.keepLog_kept ..)).trans (ih _)
      · exact Kept.refl s
      · have hs := hb.trans (KeptE.result (h_stage t) (by assumption))
        exact ((hs.trans (State.keepLog_kept ..)).trans (State.failPage_kept ..)).trans (ih _)
      · have hs := hb.trans (KeptE.result (h_stage t) (by assumption))
        exact (hs.trans (State.keepLog_kept ..)).trans (State.pipeStop_kept ..)

theorem addTally_kept (t : Tile) (y : Tally) : KeptE (addTally t y) := by
  unfold addTally
  repeat' first
    | with_reducible exact putTile_kept _ _

theorem readToken_kept (core : Nat) (c : Nat) (a : Addr) (fmt : Nat) : KeptE (readToken core c a fmt) := by
  unfold readToken
  extract_lets l1
  try clear_value l1
  repeat' first
    | with_reducible exact KeptE.pure _
    | with_reducible apply KeptE.bind ?_ (fun _ => ?_)
    | with_reducible exact pipeTell_kept _ _ _ _ _

theorem appendToken_kept (t : Tile) (b : AppendBody) (k : Nat) : KeptE (appendToken t b k) := by
  unfold appendToken
  extract_lets l1 l2 l3
  try clear_value l1
  try clear_value l2
  try clear_value l3
  repeat' first
    | with_reducible exact KeptE.ask _
    | with_reducible exact KeptE.check _ _
    | with_reducible apply KeptE.bind ?_ (fun _ => ?_)
    | with_reducible exact readRecord_kept _ _ _ _ _ _
    | with_reducible exact readToken_kept _ _ _ _
    | with_reducible exact pipeWrite_kept _ _ _ _ _ _
    | with_reducible exact writeRecord_kept _ _ _ _ _
    | with_reducible exact addTally_kept _ _

theorem appendStage_kept (t : Tile) : KeptE (appendStage t) := by
  unfold appendStage
  extract_lets l1
  try clear_value l1
  repeat' first
    | with_reducible exact KeptE.pure _
    | with_reducible exact KeptE.ask _
    | with_reducible exact KeptE.check _ _
    | with_reducible apply KeptE.bind ?_ (fun _ => ?_)
    | with_reducible apply KeptE.ite (fun _ => ?_) (fun _ => ?_)
    | with_reducible exact appendToken_kept _ _ _
    | with_reducible exact putTile_kept _ _

theorem readPage_kept (core : Nat) (c : Nat) (q : Nat) (idx : Nat) (va : Nat) (r : KvRec) : KeptE (readPage core c q idx va r) := by
  unfold readPage
  repeat' first
    | with_reducible exact KeptE.pure _
    | with_reducible apply KeptE.bind ?_ (fun _ => ?_)
    | with_reducible apply KeptE.ite (fun _ => ?_) (fun _ => ?_)
    | with_reducible exact readTell_kept _ _ _ _ _
    | with_reducible exact pagePoisoned_kept _ _ _ _ _ _

theorem demotePage_kept (t : Tile) (b : DemoteBody) (idx : Nat) (va : Nat) (start : Nat) : KeptE (demotePage t b idx va start) := by
  unfold demotePage
  repeat' first
    | with_reducible apply KeptE.bind ?_ (fun _ => ?_)
    | with_reducible exact readRecord_kept _ _ _ _ _ _
    | with_reducible exact readPage_kept _ _ _ _ _ _
    | with_reducible exact writeMem_kept _ _ _ _ _ _
    | with_reducible exact writeRecord_kept _ _ _ _ _
    | with_reducible exact addTally_kept _ _
    | with_reducible exact putTile_kept _ _

theorem nextPage_kept (t : Tile) (b : DemoteBody) : KeptE (nextPage t b) := by
  unfold nextPage
  repeat' first
    | with_reducible exact KeptE.pure _
    | with_reducible apply KeptE.bind ?_ (fun _ => ?_)
    | with_reducible exact putTile_kept _ _

theorem demoteStage_kept (t : Tile) : KeptE (demoteStage t) := by
  unfold demoteStage
  extract_lets l1
  try clear_value l1
  repeat' first
    | with_reducible exact KeptE.pure _
    | with_reducible exact KeptE.ask _
    | with_reducible exact KeptE.check _ _
    | with_reducible apply KeptE.bind ?_ (fun _ => ?_)
    | with_reducible apply KeptE.ite (fun _ => ?_) (fun _ => ?_)
    | with_reducible exact demotePage_kept _ _ _ _ _
    | with_reducible exact nextPage_kept _ _
    | with_reducible exact readTell_kept _ _ _ _ _
    | with_reducible exact readRecord_kept _ _ _ _ _ _
    | with_reducible exact writeRecord_kept _ _ _ _ _
    | with_reducible exact putTile_kept _ _
    | split

theorem State.serveFault_kept {s t : State} {c q va : Nat} (h : State.serveFault s c q va = some t) : Kept s t := by
  unfold State.serveFault at h
  split at h
  · cases h; exact Kept.refl _
  · simp only at h
    split at h
    · cases h
    · cases h; exact State.mapDown_kept ..

theorem kvFrameMap_kept (at_ : Nat) (ctx : Nat) (s : State) : Kept s (kvFrameMap at_ ctx s) := by
  unfold kvFrameMap
  extract_lets l1
  have h1 : Kept s l1 := by
    unfold l1
    repeat' first
      | with_reducible exact Kept.refl _
      | with_reducible apply Kept.trans ?_ (State.advanceTo_kept _ _)
  try clear_value l1
  repeat' first
    | with_reducible assumption
    | with_reducible apply Kept.ite (fun _ => ?_) (fun _ => ?_)
    | with_reducible apply Kept.trans ?_ (State.kvWake_kept _ _)
    | exact h1.trans (State.serveFault_kept (by assumption))
    | split

theorem kvFull_kept (at_ : Nat) (slot : Nat) (s : State) : Kept s (kvFull at_ slot s) := by
  unfold kvFull
  extract_lets l1
  have h1 : Kept s l1 := by
    unfold l1
    repeat' first
      | with_reducible exact Kept.refl _
      | with_reducible apply Kept.trans ?_ (State.advanceTo_kept _ _)
  try clear_value l1
  repeat' first
    | with_reducible assumption
    | with_reducible apply Kept.trans ?_ (State.failPage_kept _ _ _ _ _ _)
    | split

theorem State.releaseSubslot_kept (s : State) (c : Nat) (va : Nat) : Kept s (State.releaseSubslot s c va) := by
  unfold State.releaseSubslot
  repeat' first
    | with_reducible exact Kept.refl _
    | with_reducible apply Kept.trans ?_ (State.unmapFrame_kept _ _)
    | split

theorem kvSubslotRelease_kept (at_ : Nat) (s : State) : Kept s (kvSubslotRelease at_ s) := by
  unfold kvSubslotRelease
  extract_lets l1 l2 l3
  have h1 : Kept s l1 := by
    unfold l1
    repeat' first
      | with_reducible exact Kept.refl _
      | with_reducible apply Kept.trans ?_ (State.advanceTo_kept _ _)
  try clear_value l1
  try clear_value l2
  try clear_value l3
  repeat' first
    | with_reducible exact Kept.refl _
    | with_reducible assumption
    | with_reducible apply Kept.ite (fun _ => ?_) (fun _ => ?_)
    | with_reducible apply Kept.trans ?_ (State.releaseSubslot_kept _ _ _)
    | with_reducible apply Kept.fold (fun _ _ => ?_) ?_
    | with_reducible apply Kept.mk_ ?_

theorem kvVersionReplay_kept (at_ : Nat) (core : Nat) (stream : Nat) (s : State) : Kept s (kvVersionReplay at_ core stream s) := by
  unfold kvVersionReplay
  extract_lets l1 l2
  have h1 : Kept s l1 := by
    unfold l1
    repeat' first
      | with_reducible exact Kept.refl _
      | with_reducible apply Kept.trans ?_ (State.advanceTo_kept _ _)
  try clear_value l1
  try clear_value l2
  repeat' first
    | with_reducible assumption
    | with_reducible apply Kept.ite (fun _ => ?_) (fun _ => ?_)
    | with_reducible apply Kept.trans ?_ (State.wake_kept _ _ _)
    | split

end Sys2Proof.Machine
end

