-- ==== Sys2Proof/Laws/KeptAttention.lean ====
section
/-! SUPPORT. Every operation of Machine/Attention.lean keeps what `Kept` says. -/

namespace Sys2Proof.Machine

theorem entryRecords_kept (t : Tile) (op : Nat) (b : AttnBody) (e : SeqEntry) (opens : Bool) : KeptE (entryRecords t op b e opens) := by
  unfold entryRecords
  repeat' first
    | with_reducible exact KeptE.check _ _
    | with_reducible apply KeptE.bind ?_ (fun _ => ?_)
    | with_reducible apply KeptE.ite (fun _ => ?_) (fun _ => ?_)
    | with_reducible apply KeptE.each (fun _ => ?_)
    | with_reducible exact storeStat_kept _ _ _ _
    | with_reducible exact readStat_kept _ _ _

theorem probeEntry_kept (t : Tile) (op : Nat) (b : AttnBody) (e : SeqEntry) : KeptE (probeEntry t op b e) := by
  unfold probeEntry
  extract_lets l1
  have h1 : ∀ x0 x1, KeptE (l1 x0 x1) := by
    intro _ _
    unfold l1
    repeat' first
      | with_reducible exact probeTier_kept _ _ _ _ _
  repeat' first
    | with_reducible exact h1 _ _
    | with_reducible exact KeptE.pure _
    | with_reducible apply KeptE.bind ?_ (fun _ => ?_)
    | with_reducible apply KeptE.ite (fun _ => ?_) (fun _ => ?_)

theorem attnStart_kept (t : Tile) (op : Nat) (b : AttnBody) : KeptE (attnStart t op b) := by
  unfold attnStart
  repeat' first
    | with_reducible exact KeptE.pure _
    | with_reducible exact KeptE.ask _
    | with_reducible exact KeptE.check _ _
    | with_reducible apply KeptE.bind ?_ (fun _ => ?_)
    | with_reducible apply KeptE.ite (fun _ => ?_) (fun _ => ?_)
    | with_reducible apply KeptE.each (fun _ => ?_)
    | with_reducible apply KeptE.collect (fun _ => ?_)
    | with_reducible exact lsNumber_kept _ _ _ _
    | with_reducible exact probeEntry_kept _ _ _ _
    | with_reducible exact putTile_kept _ _
    | with_reducible exact entryRecords_kept _ _ _ _ _
    | with_reducible exact readUse_kept _ _ _ _ _

theorem readGroup_kept (r : AttnRun) (pages : List Nat) : KeptE (readGroup r pages) := by
  unfold readGroup
  repeat' first
    | with_reducible exact KeptE.pure _
    | with_reducible exact KeptE.check _ _
    | with_reducible apply KeptE.bind ?_ (fun _ => ?_)
    | with_reducible apply KeptE.ite (fun _ => ?_) (fun _ => ?_)
    | with_reducible apply KeptE.collect (fun _ => ?_)
    | with_reducible exact readRecord_kept _ _ _ _ _ _

theorem fetchKv_kept (r : AttnRun) (page : Nat) (va : Nat) (f : Nat) : KeptE (fetchKv r page va f) := by
  unfold fetchKv
  extract_lets l1
  have h1 : ∀ x0, KeptE (l1 x0) := by
    intro _
    unfold l1
    repeat' first
      | with_reducible exact KeptE.pure _
      | with_reducible apply KeptE.bind ?_ (fun _ => ?_)
      | with_reducible apply KeptE.ite (fun _ => ?_) (fun _ => ?_)
      | with_reducible exact pagePoisoned_kept _ _ _ _ _ _
  repeat' first
    | with_reducible exact h1 _
    | with_reducible apply KeptE.bind ?_ (fun _ => ?_)
    | with_reducible apply KeptE.ite (fun _ => ?_) (fun _ => ?_)
    | with_reducible exact readTell_kept _ _ _ _ _
    | with_reducible exact pipeTell_kept _ _ _ _ _

theorem fetchPage_kept (r : AttnRun) (page : Nat) (k : KvRec) : KeptE (fetchPage r page k) := by
  unfold fetchPage
  extract_lets l1 l2
  try clear_value l1
  try clear_value l2
  repeat' first
    | with_reducible exact KeptE.pure _
    | with_reducible apply KeptE.bind ?_ (fun _ => ?_)
    | with_reducible apply KeptE.collect (fun _ => ?_)
    | with_reducible exact fetchKv_kept _ _ _ _

theorem checkVersion_kept (r : AttnRun) (p : Page) : KeptE (checkVersion r p) := by
  unfold checkVersion
  repeat' first
    | with_reducible exact KeptE.check _ _
    | with_reducible apply KeptE.bind ?_ (fun _ => ?_)
    | with_reducible exact readRecord_kept _ _ _ _ _ _

theorem readQ_kept (r : AttnRun) (pairs : List Nat) : KeptE (readQ r pairs) := by
  unfold readQ
  extract_lets l1
  try clear_value l1
  repeat' first
    | with_reducible exact KeptE.pure _
    | with_reducible apply KeptE.bind ?_ (fun _ => ?_)
    | with_reducible apply KeptE.collect (fun _ => ?_)
    | with_reducible exact pipeUse_kept _ _ _ _ _

theorem weights_kept (v : RowView) (rec_ : StatRec) : KeptE (weights v rec_) := by
  unfold weights
  repeat' first
    | with_reducible exact KeptE.pure _
    | with_reducible apply KeptE.bind ?_ (fun _ => ?_)
    | with_reducible apply KeptE.ite (fun _ => ?_) (fun _ => ?_)
    | with_reducible apply KeptE.collect (fun _ => ?_)
    | with_reducible exact expOp_kept _
    | split

theorem forwardRow_kept (r : AttnRun) (rot : List Nat × Bool) (p : Page) (keys : List (Nat × List NumF)) (q : QRow) (x : RowRun) : KeptE (forwardRow r rot p keys q x) := by
  unfold forwardRow
  extract_lets l1 l2 l3
  try clear_value l1
  try clear_value l2
  try clear_value l3
  repeat' first
    | with_reducible exact KeptE.pure _
    | with_reducible apply KeptE.bind ?_ (fun _ => ?_)
    | with_reducible exact foldScaled_kept _ _
    | with_reducible exact weights_kept _ _

theorem readAcc_kept (r : AttnRun) (isOpen : Bool) (pairs : List Nat) : KeptE (readAcc r isOpen pairs) := by
  unfold readAcc
  repeat' first
    | with_reducible exact KeptE.pure _
    | with_reducible apply KeptE.bind ?_ (fun _ => ?_)
    | with_reducible apply KeptE.ite (fun _ => ?_) (fun _ => ?_)
    | with_reducible apply KeptE.collect (fun _ => ?_)
    | with_reducible exact pipeUse_kept _ _ _ _ _

theorem writeAcc_kept (r : AttnRun) (a : Addr) (l : List NumF) : KeptE (writeAcc r a l) := by
  unfold writeAcc
  extract_lets l1
  try clear_value l1
  repeat' first
    | with_reducible exact KeptE.pure _
    | with_reducible apply KeptE.bind ?_ (fun _ => ?_)
    | with_reducible exact pipeWrite_kept _ _ _ _ _ _

theorem forwardBlock_kept (r : AttnRun) (rot : List Nat × Bool) (isOpen : Bool) (pages : List (Page × List (Nat × List NumF))) (pairs : List Nat) : KeptE (forwardBlock r rot isOpen pages pairs) := by
  unfold forwardBlock
  repeat' first
    | with_reducible exact KeptE.pure _
    | with_reducible apply KeptE.bind ?_ (fun _ => ?_)
    | with_reducible apply KeptE.each (fun _ => ?_)
    | with_reducible apply KeptE.collect (fun _ => ?_)
    | with_reducible apply KeptE.fold (fun _ _ => ?_)
    | with_reducible exact readQ_kept _ _
    | with_reducible exact readAcc_kept _ _ _
    | with_reducible exact readStat_kept _ _ _
    | with_reducible exact forwardRow_kept _ _ _ _ _ _
    | with_reducible exact storeStat_kept _ _ _ _
    | with_reducible exact writeAcc_kept _ _ _
    | with_reducible exact noteElements_kept _ _ _

theorem closeRow_kept (r : AttnRun) (pair : Nat) (rec_ : StatRec) : KeptE (closeRow r pair rec_) := by
  unfold closeRow
  extract_lets l1
  have h1 : ∀ x0, KeptE (l1 x0) := by
    intro _
    unfold l1
    repeat' first
      | with_reducible exact KeptE.pure _
  repeat' first
    | with_reducible exact h1 _
    | with_reducible exact KeptE.pure _
    | with_reducible apply KeptE.bind ?_ (fun _ => ?_)
    | with_reducible apply KeptE.ite (fun _ => ?_) (fun _ => ?_)
    | with_reducible exact pipeUse_kept _ _ _ _ _

theorem closeEntry_kept (r : AttnRun) : KeptE (closeEntry r) := by
  unfold closeEntry
  extract_lets l1
  try clear_value l1
  repeat' first
    | with_reducible exact KeptE.pure _
    | with_reducible apply KeptE.bind ?_ (fun _ => ?_)
    | with_reducible apply KeptE.ite (fun _ => ?_) (fun _ => ?_)
    | with_reducible apply KeptE.each (fun _ => ?_)
    | with_reducible exact readStat_kept _ _ _
    | with_reducible exact closeRow_kept _ _ _
    | with_reducible exact pipeWrite_kept _ _ _ _ _ _
    | with_reducible exact storeStat_kept _ _ _ _
    | with_reducible exact addTally_kept _ _
    | with_reducible exact noteElements_kept _ _ _
    | with_reducible exact StatRec.finish_kept _

theorem backScores_kept (r : AttnRun) (rot : List Nat × Bool) (pg : Page) (keys : List (Nat × List NumF)) (x : BackRow) : KeptE (backScores r rot pg keys x) := by
  unfold backScores
  extract_lets l1 l2 l3 l4
  try clear_value l1
  try clear_value l2
  try clear_value l3
  try clear_value l4
  repeat' first
    | with_reducible exact KeptE.pure _
    | with_reducible apply KeptE.bind ?_ (fun _ => ?_)
    | with_reducible apply KeptE.ite (fun _ => ?_) (fun _ => ?_)
    | with_reducible apply KeptE.collect (fun _ => ?_)
    | with_reducible exact expOp_kept _
    | split

theorem readBack_kept (r : AttnRun) (isOpen : Bool) (pairs : List Nat) : KeptE (readBack r isOpen pairs) := by
  unfold readBack
  extract_lets l1
  try clear_value l1
  repeat' first
    | with_reducible exact KeptE.pure _
    | with_reducible apply KeptE.bind ?_ (fun _ => ?_)
    | with_reducible apply KeptE.collect (fun _ => ?_)
    | with_reducible exact readQ_kept _ _
    | with_reducible exact readAcc_kept _ _ _
    | with_reducible exact readStat_kept _ _ _
    | with_reducible exact pipeUse_kept _ _ _ _ _
    | with_reducible exact lsFloats_kept _ _ _ _

theorem readFloats_kept (r : AttnRun) (a : Addr) : KeptE (readFloats r a) := by
  unfold readFloats
  repeat' first
    | with_reducible exact KeptE.pure _
    | with_reducible apply KeptE.bind ?_ (fun _ => ?_)
    | with_reducible exact pipeUse_kept _ _ _ _ _

theorem backwardGroup_kept (r : AttnRun) (rot : List Nat × Bool) (isOpen : Bool) (pages : List (Page × List (Nat × List NumF))) : KeptE (backwardGroup r rot isOpen pages) := by
  unfold backwardGroup
  extract_lets l1
  try clear_value l1
  repeat' first
    | with_reducible exact KeptE.pure _
    | with_reducible apply KeptE.bind ?_ (fun _ => ?_)
    | with_reducible apply KeptE.each (fun _ => ?_)
    | with_reducible apply KeptE.collect (fun _ => ?_)
    | with_reducible apply KeptE.fold (fun _ _ => ?_)
    | with_reducible exact probeTier_kept _ _ _ _ _
    | with_reducible exact readFloats_kept _ _
    | with_reducible exact readBack_kept _ _ _
    | with_reducible exact backScores_kept _ _ _ _ _
    | with_reducible exact writeAcc_kept _ _ _
    | with_reducible exact noteElements_kept _ _ _

theorem State.loseSlots_kept (s : State) (core first n : Nat) : Kept s (State.loseSlots s core first n) := by
  refine (Kept.refl s).memory rfl rfl rfl rfl rfl fun h => Memory.wf_iff.2 { Memory.wf_iff.1 h with
    acc := SMap.wf_congr (SMap.wf_filter _ (Memory.wf_iff.1 h).acc) fun e he => ?_
    accGone := SMap.wf_foldl_put _ _ _ (Memory.wf_iff.1 h).accGone }
  have hm := (List.mem_filter.1 he).2
  simp only [Bool.not_eq_true', List.contains_eq_mem, decide_eq_false_iff_not] at hm
  exact MemSt.accDefault_congr rfl rfl (SMap.get_foldl_put_of_not_mem _ _ hm)

theorem attnRun_kept (t : Tile) (op : Nat) (b : AttnBody) (i : Nat) : KeptE (attnRun t op b i) := by
  unfold attnRun
  extract_lets l1
  try clear_value l1
  repeat' first
    | with_reducible exact KeptE.pure _
    | with_reducible exact KeptE.ask _
    | with_reducible apply KeptE.bind ?_ (fun _ => ?_)

theorem groupStage_kept (r : AttnRun) (checkFail : Bool) : KeptE (groupStage r checkFail) := by
  unfold groupStage
  extract_lets l1 l2
  try clear_value l1
  try clear_value l2
  repeat' first
    | with_reducible exact KeptE.pure _
    | with_reducible exact KeptE.ask _
    | with_reducible exact KeptE.check _ _
    | with_reducible apply KeptE.bind ?_ (fun _ => ?_)
    | with_reducible apply KeptE.ite (fun _ => ?_) (fun _ => ?_)
    | with_reducible apply KeptE.each (fun _ => ?_)
    | with_reducible apply KeptE.collect (fun _ => ?_)
    | with_reducible apply KeptE.fold (fun _ _ => ?_)
    | with_reducible exact fetchPage_kept _ _ _
    | with_reducible exact checkVersion_kept _ _
    | with_reducible exact addTally_kept _ _
    | with_reducible exact backwardGroup_kept _ _ _ _
    | with_reducible exact forwardBlock_kept _ _ _ _ _

theorem attnStage_kept (op : Nat) (checkFail : Bool) (t : Tile) : KeptE (attnStage op checkFail t) := by
  unfold attnStage
  extract_lets l1 l2 l3 l4 l5
  try clear_value l1
  try clear_value l2
  have h3 : KeptE l3 := by
    unfold l3
    repeat' first
      | with_reducible exact KeptE.pure _
      | with_reducible apply KeptE.bind ?_ (fun _ => ?_)
      | with_reducible exact putTile_kept _ _
  have h4 : ∀ x0, KeptE (l4 x0) := by
    intro _
    unfold l4
    repeat' first
      | with_reducible assumption
  have h5 : ∀ x0, KeptE (l5 x0) := by
    intro _
    unfold l5
    repeat' first
      | with_reducible exact KeptE.pure _
  repeat' first
    | with_reducible exact h3
    | with_reducible exact Kept.refl _
    | with_reducible apply Kept.trans ?_ (State.loseSlots_kept _ _ _ _)
    | with_reducible exact KeptE.pure _
    | with_reducible exact KeptE.ask _
    | with_reducible apply KeptE.bind ?_ (fun _ => ?_)
    | with_reducible apply KeptE.ite (fun _ => ?_) (fun _ => ?_)
    | with_reducible apply KeptE.doState (fun _ => ?_)
    | with_reducible exact attnStart_kept _ _ _
    | with_reducible exact attnRun_kept _ _ _ _
    | with_reducible exact putTile_kept _ _
    | with_reducible exact groupStage_kept _ _
    | with_reducible exact closeEntry_kept _
    | with_reducible exact readGroup_kept _ _

theorem bucketSortStage_kept (t : Tile) : KeptE (bucketSortStage t) := by
  unfold bucketSortStage
  extract_lets l1
  try clear_value l1
  repeat' first
    | with_reducible exact KeptE.pure _
    | with_reducible exact KeptE.check _ _
    | with_reducible apply KeptE.bind ?_ (fun _ => ?_)
    | with_reducible apply KeptE.each (fun _ => ?_)
    | with_reducible apply KeptE.collect (fun _ => ?_)
    | with_reducible exact lsNumber_kept _ _ _ _
    | with_reducible exact writeMem_kept _ _ _ _ _ _

theorem seqDoneStage_kept (t : Tile) : KeptE (seqDoneStage t) := by
  unfold seqDoneStage
  extract_lets l1
  try clear_value l1
  repeat' first
    | with_reducible exact Kept.refl _
    | with_reducible apply Kept.ite (fun _ => ?_) (fun _ => ?_)
    | with_reducible apply Kept.trans ?_ (State.postSequence_kept _ _ _ _)
    | with_reducible exact KeptE.pure _
    | with_reducible exact KeptE.ask _
    | with_reducible exact KeptE.check _ _
    | with_reducible apply KeptE.bind ?_ (fun _ => ?_)
    | with_reducible apply KeptE.ite (fun _ => ?_) (fun _ => ?_)
    | with_reducible apply KeptE.doState (fun _ => ?_)

end Sys2Proof.Machine
end

