-- ==== Sys2Proof/Laws/KeptHub.lean ====
section
/-! SUPPORT. Every operation of Machine/Hub.lean keeps what `Kept` says. -/

namespace Sys2Proof.Machine

theorem State.hubWalk_kept (s : State) (c : Nat) (va : Nat) : Kept s (State.hubWalk s c va).2 := by
  unfold State.hubWalk
  repeat' first
    | with_reducible exact Kept.refl _
    | with_reducible apply Kept.trans ?_ (State.walk_kept _ _ _ _)

theorem hubLeaf_kept (c : Nat) (va : Nat) (write : Bool) : KeptE (hubLeaf c va write) := by
  unfold hubLeaf
  extract_lets l1 l2
  try clear_value l1
  have h2 : ∀ x0, KeptE (l2 x0) := by
    intro _
    unfold l2
    repeat' first
      | with_reducible exact Kept.refl _
      | with_reducible apply Kept.trans ?_ (State.hubWalk_kept _ _ _)
      | with_reducible exact KeptE.pure _
      | with_reducible exact KeptE.stop _
      | with_reducible exact KeptE.check _ _
      | with_reducible apply KeptE.bind ?_ (fun _ => ?_)
      | with_reducible apply KeptE.ofState (fun _ => ?_)
      | split
  repeat' first
    | with_reducible exact Kept.refl _
    | with_reducible apply Kept.trans ?_ (State.hubWalk_kept _ _ _)
    | with_reducible exact KeptE.pure _
    | with_reducible exact KeptE.stop _
    | with_reducible exact KeptE.ask _
    | with_reducible exact KeptE.check _ _
    | with_reducible apply KeptE.bind ?_ (fun _ => ?_)
    | with_reducible apply KeptE.ofState (fun _ => ?_)
    | split

theorem hubTranslate_kept (c : Nat) (va : Nat) (write : Bool) : KeptE (hubTranslate c va write) := by
  unfold hubTranslate
  repeat' first
    | with_reducible exact KeptE.pure _
    | with_reducible apply KeptE.bind ?_ (fun _ => ?_)
    | with_reducible exact hubLeaf_kept _ _ _

theorem hubTell_kept (c : Nat) (va : Nat) (n : Nat) (tier : optParam (Option Nat) none) : KeptE (hubTell c va n tier) := by
  unfold hubTell
  repeat' first
    | with_reducible exact Kept.refl _
    | with_reducible apply Kept.trans ?_ (State.readGran_kept _ _)
    | with_reducible exact KeptE.pure _
    | with_reducible apply KeptE.bind ?_ (fun _ => ?_)
    | with_reducible apply KeptE.collect (fun _ => ?_)
    | with_reducible apply KeptE.ofState (fun _ => ?_)
    | with_reducible exact hubTranslate_kept _ _ _
    | with_reducible exact tierCheck_kept _ _

theorem hubUse_kept (c : Nat) (va : Nat) (n : Nat) (tier : optParam (Option Nat) none) : KeptE (hubUse c va n tier) := by
  unfold hubUse
  repeat' first
    | with_reducible exact KeptE.pure _
    | with_reducible exact KeptE.stop _
    | with_reducible apply KeptE.bind ?_ (fun _ => ?_)
    | with_reducible exact hubTell_kept _ _ _ _
    | split

theorem hubWrite_kept (c : Nat) (va : Nat) (b : List Byte) (poisoned : Bool) (tier : optParam (Option Nat) none) : KeptE (hubWrite c va b poisoned tier) := by
  unfold hubWrite
  repeat' first
    | with_reducible apply KeptE.bind ?_ (fun _ => ?_)
    | with_reducible apply KeptE.each (fun _ => ?_)
    | with_reducible exact hubTranslate_kept _ _ _
    | with_reducible exact tierCheck_kept _ _
    | with_reducible exact storePhys_kept _ _ _

end Sys2Proof.Machine
end

