-- ==== Sys2Proof/Laws/KeptWhetstone.lean ====
section
/-! SUPPORT. Every operation of Machine/Whetstone.lean keeps what `Kept` says. -/

namespace Sys2Proof.Machine

theorem wsOne_kept (op : Nat) (a : Num) (b : Num) (c : Num) : KeptE (wsOne op a b c) := by
  unfold wsOne
  repeat' first
    | with_reducible exact KeptE.pure _
    | with_reducible exact rcpOp_kept _
    | with_reducible exact rsqrtOp_kept _
    | split

theorem wsStep_kept (x : WsIn) (o : WsOp) (es : List WsLane) : KeptE (wsStep x o es) := by
  unfold wsStep
  extract_lets l1 l2
  try clear_value l1
  try clear_value l2
  repeat' first
    | with_reducible exact KeptE.pure _
    | with_reducible apply KeptE.bind ?_ (fun _ => ?_)
    | with_reducible apply KeptE.ite (fun _ => ?_) (fun _ => ?_)
    | with_reducible apply KeptE.collect (fun _ => ?_)
    | with_reducible exact wsOne_kept _ _ _ _

theorem physUse_kept (pa : Nat) (n : Nat) : KeptE (physUse pa n) := by
  unfold physUse
  repeat' first
    | with_reducible exact Kept.refl _
    | with_reducible apply Kept.trans ?_ (State.readGran_kept _ _)
    | with_reducible exact KeptE.pure _
    | with_reducible exact KeptE.check _ _
    | with_reducible apply KeptE.bind ?_ (fun _ => ?_)
    | with_reducible apply KeptE.collect (fun _ => ?_)
    | with_reducible apply KeptE.ofState (fun _ => ?_)

theorem physWrite_kept (pa : Nat) (b : List Byte) : KeptE (physWrite pa b) := by
  unfold physWrite
  repeat' first
    | with_reducible apply KeptE.each (fun _ => ?_)
    | with_reducible exact storePhys_kept _ _ _

theorem readMoment_kept (mode : Nat) (pa : Nat) : KeptE (readMoment mode pa) := by
  unfold readMoment
  repeat' first
    | with_reducible exact KeptE.pure _
    | with_reducible apply KeptE.bind ?_ (fun _ => ?_)
    | with_reducible exact physUse_kept _ _
    | split

theorem writeMoment_kept (mode : Nat) (pa : Nat) (l : List (Option Num)) : KeptE (writeMoment mode pa l) := by
  unfold writeMoment
  repeat' first
    | with_reducible exact KeptE.pure _
    | with_reducible apply KeptE.bind ?_ (fun _ => ?_)
    | with_reducible exact physWrite_kept _ _
    | split

theorem wsGranule_kept (r : WsRun) (pa : Nat) (blk : Nat) (g : Nat) (y : Tally × Sums) : KeptE (wsGranule r pa blk g y) := by
  unfold wsGranule
  extract_lets l1 l2 l3 l4 l5
  try clear_value l1
  try clear_value l2
  try clear_value l3
  try clear_value l4
  have h5 : ∀ x0, KeptE (l5 x0) := by
    intro _
    unfold l5
    repeat' first
      | with_reducible exact KeptE.pure _
      | with_reducible apply KeptE.bind ?_ (fun _ => ?_)
      | with_reducible apply KeptE.ite (fun _ => ?_) (fun _ => ?_)
      | with_reducible apply KeptE.fold (fun _ _ => ?_)
      | with_reducible exact physUse_kept _ _
      | with_reducible exact readMoment_kept _ _
      | with_reducible exact wsStep_kept _ _ _
      | with_reducible exact physWrite_kept _ _
      | with_reducible exact writeMoment_kept _ _ _
  repeat' first
    | with_reducible exact h5 _
    | with_reducible exact KeptE.pure _
    | with_reducible apply KeptE.bind ?_ (fun _ => ?_)
    | with_reducible apply KeptE.ite (fun _ => ?_) (fun _ => ?_)
    | with_reducible exact physUse_kept _ _

theorem wsBlock_kept (c : Nat) (va : Nat) (update : Bool) : KeptE (wsBlock c va update) := by
  unfold wsBlock
  repeat' first
    | with_reducible exact KeptE.pure _
    | with_reducible exact KeptE.stop _
    | with_reducible exact KeptE.ask _
    | with_reducible exact KeptE.check _ _
    | with_reducible apply KeptE.bind ?_ (fun _ => ?_)
    | with_reducible exact hubLeaf_kept _ _ _
    | split

theorem wsAccept_kept (q : QEntry) (b : WsBody) : KeptE (wsAccept q b) := by
  unfold wsAccept
  extract_lets l1 l2
  try clear_value l1
  have h2 : ∀ x0, KeptE (l2 x0) := by
    intro _
    unfold l2
    repeat' first
      | with_reducible exact KeptE.pure _
      | with_reducible apply KeptE.bind ?_ (fun _ => ?_)
      | with_reducible apply KeptE.each (fun _ => ?_)
      | with_reducible exact hubUse_kept _ _ _ _
      | with_reducible exact wsBlock_kept _ _ _
  repeat' first
    | with_reducible exact KeptE.pure _
    | with_reducible exact KeptE.stop _
    | with_reducible exact KeptE.ask _
    | with_reducible exact KeptE.check _ _
    | with_reducible apply KeptE.bind ?_ (fun _ => ?_)
    | with_reducible apply KeptE.each (fun _ => ?_)
    | with_reducible exact hubUse_kept _ _ _ _
    | with_reducible exact wsBlock_kept _ _ _
    | split

theorem State.wsOrdinal_kept (s : State) (n : Nat) : Kept s (State.wsOrdinal s n).2 := by
  unfold State.wsOrdinal
  extract_lets l1 l2 l3 l4
  try clear_value l1
  try clear_value l2
  try clear_value l3
  try clear_value l4
  repeat' first
    | with_reducible exact Kept.refl _
    | with_reducible apply Kept.mk_ ?_

theorem wsBlocks_kept (q : QEntry) (j : WsJob) (b : WsBody) : KeptE (wsBlocks q j b) := by
  unfold wsBlocks
  extract_lets l1 l2
  try clear_value l1
  try clear_value l2
  repeat' first
    | with_reducible exact Kept.refl _
    | with_reducible apply Kept.trans ?_ (State.wsOrdinal_kept _ _)
    | with_reducible exact KeptE.pure _
    | with_reducible exact KeptE.ask _
    | with_reducible apply KeptE.bind ?_ (fun _ => ?_)
    | with_reducible apply KeptE.collect (fun _ => ?_)
    | with_reducible apply KeptE.fold (fun _ _ => ?_)
    | with_reducible apply KeptE.ofState (fun _ => ?_)
    | with_reducible exact wsBlock_kept _ _ _
    | with_reducible exact wsGranule_kept _ _ _ _ _

theorem State.setWsJob_kept (s : State) (j : WsJob) : Kept s (State.setWsJob s j) := by
  unfold State.setWsJob
  extract_lets l1
  try clear_value l1
  repeat' first
    | with_reducible exact Kept.refl _
    | with_reducible apply Kept.mk_ ?_

theorem State.wsFault_kept (s : State) (q : QEntry) (code : Nat) (phys : Nat) : Kept s (State.wsFault s q code phys) := by
  unfold State.wsFault
  extract_lets l1 l2
  try clear_value l1
  have h2 : Kept s l2 := by
    unfold l2
    repeat' first
      | with_reducible exact Kept.refl _
      | with_reducible apply Kept.mk_ ?_
  try clear_value l2
  repeat' first
    | with_reducible assumption
    | with_reducible apply Kept.trans ?_ (State.raiseCtx_kept _ _ _)

theorem State.wsGo_kept (s : State) (q : QEntry) (j : WsJob) : Kept s (State.wsGo s q j) := by
  unfold State.wsGo
  repeat' first
    | with_reducible exact Kept.refl _
    | with_reducible apply Kept.ite (fun _ => ?_) (fun _ => ?_)
    | with_reducible apply Kept.trans ?_ (State.setWsJob_kept _ _)
    | with_reducible apply Kept.trans ?_ (State.wsFault_kept _ _ _ _)
    | apply Kept.trans ?_ (KeptE.result (wsBlocks_kept _ _ _) (by with_reducible assumption))
    | split

theorem State.drain_kept (s : State) (c : Nat) (n : Nat) : Kept s (State.drain s c n) := by
  unfold State.drain
  extract_lets l1
  try clear_value l1
  repeat' first
    | with_reducible exact Kept.refl _
    | with_reducible apply Kept.ite (fun _ => ?_) (fun _ => ?_)
    | with_reducible apply Kept.trans ?_ (State.setShard_kept _ _ _ _)

theorem wsUpdate_kept (core : Nat) (id : Nat) (s : State) : Kept s (wsUpdate core id s) := by
  unfold wsUpdate
  repeat' first
    | with_reducible exact Kept.refl _
    | with_reducible apply Kept.trans ?_ (State.wsGo_kept _ _ _)
    | with_reducible apply Kept.trans ?_ (State.setFld_kept _ _ _ ?_)
    | with_reducible apply Kept.trans ?_ (State.setShard_kept _ _ _ _)
    | with_reducible apply Kept.trans ?_ (State.drain_kept _ _ _)
    | with_reducible apply Kept.trans ?_ (State.wsFault_kept _ _ _ _)
    | with_reducible exact Fld.fosUpdated_soft
    | apply Kept.trans ?_ (KeptE.result (wsAccept_kept _ _) (by with_reducible assumption))
    | split
    | with_reducible apply Kept.mk_ ?_

theorem shardDrainComplete_kept (at_ : Nat) (ctx : Nat) (shard : Nat) (s : State) : Kept s (shardDrainComplete at_ ctx shard s) := by
  unfold shardDrainComplete
  extract_lets l1 l2
  have h1 : Kept s l1 := by
    unfold l1
    repeat' first
      | with_reducible exact Kept.refl _
      | with_reducible apply Kept.trans ?_ (State.advanceTo_kept _ _)
  try clear_value l1
  have h2 : Kept s l2 := by
    unfold l2
    repeat' first
      | with_reducible assumption
      | with_reducible apply Kept.trans ?_ (State.drain_kept _ _ _)
  try clear_value l2
  repeat' first
    | with_reducible exact Kept.refl _
    | with_reducible assumption
    | with_reducible apply Kept.ite (fun _ => ?_) (fun _ => ?_)
    | with_reducible apply Kept.trans ?_ (State.wsGo_kept _ _ _)
    | with_reducible apply Kept.fold (fun _ _ => ?_) ?_
    | split

theorem State.setNorm_kept (s : State) (c : Nat) (i : Nat) (n : Norm) : Kept s (State.setNorm s c i n) := by
  unfold State.setNorm
  extract_lets l1
  try clear_value l1
  repeat' first
    | with_reducible exact Kept.refl _
    | with_reducible apply Kept.mk_ ?_

theorem State.addNorms_kept (s : State) (j : WsJob) (tag : Nat) : Kept s (State.addNorms s j tag) := by
  unfold State.addNorms
  repeat' first
    | with_reducible exact Kept.refl _
    | with_reducible apply Kept.trans ?_ (State.setNorm_kept _ _ _ _)
    | with_reducible apply Kept.fold (fun _ _ => ?_) ?_

theorem State.closeShard_kept (s : State) (c : Nat) (n : Nat) (outcome : Nat) : Kept s (State.closeShard s c n outcome) := by
  unfold State.closeShard
  extract_lets l1 l2 l3
  try clear_value l1
  have h2 : Kept s l2 := by
    unfold l2
    repeat' first
      | with_reducible exact Kept.refl _
      | with_reducible apply Kept.trans ?_ (State.setShard_kept _ _ _ _)
  try clear_value l2
  try clear_value l3
  repeat' first
    | with_reducible assumption
    | with_reducible apply Kept.ite (fun _ => ?_) (fun _ => ?_)
    | with_reducible apply Kept.trans ?_ (State.setCtx_kept _ _ _)

theorem State.afterUpdate_kept (s : State) (j : WsJob) (last : Bool) (tag : Nat) : Kept s (State.afterUpdate s j last tag) := by
  unfold State.afterUpdate
  extract_lets l1 l2 l3 l4 l5
  try clear_value l1
  try clear_value l2
  try clear_value l3
  have h4 : Kept s l4 := by
    unfold l4
    repeat' first
      | with_reducible exact Kept.refl _
      | with_reducible apply Kept.ite (fun _ => ?_) (fun _ => ?_)
      | with_reducible apply Kept.trans ?_ (State.setNorm_kept _ _ _ _)
  try clear_value l4
  try clear_value l5
  repeat' first
    | with_reducible assumption
    | with_reducible apply Kept.ite (fun _ => ?_) (fun _ => ?_)
    | with_reducible apply Kept.trans ?_ (State.setShard_kept _ _ _ _)
    | with_reducible apply Kept.trans ?_ (State.closeShard_kept _ _ _ _)

theorem State.finishEntry_kept (s : State) (q : QEntry) (t : Tally) : Kept s (State.finishEntry s q t) := by
  unfold State.finishEntry
  extract_lets l1
  have h1 : Kept s l1 := by
    unfold l1
    repeat' first
      | with_reducible exact Kept.refl _
      | with_reducible apply Kept.trans ?_ (State.absorb_kept _ _ _ _ _ _ _ _)
  try clear_value l1
  repeat' first
    | with_reducible assumption
    | with_reducible apply Kept.trans ?_ (State.raiseCtx_kept _ _ _)
    | with_reducible apply Kept.trans ?_ (State.signalHeader_kept _ _ _ _)
    | split

theorem wsUpdateWriteback_kept (at_ : Nat) (core : Nat) (id : Nat) (s : State) : Kept s (wsUpdateWriteback at_ core id s) := by
  unfold wsUpdateWriteback
  extract_lets l1 l2 l3 l4
  have h1 : Kept s l1 := by
    unfold l1
    repeat' first
      | with_reducible exact Kept.refl _
      | with_reducible apply Kept.trans ?_ (State.advanceTo_kept _ _)
  try clear_value l1
  try clear_value l2
  try clear_value l3
  have h4 : Kept s l4 := by
    unfold l4
    repeat' first
      | with_reducible assumption
      | with_reducible apply Kept.mk_ ?_
  try clear_value l4
  repeat' first
    | with_reducible assumption
    | with_reducible apply Kept.trans ?_ (State.addNorms_kept _ _ _)
    | with_reducible apply Kept.trans ?_ (State.afterUpdate_kept _ _ _ _)
    | with_reducible apply Kept.trans ?_ (State.finishEntry_kept _ _ _)
    | split

theorem leaseHeld_kept (at_ : Nat) (ctx : Nat) (shard : Nat) (s : State) : Kept s (leaseHeld at_ ctx shard s) := by
  unfold leaseHeld
  extract_lets l1 l2 l3
  have h1 : Kept s l1 := by
    unfold l1
    repeat' first
      | with_reducible exact Kept.refl _
      | with_reducible apply Kept.trans ?_ (State.advanceTo_kept _ _)
  try clear_value l1
  try clear_value l2
  have h3 : Kept s l3 := by
    unfold l3
    repeat' first
      | with_reducible assumption
      | with_reducible apply Kept.trans ?_ (State.setShard_kept _ _ _ _)
  try clear_value l3
  repeat' first
    | with_reducible assumption
    | with_reducible apply Kept.ite (fun _ => ?_) (fun _ => ?_)
    | with_reducible apply Kept.trans ?_ (State.wsFault_kept _ _ _ _)
    | with_reducible apply Kept.trans ?_ (State.raiseCtx_kept _ _ _)
    | split

theorem wsSeal_kept (core : Nat) (id : Nat) (s : State) : Kept s (wsSeal core id s) := by
  unfold wsSeal
  repeat' first
    | with_reducible exact Kept.refl _
    | with_reducible apply Kept.trans ?_ (State.setCtx_kept _ _ _)
    | with_reducible apply Kept.trans ?_ (State.signalHeader_kept _ _ _ _)
    | with_reducible apply Kept.trans ?_ (State.wsFault_kept _ _ _ _)
    | apply Kept.trans ?_ (KeptE.result (hubWrite_kept _ _ _ _ _) (by with_reducible assumption))
    | split
    | with_reducible apply Kept.mk_ ?_

theorem leaseMessages_kept (q : QEntry) (b : LeaseBody) : KeptE (leaseMessages q b) := by
  unfold leaseMessages
  repeat' first
    | with_reducible exact KeptE.pure _
    | with_reducible exact KeptE.check _ _
    | with_reducible apply KeptE.bind ?_ (fun _ => ?_)
    | with_reducible apply KeptE.ite (fun _ => ?_) (fun _ => ?_)
    | with_reducible apply KeptE.collect (fun _ => ?_)
    | with_reducible exact readTell_kept _ _ _ _ _
    | with_reducible exact hubTell_kept _ _ _ _

theorem State.leaseDone_kept (s : State) (q : QEntry) : Kept s (State.leaseDone s q) := by
  unfold State.leaseDone
  extract_lets l1 l2
  try clear_value l1
  have h2 : Kept s l2 := by
    unfold l2
    repeat' first
      | with_reducible exact Kept.refl _
      | with_reducible apply Kept.mk_ ?_
  try clear_value l2
  repeat' first
    | with_reducible exact Kept.refl _
    | with_reducible assumption
    | with_reducible apply Kept.ite (fun _ => ?_) (fun _ => ?_)
    | with_reducible apply Kept.trans ?_ (State.signalHeader_kept _ _ _ _)

theorem State.leaseSend_kept (s : State) (c : Nat) (dst : Nat) (body : Nat) : Kept s (State.leaseSend s c dst body) := by
  unfold State.leaseSend
  repeat' first
    | with_reducible exact Kept.refl _
    | with_reducible apply Kept.ite (fun _ => ?_) (fun _ => ?_)
    | with_reducible apply Kept.trans ?_ (State.routeOut_kept _ _)

theorem wsLease_kept (core : Nat) (id : Nat) (s : State) : Kept s (wsLease core id s) := by
  unfold wsLease
  repeat' first
    | with_reducible exact Kept.refl _
    | with_reducible apply Kept.ite (fun _ => ?_) (fun _ => ?_)
    | with_reducible apply Kept.trans ?_ (State.leaseSend_kept _ _ _ _)
    | with_reducible apply Kept.trans ?_ (State.leaseDone_kept _ _)
    | with_reducible apply Kept.trans ?_ (State.wsFault_kept _ _ _ _)
    | with_reducible apply Kept.fold (fun _ _ => ?_) ?_
    | apply Kept.trans ?_ (KeptE.result (leaseMessages_kept _ _) (by with_reducible assumption))
    | split
    | with_reducible apply Kept.mk_ ?_

theorem leaseMessage_kept (at_ : Nat) (ctx : Nat) (gatherer : Nat) (shard : Nat) (mode : Nat) (version : Nat) (held : Nat) (s : State) : Kept s (leaseMessage at_ ctx gatherer shard mode version held s) := by
  unfold leaseMessage
  extract_lets l1 l2 l3 l4 l5 l6 l7
  have h1 : Kept s l1 := by
    unfold l1
    repeat' first
      | with_reducible exact Kept.refl _
      | with_reducible apply Kept.trans ?_ (State.advanceTo_kept _ _)
  try clear_value l1
  try clear_value l2
  try clear_value l3
  try clear_value l4
  have h5 : Kept s l5 := by
    unfold l5
    repeat' first
      | with_reducible assumption
      | with_reducible apply Kept.ite (fun _ => ?_) (fun _ => ?_)
      | with_reducible apply Kept.trans ?_ (State.setCtx_kept _ _ _)
      | with_reducible apply Kept.trans ?_ (State.setShard_kept _ _ _ _)
  try clear_value l5
  try clear_value l6
  have h7 : Kept s l7 := by
    unfold l7
    repeat' first
      | with_reducible assumption
      | with_reducible apply Kept.mk_ ?_
  try clear_value l7
  repeat' first
    | with_reducible assumption
    | with_reducible apply Kept.trans ?_ (State.leaseSend_kept _ _ _ _)

theorem leaseWrite_kept (m : LeaseMsg) (result : Nat) (a : Addr) : KeptE (leaseWrite m result a) := by
  unfold leaseWrite
  extract_lets l1 l2
  try clear_value l1
  have h2 : ∀ x0, KeptE (l2 x0) := by
    intro _
    unfold l2
    repeat' first
      | with_reducible exact writeMem_kept _ _ _ _ _ _
  repeat' first
    | with_reducible apply KeptE.bind ?_ (fun _ => ?_)
    | with_reducible apply KeptE.ite (fun _ => ?_) (fun _ => ?_)
    | with_reducible exact writeMem_kept _ _ _ _ _ _

theorem State.shardVersion_kept (s : State) (c : Nat) (core : Nat) (desc : Nat) : Kept s (State.shardVersion s c core desc) := by
  unfold State.shardVersion
  extract_lets l1
  try clear_value l1
  repeat' first
    | with_reducible exact Kept.refl _
    | with_reducible apply Kept.ite (fun _ => ?_) (fun _ => ?_)
    | with_reducible apply Kept.trans ?_ (State.ctxError_kept _ _ _ _ _)
    | with_reducible apply Kept.trans ?_ (State.report_kept _ _)
    | with_reducible apply Kept.trans ?_ (State.setCtx_kept _ _ _)

theorem leaseReply_kept (at_ : Nat) (core : Nat) (id : Nat) (entry : Nat) (result : Nat) (s : State) : Kept s (leaseReply at_ core id entry result s) := by
  unfold leaseReply
  extract_lets l1
  have h1 : Kept s l1 := by
    unfold l1
    repeat' first
      | with_reducible exact Kept.refl _
      | with_reducible apply Kept.trans ?_ (State.advanceTo_kept _ _)
  try clear_value l1
  repeat' first
    | with_reducible assumption
    | with_reducible apply Kept.ite (fun _ => ?_) (fun _ => ?_)
    | with_reducible apply Kept.trans ?_ (State.wsFault_kept _ _ _ _)
    | with_reducible apply Kept.trans ?_ (State.shardVersion_kept _ _ _ _)
    | with_reducible apply Kept.trans ?_ (State.leaseDone_kept _ _)
    | apply Kept.trans ?_ (KeptE.result (leaseWrite_kept _ _ _) (by with_reducible assumption))
    | split
    | with_reducible apply Kept.mk_ ?_

theorem State.leasePacket_kept (s : State) (c : Nat) (k : Packet) : Kept s (State.leasePacket s c k) := by
  unfold State.leasePacket
  repeat' first
    | with_reducible exact Kept.refl _
    | with_reducible apply Kept.ite (fun _ => ?_) (fun _ => ?_)
    | with_reducible apply Kept.trans ?_ (leaseReply_kept _ _ _ _ _ _)
    | with_reducible apply Kept.trans ?_ (leaseMessage_kept _ _ _ _ _ _ _ _)
    | split

end Sys2Proof.Machine
end

