-- ==== Sys2Proof/Laws/KeptCollective.lean ====
section
/-! SUPPORT. Every operation of Machine/Collective.lean keeps what `Kept` says. -/

namespace Sys2Proof.Machine

theorem readGranule_kept (c : Nat) (va : Nat) (tier : optParam (Option Nat) none) : KeptE (readGranule c va tier) := by
  unfold readGranule
  repeat' first
    | with_reducible exact KeptE.pure _
    | with_reducible apply KeptE.bind ?_ (fun _ => ?_)
    | with_reducible exact hubTell_kept _ _ _ _

theorem readGrans_kept (c : Nat) (va : Nat) (n : Nat) (tier : optParam (Option Nat) none) : KeptE (readGrans c va n tier) := by
  unfold readGrans
  repeat' first
    | with_reducible apply KeptE.collect (fun _ => ?_)
    | with_reducible exact readGranule_kept _ _ _

theorem landable_kept (c : Nat) (pa : Nat) : KeptE (landable c pa) := by
  unfold landable
  repeat' first
    | with_reducible exact KeptE.ask _
    | with_reducible exact KeptE.check _ _
    | with_reducible apply KeptE.bind ?_ (fun _ => ?_)

theorem landBytes_kept (c : Nat) (va : Nat) (b : List Byte) (poisoned : Bool) (tier : optParam (Option Nat) none) : KeptE (landBytes c va b poisoned tier) := by
  unfold landBytes
  repeat' first
    | with_reducible apply KeptE.bind ?_ (fun _ => ?_)
    | with_reducible exact hubTranslate_kept _ _ _
    | with_reducible exact tierCheck_kept _ _
    | with_reducible exact landable_kept _ _
    | with_reducible exact storePhys_kept _ _ _

theorem landGran_kept (c : Nat) (va : Nat) (g : Gran) (tier : optParam (Option Nat) none) : KeptE (landGran c va g tier) := by
  unfold landGran
  repeat' first
    | with_reducible exact landBytes_kept _ _ _ _ _

theorem landGrans_kept (c : Nat) (va : Nat) (l : List Gran) (tier : optParam (Option Nat) none) : KeptE (landGrans c va l tier) := by
  unfold landGrans
  repeat' first
    | with_reducible apply KeptE.each (fun _ => ?_)
    | with_reducible exact landGran_kept _ _ _ _

theorem collAccept_kept (q : QEntry) : KeptE (collAccept q) := by
  unfold collAccept
  extract_lets l1 l2 l3 l4 l5
  try clear_value l1
  try clear_value l2
  try clear_value l3
  try clear_value l4
  try clear_value l5
  repeat' first
    | with_reducible exact KeptE.pure _
    | with_reducible exact KeptE.ask _
    | with_reducible exact KeptE.check _ _
    | with_reducible apply KeptE.bind ?_ (fun _ => ?_)
    | with_reducible apply KeptE.ite (fun _ => ?_) (fun _ => ?_)
    | with_reducible exact hubTell_kept _ _ _ _

theorem landRow_kept (x : Xfer) (slot : Nat) (src : Nat) (idx : Nat) (choice : Nat) (deferred : Bool) (row : List Gran) : KeptE (landRow x slot src idx choice deferred row) := by
  unfold landRow
  extract_lets l1 l2
  try clear_value l1
  try clear_value l2
  repeat' first
    | with_reducible exact KeptE.pure _
    | with_reducible apply KeptE.bind ?_ (fun _ => ?_)
    | with_reducible apply KeptE.ite (fun _ => ?_) (fun _ => ?_)
    | with_reducible exact landGrans_kept _ _ _ _
    | with_reducible exact landBytes_kept _ _ _ _ _

theorem foldRow_kept (x : Xfer) (idx : Nat) (choice : Nat) (deferred : Bool) (row : List Gran) : KeptE (foldRow x idx choice deferred row) := by
  unfold foldRow
  extract_lets l1 l2 l3 l4 l5
  try clear_value l1
  try clear_value l2
  try clear_value l3
  try clear_value l4
  try clear_value l5
  repeat' first
    | with_reducible exact KeptE.pure _
    | with_reducible apply KeptE.bind ?_ (fun _ => ?_)
    | with_reducible apply KeptE.ite (fun _ => ?_) (fun _ => ?_)
    | with_reducible exact hubTell_kept _ _ _ _
    | with_reducible exact landGrans_kept _ _ _ _
    | with_reducible exact landBytes_kept _ _ _ _ _
    | with_reducible exact readGrans_kept _ _ _ _

theorem sendRow_kept (y : Disp) (dst : Nat) (slot : Nat) (idx : Nat) (choice : Nat) (deferred : Bool) (row : List Gran) : KeptE (sendRow y dst slot idx choice deferred row) := by
  unfold sendRow
  repeat' first
    | with_reducible exact KeptE.pure _
    | with_reducible exact KeptE.ask _
    | with_reducible apply KeptE.bind ?_ (fun _ => ?_)
    | with_reducible apply KeptE.ite (fun _ => ?_) (fun _ => ?_)
    | with_reducible exact landRow_kept _ _ _ _ _ _ _

theorem countRow_kept (c : Nat) (k : Nat) : KeptE (countRow c k) := by
  unfold countRow
  repeat' first
    | with_reducible exact Kept.refl _
    | with_reducible apply KeptE.doState (fun _ => ?_)
    | with_reducible apply Kept.mk_ ?_

theorem dispatchOne_kept (idx : Nat) (choice : Nat) (expert : Nat) (rowVa : Nat) (token : Nat) (gate : Nat) (deferred : Bool) (bad : Bool) (y : Disp) : KeptE (dispatchOne idx choice expert rowVa token gate deferred bad y) := by
  unfold dispatchOne
  extract_lets l1 l2 l3 l4 l5 l6
  try clear_value l1
  try clear_value l2
  try clear_value l3
  try clear_value l4
  try clear_value l5
  try clear_value l6
  repeat' first
    | with_reducible exact KeptE.pure _
    | with_reducible exact KeptE.ask _
    | with_reducible exact KeptE.check _ _
    | with_reducible apply KeptE.bind ?_ (fun _ => ?_)
    | with_reducible apply KeptE.ite (fun _ => ?_) (fun _ => ?_)
    | with_reducible exact readGrans_kept _ _ _ _
    | with_reducible exact countRow_kept _ _
    | with_reducible exact sendRow_kept _ _ _ _ _ _ _
    | with_reducible exact landGrans_kept _ _ _ _
    | with_reducible exact landBytes_kept _ _ _ _ _

theorem dispatchAll_kept (x : Xfer) : KeptE (dispatchAll x) := by
  unfold dispatchAll
  extract_lets l1 l2 l3
  try clear_value l1
  try clear_value l2
  have h3 : ∀ x0, KeptE (l3 x0) := by
    intro _
    unfold l3
    repeat' first
      | with_reducible exact KeptE.pure _
      | with_reducible apply KeptE.bind ?_ (fun _ => ?_)
      | with_reducible apply KeptE.ite (fun _ => ?_) (fun _ => ?_)
      | with_reducible apply KeptE.fold (fun _ _ => ?_)
      | with_reducible exact hubTell_kept _ _ _ _
      | with_reducible exact dispatchOne_kept _ _ _ _ _ _ _ _ _
      | with_reducible exact landBytes_kept _ _ _ _ _
  repeat' first
    | with_reducible exact h3 _
    | with_reducible exact KeptE.pure _
    | with_reducible apply KeptE.bind ?_ (fun _ => ?_)
    | with_reducible apply KeptE.ite (fun _ => ?_) (fun _ => ?_)
    | with_reducible exact hubTell_kept _ _ _ _

theorem dispatchEnd_kept (x : Xfer) : KeptE (dispatchEnd x) := by
  unfold dispatchEnd
  extract_lets l1
  try clear_value l1
  repeat' first
    | with_reducible exact KeptE.ask _
    | with_reducible apply KeptE.bind ?_ (fun _ => ?_)
    | with_reducible apply KeptE.each (fun _ => ?_)
    | with_reducible exact landBytes_kept _ _ _ _ _
    | with_reducible exact landGrans_kept _ _ _ _

theorem combineAll_kept (x : Xfer) : KeptE (combineAll x) := by
  unfold combineAll
  extract_lets l1 l2
  try clear_value l1
  try clear_value l2
  repeat' first
    | with_reducible exact KeptE.pure _
    | with_reducible exact KeptE.ask _
    | with_reducible apply KeptE.bind ?_ (fun _ => ?_)
    | with_reducible apply KeptE.ite (fun _ => ?_) (fun _ => ?_)
    | with_reducible apply KeptE.each (fun _ => ?_)
    | with_reducible apply KeptE.fold (fun _ _ => ?_)
    | with_reducible exact landGrans_kept _ _ _ _
    | with_reducible exact hubTell_kept _ _ _ _
    | with_reducible exact readGrans_kept _ _ _ _
    | with_reducible exact foldRow_kept _ _ _ _ _

theorem shardHeader_kept (x : Xfer) (b : CollBody) : KeptE (shardHeader x b) := by
  unfold shardHeader
  repeat' first
    | with_reducible exact KeptE.pure _
    | with_reducible exact KeptE.ask _
    | with_reducible exact KeptE.free _
    | with_reducible apply KeptE.bind ?_ (fun _ => ?_)
    | split

theorem ownSegment_kept (x : Xfer) : KeptE (ownSegment x) := by
  unfold ownSegment
  extract_lets l1
  try clear_value l1
  repeat' first
    | with_reducible exact KeptE.pure _
    | with_reducible exact KeptE.ask _
    | with_reducible apply KeptE.bind ?_ (fun _ => ?_)
    | with_reducible apply KeptE.ite (fun _ => ?_) (fun _ => ?_)
    | with_reducible apply KeptE.collect (fun _ => ?_)
    | with_reducible exact shardHeader_kept _ _
    | with_reducible exact readGranule_kept _ _ _

theorem landOwn_kept (x : Xfer) (u : Nat) (l : List Gran) : KeptE (landOwn x u l) := by
  unfold landOwn
  repeat' first
    | with_reducible exact KeptE.ask _
    | with_reducible apply KeptE.bind ?_ (fun _ => ?_)
    | with_reducible apply KeptE.each (fun _ => ?_)
    | with_reducible exact landGran_kept _ _ _ _

theorem readOwn_kept (x : Xfer) (u : Nat) (n : Nat) : KeptE (readOwn x u n) := by
  unfold readOwn
  repeat' first
    | with_reducible exact KeptE.ask _
    | with_reducible apply KeptE.bind ?_ (fun _ => ?_)
    | with_reducible apply KeptE.collect (fun _ => ?_)
    | with_reducible exact readGranule_kept _ _ _

theorem readSegment_kept (x : Xfer) (j : Nat) (u : Nat) (n : Nat) : KeptE (readSegment x j u n) := by
  unfold readSegment
  repeat' first
    | with_reducible exact readGrans_kept _ _ _ _

theorem toRanks_kept (x : Xfer) (ranks : List Nat) (offset : Nat) (l : List Gran) : KeptE (toRanks x ranks offset l) := by
  unfold toRanks
  repeat' first
    | with_reducible exact KeptE.ask _

theorem xferBegin_kept (x : Xfer) : KeptE (xferBegin x) := by
  unfold xferBegin
  extract_lets l1 l2
  try clear_value l1
  try clear_value l2
  repeat' first
    | with_reducible exact KeptE.pure _
    | with_reducible exact KeptE.ask _
    | with_reducible exact KeptE.check _ _
    | with_reducible apply KeptE.bind ?_ (fun _ => ?_)
    | with_reducible apply KeptE.ite (fun _ => ?_) (fun _ => ?_)
    | with_reducible apply KeptE.collect (fun _ => ?_)
    | with_reducible exact ownSegment_kept _
    | with_reducible exact landGrans_kept _ _ _ _
    | with_reducible exact toRanks_kept _ _ _ _
    | with_reducible exact readGrans_kept _ _ _ _
    | with_reducible exact dispatchAll_kept _
    | with_reducible exact combineAll_kept _
    | with_reducible exact readSegment_kept _ _ _ _
    | with_reducible exact landOwn_kept _ _ _
    | split

theorem landVector_kept (x : Xfer) (r : Nat) (k : Packet) : KeptE (landVector x r k) := by
  unfold landVector
  extract_lets l1
  try clear_value l1
  repeat' first
    | with_reducible exact KeptE.pure _
    | with_reducible exact KeptE.ask _
    | with_reducible apply KeptE.bind ?_ (fun _ => ?_)
    | with_reducible apply KeptE.ite (fun _ => ?_) (fun _ => ?_)
    | with_reducible exact readSegment_kept _ _ _ _
    | with_reducible exact landOwn_kept _ _ _
    | with_reducible exact toRanks_kept _ _ _ _
    | with_reducible exact readOwn_kept _ _ _
    | with_reducible exact landGrans_kept _ _ _ _
    | split

theorem landData_kept (x : Xfer) (r : Nat) (k : Packet) : KeptE (landData x r k) := by
  unfold landData
  extract_lets l1 l2
  try clear_value l1
  try clear_value l2
  repeat' first
    | with_reducible exact KeptE.pure _
    | with_reducible exact KeptE.ask _
    | with_reducible apply KeptE.bind ?_ (fun _ => ?_)
    | with_reducible exact landGrans_kept _ _ _ _
    | with_reducible exact landRow_kept _ _ _ _ _ _ _
    | with_reducible exact foldRow_kept _ _ _ _ _
    | with_reducible exact landVector_kept _ _ _
    | split

theorem gatherOwn_kept (x : Xfer) : KeptE (gatherOwn x) := by
  unfold gatherOwn
  repeat' first
    | with_reducible exact KeptE.pure _
    | with_reducible exact KeptE.ask _
    | with_reducible apply KeptE.bind ?_ (fun _ => ?_)
    | with_reducible apply KeptE.ite (fun _ => ?_) (fun _ => ?_)
    | with_reducible exact readOwn_kept _ _ _
    | with_reducible exact toRanks_kept _ _ _ _

theorem State.setXfer_kept (s : State) (x : Xfer) : Kept s (State.setXfer s x) := by
  unfold State.setXfer
  repeat' first
    | with_reducible exact Kept.refl _
    | with_reducible apply Kept.trans ?_ (State.setXfers_kept _ _)

theorem State.sendAll_kept (s : State) (id : Nat) (l : List Packet) : Kept s (State.sendAll s id l) := by
  unfold State.sendAll
  repeat' first
    | with_reducible exact Kept.refl _
    | with_reducible apply Kept.ite (fun _ => ?_) (fun _ => ?_)
    | with_reducible apply Kept.trans ?_ (State.routeOut_kept _ _)
    | with_reducible apply Kept.fold (fun _ _ => ?_) ?_

theorem State.xferFault_kept (s : State) (x : Xfer) (code : Nat) (phys : Nat) : Kept s (State.xferFault s x code phys) := by
  unfold State.xferFault
  extract_lets l1 l2 l3
  have h1 : Kept s l1 := by
    unfold l1
    repeat' first
      | with_reducible exact Kept.refl _
      | with_reducible apply Kept.trans ?_ (State.setXfers_kept _ _)
  try clear_value l1
  try clear_value l2
  have h3 : Kept s l3 := by
    unfold l3
    repeat' first
      | with_reducible assumption
      | with_reducible apply Kept.mk_ ?_
  try clear_value l3
  repeat' first
    | with_reducible assumption
    | with_reducible apply Kept.trans ?_ (State.raiseCtx_kept _ _ _)

theorem State.markNow_kept (s : State) (id : Nat) (sent : SMap Nat) : Kept s (State.markNow s id sent) := by
  unfold State.markNow
  repeat' first
    | with_reducible exact Kept.refl _
    | with_reducible apply Kept.ite (fun _ => ?_) (fun _ => ?_)
    | with_reducible apply Kept.trans ?_ (State.sendAll_kept _ _ _)
    | with_reducible apply Kept.trans ?_ (State.setXfer_kept _ _)
    | split

theorem thenGather_kept (work : Exec (Xfer × SMap Nat × List Packet)) (h_work : KeptE (work)) : KeptE (thenGather work) := by
  unfold thenGather
  repeat' first
    | with_reducible assumption
    | with_reducible exact KeptE.pure _
    | with_reducible apply KeptE.bind ?_ (fun _ => ?_)
    | with_reducible exact gatherOwn_kept _

theorem State.xferStep_kept (s : State) (x : Xfer) (work : Exec (Xfer × SMap Nat × List Packet)) (h_work : KeptE (work)) : KeptO s (State.xferStep s x work) := by
  unfold State.xferStep
  repeat' first
    | with_reducible exact Kept.refl _
    | with_reducible assumption
    | with_reducible exact KeptO.none _
    | with_reducible apply KeptO.some
    | with_reducible apply Kept.trans ?_ (State.markNow_kept _ _ _)
    | with_reducible apply Kept.trans ?_ (State.sendAll_kept _ _ _)
    | with_reducible apply Kept.trans ?_ (State.setXfer_kept _ _)
    | with_reducible apply Kept.trans ?_ (State.xferFault_kept _ _ _ _)
    | apply Kept.trans ?_ (KeptE.result (thenGather_kept (h_work := ?_) _) (by with_reducible assumption))
    | split

theorem State.collOrdinal_kept (s : State) (x : Xfer) : Kept s (State.collOrdinal s x).2 := by
  unfold State.collOrdinal
  extract_lets l1 l2 l3 l4
  try clear_value l1
  try clear_value l2
  try clear_value l3
  try clear_value l4
  repeat' first
    | with_reducible exact Kept.refl _
    | with_reducible apply Kept.mk_ ?_

theorem State.startXfer_kept (s : State) (x : Xfer) : KeptO s (State.startXfer s x) := by
  unfold State.startXfer
  repeat' first
    | with_reducible exact Kept.refl _
    | with_reducible apply Kept.trans ?_ (State.collOrdinal_kept _ _)
    | with_reducible apply KeptO.trans ?_ (State.xferStep_kept (h_work := ?_) _ _ _)
    | with_reducible apply Kept.trans ?_ (State.setXfer_kept _ _)
    | with_reducible exact KeptE.pure _
    | with_reducible apply KeptE.bind ?_ (fun _ => ?_)
    | with_reducible exact xferBegin_kept _

theorem addNorm_kept (x : Xfer) : KeptE (addNorm x) := by
  unfold addNorm
  extract_lets l1 l2
  try clear_value l1
  try clear_value l2
  repeat' first
    | with_reducible exact KeptE.ask _
    | with_reducible apply KeptE.bind ?_ (fun _ => ?_)
    | with_reducible exact readOwn_kept _ _ _
    | with_reducible exact hubTell_kept _ _ _ _
    | with_reducible exact landBytes_kept _ _ _ _ _

theorem State.addExperts_kept (s : State) (x : Xfer) : Kept s (State.addExperts s x) := by
  unfold State.addExperts
  repeat' first
    | with_reducible exact Kept.refl _
    | with_reducible apply Kept.fold (fun _ _ => ?_) ?_
    | with_reducible apply Kept.mk_ ?_

theorem xferEnd_kept (x : Xfer) : KeptE (xferEnd x) := by
  unfold xferEnd
  extract_lets l1
  have h1 : ∀ x0, KeptE (l1 x0) := by
    intro _
    unfold l1
    repeat' first
      | with_reducible exact KeptE.pure _
      | with_reducible apply KeptE.ite (fun _ => ?_) (fun _ => ?_)
      | with_reducible exact dispatchEnd_kept _
  repeat' first
    | with_reducible exact KeptE.pure _
    | with_reducible apply KeptE.bind ?_ (fun _ => ?_)
    | with_reducible apply KeptE.ite (fun _ => ?_) (fun _ => ?_)
    | with_reducible exact dispatchEnd_kept _
    | with_reducible exact addNorm_kept _

theorem State.finishXfer_kept (s : State) (x : Xfer) : KeptO s (State.finishXfer s x) := by
  unfold State.finishXfer
  repeat' first
    | with_reducible exact Kept.refl _
    | with_reducible exact KeptO.none _
    | with_reducible apply KeptO.some
    | with_reducible apply Kept.trans ?_ (State.xferFault_kept _ _ _ _)
    | with_reducible apply Kept.trans ?_ (State.setXfers_kept _ _)
    | with_reducible apply Kept.trans ?_ (State.addExperts_kept _ _)
    | with_reducible apply Kept.trans ?_ (State.finishEntry_kept _ _ _)
    | apply Kept.trans ?_ (KeptE.result (xferEnd_kept _) (by with_reducible assumption))
    | split
    | with_reducible apply Kept.mk_ ?_
    | dsimp only

theorem State.takeMarker_kept (s : State) (x : Xfer) (r : Nat) (amount : Nat) : Kept s (State.takeMarker s x r amount) := by
  unfold State.takeMarker
  repeat' first
    | with_reducible exact Kept.refl _
    | with_reducible apply Kept.ite (fun _ => ?_) (fun _ => ?_)
    | with_reducible apply Kept.trans ?_ (State.xferFault_kept _ _ _ _)
    | with_reducible apply Kept.trans ?_ (State.setXfer_kept _ _)

theorem State.takePacket_kept (s : State) (x : Xfer) (port : Option Nat) (k : Packet) : KeptO s (State.takePacket s x port k) := by
  unfold State.takePacket
  repeat' first
    | with_reducible exact Kept.refl _
    | with_reducible apply KeptO.some
    | with_reducible apply KeptO.ite (fun _ => ?_) (fun _ => ?_)
    | with_reducible apply Kept.trans ?_ (State.takeMarker_kept _ _ _ _)
    | with_reducible apply Kept.trans ?_ (State.setXfer_kept _ _)
    | with_reducible apply KeptO.trans ?_ (State.xferStep_kept (h_work := ?_) _ _ _)
    | with_reducible exact KeptE.pure _
    | with_reducible apply KeptE.bind ?_ (fun _ => ?_)
    | with_reducible exact landData_kept _ _ _
    | split

theorem State.leavePlace_kept (s : State) (h : Held) : Kept s (State.leavePlace s h) := by
  unfold State.leavePlace
  extract_lets l1
  try clear_value l1
  repeat' first
    | with_reducible exact Kept.refl _
    | with_reducible apply Kept.trans ?_ (State.freePool_kept _ _ _ _)
    | with_reducible apply Kept.trans ?_ (State.setCtx_kept _ _ _)
    | split

theorem State.dropOneHeld_kept (s : State) (h : Held) : Kept s (State.dropOneHeld s h) := by
  unfold State.dropOneHeld
  extract_lets l1
  try clear_value l1
  repeat' first
    | with_reducible exact Kept.refl _
    | with_reducible apply Kept.mk_ ?_

theorem State.heldStep_kept (s : State) (h : Held) (earlier : List Held) : KeptO s (State.heldStep s h earlier) := by
  unfold State.heldStep
  repeat' first
    | with_reducible exact Kept.refl _
    | with_reducible exact KeptO.none _
    | with_reducible apply KeptO.some
    | with_reducible apply KeptO.ite (fun _ => ?_) (fun _ => ?_)
    | with_reducible apply Kept.trans ?_ (State.leasePacket_kept _ _ _)
    | with_reducible apply Kept.trans ?_ (State.leavePlace_kept _ _)
    | with_reducible apply Kept.trans ?_ (State.dropOneHeld_kept _ _)
    | with_reducible apply KeptO.trans ?_ (State.takePacket_kept _ _ _ _)
    | with_reducible apply Kept.trans ?_ (State.setCtx_kept _ _ _)
    | split
    | with_reducible apply Kept.mk_ ?_

theorem State.heldNext_kept (s : State) (a b : List Held) : KeptO s (State.heldNext s a b) := by
  induction b generalizing a with
  | nil => exact KeptO.none s
  | cons x r ih =>
    unfold State.heldNext
    split
    · exact KeptO.some (State.heldStep_kept s _ _ _ (by assumption))
    · exact ih _

theorem State.collNext_kept (s : State) : KeptO s (State.collNext s) := by
  unfold State.collNext
  split
  · exact KeptO.some (State.heldNext_kept s _ _ _ (by assumption))
  · split
    · refine KeptO.some (KeptO.findSome (s := s) (fun x => ?_) _ (by assumption))
      exact KeptO.ite (fun _ => State.finishXfer_kept s x) fun _ => KeptO.none s
    · exact KeptO.findSome fun x => KeptO.ite (fun _ => State.startXfer_kept s x) fun _ => KeptO.none s

theorem State.collRun_kept (s : State) (n : Nat) : Kept s (State.collRun s n) := by
  induction n generalizing s with
  | zero => exact Kept.refl s
  | succ n ih =>
    unfold State.collRun
    split
    · exact (State.collNext_kept s _ (by assumption)).trans (ih _)
    · exact Kept.refl s

theorem State.collSweep_kept (s : State) : Kept s (State.collSweep s) := by
  unfold State.collSweep
  repeat' first
    | with_reducible exact Kept.refl _
    | with_reducible apply Kept.trans ?_ (State.collRun_kept _ _)

theorem State.collReceive_kept (s : State) (port : Option Nat) (pool : Nat) (c : Nat) (k : Packet) : Kept s (State.collReceive s port pool c k) := by
  unfold State.collReceive
  extract_lets l1 l2
  try clear_value l1
  try clear_value l2
  repeat' first
    | with_reducible exact Kept.refl _
    | with_reducible apply Kept.trans ?_ (State.collSweep_kept _)
    | with_reducible apply Kept.mk_ ?_

theorem State.acceptXfer_kept (s : State) (core : Nat) (id : Nat) (op : Nat) : Kept s (State.acceptXfer s core id op) := by
  unfold State.acceptXfer
  repeat' first
    | with_reducible exact Kept.refl _
    | with_reducible apply Kept.ite (fun _ => ?_) (fun _ => ?_)
    | with_reducible apply Kept.trans ?_ (State.collSweep_kept _)
    | with_reducible apply Kept.trans ?_ (State.setXfers_kept _ _)
    | with_reducible apply Kept.trans ?_ (State.raiseCtx_kept _ _ _)
    | apply Kept.trans ?_ (KeptE.result (collAccept_kept _) (by with_reducible assumption))
    | split
    | with_reducible apply Kept.mk_ ?_

theorem coll_kept (core : Nat) (id : Nat) (s : State) : Kept s (coll core id s) := by
  unfold coll
  repeat' first
    | with_reducible exact Kept.refl _
    | with_reducible apply Kept.trans ?_ (State.acceptXfer_kept _ _ _ _)

theorem shift_kept (core : Nat) (id : Nat) (s : State) : Kept s (shift core id s) := by
  unfold shift
  repeat' first
    | with_reducible exact Kept.refl _
    | with_reducible apply Kept.trans ?_ (State.acceptXfer_kept _ _ _ _)

theorem expertDispatch_kept (core : Nat) (id : Nat) (s : State) : Kept s (expertDispatch core id s) := by
  unfold expertDispatch
  repeat' first
    | with_reducible exact Kept.refl _
    | with_reducible apply Kept.trans ?_ (State.acceptXfer_kept _ _ _ _)

theorem expertCombine_kept (core : Nat) (id : Nat) (s : State) : Kept s (expertCombine core id s) := by
  unfold expertCombine
  repeat' first
    | with_reducible exact Kept.refl _
    | with_reducible apply Kept.trans ?_ (State.acceptXfer_kept _ _ _ _)

theorem endMarkerReceived_kept (at_ : Nat) (job : Nat) (src : Nat) (xfer : Nat) (amount : Nat) (s : State) : Kept s (endMarkerReceived at_ job src xfer amount s) := by
  unfold endMarkerReceived
  extract_lets l1 l2
  have h1 : Kept s l1 := by
    unfold l1
    repeat' first
      | with_reducible exact Kept.refl _
      | with_reducible apply Kept.trans ?_ (State.advanceTo_kept _ _)
  try clear_value l1
  try clear_value l2
  repeat' first
    | with_reducible assumption
    | with_reducible apply Kept.trans ?_ (State.collReceive_kept _ _ _ _ _)
    | split

theorem collTimeout_kept (at_ : Nat) (id : Nat) (s : State) : Kept s (collTimeout at_ id s) := by
  unfold collTimeout
  extract_lets l1
  have h1 : Kept s l1 := by
    unfold l1
    repeat' first
      | with_reducible exact Kept.refl _
      | with_reducible apply Kept.trans ?_ (State.advanceTo_kept _ _)
  try clear_value l1
  repeat' first
    | with_reducible assumption
    | with_reducible apply Kept.ite (fun _ => ?_) (fun _ => ?_)
    | with_reducible apply Kept.trans ?_ (State.xferFault_kept _ _ _ _)
    | split

end Sys2Proof.Machine
end

