-- ==== Sys2Proof/Laws/KeptCommands.lean ====
section
/-! SUPPORT. Every operation of Machine/Commands.lean keeps what `Kept` says. -/

namespace Sys2Proof.Machine

theorem State.setCmd_kept (s : State) (c : Cmd) : Kept s (State.setCmd s c) := by
  unfold State.setCmd
  extract_lets l1
  try clear_value l1
  repeat' first
    | with_reducible exact Kept.refl _
    | with_reducible apply Kept.mk_ ?_

theorem State.startCmd_kept (s : State) (c : Cmd) : Kept s (State.startCmd s c) := by
  unfold State.startCmd
  repeat' first
    | with_reducible exact Kept.refl _
    | with_reducible apply Kept.trans ?_ (State.setCmd_kept _ _)

end Sys2Proof.Machine
end

