-- ==== Sys2Proof/Laws/KeptFossil.lean ====
section
/-! SUPPORT. Every operation of Machine/Fossil.lean keeps what `Kept` says. -/

namespace Sys2Proof.Machine

theorem readRegion_kept (c : Nat) (a : Nat) : KeptE (readRegion c a) := by
  unfold readRegion
  repeat' first
    | with_reducible exact KeptE.pure _
    | with_reducible apply KeptE.bind ?_ (fun _ => ?_)
    | with_reducible exact hubUse_kept _ _ _ _

theorem fosSetPage_kept (c : Nat) (va : Nat) : KeptE (fosSetPage c va) := by
  unfold fosSetPage
  repeat' first
    | with_reducible exact KeptE.pure _
    | with_reducible exact KeptE.ask _
    | with_reducible exact KeptE.check _ _
    | with_reducible apply KeptE.bind ?_ (fun _ => ?_)
    | with_reducible exact hubLeaf_kept _ _ _

theorem fosSet_kept (c : Nat) : KeptE (fosSet c) := by
  unfold fosSet
  repeat' first
    | with_reducible exact KeptE.ask _
    | with_reducible exact KeptE.check _ _
    | with_reducible apply KeptE.bind ?_ (fun _ => ?_)
    | with_reducible apply KeptE.collect (fun _ => ?_)
    | with_reducible exact readRegion_kept _ _
    | with_reducible exact fosSetPage_kept _ _

theorem State.mapEpoch_kept (s : State) (f : Epoch → Epoch) : Kept s (State.mapEpoch s f) := by
  unfold State.mapEpoch
  extract_lets l1
  try clear_value l1
  repeat' first
    | with_reducible exact Kept.refl _
    | with_reducible apply Kept.mk_ ?_

theorem State.loseStore_kept (s : State) : Kept s (State.loseStore s) := by
  unfold State.loseStore
  repeat' first
    | with_reducible exact Kept.refl _
    | with_reducible apply Kept.ite (fun _ => ?_) (fun _ => ?_)
    | with_reducible apply Kept.trans ?_ (State.report_kept _ _)
    | with_reducible apply Kept.trans ?_ (State.mapEpoch_kept _ _)

theorem State.tell_kept (s : State) (m : FosMsg) : Kept s (State.tell s m) := by
  unfold State.tell
  extract_lets l1
  try clear_value l1
  repeat' first
    | with_reducible exact Kept.refl _
    | with_reducible apply Kept.mk_ ?_

theorem State.sendImagePage_kept (s : State) (e : Epoch) (k : Nat) (l : List Gran) : Kept s (State.sendImagePage s e k l) := by
  unfold State.sendImagePage
  extract_lets l1
  have h1 : Kept s l1 := by
    unfold l1
    repeat' first
      | with_reducible exact Kept.refl _
      | with_reducible apply Kept.ite (fun _ => ?_) (fun _ => ?_)
      | with_reducible apply Kept.trans ?_ (State.loseStore_kept _)
      | with_reducible apply Kept.trans ?_ (State.putHost_kept _ _ _)
  try clear_value l1
  repeat' first
    | with_reducible exact Kept.refl _
    | with_reducible assumption
    | with_reducible apply Kept.ite (fun _ => ?_) (fun _ => ?_)
    | with_reducible apply Kept.trans ?_ (State.routeOut_kept _ _)
    | with_reducible apply Kept.fold (fun _ _ => ?_) ?_

theorem State.armEpoch_kept (s : State) : Kept s (State.armEpoch s) := by
  unfold State.armEpoch
  repeat' first
    | with_reducible exact Kept.refl _
    | with_reducible apply Kept.trans ?_ (State.setFld_kept _ _ _ ?_)
    | with_reducible exact Fld.fosState_soft
    | with_reducible exact Fld.fosEpoch_soft
    | split

theorem State.beginEpoch_kept (s : State) (e : Epoch) : Kept s (State.beginEpoch s e) := by
  unfold State.beginEpoch
  extract_lets l1 l2
  try clear_value l1
  have h2 : Kept s l2 := by
    unfold l2
    repeat' first
      | with_reducible exact Kept.refl _
      | with_reducible apply Kept.mk_ ?_
  try clear_value l2
  repeat' first
    | with_reducible assumption
    | with_reducible apply Kept.ite (fun _ => ?_) (fun _ => ?_)
    | with_reducible apply Kept.trans ?_ (State.armEpoch_kept _)
    | with_reducible apply Kept.trans ?_ (State.loseBuddy_kept _)
    | with_reducible apply Kept.trans ?_ (State.tell_kept _ _)

theorem fossilBegin_kept (at_ : Nat) (id : Nat) (s : State) : Kept s (fossilBegin at_ id s) := by
  unfold fossilBegin
  have h1 : Kept s (s.advanceTo at_) := State.advanceTo_kept s at_
  generalize s.advanceTo at_ = u at h1
  dsimp only
  split
  · exact h1
  · rename_i q _
    have h2 : Kept s (u.startCmd q) := h1.trans (State.startCmd_kept ..)
    generalize u.startCmd q = v at h2
    refine Kept.ite (fun _ => h2.trans (State.completeCmd_kept ..)) fun _ => ?_
    refine Kept.ite (fun _ => h2.trans (State.completeCmd_kept ..)) fun _ => ?_
    exact (h2.trans (fosSet_kept q.c v)).trans (State.beginEpoch_kept ..)

theorem buddyOpenReply_kept (at_ : Nat) (accept : Bool) (feed : Nat) (s : State) : Kept s (buddyOpenReply at_ accept feed s) := by
  unfold buddyOpenReply
  extract_lets l1 l2
  have h1 : Kept s l1 := by
    unfold l1
    repeat' first
      | with_reducible exact Kept.refl _
      | with_reducible apply Kept.trans ?_ (State.advanceTo_kept _ _)
  try clear_value l1
  try clear_value l2
  repeat' first
    | with_reducible assumption
    | with_reducible apply Kept.ite (fun _ => ?_) (fun _ => ?_)
    | with_reducible apply Kept.trans ?_ (State.armEpoch_kept _)
    | with_reducible apply Kept.trans ?_ (State.mapEpoch_kept _ _)
    | with_reducible apply Kept.trans ?_ (State.completeSome_kept _ _ _ _)
    | split
    | with_reducible apply Kept.mk_ ?_

theorem firstTouchCopy_kept (at_ : Nat) (pa : Nat) (s : State) : Kept s (firstTouchCopy at_ pa s) := by
  unfold firstTouchCopy
  repeat' first
    | with_reducible exact Kept.refl _
    | with_reducible apply Kept.trans ?_ (State.touchPage_kept _ _)
    | with_reducible apply Kept.trans ?_ (State.advanceTo_kept _ _)

theorem State.endStreaming_kept (s : State) : Kept s (State.endStreaming s) := by
  unfold State.endStreaming
  extract_lets l1
  try clear_value l1
  repeat' first
    | with_reducible exact Kept.refl _
    | with_reducible apply Kept.ite (fun _ => ?_) (fun _ => ?_)
    | with_reducible apply Kept.trans ?_ (State.mapEpoch_kept _ _)

theorem State.streamPage_kept (s : State) (e : Epoch) (k : Nat) (p : FosPage) : Kept s (State.streamPage s e k p) := by
  unfold State.streamPage
  extract_lets l1 l2 l3 l4 l5
  have h1 : Kept s l1.2 := by
    unfold l1
    repeat' first
      | with_reducible exact Kept.refl _
      | with_reducible apply Kept.trans ?_ (State.readFosPage_kept _ _)
  try clear_value l1
  have h2 : Kept s l2 := by
    unfold l2
    repeat' first
      | with_reducible assumption
      | with_reducible apply Kept.ite (fun _ => ?_) (fun _ => ?_)
      | with_reducible apply Kept.trans ?_ (State.fossilField_kept _ _ _)
  try clear_value l2
  try clear_value l3
  try clear_value l4
  have h5 : Kept s l5 := by
    unfold l5
    repeat' first
      | with_reducible assumption
      | with_reducible apply Kept.mk_ ?_
  try clear_value l5
  repeat' first
    | with_reducible assumption
    | with_reducible apply Kept.trans ?_ (State.sendImagePage_kept _ _ _ _)
    | with_reducible apply Kept.trans ?_ (State.countBounced_kept _)

theorem fossilPageStream_kept (at_ : Nat) (page : Nat) (s : State) : Kept s (fossilPageStream at_ page s) := by
  unfold fossilPageStream
  extract_lets l1
  have h1 : Kept s l1 := by
    unfold l1
    repeat' first
      | with_reducible exact Kept.refl _
      | with_reducible apply Kept.trans ?_ (State.endStreaming_kept _)
      | with_reducible apply Kept.trans ?_ (State.advanceTo_kept _ _)
  try clear_value l1
  repeat' first
    | with_reducible assumption
    | with_reducible apply Kept.ite (fun _ => ?_) (fun _ => ?_)
    | with_reducible apply Kept.trans ?_ (State.sendImagePage_kept _ _ _ _)
    | with_reducible apply Kept.trans ?_ (State.mapEpoch_kept _ _)
    | with_reducible apply Kept.trans ?_ (State.streamPage_kept _ _ _ _)
    | split

theorem fossilStoreFailed_kept (at_ : Nat) (s : State) : Kept s (fossilStoreFailed at_ s) := by
  unfold fossilStoreFailed
  extract_lets l1
  have h1 : Kept s l1 := by
    unfold l1
    repeat' first
      | with_reducible exact Kept.refl _
      | with_reducible apply Kept.trans ?_ (State.advanceTo_kept _ _)
  try clear_value l1
  repeat' first
    | with_reducible assumption
    | with_reducible apply Kept.ite (fun _ => ?_) (fun _ => ?_)
    | with_reducible apply Kept.trans ?_ (State.loseStore_kept _)
    | split

theorem fossilBuddyLost_kept (at_ : Nat) (s : State) : Kept s (fossilBuddyLost at_ s) := by
  unfold fossilBuddyLost
  extract_lets l1
  have h1 : Kept s l1 := by
    unfold l1
    repeat' first
      | with_reducible exact Kept.refl _
      | with_reducible apply Kept.trans ?_ (State.advanceTo_kept _ _)
  try clear_value l1
  repeat' first
    | with_reducible assumption
    | with_reducible apply Kept.ite (fun _ => ?_) (fun _ => ?_)
    | with_reducible apply Kept.trans ?_ (State.loseBuddy_kept _)
    | split

theorem State.commitEpoch_kept (s : State) (e : Epoch) (id : Nat) : Kept s (State.commitEpoch s e id) := by
  unfold State.commitEpoch
  extract_lets l1 l2 l3 l4
  try clear_value l1
  have h2 : Kept s l2 := by
    unfold l2
    repeat' first
      | with_reducible exact Kept.refl _
      | with_reducible apply Kept.trans ?_ (State.setFld_kept _ _ _ ?_)
      | with_reducible apply Kept.trans ?_ (State.releaseHold_kept _ _)
      | with_reducible apply Kept.trans ?_ (State.endEpoch_kept _)
      | with_reducible exact Fld.fosEpoch_soft
  try clear_value l2
  have h3 : Kept s l3 := by
    unfold l3
    repeat' first
      | with_reducible assumption
      | with_reducible apply Kept.ite (fun _ => ?_) (fun _ => ?_)
      | with_reducible apply Kept.trans ?_ (State.setFld_kept _ _ _ ?_)
      | with_reducible exact Fld.fosCommitted_soft
  try clear_value l3
  have h4 : Kept s l4 := by
    unfold l4
    repeat' first
      | with_reducible assumption
      | with_reducible apply Kept.ite (fun _ => ?_) (fun _ => ?_)
      | with_reducible apply Kept.trans ?_ (State.tell_kept _ _)
  try clear_value l4
  repeat' first
    | with_reducible assumption
    | with_reducible apply Kept.trans ?_ (State.completeCmd_kept _ _ _ _)

theorem epochStreamed_kept (at_ : Nat) (s : State) : Kept s (epochStreamed at_ s) := by
  unfold epochStreamed
  extract_lets l1 l2
  have h1 : Kept s l1 := by
    unfold l1
    repeat' first
      | with_reducible exact Kept.refl _
      | with_reducible apply Kept.trans ?_ (State.pumpAll_kept _)
      | with_reducible apply Kept.trans ?_ (State.endStreaming_kept _)
      | with_reducible apply Kept.trans ?_ (State.advanceTo_kept _ _)
  try clear_value l1
  have h2 : Kept s l2 := by
    unfold l2
    repeat' first
      | with_reducible assumption
      | with_reducible apply Kept.trans ?_ (State.setFld_kept _ _ _ ?_)
      | with_reducible exact Fld.fosState_soft
  try clear_value l2
  repeat' first
    | with_reducible assumption
    | with_reducible apply Kept.ite (fun _ => ?_) (fun _ => ?_)
    | with_reducible apply Kept.trans ?_ (State.commitEpoch_kept _ _ _)
    | split

theorem fossilCommit_kept (at_ : Nat) (id : Nat) (s : State) : Kept s (fossilCommit at_ id s) := by
  unfold fossilCommit
  extract_lets l1
  have h1 : Kept s l1 := by
    unfold l1
    repeat' first
      | with_reducible exact Kept.refl _
      | with_reducible apply Kept.trans ?_ (State.advanceTo_kept _ _)
  try clear_value l1
  repeat' first
    | with_reducible assumption
    | with_reducible apply Kept.ite (fun _ => ?_) (fun _ => ?_)
    | with_reducible apply Kept.trans ?_ (State.startCmd_kept _ _)
    | with_reducible apply Kept.trans ?_ (State.commitEpoch_kept _ _ _)
    | with_reducible apply Kept.trans ?_ (State.mapEpoch_kept _ _)
    | with_reducible apply Kept.trans ?_ (State.completeCmd_kept _ _ _ _)
    | split

theorem State.epochDestroy_kept (s : State) (c : Nat) : Kept s (State.epochDestroy s c) := by
  unfold State.epochDestroy
  extract_lets l1 l2
  have h1 : Kept s l1 := by
    unfold l1
    repeat' first
      | with_reducible exact Kept.refl _
      | with_reducible apply Kept.ite (fun _ => ?_) (fun _ => ?_)
      | with_reducible apply Kept.trans ?_ (State.abandonEpoch_kept _ _)
      | split
  try clear_value l1
  try clear_value l2
  repeat' first
    | with_reducible assumption
    | with_reducible apply Kept.ite (fun _ => ?_) (fun _ => ?_)
    | with_reducible apply Kept.mk_ ?_

theorem buddyOpenMessage_kept (at_ : Nat) (sender : Nat) (epoch : Nat) (pages : Nat) (s : State) : Kept s (buddyOpenMessage at_ sender epoch pages s) := by
  unfold buddyOpenMessage
  extract_lets l1 l2 l3
  have h1 : Kept s l1 := by
    unfold l1
    repeat' first
      | with_reducible exact Kept.refl _
      | with_reducible apply Kept.trans ?_ (State.advanceTo_kept _ _)
  try clear_value l1
  try clear_value l2
  have h3 : Kept s l3 := by
    unfold l3
    repeat' first
      | with_reducible assumption
      | with_reducible apply Kept.trans ?_ (State.setFld_kept _ _ _ ?_)
      | with_reducible exact Fld.buddyLanding_soft
      | with_reducible apply Kept.mk_ ?_
  try clear_value l3
  repeat' first
    | with_reducible assumption
    | with_reducible apply Kept.ite (fun _ => ?_) (fun _ => ?_)
    | with_reducible apply Kept.trans ?_ (State.tell_kept _ _)

theorem State.landImage_kept (s : State) (src : Nat) (page : Nat) (data : List (Nat × Nat)) : Kept s (State.landImage s src page data) := by
  unfold State.landImage
  extract_lets l1
  try clear_value l1
  repeat' first
    | with_reducible exact Kept.refl _
    | with_reducible apply Kept.ite (fun _ => ?_) (fun _ => ?_)
    | with_reducible apply Kept.trans ?_ (State.fossilField_kept _ _ _)
    | with_reducible apply Kept.trans ?_ (State.writeFosPage_kept _ _ _)
    | split

theorem buddyImagePage_kept (at_ : Nat) (src : Nat) (page : Nat) (data : List (Nat × Nat)) (s : State) : Kept s (buddyImagePage at_ src page data s) := by
  unfold buddyImagePage
  repeat' first
    | with_reducible exact Kept.refl _
    | with_reducible apply Kept.trans ?_ (State.landImage_kept _ _ _ _)
    | with_reducible apply Kept.trans ?_ (State.advanceTo_kept _ _)

theorem commitMarkerReceived_kept (at_ : Nat) (sender : Nat) (epoch : Nat) (s : State) : Kept s (commitMarkerReceived at_ sender epoch s) := by
  unfold commitMarkerReceived
  extract_lets l1 l2 l3
  have h1 : Kept s l1 := by
    unfold l1
    repeat' first
      | with_reducible exact Kept.refl _
      | with_reducible apply Kept.trans ?_ (State.advanceTo_kept _ _)
  try clear_value l1
  try clear_value l2
  have h3 : Kept s l3 := by
    unfold l3
    repeat' first
      | with_reducible assumption
      | with_reducible apply Kept.mk_ ?_
  try clear_value l3
  repeat' first
    | with_reducible assumption
    | with_reducible apply Kept.ite (fun _ => ?_) (fun _ => ?_)
    | with_reducible apply Kept.trans ?_ (State.setFld_kept _ _ _ ?_)
    | with_reducible exact Fld.buddyLanding_soft
    | with_reducible exact Fld.buddyEpoch_soft
    | with_reducible exact Fld.buddyValid_soft
    | with_reducible exact Fld.buddyPages_soft
    | split

theorem markGrans_kept {s : State} (pa f : Nat) {r : List Gran × State} (h : Kept s r.2) : Kept s (markGrans pa f r).2 :=
  Kept.mk_ h

theorem State.committedPage_kept (s : State) (k : Nat) : Kept s (State.committedPage s k).2 := by
  unfold State.committedPage
  exact markGrans_kept _ _ (State.readFosPage_kept s _)

theorem fillRequestReceived_kept (at_ : Nat) (requester : Nat) (epoch : Nat) (s : State) : Kept s (fillRequestReceived at_ requester epoch s) := by
  unfold fillRequestReceived
  extract_lets l1 l2 l3
  have h1 : Kept s l1 := by
    unfold l1
    repeat' first
      | with_reducible exact Kept.refl _
      | with_reducible apply Kept.trans ?_ (State.advanceTo_kept _ _)
  try clear_value l1
  have h2 : Kept s l2 := by
    unfold l2
    repeat' first
      | with_reducible assumption
      | with_reducible apply Kept.trans ?_ (State.setFld_kept _ _ _ ?_)
      | with_reducible exact Fld.buddyFilling_soft
  try clear_value l2
  have h3 : Kept s l3 := by
    unfold l3
    repeat' first
      | with_reducible exact Kept.refl _
      | with_reducible assumption
      | with_reducible apply Kept.trans ?_ (State.committedPage_kept _ _)
      | with_reducible apply Kept.trans ?_ (State.routeOut_kept _ _)
      | with_reducible apply Kept.fold (fun _ _ => ?_) ?_
  try clear_value l3
  repeat' first
    | with_reducible assumption
    | with_reducible apply Kept.ite (fun _ => ?_) (fun _ => ?_)
    | with_reducible apply Kept.trans ?_ (State.tell_kept _ _)
    | with_reducible apply Kept.trans ?_ (State.endFillRead_kept _)

theorem State.askFill_kept (s : State) : Kept s (State.askFill s) := by
  unfold State.askFill
  extract_lets l1
  try clear_value l1
  repeat' first
    | with_reducible exact Kept.refl _
    | with_reducible apply Kept.ite (fun _ => ?_) (fun _ => ?_)
    | with_reducible apply Kept.trans ?_ (State.tell_kept _ _)
    | split
    | with_reducible apply Kept.mk_ ?_

theorem fillFromBuddy_kept (at_ : Nat) (id : Nat) (s : State) : Kept s (fillFromBuddy at_ id s) := by
  unfold fillFromBuddy
  extract_lets l1
  have h1 : Kept s l1 := by
    unfold l1
    repeat' first
      | with_reducible exact Kept.refl _
      | with_reducible apply Kept.trans ?_ (State.advanceTo_kept _ _)
  try clear_value l1
  repeat' first
    | with_reducible assumption
    | with_reducible apply Kept.ite (fun _ => ?_) (fun _ => ?_)
    | with_reducible apply Kept.trans ?_ (State.startCmd_kept _ _)
    | with_reducible apply Kept.trans ?_ (State.completeCmd_kept _ _ _ _)
    | with_reducible apply Kept.trans ?_ (State.askFill_kept _)
    | split
    | with_reducible apply Kept.mk_ ?_

theorem State.dropArriving_kept (s : State) : Kept s (State.dropArriving s) := by
  unfold State.dropArriving
  extract_lets l1
  try clear_value l1
  repeat' first
    | with_reducible exact Kept.refl _
    | with_reducible apply Kept.mk_ ?_

theorem State.stopFill_kept (s : State) (f : Fill) : Kept s (State.stopFill s f) := by
  unfold State.stopFill
  extract_lets l1
  try clear_value l1
  repeat' first
    | with_reducible exact Kept.refl _
    | with_reducible apply Kept.trans ?_ (State.completeCmd_kept _ _ _ _)
    | with_reducible apply Kept.trans ?_ (State.dropArriving_kept _)
    | with_reducible apply Kept.mk_ ?_

theorem State.fillHeader_kept (s : State) (f : Fill) (l : List Gran) : Kept s (State.fillHeader s f l) := by
  unfold State.fillHeader
  extract_lets l1 l2 l3 l4
  try clear_value l1
  try clear_value l2
  try clear_value l3
  try clear_value l4
  repeat' first
    | with_reducible exact Kept.refl _
    | with_reducible apply Kept.ite (fun _ => ?_) (fun _ => ?_)
    | with_reducible apply Kept.trans ?_ (State.stopFill_kept _ _)
    | with_reducible apply Kept.mk_ ?_

theorem State.loadVersions_kept (s : State) (c : Nat) (l : List Nat) : Kept s (State.loadVersions s c l) := by
  unfold State.loadVersions
  repeat' first
    | with_reducible exact Kept.refl _
    | with_reducible apply Kept.trans ?_ (State.setShard_kept _ _ _ _)
    | with_reducible apply Kept.fold (fun _ _ => ?_) ?_

theorem State.endFill_kept (s : State) (f : Fill) : Kept s (State.endFill s f) := by
  unfold State.endFill
  extract_lets l1 l2 l3
  have h1 : Kept s l1 := by
    unfold l1
    repeat' first
      | with_reducible exact Kept.refl _
      | with_reducible apply Kept.trans ?_ (State.setFld_kept _ _ _ ?_)
      | with_reducible apply Kept.trans ?_ (State.loadVersions_kept _ _ _)
      | with_reducible exact Fld.partial__soft
  try clear_value l1
  try clear_value l2
  have h3 : Kept s l3 := by
    unfold l3
    repeat' first
      | with_reducible assumption
      | with_reducible apply Kept.trans ?_ (State.dropArriving_kept _)
      | with_reducible apply Kept.mk_ ?_
  try clear_value l3
  repeat' first
    | with_reducible assumption
    | with_reducible apply Kept.trans ?_ (State.completeCmd_kept _ _ _ _)

theorem fillWrite_kept (c : Nat) (va : Nat) (l : List Gran) : KeptE (fillWrite c va l) := by
  unfold fillWrite
  repeat' first
    | with_reducible exact Kept.refl _
    | with_reducible apply Kept.trans ?_ (State.touchPage_kept _ _)
    | with_reducible apply KeptE.bind ?_ (fun _ => ?_)
    | with_reducible apply KeptE.each (fun _ => ?_)
    | with_reducible apply KeptE.doState (fun _ => ?_)
    | with_reducible exact hubTranslate_kept _ _ _
    | with_reducible exact storePhys_kept _ _ _

theorem State.fillPage_kept (s : State) (page : Nat) (l : List Gran) : KeptO s (State.fillPage s page l) := by
  unfold State.fillPage
  repeat' first
    | with_reducible exact Kept.refl _
    | with_reducible apply Kept.ite (fun _ => ?_) (fun _ => ?_)
    | with_reducible exact KeptO.none _
    | with_reducible apply KeptO.some
    | with_reducible apply KeptO.ite (fun _ => ?_) (fun _ => ?_)
    | with_reducible apply Kept.trans ?_ (State.fillHeader_kept _ _ _)
    | with_reducible apply Kept.trans ?_ (State.endFill_kept _ _)
    | with_reducible apply Kept.trans ?_ (State.stopFill_kept _ _)
    | apply Kept.trans ?_ (KeptE.result (fillWrite_kept _ _ _) (by with_reducible assumption))
    | split
    | with_reducible apply Kept.mk_ ?_
    | dsimp only

theorem fillPageReceived_kept (at_ refused page : Nat) (data : List (Nat × Nat)) (s : State) :
    Kept s (fillPageReceived at_ refused page data s) := by
  unfold fillPageReceived
  refine (State.advanceTo_kept s at_).trans ?_
  generalize s.advanceTo at_ = s
  dsimp only
  split
  · refine Kept.ite (fun _ => ?_) fun _ => Kept.ite (fun _ => (Kept.mk_ (Kept.refl s)).trans (State.completeCmd_kept ..)) fun _ => Kept.refl s
    cases e : s.fillPage page (gransOf data) with
    | none => exact Kept.refl s
    | some u => exact State.fillPage_kept _ _ _ _ e
  · exact Kept.refl s

theorem fillSourceLost_kept (at_ : Nat) (s : State) : Kept s (fillSourceLost at_ s) := by
  unfold fillSourceLost
  extract_lets l1
  have h1 : Kept s l1 := by
    unfold l1
    repeat' first
      | with_reducible exact Kept.refl _
      | with_reducible apply Kept.trans ?_ (State.advanceTo_kept _ _)
  try clear_value l1
  repeat' first
    | with_reducible assumption
    | with_reducible apply Kept.ite (fun _ => ?_) (fun _ => ?_)
    | with_reducible apply Kept.trans ?_ (State.loseFill_kept _)
    | split

theorem State.landWhole_kept (s : State) (a : Arriving) : Kept s (State.landWhole s a) := by
  unfold State.landWhole
  extract_lets m t
  have ht : Kept s t := Kept.mk_ (Kept.refl s)
  clear_value t
  refine Kept.ite (fun _ => Kept.refl s) fun _ => Kept.ite (fun _ => ?_) fun _ => ht.trans (State.landImage_kept ..)
  cases e : t.fillPage a.page (gransOf a.flits) with
  | none => exact Kept.refl s
  | some u => exact ht.trans (State.fillPage_kept _ _ _ _ e)

theorem State.landWaiting_kept (s : State) : Kept s (State.landWaiting s) := by
  unfold State.landWaiting
  repeat' first
    | with_reducible exact Kept.refl _
    | with_reducible apply Kept.trans ?_ (State.landWhole_kept _ _)
    | with_reducible apply Kept.fold (fun _ _ => ?_) ?_

theorem State.fossilPacket_kept (s : State) (k : Packet) : Kept s (State.fossilPacket s k) := by
  unfold State.fossilPacket
  extract_lets l1 l2 l3 l4 l5 l6 l7
  try clear_value l1
  try clear_value l2
  try clear_value l3
  try clear_value l4
  try clear_value l5
  try clear_value l6
  try clear_value l7
  repeat' first
    | with_reducible exact Kept.refl _
    | with_reducible apply Kept.ite (fun _ => ?_) (fun _ => ?_)
    | with_reducible apply Kept.trans ?_ (State.landWhole_kept _ _)
    | with_reducible apply Kept.mk_ ?_

theorem State.payOwed_kept (s : State) (a : Nat) (n : Nat) : Kept s (State.payOwed s a n) := by
  unfold State.payOwed
  extract_lets l1
  try clear_value l1
  repeat' first
    | with_reducible exact Kept.refl _
    | with_reducible apply Kept.mk_ ?_

theorem State.fosWrite_kept (s : State) (off : Nat) (v : Word) : Kept s (State.fosWrite s off v) := by
  unfold State.fosWrite
  repeat' first
    | with_reducible exact Kept.refl _
    | with_reducible apply Kept.ite (fun _ => ?_) (fun _ => ?_)
    | with_reducible apply Kept.trans ?_ (State.setFld_kept _ _ _ ?_)
    | with_reducible apply Kept.trans ?_ (State.plainWrite_kept _ _ _)
    | with_reducible exact Fld.fosCfgReject_soft

theorem fosRegWrite_kept (at_ : Nat) (party : Party) (off : Nat) (value : Word) (s : State) : Kept s (fosRegWrite at_ party off value s) := by
  unfold fosRegWrite
  extract_lets l1
  have h1 : Kept s l1 := by
    unfold l1
    repeat' first
      | with_reducible exact Kept.refl _
      | with_reducible apply Kept.trans ?_ (State.advanceTo_kept _ _)
  try clear_value l1
  repeat' first
    | with_reducible assumption
    | with_reducible apply Kept.ite (fun _ => ?_) (fun _ => ?_)
    | with_reducible apply Kept.trans ?_ (State.fosWrite_kept _ _ _)

end Sys2Proof.Machine
end

