-- ==== Sys2Proof/Laws/KeptVein.lean ====
section
/-! SUPPORT. Every operation of Machine/Vein.lean keeps what `Kept` says. -/

namespace Sys2Proof.Machine

theorem State.symbolIn_kept (s : State) (port : Nat) (k : Packet) : Kept s (State.symbolIn s port k) := by
  unfold State.symbolIn
  repeat' first
    | with_reducible exact Kept.refl _
    | with_reducible apply Kept.trans ?_ (tickSymbolReceived_kept _ _ _ _ _ _ _)
    | with_reducible apply Kept.trans ?_ (doneSymbolReceived_kept _ _ _ _ _)
    | with_reducible apply Kept.trans ?_ (stretchSymbolReceived_kept _ _ _ _ _ _)
    | split

theorem State.deliver_kept (s : State) (port : Nat) (k : Packet) : Kept s (State.deliver s port k) := by
  unfold State.deliver
  extract_lets l1 l2 l3
  try clear_value l1
  try clear_value l2
  have h3 : Kept s l3 := by
    unfold l3
    repeat' first
      | with_reducible exact Kept.refl _
      | with_reducible apply Kept.trans ?_ (State.freePool_kept _ _ _ _)
  try clear_value l3
  repeat' first
    | with_reducible exact Kept.refl _
    | with_reducible assumption
    | with_reducible apply Kept.ite (fun _ => ?_) (fun _ => ?_)
    | with_reducible apply Kept.trans ?_ (State.symbolIn_kept _ _ _)
    | with_reducible apply Kept.trans ?_ (State.routeFail_kept _ _ _)
    | with_reducible apply Kept.trans ?_ (State.freePool_kept _ _ _ _)
    | with_reducible apply Kept.trans ?_ (State.fossilPacket_kept _ _)
    | with_reducible apply Kept.trans ?_ (State.dropPacket_kept _ _)
    | with_reducible apply Kept.trans ?_ (State.collReceive_kept _ _ _ _ _)
    | with_reducible apply Kept.trans ?_ (State.leasePacket_kept _ _ _)
    | split

theorem State.forward_kept (s : State) (port : Nat) (more : Nat) (k : Packet) : Kept s (State.forward s port more k).2 := by
  unfold State.forward
  extract_lets l1 l2 l3
  try clear_value l1
  try clear_value l2
  try clear_value l3
  repeat' first
    | with_reducible exact Kept.refl _
    | with_reducible apply Kept.ite (fun _ => ?_) (fun _ => ?_)
    | with_reducible apply Kept.trans ?_ (State.enterPort_kept _ _ _)
    | with_reducible apply Kept.trans ?_ (State.dropPacket_kept _ _)
    | with_reducible apply Kept.trans ?_ (State.freePool_kept _ _ _ _)
    | split

theorem State.receivePacket_kept (s : State) (port : Nat) (k : Packet) : Kept s (State.receivePacket s port k) := by
  unfold State.receivePacket
  repeat' first
    | with_reducible exact Kept.refl _
    | with_reducible apply Kept.ite (fun _ => ?_) (fun _ => ?_)
    | with_reducible apply Kept.trans ?_ (State.deliver_kept _ _ _)
    | with_reducible apply Kept.trans ?_ (State.forward_kept _ _ _ _)

theorem packetReceived_kept (at_ : Nat) (port : Nat) (pkt : Packet) (s : State) : Kept s (packetReceived at_ port pkt s) := by
  unfold packetReceived
  extract_lets l1
  have h1 : Kept s l1 := by
    unfold l1
    repeat' first
      | with_reducible exact Kept.refl _
      | with_reducible apply Kept.trans ?_ (State.advanceTo_kept _ _)
  try clear_value l1
  repeat' first
    | with_reducible assumption
    | with_reducible apply Kept.ite (fun _ => ?_) (fun _ => ?_)
    | with_reducible apply Kept.trans ?_ (State.collSweep_kept _)
    | with_reducible apply Kept.trans ?_ (State.receivePacket_kept _ _ _)

theorem routeFailReceived_kept (at_ : Nat) (dst : Nat) (job : Nat) (s : State) : Kept s (routeFailReceived at_ dst job s) := by
  unfold routeFailReceived
  repeat' first
    | with_reducible exact Kept.refl _
    | with_reducible apply Kept.trans ?_ (State.collSweep_kept _)
    | with_reducible apply Kept.trans ?_ (State.routeFail_kept _ _ _)
    | with_reducible apply Kept.trans ?_ (State.advanceTo_kept _ _)

theorem State.takeHeader_kept (s : State) (p : Nat) (nData : Nat) (k : Packet) : Kept s (State.takeHeader s p nData k) := by
  unfold State.takeHeader
  extract_lets l1 l2 l3
  try clear_value l1
  have h2 : Kept s l2.2 := by
    unfold l2
    repeat' first
      | with_reducible exact Kept.refl _
      | with_reducible apply Kept.trans ?_ (State.forward_kept _ _ _ _)
      | split
  try clear_value l2
  try clear_value l3
  repeat' first
    | with_reducible exact Kept.refl _
    | with_reducible assumption
    | with_reducible apply Kept.ite (fun _ => ?_) (fun _ => ?_)
    | with_reducible apply Kept.trans ?_ (State.receivePacket_kept _ _ _)
    | with_reducible apply Kept.trans ?_ (State.setPort_kept _ _ _)

theorem State.keepFlow_kept (s : State) (p : Nat) (vc : Nat) (g : RxFlow) : Kept s (State.keepFlow s p vc g) := by
  unfold State.keepFlow
  extract_lets l1 l2
  try clear_value l1
  try clear_value l2
  repeat' first
    | with_reducible exact Kept.refl _
    | with_reducible apply Kept.trans ?_ (State.setPort_kept _ _ _)

theorem State.takeData_kept (s : State) (p : Nat) (vc : Nat) (poison : Nat) (body : Nat) : Kept s (State.takeData s p vc poison body) := by
  unfold State.takeData
  extract_lets l1 l2
  try clear_value l1
  try clear_value l2
  repeat' first
    | with_reducible exact Kept.refl _
    | with_reducible apply Kept.ite (fun _ => ?_) (fun _ => ?_)
    | with_reducible apply Kept.trans ?_ (State.receivePacket_kept _ _ _)
    | with_reducible apply Kept.trans ?_ (State.keepFlow_kept _ _ _ _)
    | with_reducible apply Kept.trans ?_ (State.pump_kept _ _)
    | with_reducible apply Kept.trans ?_ (State.setPort_kept _ _ _)
    | with_reducible apply Kept.trans ?_ (State.freePool_kept _ _ _ _)
    | split
    | dsimp only

theorem State.askReplay_kept (s : State) (p : Nat) : Kept s (State.askReplay s p) := by
  unfold State.askReplay
  extract_lets l1
  try clear_value l1
  repeat' first
    | with_reducible exact Kept.refl _
    | with_reducible apply Kept.trans ?_ (State.sendControl_kept _ _ _)
    | with_reducible apply Kept.trans ?_ (State.setPort_kept _ _ _)

theorem State.numbered_kept (s : State) (p : Nat) (num : Nat) (ok : Bool) (take : State → State) (h_take : ∀ x0, Kept x0 (take x0)) : Kept s (State.numbered s p num ok take) := by
  unfold State.numbered
  extract_lets l1 l2 l3
  try clear_value l1
  have h2 : Kept s l2 := by
    unfold l2
    repeat' first
      | with_reducible exact Kept.refl _
      | with_reducible apply Kept.trans ?_ (State.setPort_kept _ _ _)
  try clear_value l2
  have h3 : Kept s l3 := by
    unfold l3
    repeat' first
      | with_reducible assumption
      | with_reducible apply Kept.ite (fun _ => ?_) (fun _ => ?_)
      | with_reducible apply Kept.trans ?_ (State.sendControl_kept _ _ _)
  try clear_value l3
  repeat' first
    | with_reducible exact Kept.refl _
    | with_reducible assumption
    | with_reducible apply Kept.ite (fun _ => ?_) (fun _ => ?_)
    | with_reducible apply Kept.trans ?_ (State.askReplay_kept _ _)
    | with_reducible apply Kept.trans ?_ (h_take _)

theorem State.wireFlit_kept (s : State) (p : Nat) (f : WireFlit) : Kept s (State.wireFlit s p f) := by
  unfold State.wireFlit
  repeat' first
    | with_reducible exact Kept.refl _
    | with_reducible apply Kept.trans ?_ (State.portControl_kept _ _ _)
    | with_reducible apply Kept.trans ?_ (State.numbered_kept (h_take := fun _ => ?_) _ _ _ _ _)
    | with_reducible apply Kept.trans ?_ (State.takeHeader_kept _ _ _ _)
    | with_reducible apply Kept.trans ?_ (State.takeData_kept _ _ _ _ _)
    | split

theorem State.badGroup_kept (s : State) (p : Nat) (lanes : List Nat) : Kept s (State.badGroup s p lanes) := by
  unfold State.badGroup
  extract_lets l1 l2
  have h1 : Kept s l1 := by
    unfold l1
    repeat' first
      | with_reducible exact Kept.refl _
      | with_reducible apply Kept.trans ?_ (State.bump_kept _ _ _ ?_)
      | with_reducible exact Fld.badGroups_soft _
  try clear_value l1
  try clear_value l2
  repeat' first
    | with_reducible assumption
    | with_reducible apply Kept.trans ?_ (State.askReplay_kept _ _)
    | with_reducible apply Kept.trans ?_ (State.setPort_kept _ _ _)

theorem State.goodGroup_kept (s : State) (p : Nat) : Kept s (State.goodGroup s p) := by
  unfold State.goodGroup
  extract_lets l1
  try clear_value l1
  repeat' first
    | with_reducible exact Kept.refl _
    | with_reducible apply Kept.ite (fun _ => ?_) (fun _ => ?_)
    | with_reducible apply Kept.trans ?_ (State.setPort_kept _ _ _)

theorem flitGroupReceived_kept (at_ : Nat) (port : Nat) (c0 : Nat) (c1 : Nat) (lanes : List Nat) (flits : List WireFlit) (s : State) : Kept s (flitGroupReceived at_ port c0 c1 lanes flits s) := by
  unfold flitGroupReceived
  extract_lets l1
  have h1 : Kept s l1 := by
    unfold l1
    repeat' first
      | with_reducible exact Kept.refl _
      | with_reducible apply Kept.trans ?_ (State.advanceTo_kept _ _)
  try clear_value l1
  repeat' first
    | with_reducible exact Kept.refl _
    | with_reducible assumption
    | with_reducible apply Kept.ite (fun _ => ?_) (fun _ => ?_)
    | with_reducible apply Kept.trans ?_ (State.collSweep_kept _)
    | with_reducible apply Kept.trans ?_ (State.wireFlit_kept _ _ _)
    | with_reducible apply Kept.trans ?_ (State.goodGroup_kept _ _)
    | with_reducible apply Kept.trans ?_ (State.badGroup_kept _ _ _)
    | with_reducible apply Kept.fold (fun _ _ => ?_) ?_

theorem linkControlReceived_kept (at_ : Nat) (port : Nat) (control : LinkControl) (s : State) : Kept s (linkControlReceived at_ port control s) := by
  unfold linkControlReceived
  repeat' first
    | with_reducible exact Kept.refl _
    | with_reducible apply Kept.trans ?_ (State.collSweep_kept _)
    | with_reducible apply Kept.trans ?_ (State.portControl_kept _ _ _)
    | with_reducible apply Kept.trans ?_ (State.advanceTo_kept _ _)

theorem linkControlDue_kept (at_ : Nat) (port : Nat) (s : State) : Kept s (linkControlDue at_ port s) := by
  unfold linkControlDue
  extract_lets l1
  have h1 : Kept s l1 := by
    unfold l1
    repeat' first
      | with_reducible exact Kept.refl _
      | with_reducible apply Kept.trans ?_ (State.advanceTo_kept _ _)
  try clear_value l1
  repeat' first
    | with_reducible assumption
    | with_reducible apply Kept.ite (fun _ => ?_) (fun _ => ?_)
    | with_reducible apply Kept.trans ?_ (State.sendControl_kept _ _ _)

theorem ackTimeout_kept (at_ : Nat) (port : Nat) (s : State) : Kept s (ackTimeout at_ port s) := by
  unfold ackTimeout
  extract_lets l1
  have h1 : Kept s l1 := by
    unfold l1
    repeat' first
      | with_reducible exact Kept.refl _
      | with_reducible apply Kept.trans ?_ (State.pump_kept _ _)
      | with_reducible apply Kept.trans ?_ (State.advanceTo_kept _ _)
  try clear_value l1
  repeat' first
    | with_reducible assumption
    | with_reducible apply Kept.ite (fun _ => ?_) (fun _ => ?_)
    | with_reducible apply Kept.trans ?_ (State.startReplay_kept _ _ _)
    | split

theorem State.loseLink_kept (s : State) (p : Nat) (code : Nat) : Kept s (State.loseLink s p code) := by
  unfold State.loseLink
  extract_lets l1 l2 l3
  have h1 : Kept s l1 := by
    unfold l1
    repeat' first
      | with_reducible exact Kept.refl _
      | with_reducible apply Kept.trans ?_ (State.failPort_kept _ _)
  try clear_value l1
  try clear_value l2
  have h3 : Kept s l3 := by
    unfold l3
    repeat' first
      | with_reducible assumption
      | with_reducible apply Kept.trans ?_ (State.setPort_kept _ _ _)
  try clear_value l3
  repeat' first
    | with_reducible assumption
    | with_reducible apply Kept.trans ?_ (State.collSweep_kept _)
    | with_reducible apply Kept.trans ?_ (State.raise_kept _ _)

theorem linkFailed_kept (at_ : Nat) (port : Nat) (s : State) : Kept s (linkFailed at_ port s) := by
  unfold linkFailed
  extract_lets l1
  have h1 : Kept s l1 := by
    unfold l1
    repeat' first
      | with_reducible exact Kept.refl _
      | with_reducible apply Kept.trans ?_ (State.advanceTo_kept _ _)
  try clear_value l1
  repeat' first
    | with_reducible assumption
    | with_reducible apply Kept.ite (fun _ => ?_) (fun _ => ?_)
    | with_reducible apply Kept.trans ?_ (State.loseLink_kept _ _ _)

theorem linkDown_kept (at_ : Nat) (port : Nat) (s : State) : Kept s (linkDown at_ port s) := by
  unfold linkDown
  extract_lets l1
  have h1 : Kept s l1 := by
    unfold l1
    repeat' first
      | with_reducible exact Kept.refl _
      | with_reducible apply Kept.trans ?_ (State.advanceTo_kept _ _)
  try clear_value l1
  repeat' first
    | with_reducible assumption
    | with_reducible apply Kept.ite (fun _ => ?_) (fun _ => ?_)
    | with_reducible apply Kept.trans ?_ (State.loseLink_kept _ _ _)

theorem laneDegrade_kept (at_ : Nat) (port : Nat) (lane : Nat) (lost : Bool) (s : State) : Kept s (laneDegrade at_ port lane lost s) := by
  unfold laneDegrade
  extract_lets l1 l2
  have h1 : Kept s l1 := by
    unfold l1
    repeat' first
      | with_reducible exact Kept.refl _
      | with_reducible apply Kept.trans ?_ (State.pump_kept _ _)
      | with_reducible apply Kept.trans ?_ (State.advanceTo_kept _ _)
  try clear_value l1
  try clear_value l2
  repeat' first
    | with_reducible assumption
    | with_reducible apply Kept.ite (fun _ => ?_) (fun _ => ?_)
    | with_reducible apply Kept.trans ?_ (State.setFld_kept _ _ _ ?_)
    | with_reducible apply Kept.trans ?_ (State.setPort_kept _ _ _)
    | with_reducible exact Fld.portState_soft _

theorem State.runs_kept (s : State) (p : Nat) : Kept s (State.runs s p) := by
  unfold State.runs
  extract_lets l1
  try clear_value l1
  repeat' first
    | with_reducible exact Kept.refl _
    | with_reducible apply Kept.trans ?_ (State.setPort_kept _ _ _)

theorem linkDegraded_kept (at_ : Nat) (port : Nat) (s : State) : Kept s (linkDegraded at_ port s) := by
  unfold linkDegraded
  extract_lets l1 l2
  have h1 : Kept s l1 := by
    unfold l1
    repeat' first
      | with_reducible exact Kept.refl _
      | with_reducible apply Kept.trans ?_ (State.advanceTo_kept _ _)
  try clear_value l1
  have h2 : Kept s l2 := by
    unfold l2
    repeat' first
      | with_reducible assumption
      | with_reducible apply Kept.trans ?_ (State.setFld_kept _ _ _ ?_)
      | with_reducible exact Fld.portState_soft _
      | with_reducible exact Fld.lanesOk_soft _
  try clear_value l2
  repeat' first
    | with_reducible assumption
    | with_reducible apply Kept.ite (fun _ => ?_) (fun _ => ?_)
    | with_reducible apply Kept.trans ?_ (State.collSweep_kept _)
    | with_reducible apply Kept.trans ?_ (State.report_kept _ _)
    | with_reducible apply Kept.trans ?_ (State.runs_kept _ _)

theorem linkUp_kept (at_ : Nat) (port : Nat) (peer : Nat) (lanes : Nat) (s : State) : Kept s (linkUp at_ port peer lanes s) := by
  unfold linkUp
  extract_lets l1
  have h1 : Kept s l1 := by
    unfold l1
    repeat' first
      | with_reducible exact Kept.refl _
      | with_reducible apply Kept.trans ?_ (State.advanceTo_kept _ _)
  try clear_value l1
  repeat' first
    | with_reducible assumption
    | with_reducible apply Kept.ite (fun _ => ?_) (fun _ => ?_)
    | with_reducible apply Kept.trans ?_ (State.runs_kept _ _)
    | with_reducible apply Kept.trans ?_ (State.setFld_kept _ _ _ ?_)
    | with_reducible apply Kept.trans ?_ (State.report_kept _ _)
    | with_reducible exact Fld.portState_soft _
    | with_reducible exact Fld.lanesOk_soft _
    | with_reducible exact Fld.portPeer_soft _
    | split

theorem State.train_kept (s : State) (p : Nat) : Kept s (State.train s p) := by
  unfold State.train
  extract_lets l1
  try clear_value l1
  repeat' first
    | with_reducible exact Kept.refl _
    | with_reducible apply Kept.trans ?_ (State.setFld_kept _ _ _ ?_)
    | with_reducible apply Kept.trans ?_ (State.setPort_kept _ _ _)
    | with_reducible exact Fld.portState_soft _

theorem trainingRetry_kept (at_ : Nat) (port : Nat) (s : State) : Kept s (trainingRetry at_ port s) := by
  unfold trainingRetry
  extract_lets l1
  have h1 : Kept s l1 := by
    unfold l1
    repeat' first
      | with_reducible exact Kept.refl _
      | with_reducible apply Kept.trans ?_ (State.advanceTo_kept _ _)
  try clear_value l1
  repeat' first
    | with_reducible assumption
    | with_reducible apply Kept.ite (fun _ => ?_) (fun _ => ?_)
    | with_reducible apply Kept.trans ?_ (State.train_kept _ _)

theorem portRetrain_kept (at_ : Nat) (port : Nat) (s : State) : Kept s (portRetrain at_ port s) := by
  unfold portRetrain
  extract_lets l1
  have h1 : Kept s l1 := by
    unfold l1
    repeat' first
      | with_reducible exact Kept.refl _
      | with_reducible apply Kept.trans ?_ (State.pump_kept _ _)
      | with_reducible apply Kept.trans ?_ (State.advanceTo_kept _ _)
  try clear_value l1
  repeat' first
    | with_reducible assumption
    | with_reducible apply Kept.ite (fun _ => ?_) (fun _ => ?_)
    | with_reducible apply Kept.trans ?_ (State.train_kept _ _)

theorem State.portConfig_kept (s : State) (p : Nat) (v : Word) : Kept s (State.portConfig s p v) := by
  unfold State.portConfig
  extract_lets l1 l2
  try clear_value l1
  have h2 : Kept s l2 := by
    unfold l2
    repeat' first
      | with_reducible exact Kept.refl _
      | with_reducible apply Kept.trans ?_ (Kept.wr _ _ _ ?_)
      | with_reducible exact Reg.portCfg_soft _
  try clear_value l2
  repeat' first
    | with_reducible exact Kept.refl _
    | with_reducible assumption
    | with_reducible apply Kept.ite (fun _ => ?_) (fun _ => ?_)
    | with_reducible apply Kept.trans ?_ (State.setFld_kept _ _ _ ?_)
    | with_reducible apply Kept.trans ?_ (State.train_kept _ _)
    | with_reducible apply Kept.trans ?_ (State.endFillRead_kept _)
    | with_reducible apply Kept.trans ?_ (State.setPort_kept _ _ _)
    | with_reducible apply Kept.trans ?_ (State.cutTransit_kept _ _)
    | with_reducible apply Kept.trans ?_ (State.closeEpisode_kept _ _)
    | with_reducible exact Fld.veiCfgReject_soft
    | with_reducible exact Fld.portState_soft _
    | with_reducible exact Fld.lanesOk_soft _

theorem State.routeWrite_kept (s : State) (dst : Nat) (v : Word) : Kept s (State.routeWrite s dst v) := by
  unfold State.routeWrite
  extract_lets l1
  try clear_value l1
  repeat' first
    | with_reducible exact Kept.refl _
    | with_reducible apply Kept.mk_ ?_

theorem veiRouteDataWrite_kept (party : Party) (value : Word) (s : State) : Kept s (veiRouteDataWrite party value s) := by
  unfold veiRouteDataWrite
  repeat' first
    | with_reducible exact Kept.refl _
    | with_reducible apply Kept.ite (fun _ => ?_) (fun _ => ?_)
    | with_reducible apply Kept.trans ?_ (State.setFld_kept _ _ _ ?_)
    | with_reducible apply Kept.trans ?_ (State.routeWrite_kept _ _ _)
    | with_reducible exact Fld.hostWrReject_soft
    | split

theorem State.poolWrite_kept (s : State) (p : Nat) (pool : Nat) (n : Nat) : Kept s (State.poolWrite s p pool n) := by
  unfold State.poolWrite
  extract_lets l1
  try clear_value l1
  repeat' first
    | with_reducible exact Kept.refl _
    | with_reducible apply Kept.ite (fun _ => ?_) (fun _ => ?_)
    | with_reducible apply Kept.trans ?_ (State.setFld_kept _ _ _ ?_)
    | with_reducible exact Fld.veiCfgReject_soft
    | with_reducible apply Kept.mk_ ?_

theorem veiPoolDataWrite_kept (party : Party) (value : Word) (s : State) : Kept s (veiPoolDataWrite party value s) := by
  unfold veiPoolDataWrite
  extract_lets l1
  try clear_value l1
  repeat' first
    | with_reducible exact Kept.refl _
    | with_reducible apply Kept.ite (fun _ => ?_) (fun _ => ?_)
    | with_reducible apply Kept.trans ?_ (State.setFld_kept _ _ _ ?_)
    | with_reducible apply Kept.trans ?_ (State.poolWrite_kept _ _ _ _)
    | with_reducible exact Fld.hostWrReject_soft
    | split

end Sys2Proof.Machine
end

