-- ==== Sys2Proof/Laws/KeptPower.lean ====
section
/-! SUPPORT. Every operation of Machine/Power.lean keeps what `Kept` says. -/

namespace Sys2Proof.Machine

theorem State.putFlash_kept (s : State) (a : Nat) (l : List Byte) : Kept s (State.putFlash s a l) := by
  induction l generalizing s a with
  | nil => exact Kept.refl s
  | cons b r ih =>
    refine Kept.trans ?_ (ih _ _)
    exact ⟨rfl, Nat.le_refl _, Nat.le_refl _, Nat.le_refl _, fun _ h => h, id, fun h => ⟨h.regs, h.mem, h.ident⟩⟩

theorem State.invalidate_kept (s : State) (slot : Nat) : Kept s (State.invalidate s slot) := by
  unfold State.invalidate
  extract_lets l1
  try clear_value l1
  repeat' first
    | with_reducible exact Kept.refl _
    | with_reducible apply Kept.trans ?_ (State.putFlash_kept _ _ _)

theorem State.dropUpdate_kept (s : State) : Kept s (State.dropUpdate s) := by
  unfold State.dropUpdate
  repeat' first
    | with_reducible exact Kept.refl _
    | with_reducible apply Kept.ite (fun _ => ?_) (fun _ => ?_)
    | with_reducible apply Kept.trans ?_ (State.invalidate_kept _ _)

theorem State.loadFuses_kept (s : State) : Kept s (State.loadFuses s) := by
  unfold State.loadFuses
  extract_lets l1 l2
  have h1 : Kept s l1 := by
    unfold l1
    repeat' first
      | with_reducible exact Kept.refl _
      | with_reducible apply Kept.trans ?_ (Kept.wr _ _ _ ?_)
      | with_reducible exact Reg.glbStraps_soft
  try clear_value l1
  have h2 : Kept s l2 := by
    unfold l2
    repeat' first
      | with_reducible assumption
      | with_reducible apply Kept.trans ?_ (State.setFld_kept _ _ _ ?_)
      | with_reducible exact Fld.minSvn_soft
      | with_reducible exact Fld.ownerEnrolled_soft
  try clear_value l2
  repeat' first
    | with_reducible exact Kept.refl _
    | with_reducible assumption
    | with_reducible apply Kept.trans ?_ (Kept.wr _ _ _ ?_)
    | with_reducible apply Kept.fold (fun _ _ => ?_) ?_
    | with_reducible exact Reg.secOwnerKey_soft _

theorem State.anew_kept (s : State) (phase : Phase) (en good : Bool) : Kept s (State.anew s phase en good) := by
  unfold State.anew
  have h1 : Kept s s.dropUpdate := State.dropUpdate_kept s
  generalize s.dropUpdate = u at h1
  refine Kept.trans ?_ (State.loadFuses_kept _)
  refine h1.trans ⟨rfl, Nat.le_refl _, Nat.le_refl _, Nat.le_refl _, fun _ h => h, fun h => ?_, fun h => ⟨rfl, ?_, fun _ _ => rfl⟩⟩
  · exact Memory.wf_iff.2 ⟨rfl, rfl, rfl, rfl, rfl, rfl, rfl, rfl, rfl, rfl, rfl, rfl, rfl, rfl, rfl, rfl, (Memory.wf_iff.1 h).host⟩
  · exact Memory.wf_iff.2 ⟨rfl, rfl, rfl, rfl, rfl, rfl, rfl, rfl, rfl, rfl, rfl, rfl, rfl, rfl, rfl, rfl, (Memory.wf_iff.1 h.mem).host⟩

theorem State.regulatorsOff_kept (s : State) : Kept s (State.regulatorsOff s) := by
  unfold State.regulatorsOff
  extract_lets l1
  try clear_value l1
  repeat' first
    | with_reducible exact Kept.refl _
    | with_reducible apply Kept.ite (fun _ => ?_) (fun _ => ?_)
    | with_reducible apply Kept.trans ?_ (State.anew_kept _ _ _ _)
    | with_reducible apply Kept.mk_ ?_

theorem pwrEnRise_kept (at_ : Nat) (s : State) : Kept s (pwrEnRise at_ s) := by
  unfold pwrEnRise
  extract_lets l1 l2 l3 l4
  have h1 : Kept s l1 := by
    unfold l1
    repeat' first
      | with_reducible exact Kept.refl _
      | with_reducible apply Kept.trans ?_ (State.advanceTo_kept _ _)
  try clear_value l1
  try clear_value l2
  have h3 : Kept s l3 := by
    unfold l3
    repeat' first
      | with_reducible assumption
      | with_reducible apply Kept.mk_ ?_
  try clear_value l3
  try clear_value l4
  repeat' first
    | with_reducible assumption
    | with_reducible apply Kept.ite (fun _ => ?_) (fun _ => ?_)
    | with_reducible apply Kept.mk_ ?_

theorem pwrGoodRise_kept (at_ : Nat) (feed : Nat) (node : Nat) (slot : Nat) (s : State) : Kept s (pwrGoodRise at_ feed node slot s) := by
  unfold pwrGoodRise
  extract_lets l1 l2 l3
  have h1 : Kept s l1 := by
    unfold l1
    repeat' first
      | with_reducible exact Kept.refl _
      | with_reducible apply Kept.trans ?_ (State.advanceTo_kept _ _)
  try clear_value l1
  try clear_value l2
  try clear_value l3
  repeat' first
    | with_reducible assumption
    | with_reducible apply Kept.ite (fun _ => ?_) (fun _ => ?_)
    | with_reducible apply Kept.trans ?_ (State.loadFuses_kept _)
    | with_reducible apply Kept.mk_ ?_

theorem pwrEnFall_kept (at_ : Nat) (s : State) : Kept s (pwrEnFall at_ s) := by
  unfold pwrEnFall
  extract_lets l1 l2
  have h1 : Kept s l1 := by
    unfold l1
    repeat' first
      | with_reducible exact Kept.refl _
      | with_reducible apply Kept.trans ?_ (State.advanceTo_kept _ _)
  try clear_value l1
  try clear_value l2
  repeat' first
    | with_reducible assumption
    | with_reducible apply Kept.ite (fun _ => ?_) (fun _ => ?_)
    | with_reducible apply Kept.trans ?_ (State.anew_kept _ _ _ _)
    | with_reducible apply Kept.mk_ ?_

theorem perstAssert_kept (at_ : Nat) (s : State) : Kept s (perstAssert at_ s) := by
  unfold perstAssert
  extract_lets l1
  have h1 : Kept s l1 := by
    unfold l1
    repeat' first
      | with_reducible exact Kept.refl _
      | with_reducible apply Kept.trans ?_ (State.advanceTo_kept _ _)
  try clear_value l1
  repeat' first
    | with_reducible assumption
    | with_reducible apply Kept.ite (fun _ => ?_) (fun _ => ?_)
    | with_reducible apply Kept.trans ?_ (State.anew_kept _ _ _ _)

theorem inputVoltage_kept (at_ : Nat) (mv : Nat) (s : State) : Kept s (inputVoltage at_ mv s) := by
  unfold inputVoltage
  extract_lets l1 l2
  have h1 : Kept s l1 := by
    unfold l1
    repeat' first
      | with_reducible exact Kept.refl _
      | with_reducible apply Kept.trans ?_ (State.advanceTo_kept _ _)
  try clear_value l1
  have h2 : Kept s l2 := by
    unfold l2
    repeat' first
      | with_reducible assumption
      | with_reducible apply Kept.trans ?_ (State.setFld_kept _ _ _ ?_)
      | with_reducible exact Fld.inputMv_soft
  try clear_value l2
  repeat' first
    | with_reducible assumption
    | with_reducible apply Kept.ite (fun _ => ?_) (fun _ => ?_)
    | with_reducible apply Kept.trans ?_ (State.setFld_kept _ _ _ ?_)
    | with_reducible apply Kept.trans ?_ (State.report_kept _ _)
    | with_reducible exact Fld.inputRange_soft

theorem powerSample_kept (at_ : Nat) (mv : Nat) (ca : Nat) (avg1ms : Nat) (avgWin : Nat) (s : State) : Kept s (powerSample at_ mv ca avg1ms avgWin s) := by
  unfold powerSample
  extract_lets l1 l2 l3 l4 l5 l6 l7 l8
  have h1 : Kept s l1 := by
    unfold l1
    repeat' first
      | with_reducible exact Kept.refl _
      | with_reducible apply Kept.trans ?_ (State.advanceTo_kept _ _)
  try clear_value l1
  have h2 : Kept s l2 := by
    unfold l2
    repeat' first
      | with_reducible assumption
      | with_reducible apply Kept.trans ?_ (State.setFld_kept _ _ _ ?_)
      | with_reducible exact Fld.inputMv_soft
      | with_reducible exact Fld.inputCa_soft
      | with_reducible exact Fld.avg1ms_soft
      | with_reducible exact Fld.avgWin_soft
  try clear_value l2
  try clear_value l3
  try clear_value l4
  try clear_value l5
  try clear_value l6
  have h7 : Kept s l7 := by
    unfold l7
    repeat' first
      | with_reducible assumption
      | split
      | with_reducible apply Kept.mk_ ?_
  try clear_value l7
  have h8 : Kept s l8 := by
    unfold l8
    repeat' first
      | with_reducible assumption
      | with_reducible apply Kept.trans ?_ (State.setClocks_kept _)
  try clear_value l8
  repeat' first
    | with_reducible assumption
    | with_reducible apply Kept.ite (fun _ => ?_) (fun _ => ?_)
    | with_reducible apply Kept.trans ?_ (State.report_kept _ _)

theorem capStep_kept (at_ : Nat) (s : State) : Kept s (capStep at_ s) := by
  unfold capStep
  extract_lets l1 l2 l3 l4 l5 l6
  have h1 : Kept s l1 := by
    unfold l1
    repeat' first
      | with_reducible exact Kept.refl _
      | with_reducible apply Kept.trans ?_ (State.advanceTo_kept _ _)
  try clear_value l1
  try clear_value l2
  try clear_value l3
  try clear_value l4
  try clear_value l5
  try clear_value l6
  repeat' first
    | with_reducible assumption
    | with_reducible apply Kept.ite (fun _ => ?_) (fun _ => ?_)
    | with_reducible apply Kept.trans ?_ (State.setClocks_kept _)
    | with_reducible apply Kept.mk_ ?_

theorem State.sense_kept (s : State) (u : Nat) (temp : Nat) : Kept s (State.sense s u temp) := by
  unfold State.sense
  extract_lets l1 l2
  try clear_value l1
  have h2 : Kept s l2 := by
    unfold l2
    repeat' first
      | with_reducible exact Kept.refl _
      | with_reducible apply Kept.mk_ ?_
  try clear_value l2
  repeat' first
    | with_reducible assumption
    | with_reducible apply Kept.trans ?_ (State.setFld_kept _ _ _ ?_)
    | with_reducible exact Fld.slabC_soft
    | with_reducible exact Fld.hubC_soft
    | with_reducible exact Fld.stackC_soft

theorem State.setThermal_kept (s : State) (u : Nat) (f : Nat → Nat) : Kept s (State.setThermal s u f) := by
  unfold State.setThermal
  extract_lets l1 l2
  try clear_value l1
  try clear_value l2
  repeat' first
    | with_reducible exact Kept.refl _
    | with_reducible apply Kept.ite (fun _ => ?_) (fun _ => ?_)
    | with_reducible apply Kept.trans ?_ (State.setSlab_kept _ _ _)
    | with_reducible apply Kept.mk_ ?_

theorem State.setHot_kept (s : State) (u : Nat) (b : Bool) : Kept s (s.setHot u b) := Kept.mk_ (Kept.refl _)

theorem thermalThrottle_kept (at_ : Nat) (unit : Nat) (temp : Nat) (s : State) : Kept s (thermalThrottle at_ unit temp s) := by
  unfold thermalThrottle
  have h1 : Kept s (s.advanceTo at_) := State.advanceTo_kept s at_
  generalize s.advanceTo at_ = u at h1
  refine Kept.ite (fun _ => ?_) fun _ => h1
  have h2 : Kept s (u.sense unit temp) := h1.trans (State.sense_kept ..)
  generalize u.sense unit temp = v at h2
  have h3 (b f) : Kept s ((v.setHot unit b).setThermal unit f).setClocks :=
    ((h2.trans (State.setHot_kept ..)).trans (State.setThermal_kept ..)).trans (State.setClocks_kept _)
  exact Kept.ite (fun _ => (h3 ..).trans (State.report_kept ..)) fun _ =>
    Kept.ite (fun _ => Kept.ite (fun _ => h3 ..) fun _ => Kept.ite (fun _ => h3 ..) fun _ => h2) fun _ => h2

theorem thermalTrip_kept (at_ : Nat) (unit : Nat) (temp : Nat) (s : State) : Kept s (thermalTrip at_ unit temp s) := by
  unfold thermalTrip
  extract_lets l1
  have h1 : Kept s l1 := by
    unfold l1
    repeat' first
      | with_reducible exact Kept.refl _
      | with_reducible apply Kept.trans ?_ (State.advanceTo_kept _ _)
  try clear_value l1
  repeat' first
    | with_reducible assumption
    | with_reducible apply Kept.ite (fun _ => ?_) (fun _ => ?_)
    | with_reducible apply Kept.trans ?_ (State.regulatorsOff_kept _)
    | with_reducible apply Kept.trans ?_ (State.sense_kept _ _ _)

theorem throttleInAssert_kept (at_ : Nat) (s : State) : Kept s (throttleInAssert at_ s) := by
  unfold throttleInAssert
  extract_lets l1 l2 l3
  have h1 : Kept s l1 := by
    unfold l1
    repeat' first
      | with_reducible exact Kept.refl _
      | with_reducible apply Kept.trans ?_ (State.advanceTo_kept _ _)
  try clear_value l1
  try clear_value l2
  have h3 : Kept s l3 := by
    unfold l3
    repeat' first
      | with_reducible assumption
      | with_reducible apply Kept.mk_ ?_
  try clear_value l3
  repeat' first
    | with_reducible assumption
    | with_reducible apply Kept.ite (fun _ => ?_) (fun _ => ?_)
    | with_reducible apply Kept.trans ?_ (State.setClocks_kept _)
    | with_reducible apply Kept.trans ?_ (State.bump_kept _ _ _ ?_)
    | with_reducible apply Kept.trans ?_ (State.setFld_kept _ _ _ ?_)
    | with_reducible exact Fld.throttleIn_soft
    | with_reducible exact Fld.assertions_soft

theorem throttleInRelease_kept (at_ : Nat) (s : State) : Kept s (throttleInRelease at_ s) := by
  unfold throttleInRelease
  extract_lets l1 l2 l3
  have h1 : Kept s l1 := by
    unfold l1
    repeat' first
      | with_reducible exact Kept.refl _
      | with_reducible apply Kept.trans ?_ (State.advanceTo_kept _ _)
  try clear_value l1
  try clear_value l2
  have h3 : Kept s l3 := by
    unfold l3
    repeat' first
      | with_reducible assumption
      | with_reducible apply Kept.mk_ ?_
  try clear_value l3
  repeat' first
    | with_reducible assumption
    | with_reducible apply Kept.ite (fun _ => ?_) (fun _ => ?_)
    | with_reducible apply Kept.trans ?_ (State.setClocks_kept _)
    | with_reducible apply Kept.trans ?_ (State.setFld_kept _ _ _ ?_)
    | with_reducible exact Fld.throttleIn_soft

theorem throttleInPulse_kept (at_ : Nat) (s : State) : Kept s (throttleInPulse at_ s) := by
  unfold throttleInPulse
  extract_lets l1
  have h1 : Kept s l1 := by
    unfold l1
    repeat' first
      | with_reducible exact Kept.refl _
      | with_reducible apply Kept.trans ?_ (State.advanceTo_kept _ _)
  try clear_value l1
  repeat' first
    | with_reducible assumption
    | with_reducible apply Kept.ite (fun _ => ?_) (fun _ => ?_)
    | with_reducible apply Kept.trans ?_ (State.bump_kept _ _ _ ?_)
    | with_reducible exact Fld.filtered_soft

theorem throttleHeld_kept (at_ : Nat) (s : State) : Kept s (throttleHeld at_ s) := by
  unfold throttleHeld
  extract_lets l1 l2
  have h1 : Kept s l1 := by
    unfold l1
    repeat' first
      | with_reducible exact Kept.refl _
      | with_reducible apply Kept.trans ?_ (State.advanceTo_kept _ _)
  try clear_value l1
  try clear_value l2
  repeat' first
    | with_reducible assumption
    | with_reducible apply Kept.ite (fun _ => ?_) (fun _ => ?_)
    | with_reducible apply Kept.trans ?_ (State.report_kept _ _)
    | split
    | with_reducible apply Kept.mk_ ?_

theorem State.setVolt_kept (s : State) (g : Nat) (mv : Nat) : Kept s (State.setVolt s g mv) := by
  unfold State.setVolt
  repeat' first
    | with_reducible exact Kept.refl _
    | with_reducible apply Kept.trans ?_ (State.setFld_kept _ _ _ ?_)
    | with_reducible exact Fld.grpMv_soft _
    | with_reducible exact Fld.grpIndex_soft _

theorem State.checkWear_kept (s : State) : Kept s (State.checkWear s) := by
  unfold State.checkWear
  extract_lets l1 l2 l3
  try clear_value l1
  have h2 : Kept s l2 := by
    unfold l2
    repeat' first
      | with_reducible exact Kept.refl _
      | with_reducible apply Kept.trans ?_ (State.setFld_kept _ _ _ ?_)
      | with_reducible exact Fld.wearIndex_soft
  try clear_value l2
  try clear_value l3
  repeat' first
    | with_reducible assumption
    | with_reducible apply Kept.ite (fun _ => ?_) (fun _ => ?_)
    | with_reducible apply Kept.trans ?_ (State.report_kept _ _)
    | with_reducible apply Kept.mk_ ?_

theorem State.raiseGroups_kept (s : State) (slab : Nat) : Kept s (State.raiseGroups s slab) := by
  unfold State.raiseGroups
  repeat' first
    | with_reducible exact Kept.refl _
    | with_reducible apply Kept.trans ?_ (State.checkWear_kept _)
    | with_reducible apply Kept.trans ?_ (State.setVolt_kept _ _ _)
    | with_reducible apply Kept.fold (fun _ _ => ?_) ?_

theorem State.stretch_kept (s : State) (slab : Nat) : Kept s (State.stretch s slab) := by
  unfold State.stretch
  extract_lets l1 l2 l3 l4 l5
  try clear_value l1
  try clear_value l2
  try clear_value l3
  have h4 : Kept s l4 := by
    unfold l4
    repeat' first
      | with_reducible exact Kept.refl _
      | with_reducible apply Kept.trans ?_ (State.setSlab_kept _ _ _)
  try clear_value l4
  have h5 : Kept s l5 := by
    unfold l5
    repeat' first
      | with_reducible assumption
      | with_reducible apply Kept.trans ?_ (State.setClocks_kept _)
      | with_reducible apply Kept.trans ?_ (State.bump_kept _ _ _ ?_)
      | with_reducible exact Fld.droops_soft _
  try clear_value l5
  repeat' first
    | with_reducible exact Kept.refl _
    | with_reducible assumption
    | with_reducible apply Kept.ite (fun _ => ?_) (fun _ => ?_)
    | with_reducible apply Kept.trans ?_ (State.raiseGroups_kept _ _)
    | with_reducible apply Kept.trans ?_ (State.report_kept _ _)

theorem droopRecovery_kept (at_ : Nat) (slab : Nat) (s : State) : Kept s (droopRecovery at_ slab s) := by
  unfold droopRecovery
  extract_lets l1 l2
  have h1 : Kept s l1 := by
    unfold l1
    repeat' first
      | with_reducible exact Kept.refl _
      | with_reducible apply Kept.trans ?_ (State.advanceTo_kept _ _)
  try clear_value l1
  try clear_value l2
  repeat' first
    | with_reducible assumption
    | with_reducible apply Kept.ite (fun _ => ?_) (fun _ => ?_)
    | with_reducible apply Kept.trans ?_ (State.setClocks_kept _)
    | with_reducible apply Kept.trans ?_ (State.setSlab_kept _ _ _)

theorem refclkLost_kept (at_ : Nat) (mhz : Nat) (s : State) : Kept s (refclkLost at_ mhz s) := by
  unfold refclkLost
  extract_lets l1 l2
  have h1 : Kept s l1 := by
    unfold l1
    repeat' first
      | with_reducible exact Kept.refl _
      | with_reducible apply Kept.trans ?_ (State.advanceTo_kept _ _)
  try clear_value l1
  have h2 : Kept s l2 := by
    unfold l2
    repeat' first
      | with_reducible assumption
      | with_reducible apply Kept.trans ?_ (State.report_kept _ _)
      | with_reducible apply Kept.trans ?_ (State.setFld_kept _ _ _ ?_)
      | with_reducible exact Fld.ref156Lost_soft
  try clear_value l2
  repeat' first
    | with_reducible exact Kept.refl _
    | with_reducible assumption
    | with_reducible apply Kept.ite (fun _ => ?_) (fun _ => ?_)
    | with_reducible apply Kept.trans ?_ (State.makeFatal_kept _ _)
    | with_reducible apply Kept.trans ?_ (State.report_kept _ _)
    | with_reducible apply Kept.trans ?_ (State.loseLink_kept _ _ _)
    | with_reducible apply Kept.fold (fun _ _ => ?_) ?_

theorem State.planGroup_kept (s : State) (g : Nat) (step : Nat) : Kept s (State.planGroup s g step) := by
  unfold State.planGroup
  extract_lets l1
  try clear_value l1
  repeat' first
    | with_reducible exact Kept.refl _
    | with_reducible apply Kept.ite (fun _ => ?_) (fun _ => ?_)
    | with_reducible apply Kept.trans ?_ (State.setVolt_kept _ _ _)

theorem State.planFences_kept (s : State) (failed : List Nat) (failedSlabs : List Nat) : Kept s (State.planFences s failed failedSlabs) := by
  unfold State.planFences
  extract_lets l1 l2
  try clear_value l1
  have h2 : Kept s l2 := by
    unfold l2
    repeat' first
      | with_reducible exact Kept.refl _
      | with_reducible apply Kept.ite (fun _ => ?_) (fun _ => ?_)
      | with_reducible apply Kept.trans ?_ (State.raise_kept _ _)
      | with_reducible apply Kept.fold (fun _ _ => ?_) ?_
  try clear_value l2
  repeat' first
    | with_reducible exact Kept.refl _
    | with_reducible assumption
    | with_reducible apply Kept.ite (fun _ => ?_) (fun _ => ?_)
    | with_reducible apply Kept.trans ?_ (State.raise_kept _ _)
    | with_reducible apply Kept.fold (fun _ _ => ?_) ?_

theorem State.planSlab_kept (s : State) (slab : Nat) (mhz : Nat) : Kept s (State.planSlab s slab mhz) := by
  unfold State.planSlab
  extract_lets l1
  try clear_value l1
  repeat' first
    | with_reducible exact Kept.refl _
    | with_reducible apply Kept.ite (fun _ => ?_) (fun _ => ?_)
    | with_reducible apply Kept.trans ?_ (State.report_kept _ _)
    | with_reducible apply Kept.trans ?_ (State.setFld_kept _ _ _ ?_)
    | with_reducible exact Fld.wearMhz_soft _

theorem wearPlan_kept (at_ : Nat) (steps : List Nat) (mhz : List Nat) (failed : List Nat) (failedSlabs : List Nat) (s : State) : Kept s (wearPlan at_ steps mhz failed failedSlabs s) := by
  unfold wearPlan
  extract_lets l1 l2 l3 l4 l5 l6
  have h1 : Kept s l1 := by
    unfold l1
    repeat' first
      | with_reducible exact Kept.refl _
      | with_reducible apply Kept.trans ?_ (State.advanceTo_kept _ _)
  try clear_value l1
  have h2 : Kept s l2 := by
    unfold l2
    repeat' first
      | with_reducible exact Kept.refl _
      | with_reducible assumption
      | with_reducible apply Kept.trans ?_ (State.planGroup_kept _ _ _)
      | with_reducible apply Kept.fold (fun _ _ => ?_) ?_
  try clear_value l2
  have h3 : Kept s l3 := by
    unfold l3
    repeat' first
      | with_reducible exact Kept.refl _
      | with_reducible assumption
      | with_reducible apply Kept.trans ?_ (State.planSlab_kept _ _ _)
      | with_reducible apply Kept.fold (fun _ _ => ?_) ?_
  try clear_value l3
  have h4 : Kept s l4 := by
    unfold l4
    repeat' first
      | with_reducible assumption
      | with_reducible apply Kept.trans ?_ (State.planFences_kept _ _ _)
  try clear_value l4
  try clear_value l5
  have h6 : Kept s l6 := by
    unfold l6
    repeat' first
      | with_reducible assumption
      | with_reducible apply Kept.mk_ ?_
  try clear_value l6
  repeat' first
    | with_reducible assumption
    | with_reducible apply Kept.ite (fun _ => ?_) (fun _ => ?_)
    | with_reducible apply Kept.trans ?_ (State.setClocks_kept _)
    | with_reducible apply Kept.trans ?_ (State.checkWear_kept _)
    | with_reducible apply Kept.trans ?_ (State.setFld_kept _ _ _ ?_)
    | with_reducible exact Fld.wearPlanDue_soft

theorem State.askPlan_kept (s : State) : Kept s (State.askPlan s) := by
  unfold State.askPlan
  extract_lets l1
  try clear_value l1
  repeat' first
    | with_reducible exact Kept.refl _
    | with_reducible apply Kept.mk_ ?_

theorem wearPlanDue_kept (at_ : Nat) (s : State) : Kept s (wearPlanDue at_ s) := by
  unfold wearPlanDue
  extract_lets l1
  have h1 : Kept s l1 := by
    unfold l1
    repeat' first
      | with_reducible exact Kept.refl _
      | with_reducible apply Kept.trans ?_ (State.advanceTo_kept _ _)
  try clear_value l1
  repeat' first
    | with_reducible assumption
    | with_reducible apply Kept.ite (fun _ => ?_) (fun _ => ?_)
    | with_reducible apply Kept.trans ?_ (State.report_kept _ _)
    | with_reducible apply Kept.trans ?_ (State.setFld_kept _ _ _ ?_)
    | with_reducible exact Fld.wearPlanDue_soft
    | split

end Sys2Proof.Machine
end

