-- ==== Sys2Proof/Laws/KeptFirmware.lean ====
section
/-! SUPPORT. Every operation of Machine/Firmware.lean keeps what `Kept` says. -/

namespace Sys2Proof.Machine

theorem State.setSlotBits_kept (s : State) (slot : Nat) (v : Nat) : Kept s (State.setSlotBits s slot v) := by
  unfold State.setSlotBits
  repeat' first
    | with_reducible exact Kept.refl _
    | with_reducible apply Kept.trans ?_ (State.putFlash_kept _ _ _)

theorem State.lockBoot_kept (s : State) : Kept s (State.lockBoot s) := by
  unfold State.lockBoot
  extract_lets l1 l2 l3
  have h2 : Kept s l2 := by
    unfold l2
    repeat' first
      | with_reducible exact Kept.refl _
      | with_reducible apply Kept.trans ?_ (State.setFld_kept _ _ _ ?_)
      | with_reducible exact Fld.bootLock_soft
      | with_reducible exact Fld.debugOpen_soft
  repeat' first
    | with_reducible assumption
    | refine Kept.fw_ ?_ rfl rfl

theorem State.recover_kept (s : State) : Kept s (State.recover s) := by
  unfold State.recover
  extract_lets l1
  have h1 : Kept s l1 := by
    unfold l1
    repeat' first
      | with_reducible exact Kept.refl _
      | with_reducible apply Kept.trans ?_ (State.setFld_kept _ _ _ ?_)
      | with_reducible exact Fld.ctxEnable_soft
      | with_reducible exact Fld.quarryModes_soft
      | with_reducible exact Fld.bar4Enable_soft
      | with_reducible exact Fld.debugOpen_soft
  try clear_value l1
  repeat' first
    | with_reducible assumption
    | with_reducible apply Kept.trans ?_ (State.setFld_kept _ _ _ ?_)
    | with_reducible apply Kept.trans ?_ (State.lockBoot_kept _)
    | with_reducible exact Fld.bootState_soft

theorem State.bootSlotNow_kept (s : State) (slot : Nat) (first : Bool) : Kept s (State.bootSlotNow s slot first) := by
  unfold State.bootSlotNow
  extract_lets l1 l2 l3 l4 l5 l6 l7 l8
  have h5 : Kept s l5 := by
    unfold l5
    repeat' first
      | with_reducible exact Kept.refl _
      | with_reducible apply Kept.ite (fun _ => ?_) (fun _ => ?_)
      | with_reducible apply Kept.trans ?_ (State.setSlotBits_kept _ _ _)
  have h7 : Kept s l7 := by
    unfold l7
    repeat' first
      | with_reducible assumption
      | split
      | refine Kept.fw_ ?_ rfl rfl
  have h8 : Kept s l8 := by
    unfold l8
    repeat' first
      | with_reducible assumption
      | with_reducible apply Kept.trans ?_ (State.setFld_kept _ _ _ ?_)
      | with_reducible exact Fld.keyIdx_soft
      | with_reducible exact Fld.svn_soft
      | with_reducible exact Fld.trial_soft
  repeat' first
    | with_reducible assumption
    | with_reducible apply Kept.trans ?_ (State.setFld_kept _ _ _ ?_)
    | with_reducible exact Fld.bootSlot_soft
    | with_reducible exact Fld.fallback_soft
    | with_reducible exact Fld.bootState_soft

theorem State.bootFrom_kept (s : State) (first : Nat) (l : List Nat) : Kept s (State.bootFrom s first l) := by
  induction l generalizing s with
  | nil => exact State.recover_kept s
  | cons slot r ih =>
    unfold State.bootFrom
    refine Kept.ite (fun _ => ih s) fun _ => ?_
    have h : Kept s (s.putPhys s.copyRegion (s.slotHeader slot ++ s.slotBody slot)) := State.putPhys_kept ..
    exact Kept.ite (fun _ => h.trans (State.bootSlotNow_kept ..)) fun _ => h.trans (ih _)

theorem bootRomStart_kept (at_ : Nat) (s : State) : Kept s (bootRomStart at_ s) := by
  unfold bootRomStart
  extract_lets l1 l2 l3 l4
  have h1 : Kept s l1 := by
    unfold l1
    repeat' first
      | with_reducible exact Kept.refl _
      | with_reducible apply Kept.trans ?_ (State.advanceTo_kept _ _)
  have h4 : Kept s l4 := by
    unfold l4
    repeat' first
      | with_reducible assumption
      | with_reducible apply Kept.trans ?_ (State.setFld_kept _ _ _ ?_)
      | with_reducible apply Kept.trans ?_ (State.setClocks_kept _)
      | with_reducible exact Fld.hifWidth_soft
      | refine Kept.mem_ ?_ (fun h => h)
  repeat' first
    | with_reducible assumption
    | with_reducible apply Kept.ite (fun _ => ?_) (fun _ => ?_)
    | with_reducible apply Kept.trans ?_ (State.bootFrom_kept _ _ _)

theorem bootLock_kept (at_ : Nat) (s : State) : Kept s (bootLock at_ s) := by
  unfold bootLock
  extract_lets l1 l2 l3 l4 l5
  have h1 : Kept s l1 := by
    unfold l1
    repeat' first
      | with_reducible exact Kept.refl _
      | with_reducible apply Kept.trans ?_ (State.advanceTo_kept _ _)
  try clear_value l1
  have h2 : Kept s l2 := by
    unfold l2
    repeat' first
      | with_reducible assumption
      | with_reducible apply Kept.trans ?_ (State.setFld_kept _ _ _ ?_)
      | with_reducible apply Kept.trans ?_ (State.lockBoot_kept _)
      | with_reducible exact Fld.bootState_soft
  try clear_value l2
  try clear_value l3
  try clear_value l4
  have h5 : Kept s l5 := by
    unfold l5
    repeat' first
      | with_reducible assumption
      | with_reducible apply Kept.mk_ ?_
  try clear_value l5
  repeat' first
    | with_reducible assumption
    | with_reducible apply Kept.ite (fun _ => ?_) (fun _ => ?_)
    | with_reducible apply Kept.trans ?_ (State.report_kept _ _)

theorem State.enrollWrite_kept (s : State) (v : Nat) : Kept s (State.enrollWrite s v) := by
  unfold State.enrollWrite
  split
  · refine Kept.ite (fun hc => ?_) fun _ => Kept.refl s
    refine Kept.trans (Kept.trans ?_ (State.loadFuses_kept _)) (State.setFld_kept _ _ _ Fld.enroll_soft)
    have ho : s.fw.owner = none := by
      have hn := hc.2.2
      unfold State.ownerKey at hn
      cases hf : s.fw.owner with
      | none => rfl
      | some k => cases hc' : Config.fusedOwner <;> simp [hf, hc'] at hn
    refine ⟨rfl, Nat.le_refl _, Nat.le_refl _, Nat.le_refl _, fun k hk => ?_, id, fun g => ⟨g.regs, g.mem, g.ident⟩⟩
    rw [ho] at hk
    cases hk
  · exact Kept.refl s

theorem ownerEnroll_kept (at_ : Nat) (party : Party) (value : Word) (s : State) : Kept s (ownerEnroll at_ party value s) := by
  unfold ownerEnroll
  extract_lets l1
  have h1 : Kept s l1 := by
    unfold l1
    repeat' first
      | with_reducible exact Kept.refl _
      | with_reducible apply Kept.trans ?_ (State.advanceTo_kept _ _)
  try clear_value l1
  repeat' first
    | with_reducible assumption
    | with_reducible apply Kept.trans ?_ (State.enrollWrite_kept _ _)
    | split

theorem State.debugWrite_kept (s : State) (v : Nat) : Kept s (State.debugWrite s v) := by
  unfold State.debugWrite
  repeat' first
    | with_reducible exact Kept.refl _
    | with_reducible apply Kept.ite (fun _ => ?_) (fun _ => ?_)
    | with_reducible apply Kept.trans ?_ (State.setFld_kept _ _ _ ?_)
    | with_reducible exact Fld.debugOpen_soft
    | with_reducible exact Fld.debugOpened_soft

theorem debugOpen_kept (at_ : Nat) (party : Party) (value : Word) (s : State) : Kept s (debugOpen at_ party value s) := by
  unfold debugOpen
  extract_lets l1
  have h1 : Kept s l1 := by
    unfold l1
    repeat' first
      | with_reducible exact Kept.refl _
      | with_reducible apply Kept.trans ?_ (State.advanceTo_kept _ _)
  try clear_value l1
  repeat' first
    | with_reducible assumption
    | with_reducible apply Kept.trans ?_ (State.debugWrite_kept _ _)
    | split

theorem State.tellUpdate_kept (s : State) (code : Nat) : Kept s (State.tellUpdate s code) := by
  unfold State.tellUpdate
  repeat' first
    | with_reducible exact Kept.refl _
    | with_reducible apply Kept.ite (fun _ => ?_) (fun _ => ?_)
    | with_reducible apply Kept.trans ?_ (State.report_kept _ _)

theorem State.failUpdate_kept (s : State) (status : Nat) : Kept s (State.failUpdate s status) := by
  unfold State.failUpdate
  extract_lets l1 l2
  have h2 : Kept s l2 := by
    unfold l2
    repeat' first
      | with_reducible exact Kept.refl _
      | refine Kept.fw_ ?_ rfl rfl
  repeat' first
    | with_reducible assumption
    | with_reducible apply Kept.trans ?_ (State.tellUpdate_kept _ _)
    | with_reducible apply Kept.trans ?_ (State.setFld_kept _ _ _ ?_)
    | with_reducible exact Fld.updStatus_soft

theorem State.updateGo_kept (s : State) : Kept s (State.updateGo s) := by
  unfold State.updateGo
  extract_lets l1 l2
  repeat' first
    | with_reducible exact Kept.refl _
    | with_reducible apply Kept.ite (fun _ => ?_) (fun _ => ?_)
    | with_reducible apply Kept.trans ?_ (State.failUpdate_kept _ _)
    | with_reducible apply Kept.trans ?_ (State.setFld_kept _ _ _ ?_)
    | with_reducible exact Fld.updStatus_soft
    | refine Kept.fw_ ?_ rfl rfl

theorem State.writeSlot_kept (s : State) (slot : Nat) (image : List Byte) : Kept s (State.writeSlot s slot image) := by
  unfold State.writeSlot
  extract_lets l1 l2 l3 l4
  try clear_value l1
  have h2 : Kept s l2 := by
    unfold l2
    repeat' first
      | with_reducible exact Kept.refl _
      | with_reducible apply Kept.trans ?_ (State.invalidate_kept _ _)
  try clear_value l2
  have h3 : Kept s l3 := by
    unfold l3
    repeat' first
      | with_reducible assumption
      | with_reducible apply Kept.trans ?_ (State.putFlash_kept _ _ _)
  try clear_value l3
  have h4 : Kept s l4 := by
    unfold l4
    repeat' first
      | with_reducible assumption
      | with_reducible apply Kept.trans ?_ (State.putFlash_kept _ _ _)
  try clear_value l4
  repeat' first
    | with_reducible assumption
    | with_reducible apply Kept.trans ?_ (State.putFlash_kept _ _ _)

theorem fwUpdateDone_kept (at_ : Nat) (s : State) : Kept s (fwUpdateDone at_ s) := by
  unfold fwUpdateDone
  extract_lets l1
  have h1 : Kept s l1 := by
    unfold l1
    repeat' first
      | with_reducible exact Kept.refl _
      | with_reducible apply Kept.trans ?_ (State.advanceTo_kept _ _)
  repeat' first
    | with_reducible assumption
    | with_reducible apply Kept.ite (fun _ => ?_) (fun _ => ?_)
    | with_reducible apply Kept.trans ?_ (State.failUpdate_kept _ _)
    | with_reducible apply Kept.trans ?_ (State.writeSlot_kept _ _ _)
    | with_reducible apply Kept.trans ?_ (State.tellUpdate_kept _ _)
    | with_reducible apply Kept.trans ?_ (State.setFld_kept _ _ _ ?_)
    | with_reducible exact Fld.updStatus_soft
    | split
    | refine Kept.fw_ ?_ rfl rfl

theorem State.confirm_kept (s : State) : Kept s (State.confirm s) := by
  unfold State.confirm
  extract_lets l1
  try clear_value l1
  repeat' first
    | with_reducible exact Kept.refl _
    | with_reducible apply Kept.ite (fun _ => ?_) (fun _ => ?_)
    | with_reducible apply Kept.trans ?_ (State.setFld_kept _ _ _ ?_)
    | with_reducible apply Kept.trans ?_ (State.setSlotBits_kept _ _ _)
    | with_reducible exact Fld.trial_soft

theorem State.burn_kept (s : State) : Kept s (State.burn s) := by
  unfold State.burn
  refine Kept.ite (fun _ => State.setFld_kept _ _ _ Fld.updStatus_soft) fun _ => Kept.ite (fun h => ?_) fun _ => Kept.refl s
  refine Kept.trans ?_ (State.setFld_kept _ _ _ Fld.minSvn_soft)
  have hb : s.fw.burnedSvn ≤ s.fld Fld.svn := Nat.le_trans (Nat.le_max_right _ _) (Nat.le_of_lt h)
  exact ⟨rfl, Nat.le_refl _, Nat.le_refl _, hb, fun _ h => h, id, fun g => ⟨g.regs, g.mem, g.ident⟩⟩

theorem State.attestGo_kept (s : State) : Kept s (State.attestGo s) := by
  unfold State.attestGo
  extract_lets l1 l2 l3
  repeat' first
    | with_reducible exact Kept.refl _
    | with_reducible apply Kept.ite (fun _ => ?_) (fun _ => ?_)
    | with_reducible apply Kept.trans ?_ (State.setFld_kept _ _ _ ?_)
    | with_reducible exact Fld.attStatus_soft
    | refine Kept.fw_ ?_ rfl rfl

theorem attestationReportWritten_kept (at_ : Nat) (s : State) : Kept s (attestationReportWritten at_ s) := by
  unfold attestationReportWritten
  extract_lets l1 l2 l3 l4
  have h1 : Kept s l1 := by
    unfold l1
    repeat' first
      | with_reducible exact Kept.refl _
      | with_reducible apply Kept.trans ?_ (State.advanceTo_kept _ _)
  have h3 : Kept s l3 := by
    unfold l3
    repeat' first
      | with_reducible assumption
      | refine Kept.fw_ ?_ rfl rfl
  have h4 : Kept s l4.2 := by
    unfold l4
    repeat' first
      | with_reducible assumption
      | with_reducible apply Kept.trans ?_ (Kept.fresh _ _)
  repeat' first
    | with_reducible assumption
    | with_reducible apply Kept.ite (fun _ => ?_) (fun _ => ?_)
    | with_reducible apply Kept.trans ?_ (State.setFld_kept _ _ _ ?_)
    | with_reducible apply Kept.trans ?_ (State.putHost_kept _ _ _)
    | with_reducible exact Fld.attStatus_soft
    | split

end Sys2Proof.Machine
end

