-- ==== Sys2Proof/Laws/KeptMemory.lean ====
section
/-! SUPPORT. Every operation of Machine/Memory.lean keeps what `Kept` says. -/

namespace Sys2Proof.Machine

theorem Exec.freeBytes_kept (n : Nat) : KeptE (Exec.freeBytes n) := by
  unfold Exec.freeBytes
  repeat' first
    | with_reducible exact KeptE.pure _
    | with_reducible exact KeptE.free _
    | with_reducible apply KeptE.bind ?_ (fun _ => ?_)
    | with_reducible apply KeptE.collect (fun _ => ?_)

theorem copyWork_kept (core : Nat) (c : Nat) (b : DmaBody) : KeptE (copyWork core c b) := by
  unfold copyWork
  repeat' first
    | with_reducible exact KeptE.pure _
    | with_reducible exact KeptE.ask _
    | with_reducible apply KeptE.bind ?_ (fun _ => ?_)
    | with_reducible apply KeptE.ite (fun _ => ?_) (fun _ => ?_)
    | with_reducible apply KeptE.each (fun _ => ?_)
    | with_reducible exact readCopy_kept _ _ _ _ _
    | with_reducible exact writeMem_kept _ _ _ _ _ _
    | with_reducible exact Exec.freeBytes_kept _

theorem fillWork_kept (core : Nat) (c : Nat) (b : DmaBody) : KeptE (fillWork core c b) := by
  unfold fillWork
  repeat' first
    | with_reducible apply KeptE.each (fun _ => ?_)
    | with_reducible exact writeMem_kept _ _ _ _ _ _

theorem touchAddr_kept (core : Nat) (c : Nat) (a : Addr) (write : Bool) : KeptE (touchAddr core c a write) := by
  unfold touchAddr
  repeat' first
    | with_reducible exact KeptE.pure _
    | with_reducible apply KeptE.bind ?_ (fun _ => ?_)
    | with_reducible apply KeptE.ite (fun _ => ?_) (fun _ => ?_)
    | with_reducible exact translate_kept _ _ _ _

theorem transposeBlock_kept (core : Nat) (c : Nat) (b : DmaBody) (shared_ : Bool) (r0 : Nat) (c0 : Nat) : KeptE (transposeBlock core c b shared_ r0 c0) := by
  unfold transposeBlock
  extract_lets l1 l2 l3
  try clear_value l1
  try clear_value l2
  try clear_value l3
  repeat' first
    | with_reducible exact KeptE.pure _
    | with_reducible apply KeptE.bind ?_ (fun _ => ?_)
    | with_reducible apply KeptE.ite (fun _ => ?_) (fun _ => ?_)
    | with_reducible apply KeptE.each (fun _ => ?_)
    | with_reducible apply KeptE.collect (fun _ => ?_)
    | with_reducible exact touchAddr_kept _ _ _ _
    | with_reducible exact readCopy_kept _ _ _ _ _
    | with_reducible exact writeMem_kept _ _ _ _ _ _
    | with_reducible exact settlePoison_kept _ _ _ _
    | with_reducible exact Exec.freeBytes_kept _

theorem transposeWork_kept (core : Nat) (c : Nat) (b : DmaBody) : KeptE (transposeWork core c b) := by
  unfold transposeWork
  repeat' first
    | with_reducible exact KeptE.ask _
    | with_reducible apply KeptE.bind ?_ (fun _ => ?_)
    | with_reducible apply KeptE.each (fun _ => ?_)
    | with_reducible exact transposeBlock_kept _ _ _ _ _ _

theorem State.runDma_kept (s : State) (core : Nat) (id : Nat) (op : Nat) (work : Nat → Nat → DmaBody → Exec Unit) (h_work : ∀ x0 x1 x2, KeptE (work x0 x1 x2)) : Kept s (State.runDma s core id op work) := by
  unfold State.runDma
  repeat' first
    | with_reducible exact Kept.refl _
    | with_reducible apply Kept.ite (fun _ => ?_) (fun _ => ?_)
    | with_reducible apply Kept.trans ?_ (State.raiseCtx_kept _ _ _)
    | apply Kept.trans ?_ (KeptE.result (h_work _ _ _) (by with_reducible assumption))
    | split
    | with_reducible apply Kept.mk_ ?_

theorem dmaLanded_kept (at_ : Nat) (core : Nat) (id : Nat) (s : State) : Kept s (dmaLanded at_ core id s) := by
  unfold dmaLanded
  extract_lets l1 l2 l3
  have h1 : Kept s l1 := by
    unfold l1
    repeat' first
      | with_reducible exact Kept.refl _
      | with_reducible apply Kept.trans ?_ (State.advanceTo_kept _ _)
  try clear_value l1
  try clear_value l2
  have h3 : Kept s l3 := by
    unfold l3
    repeat' first
      | with_reducible assumption
      | with_reducible apply Kept.mk_ ?_
  try clear_value l3
  repeat' first
    | with_reducible assumption
    | with_reducible apply Kept.trans ?_ (State.signalHeader_kept _ _ _ _)
    | split

theorem State.beginPass_kept (s : State) : Kept s (State.beginPass s) := by
  unfold State.beginPass
  extract_lets l1 l2
  have h1 : Kept s l1 := by
    unfold l1
    repeat' first
      | with_reducible exact Kept.refl _
      | with_reducible apply Kept.trans ?_ (State.setFld_kept _ _ _ ?_)
      | with_reducible exact Fld.scrubActive_soft
  repeat' first
    | with_reducible assumption
    | refine Kept.mem_ ?_ (fun h => Memory.wf_iff.2 { Memory.wf_iff.1 h with frameCe := rfl })

theorem patrolScrub_kept (at_ : Nat) (pa : Nat) (last : Bool) (s : State) : Kept s (patrolScrub at_ pa last s) := by
  unfold patrolScrub
  extract_lets l1 l2 l3
  have h1 : Kept s l1 := by
    unfold l1
    repeat' first
      | with_reducible exact Kept.refl _
      | with_reducible apply Kept.trans ?_ (State.advanceTo_kept _ _)
  try clear_value l1
  have h2 : Kept s l2 := by
    unfold l2
    repeat' first
      | with_reducible assumption
      | with_reducible apply Kept.ite (fun _ => ?_) (fun _ => ?_)
      | with_reducible apply Kept.trans ?_ (State.beginPass_kept _)
  try clear_value l2
  have h3 : Kept s l3 := by
    unfold l3
    repeat' first
      | with_reducible assumption
      | with_reducible apply Kept.trans ?_ (State.readCheck_kept _ _ _)
  try clear_value l3
  repeat' first
    | with_reducible assumption
    | with_reducible apply Kept.ite (fun _ => ?_) (fun _ => ?_)
    | with_reducible apply Kept.trans ?_ (State.setFld_kept _ _ _ ?_)
    | with_reducible exact Fld.scrubActive_soft

theorem frameCountRestart_kept (at_ : Nat) (s : State) : Kept s (frameCountRestart at_ s) := by
  unfold frameCountRestart
  extract_lets l1 l2
  have h1 : Kept s l1 := by
    unfold l1
    repeat' first
      | with_reducible exact Kept.refl _
      | with_reducible apply Kept.trans ?_ (State.advanceTo_kept _ _)
  repeat' first
    | with_reducible assumption
    | with_reducible apply Kept.ite (fun _ => ?_) (fun _ => ?_)
    | refine Kept.mem_ ?_ (fun h => Memory.wf_iff.2 { Memory.wf_iff.1 h with frameCe := rfl })

theorem channelBurst_kept (at_ : Nat) (channel : Nat) (s : State) : Kept s (channelBurst at_ channel s) := by
  unfold channelBurst
  extract_lets l1 l2 l3 l4 l5 l6
  have h1 : Kept s l1 := by
    unfold l1
    repeat' first
      | with_reducible exact Kept.refl _
      | with_reducible apply Kept.trans ?_ (State.advanceTo_kept _ _)
  have h3 : Kept s l3 := by
    unfold l3
    repeat' first
      | with_reducible assumption
      | refine Kept.mem_ ?_ (fun h => Memory.wf_iff.2 { Memory.wf_iff.1 h with bursting := SMap.wf_put (Memory.wf_iff.1 h).bursting })
  have h5 : Kept s l5 := by
    unfold l5
    repeat' first
      | with_reducible assumption
      | with_reducible apply Kept.trans ?_ (State.report_kept _ _)
  repeat' first
    | with_reducible assumption
    | with_reducible apply Kept.ite (fun _ => ?_) (fun _ => ?_)
    | with_reducible apply Kept.trans ?_ (State.raise_kept _ _)
    | refine Kept.mem_ ?_ (fun h => h)

theorem channelRetrainDone_kept (at_ : Nat) (channel : Nat) (s : State) : Kept s (channelRetrainDone at_ channel s) := by
  unfold channelRetrainDone
  extract_lets l1 l2
  have h1 : Kept s l1 := by
    unfold l1
    repeat' first
      | with_reducible exact Kept.refl _
      | with_reducible apply Kept.trans ?_ (State.advanceTo_kept _ _)
  repeat' first
    | with_reducible assumption
    | refine Kept.mem_ ?_ (fun h => h)

theorem State.invalidateWrite_kept (s : State) (v : Nat) : Kept s (State.invalidateWrite s v) := by
  unfold State.invalidateWrite
  extract_lets l1 l2 l3
  have h2 : Kept s l2 := by
    unfold l2
    repeat' first
      | with_reducible exact Kept.refl _
      | with_reducible apply Kept.trans ?_ (State.setFld_kept _ _ _ ?_)
      | with_reducible exact Fld.invBusy_soft
  repeat' first
    | with_reducible exact Kept.refl _
    | with_reducible assumption
    | with_reducible apply Kept.ite (fun _ => ?_) (fun _ => ?_)
    | with_reducible apply Kept.trans ?_ (State.setFld_kept _ _ _ ?_)
    | with_reducible exact Fld.memCfgReject_soft
    | refine Kept.mem_ ?_ (fun h => h)

theorem tlbInvalidate_kept (party : Party) (value : Word) (s : State) : Kept s (tlbInvalidate party value s) := by
  unfold tlbInvalidate
  repeat' first
    | with_reducible exact Kept.refl _
    | with_reducible apply Kept.ite (fun _ => ?_) (fun _ => ?_)
    | with_reducible apply Kept.trans ?_ (State.setFld_kept _ _ _ ?_)
    | with_reducible apply Kept.trans ?_ (State.invalidateWrite_kept _ _)
    | with_reducible exact Fld.hostWrReject_soft
    | split

theorem invalidateDone_kept (at_ : Nat) (s : State) : Kept s (invalidateDone at_ s) := by
  unfold invalidateDone
  extract_lets l1 l2
  have h1 : Kept s l1 := by
    unfold l1
    repeat' first
      | with_reducible exact Kept.refl _
      | with_reducible apply Kept.trans ?_ (State.advanceTo_kept _ _)
  repeat' first
    | with_reducible assumption
    | with_reducible apply Kept.trans ?_ (State.setFld_kept _ _ _ ?_)
    | with_reducible exact Fld.invBusy_soft
    | split
    | refine Kept.mem_ ?_ (fun h => h)

theorem State.layoutWrite_kept (s : State) (value : Word) : Kept s (State.layoutWrite s value) := by
  unfold State.layoutWrite
  refine Kept.ite (fun _ => Kept.refl s) fun _ => Kept.ite (fun _ => State.setFld_kept _ _ _ Fld.memCfgReject_soft) fun _ => ?_
  refine Kept.trans ?_ (State.setFld_kept _ _ _ Fld.buddyValid_soft)
  refine Kept.mem_ (Kept.wr s Reg.memLayout _ Reg.memLayout_soft) fun h => Memory.wf_iff.2 { Memory.wf_iff.1 h with
    phys := SMap.wf_congr (SMap.wf_drop (fun k => decide (k < 2 ^ 44)) (Memory.wf_iff.1 h).phys) fun e he => ?_
    poison := SMap.wf_drop (fun k => decide (k < 2 ^ 38)) (Memory.wf_iff.1 h).poison, fossil := SMap.wf_drop (fun k => decide (k < 2 ^ 38)) (Memory.wf_iff.1 h).fossil
    latent := SMap.wf_drop (fun k => decide (k / 8 < 2 ^ 38)) (Memory.wf_iff.1 h).latent }
  have hm := (List.mem_filter.1 he).2
  simp only [Bool.not_eq_true', decide_eq_false_iff_not] at hm
  unfold MemSt.physDefault
  rw [if_neg hm, if_neg hm]

theorem memLayoutWrite_kept (party : Party) (value : Word) (s : State) : Kept s (memLayoutWrite party value s) := by
  unfold memLayoutWrite
  repeat' first
    | with_reducible exact Kept.refl _
    | with_reducible apply Kept.ite (fun _ => ?_) (fun _ => ?_)
    | with_reducible apply Kept.trans ?_ (State.setFld_kept _ _ _ ?_)
    | with_reducible apply Kept.trans ?_ (State.layoutWrite_kept _ _)
    | with_reducible exact Fld.hostWrReject_soft
    | split

end Sys2Proof.Machine
end

