-- ==== Sys2Proof/Laws/KeptContexts.lean ====
section
/-! SUPPORT. Every operation of Machine/Contexts.lean keeps what `Kept` says. -/

namespace Sys2Proof.Machine

theorem State.rankDecode_kept (s : State) : Kept s (State.rankDecode s) := by
  unfold State.rankDecode
  extract_lets l1 l2 l3 l4
  try clear_value l1
  try clear_value l2
  have h3 : Kept s l3 := by
    unfold l3
    repeat' first
      | with_reducible exact Kept.refl _
      | with_reducible apply Kept.trans ?_ (State.setFld_kept _ _ _ ?_)
      | with_reducible apply Kept.fold (fun _ _ => ?_) ?_
      | with_reducible exact Fld.ctxPrio_soft _
  try clear_value l3
  try clear_value l4
  repeat' first
    | with_reducible exact Kept.refl _
    | with_reducible assumption
    | with_reducible apply Kept.ite (fun _ => ?_) (fun _ => ?_)
    | with_reducible apply Kept.trans ?_ (State.setFld_kept _ _ _ ?_)
    | with_reducible apply Kept.fold (fun _ _ => ?_) ?_
    | with_reducible exact Fld.ctxPrio_soft _

theorem donationExhausted_kept (at_ : Nat) (core : Nat) (stream : Nat) (s : State) : Kept s (donationExhausted at_ core stream s) := by
  unfold donationExhausted
  extract_lets l1 l2 l3 l4 l5
  have h1 : Kept s l1 := by
    unfold l1
    repeat' first
      | with_reducible exact Kept.refl _
      | with_reducible apply Kept.trans ?_ (State.advanceTo_kept _ _)
  try clear_value l1
  try clear_value l2
  have h3 : Kept s l3 := by
    unfold l3
    repeat' first
      | with_reducible assumption
      | with_reducible apply Kept.trans ?_ (State.closeDonations_kept _ _)
  try clear_value l3
  try clear_value l4
  have h5 : Kept s l5 := by
    unfold l5
    repeat' first
      | with_reducible assumption
      | with_reducible apply Kept.trans ?_ (State.setStream_kept _ _ _ _)
  try clear_value l5
  repeat' first
    | with_reducible assumption
    | with_reducible apply Kept.trans ?_ (State.report_kept _ _)
    | split

theorem State.startSwap_kept (s : State) (incoming : Nat) (victim : Nat) : Kept s (State.startSwap s incoming victim) := by
  unfold State.startSwap
  extract_lets l1 l2
  try clear_value l1
  try clear_value l2
  repeat' first
    | with_reducible exact Kept.refl _
    | with_reducible apply Kept.ite (fun _ => ?_) (fun _ => ?_)
    | with_reducible apply Kept.trans ?_ (State.setQuarry_kept _ _ _)
    | with_reducible apply Kept.trans ?_ (State.setFld_kept _ _ _ ?_)
    | with_reducible exact Fld.swapping_soft _

theorem State.swapBlocked_kept (s : State) (q : Nat) : Kept s (State.swapBlocked s q) := by
  unfold State.swapBlocked
  repeat' first
    | with_reducible exact Kept.refl _
    | with_reducible apply Kept.trans ?_ (State.startSwap_kept _ _ _)
    | split

theorem allBlocked_kept (at_ : Nat) (quarry : Nat) (s : State) : Kept s (allBlocked at_ quarry s) := by
  unfold allBlocked
  extract_lets l1 l2 l3 l4 l5 l6 l7
  have h1 : Kept s l1 := by
    unfold l1
    repeat' first
      | with_reducible exact Kept.refl _
      | with_reducible apply Kept.trans ?_ (State.advanceTo_kept _ _)
  try clear_value l1
  try clear_value l2
  try clear_value l3
  try clear_value l4
  have h5 : Kept s l5 := by
    unfold l5
    repeat' first
      | with_reducible assumption
      | with_reducible apply Kept.mk_ ?_
  try clear_value l5
  have h6 : Kept s l6 := by
    unfold l6
    repeat' first
      | with_reducible assumption
      | with_reducible apply Kept.trans ?_ (State.report_kept _ _)
  try clear_value l6
  try clear_value l7
  repeat' first
    | with_reducible assumption
    | with_reducible apply Kept.ite (fun _ => ?_) (fun _ => ?_)
    | with_reducible apply Kept.trans ?_ (State.swapBlocked_kept _ _)
    | with_reducible apply Kept.mk_ ?_

theorem State.exchange_kept (s : State) (a : Nat) (b : Nat) : Kept s (State.exchange s a b) := by
  unfold State.exchange
  extract_lets l1 l2
  have h1 : Kept s l1.2 := by
    unfold l1
    repeat' first
      | with_reducible exact Kept.refl _
      | with_reducible apply Kept.trans ?_ (State.readGran_kept _ _)
  try clear_value l1
  have h2 : Kept s l2.2 := by
    unfold l2
    repeat' first
      | with_reducible assumption
      | with_reducible apply Kept.trans ?_ (State.readGran_kept _ _)
  try clear_value l2
  repeat' first
    | with_reducible assumption
    | with_reducible apply Kept.trans ?_ (State.writeGran_kept _ _ _ _ _)

theorem State.exchangeShare_kept (s : State) (c : Nat) : Kept s (State.exchangeShare s c) := by
  unfold State.exchangeShare
  extract_lets l1
  try clear_value l1
  repeat' first
    | with_reducible exact Kept.refl _
    | with_reducible apply Kept.trans ?_ (State.exchange_kept _ _ _)
    | with_reducible apply Kept.fold (fun _ _ => ?_) ?_

theorem swapExchange_kept (at_ : Nat) (quarry : Nat) (s : State) : Kept s (swapExchange at_ quarry s) := by
  unfold swapExchange
  extract_lets l1
  have h1 : Kept s l1 := by
    unfold l1
    repeat' first
      | with_reducible exact Kept.refl _
      | with_reducible apply Kept.trans ?_ (State.advanceTo_kept _ _)
  try clear_value l1
  repeat' first
    | with_reducible assumption
    | with_reducible apply Kept.ite (fun _ => ?_) (fun _ => ?_)
    | with_reducible apply Kept.trans ?_ (State.exchangeShare_kept _ _)
    | with_reducible apply Kept.trans ?_ (State.setQuarry_kept _ _ _)
    | split

theorem State.applyPend_kept (s : State) (c : Nat) : Kept s (State.applyPend s c) := by
  unfold State.applyPend
  extract_lets l1 l2
  try clear_value l1
  try clear_value l2
  repeat' first
    | with_reducible exact Kept.refl _
    | with_reducible apply Kept.ite (fun _ => ?_) (fun _ => ?_)
    | with_reducible apply Kept.trans ?_ (State.faultCtx_kept _ _ _)
    | with_reducible apply Kept.trans ?_ (State.setCtx_kept _ _ _)

theorem State.endSwap_kept (s : State) (q : Nat) (victim : Nat) : Kept s (State.endSwap s q victim) := by
  unfold State.endSwap
  extract_lets l1 l2 l3
  try clear_value l1
  have h2 : Kept s l2 := by
    unfold l2
    repeat' first
      | with_reducible exact Kept.refl _
      | with_reducible apply Kept.trans ?_ (State.setFld_kept _ _ _ ?_)
      | with_reducible apply Kept.trans ?_ (State.setQuarry_kept _ _ _)
      | with_reducible exact Fld.swapping_soft _
  try clear_value l2
  try clear_value l3
  repeat' first
    | with_reducible assumption
    | with_reducible apply Kept.mk_ ?_

theorem State.abortCommands_kept (s : State) (c : Nat) (before : Nat) : Kept s (State.abortCommands s c before) := by
  unfold State.abortCommands
  repeat' first
    | with_reducible exact Kept.refl _
    | with_reducible apply Kept.trans ?_ (State.completeCmd_kept _ _ _ _)
    | with_reducible apply Kept.fold (fun _ _ => ?_) ?_

theorem State.dropSems_kept (s : State) (c : Nat) : Kept s (State.dropSems s c) := by
  unfold State.dropSems
  extract_lets l1 l2
  try clear_value l1
  have h2 : Kept s l2 := by
    unfold l2
    repeat' first
      | with_reducible exact Kept.refl _
      | with_reducible apply Kept.trans ?_ (State.setSem_kept _ _ _)
      | with_reducible apply Kept.fold (fun _ _ => ?_) ?_
  try clear_value l2
  repeat' first
    | with_reducible exact Kept.refl _
    | with_reducible assumption
    | with_reducible apply Kept.trans ?_ (State.rewaitAll_kept _ _)
    | with_reducible apply Kept.fold (fun _ _ => ?_) ?_

theorem State.dropSlots_kept (s : State) (c : Nat) : Kept s (State.dropSlots s c) := by
  unfold State.dropSlots
  extract_lets l1 l2 l3 l4
  try clear_value l1
  try clear_value l2
  try clear_value l3
  have h4 : Kept s l4 := by
    unfold l4
    repeat' first
      | with_reducible exact Kept.refl _
      | with_reducible apply Kept.mk_ ?_
  try clear_value l4
  repeat' first
    | with_reducible exact Kept.refl _
    | with_reducible assumption
    | with_reducible apply Kept.trans ?_ (State.releaseSlot_kept _ _)
    | with_reducible apply Kept.fold (fun _ _ => ?_) ?_

theorem State.loosePartner_kept (s : State) (c : Nat) : Kept s (State.loosePartner s c) := by
  unfold State.loosePartner
  extract_lets l1 l2
  try clear_value l1
  have h2 : Kept s l2 := by
    unfold l2
    repeat' first
      | with_reducible exact Kept.refl _
      | with_reducible apply Kept.trans ?_ (State.setFld_kept _ _ _ ?_)
      | with_reducible exact Fld.partnerValid_soft _
      | with_reducible exact Fld.partner_soft _
  try clear_value l2
  repeat' first
    | with_reducible exact Kept.refl _
    | with_reducible assumption
    | with_reducible apply Kept.ite (fun _ => ?_) (fun _ => ?_)
    | with_reducible apply Kept.trans ?_ (State.setFld_kept _ _ _ ?_)
    | with_reducible apply Kept.trans ?_ (State.exchangeShare_kept _ _)
    | with_reducible exact Fld.resident_soft _

theorem State.unbind_kept (s : State) (c : Nat) : Kept s (State.unbind s c) := by
  unfold State.unbind
  repeat' first
    | with_reducible exact Kept.refl _
    | with_reducible apply Kept.ite (fun _ => ?_) (fun _ => ?_)
    | with_reducible apply Kept.trans ?_ (State.setStream_kept _ _ _ _)
    | with_reducible apply Kept.fold (fun _ _ => ?_) ?_

theorem State.dropTiles_kept (s : State) (c : Nat) : Kept s (State.dropTiles s c) := by
  unfold State.dropTiles
  extract_lets l1
  try clear_value l1
  repeat' first
    | with_reducible exact Kept.refl _
    | with_reducible apply Kept.mk_ ?_

theorem State.dropTables_kept (s : State) (c : Nat) : Kept s (State.dropTables s c) :=
  Kept.mem_ (Kept.refl s) fun h => h

theorem State.dropDirectory_kept (s : State) (c : Nat) : Kept s (State.dropDirectory s c) := by
  unfold State.dropDirectory
  extract_lets l1 l2
  try clear_value l1
  have h2 : Kept s l2 := by
    unfold l2
    repeat' first
      | with_reducible exact Kept.refl _
      | with_reducible apply Kept.mk_ ?_
  try clear_value l2
  repeat' first
    | with_reducible exact Kept.refl _
    | with_reducible assumption
    | with_reducible apply Kept.ite (fun _ => ?_) (fun _ => ?_)
    | with_reducible apply Kept.trans ?_ (State.setFld_kept _ _ _ ?_)
    | with_reducible exact Fld.dirValid_soft
    | with_reducible exact Fld.dirCtx_soft

theorem State.dropHoldings_kept (s : State) (c : Nat) : Kept s (State.dropHoldings s c) := by
  unfold State.dropHoldings
  extract_lets l1
  have h1 : Kept s l1 := by
    unfold l1
    repeat' first
      | with_reducible exact Kept.refl _
      | with_reducible apply Kept.trans ?_ (State.dropTiles_kept _ _)
      | with_reducible apply Kept.trans ?_ (State.dropQueues_kept _ _)
      | with_reducible apply Kept.trans ?_ (State.closeDonations_kept _ _)
      | with_reducible apply Kept.trans ?_ (State.unbind_kept _ _)
  try clear_value l1
  repeat' first
    | with_reducible assumption
    | with_reducible apply Kept.trans ?_ (State.dropDirectory_kept _ _)
    | with_reducible apply Kept.trans ?_ (State.dropTables_kept _ _)
    | with_reducible apply Kept.trans ?_ (State.endCtxTransfers_kept _ _)
    | with_reducible apply Kept.trans ?_ (State.dropWaits_kept _ _)

theorem State.destroy_kept (s : State) (c : Nat) : Kept s (State.destroy s c) := by
  unfold State.destroy
  extract_lets l1 l2 l3 l4
  have h1 : Kept s l1 := by
    unfold l1
    repeat' first
      | with_reducible exact Kept.refl _
      | with_reducible apply Kept.trans ?_ (Kept.wr _ _ _ ?_)
      | with_reducible apply Kept.trans ?_ (State.dropHoldings_kept _ _)
      | with_reducible apply Kept.trans ?_ (State.epochDestroy_kept _ _)
      | with_reducible exact Reg.veiJob_soft _
  try clear_value l1
  have h2 : Kept s l2 := by
    unfold l2
    repeat' first
      | with_reducible assumption
      | with_reducible apply Kept.trans ?_ (State.loosePartner_kept _ _)
      | with_reducible apply Kept.trans ?_ (State.dropSems_kept _ _)
      | with_reducible apply Kept.trans ?_ (State.dropSlots_kept _ _)
  try clear_value l2
  have h3 : Kept s l3 := by
    unfold l3
    repeat' first
      | with_reducible assumption
      | with_reducible apply Kept.trans ?_ (State.setCtx_kept _ _ _)
  try clear_value l3
  have h4 : Kept s l4 := by
    unfold l4
    repeat' first
      | exact soft_of_le (by unfold Reg.ctxState; omega)
      | with_reducible exact Kept.refl _
      | with_reducible assumption
      | with_reducible apply Kept.trans ?_ (Kept.wr _ _ _ ?_)
      | with_reducible apply Kept.fold (fun _ _ => ?_) ?_
  try clear_value l4
  repeat' first
    | with_reducible assumption
    | with_reducible apply Kept.trans ?_ (State.setFld_kept _ _ _ ?_)
    | with_reducible exact Fld.ctxExists_soft _

theorem State.resetHif_kept (s : State) : Kept s (State.resetHif s) := by
  unfold State.resetHif
  refine (Kept.refl s).registers rfl rfl rfl rfl rfl
    (fun h => SMap.wf_drop (fun k => decide (Reg.hif ≤ k) && decide (k < Reg.str) && k != Reg.hifBar4) h) fun _ o ho hs => ?_
  have h : ¬Reg.hif ≤ o := by
    unfold Hardwired Reg.glbIdent Reg.glbCap Reg.glbCap2 Reg.glbSerialLo Reg.glbSerialHi at ho
    unfold Reg.hif
    omega
  unfold State.rd
  rw [SMap.get_drop (by simp only [h, decide_false, Bool.false_and])]
  exact hs

theorem State.flrStep_kept (s : State) : Kept s (State.flrStep s) := by
  unfold State.flrStep
  extract_lets l1 l2
  have h1 : Kept s l1 := by
    unfold l1
    repeat' first
      | with_reducible exact Kept.refl _
      | with_reducible apply Kept.ite (fun _ => ?_) (fun _ => ?_)
      | with_reducible apply Kept.trans ?_ (State.destroy_kept _ _)
      | with_reducible apply Kept.fold (fun _ _ => ?_) ?_
  try clear_value l1
  try clear_value l2
  repeat' first
    | with_reducible exact Kept.refl _
    | with_reducible assumption
    | with_reducible apply Kept.ite (fun _ => ?_) (fun _ => ?_)
    | with_reducible apply Kept.trans ?_ (State.resetHif_kept _)
    | with_reducible apply Kept.mk_ ?_

theorem swapAbandoned_kept (at_ : Nat) (quarry : Nat) (s : State) : Kept s (swapAbandoned at_ quarry s) := by
  unfold swapAbandoned
  extract_lets l1
  have h1 : Kept s l1 := by
    unfold l1
    repeat' first
      | with_reducible exact Kept.refl _
      | with_reducible apply Kept.trans ?_ (State.advanceTo_kept _ _)
  try clear_value l1
  repeat' first
    | with_reducible assumption
    | with_reducible apply Kept.ite (fun _ => ?_) (fun _ => ?_)
    | with_reducible apply Kept.trans ?_ (State.collSweep_kept _)
    | with_reducible apply Kept.trans ?_ (State.flrStep_kept _)
    | with_reducible apply Kept.trans ?_ (State.applyPend_kept _ _)
    | with_reducible apply Kept.trans ?_ (State.report_kept _ _)
    | with_reducible apply Kept.trans ?_ (State.endSwap_kept _ _ _)
    | split

theorem swapDone_kept (at_ : Nat) (quarry : Nat) (s : State) : Kept s (swapDone at_ quarry s) := by
  unfold swapDone
  extract_lets l1
  have h1 : Kept s l1 := by
    unfold l1
    repeat' first
      | with_reducible exact Kept.refl _
      | with_reducible apply Kept.trans ?_ (State.advanceTo_kept _ _)
  try clear_value l1
  repeat' first
    | with_reducible assumption
    | with_reducible apply Kept.ite (fun _ => ?_) (fun _ => ?_)
    | with_reducible apply Kept.trans ?_ (State.setFld_kept _ _ _ ?_)
    | with_reducible apply Kept.trans ?_ (State.endSwap_kept _ _ _)
    | with_reducible apply Kept.trans ?_ (State.bump_kept _ _ _ ?_)
    | with_reducible apply Kept.trans ?_ (State.setCtx_kept _ _ _)
    | with_reducible apply Kept.trans ?_ (State.collSweep_kept _)
    | with_reducible apply Kept.trans ?_ (State.flrStep_kept _)
    | with_reducible apply Kept.trans ?_ (State.applyPend_kept _ _)
    | with_reducible apply Kept.trans ?_ (State.report_kept _ _)
    | with_reducible apply Kept.trans ?_ (State.rankDecode_kept _)
    | with_reducible exact Fld.resident_soft _
    | with_reducible exact Fld.swaps_soft _
    | split

theorem State.setShares_kept (s : State) (q : Cmd) : Kept s (State.setShares s q) := by
  unfold State.setShares
  extract_lets l1 l2 l3 l4 l5 l6 l7 l8 l9
  try clear_value l1
  have h2 : Kept s l2 := by
    unfold l2
    repeat' first
      | with_reducible exact Kept.refl _
      | with_reducible apply Kept.trans ?_ (Kept.wr _ _ _ ?_)
      | with_reducible exact Reg.ctxState_soft _
  try clear_value l2
  have h3 : Kept s l3 := by
    unfold l3
    repeat' first
      | with_reducible assumption
      | with_reducible apply Kept.trans ?_ (State.setFld_kept _ _ _ ?_)
      | with_reducible exact Fld.ctxQuarry_soft _
      | with_reducible exact Fld.ctxPrio_soft _
      | with_reducible exact Fld.donateStrata_soft _
  try clear_value l3
  have h4 : Kept s l4 := by
    unfold l4
    repeat' first
      | with_reducible assumption
      | with_reducible apply Kept.trans ?_ (State.setFld_kept _ _ _ ?_)
      | with_reducible exact Fld.streamBase_soft _
      | with_reducible exact Fld.streamCount_soft _
  try clear_value l4
  have h5 : Kept s l5 := by
    unfold l5
    repeat' first
      | with_reducible assumption
      | with_reducible apply Kept.trans ?_ (State.setFld_kept _ _ _ ?_)
      | with_reducible exact Fld.slotBase_soft _
      | with_reducible exact Fld.slotCount_soft _
  try clear_value l5
  have h6 : Kept s l6 := by
    unfold l6
    repeat' first
      | with_reducible assumption
      | with_reducible apply Kept.trans ?_ (State.setFld_kept _ _ _ ?_)
      | with_reducible exact Fld.statBase_soft _
      | with_reducible exact Fld.statUnits_soft _
  try clear_value l6
  have h7 : Kept s l7 := by
    unfold l7
    repeat' first
      | with_reducible assumption
      | with_reducible apply Kept.trans ?_ (State.setFld_kept _ _ _ ?_)
      | with_reducible exact Fld.lsBase_soft _
      | with_reducible exact Fld.lsUnits_soft _
  try clear_value l7
  have h8 : Kept s l8 := by
    unfold l8
    repeat' first
      | with_reducible assumption
      | with_reducible apply Kept.trans ?_ (State.setFld_kept _ _ _ ?_)
      | with_reducible exact Fld.geodeBase_soft _
      | with_reducible exact Fld.geodeSize_soft _
  try clear_value l8
  have h9 : Kept s l9 := by
    unfold l9
    repeat' first
      | with_reducible assumption
      | with_reducible apply Kept.trans ?_ (State.setFld_kept _ _ _ ?_)
      | with_reducible exact Fld.mainBase_soft _
      | with_reducible exact Fld.mainSize_soft _
  try clear_value l9
  repeat' first
    | with_reducible assumption
    | with_reducible apply Kept.trans ?_ (State.setFld_kept _ _ _ ?_)
    | with_reducible exact Fld.globalBase_soft _
    | with_reducible exact Fld.globalSize_soft _

theorem State.pairWith_kept (s : State) (c : Nat) (p : Option Nat) : Kept s (State.pairWith s c p) := by
  unfold State.pairWith
  repeat' first
    | with_reducible exact Kept.refl _
    | with_reducible apply Kept.ite (fun _ => ?_) (fun _ => ?_)
    | with_reducible apply Kept.trans ?_ (State.setFld_kept _ _ _ ?_)
    | with_reducible apply Kept.trans ?_ (State.setCtx_kept _ _ _)
    | with_reducible exact Fld.resident_soft _
    | with_reducible exact Fld.partner_soft _
    | with_reducible exact Fld.partnerValid_soft _
    | split

theorem State.bindStreams_kept (s : State) (c : Nat) : Kept s (State.bindStreams s c) := by
  unfold State.bindStreams
  repeat' first
    | with_reducible exact Kept.refl _
    | with_reducible apply Kept.trans ?_ (State.setStream_kept _ _ _ _)
    | with_reducible apply Kept.fold (fun _ _ => ?_) ?_

theorem State.zeroRange_kept (s : State) (pa n : Nat) : Kept s (State.zeroRange s pa n) := by
  refine (Kept.refl s).memory rfl rfl rfl rfl rfl fun h => Memory.wf_iff.2 { Memory.wf_iff.1 h with
    phys := ?_
    poison := SMap.wf_drop (fun k => decide (pa / 64 ≤ k) && decide (k < (pa + n) / 64)) (Memory.wf_iff.1 h).poison
    latent := SMap.wf_drop (fun k => decide (pa / 64 ≤ k / 8) && decide (k / 8 < (pa + n) / 64)) (Memory.wf_iff.1 h).latent }
  have hd := SMap.wf_drop (fun k => decide (pa ≤ k) && decide (k < pa + n)) (Memory.wf_iff.1 h).phys
  show SMap.wf s.mem.physDefault (if (if pa < 2 ^ 44 then s.mem.mainEpoch else s.mem.sramEpoch) = 0 then _ else _) = true
  generalize (if pa < 2 ^ 44 then s.mem.mainEpoch else s.mem.sramEpoch) = lost
  split
  · exact hd
  · exact SMap.wf_foldl_put _ _ _ hd

theorem State.zeroShare_kept (s : State) (c : Nat) : Kept s (State.zeroShare s c) := by
  unfold State.zeroShare
  extract_lets l1 l2
  try clear_value l1
  try clear_value l2
  repeat' first
    | with_reducible exact Kept.refl _
    | with_reducible apply Kept.ite (fun _ => ?_) (fun _ => ?_)
    | with_reducible apply Kept.trans ?_ (State.zeroRange_kept _ _ _)
    | with_reducible apply Kept.fold (fun _ _ => ?_) ?_

theorem State.unshare_kept (s : State) (c : Nat) (quarry : Nat) : Kept s (State.unshare s c quarry) := by
  unfold State.unshare
  repeat' first
    | with_reducible exact Kept.refl _
    | with_reducible apply Kept.ite (fun _ => ?_) (fun _ => ?_)
    | with_reducible apply Kept.trans ?_ (State.setSem_kept _ _ _)
    | with_reducible apply Kept.fold (fun _ _ => ?_) ?_

theorem State.create_kept (s : State) (q : Cmd) : Kept s (State.create s q) := by
  unfold State.create
  extract_lets l1 l2 l3 l4 l5
  try clear_value l1
  try clear_value l2
  have h3 : Kept s l3 := by
    unfold l3
    repeat' first
      | with_reducible exact Kept.refl _
      | with_reducible apply Kept.trans ?_ (State.setShares_kept _ _)
  try clear_value l3
  have h4 : Kept s l4 := by
    unfold l4
    repeat' first
      | with_reducible assumption
      | with_reducible apply Kept.trans ?_ (State.setCtx_kept _ _ _)
  try clear_value l4
  have h5 : Kept s l5 := by
    unfold l5
    repeat' first
      | with_reducible assumption
      | with_reducible apply Kept.trans ?_ (State.setFld_kept _ _ _ ?_)
      | with_reducible apply Kept.trans ?_ (State.pairWith_kept _ _ _)
      | with_reducible exact Fld.ctxState_soft _
      | with_reducible exact Fld.ctxExists_soft _
  try clear_value l5
  repeat' first
    | with_reducible assumption
    | with_reducible apply Kept.trans ?_ (State.rankDecode_kept _)
    | with_reducible apply Kept.trans ?_ (State.unshare_kept _ _ _)
    | with_reducible apply Kept.trans ?_ (State.bindStreams_kept _ _)
    | with_reducible apply Kept.trans ?_ (State.zeroShare_kept _ _)

theorem ctxCreate_kept (at_ : Nat) (id : Nat) (s : State) : Kept s (ctxCreate at_ id s) := by
  unfold ctxCreate
  extract_lets l1
  have h1 : Kept s l1 := by
    unfold l1
    repeat' first
      | with_reducible exact Kept.refl _
      | with_reducible apply Kept.trans ?_ (State.advanceTo_kept _ _)
  try clear_value l1
  repeat' first
    | with_reducible assumption
    | with_reducible apply Kept.ite (fun _ => ?_) (fun _ => ?_)
    | with_reducible apply Kept.trans ?_ (State.startCmd_kept _ _)
    | with_reducible apply Kept.trans ?_ (State.completeCmd_kept _ _ _ _)
    | with_reducible apply Kept.trans ?_ (State.setFld_kept _ _ _ ?_)
    | with_reducible apply Kept.trans ?_ (State.create_kept _ _)
    | with_reducible exact Fld.ctxCfgReject_soft
    | split

theorem ctxDestroy_kept (at_ : Nat) (id : Nat) (s : State) : Kept s (ctxDestroy at_ id s) := by
  unfold ctxDestroy
  extract_lets l1
  have h1 : Kept s l1 := by
    unfold l1
    repeat' first
      | with_reducible exact Kept.refl _
      | with_reducible apply Kept.trans ?_ (State.advanceTo_kept _ _)
  try clear_value l1
  repeat' first
    | with_reducible assumption
    | with_reducible apply Kept.ite (fun _ => ?_) (fun _ => ?_)
    | with_reducible apply Kept.trans ?_ (State.completeCmd_kept _ _ _ _)
    | with_reducible apply Kept.trans ?_ (State.startCmd_kept _ _)
    | with_reducible apply Kept.trans ?_ (State.collSweep_kept _)
    | with_reducible apply Kept.trans ?_ (State.destroy_kept _ _)
    | with_reducible apply Kept.trans ?_ (State.abortCommands_kept _ _ _)
    | split

end Sys2Proof.Machine
end

