-- ==== Sys2Proof/Laws/KeptTables.lean ====
section
/-! SUPPORT. Every operation of Machine/Tables.lean keeps what `Kept` says. -/

namespace Sys2Proof.Machine

theorem State.setGroup_kept (s : State) (g : Nat) (r : Nat) : Kept s (State.setGroup s g r) := by
  unfold State.setGroup
  extract_lets l1
  try clear_value l1
  repeat' first
    | with_reducible exact Kept.refl _
    | with_reducible apply Kept.mk_ ?_

theorem State.setMember_kept (s : State) (i : Nat) (m : Nat) : Kept s (State.setMember s i m) := by
  unfold State.setMember
  extract_lets l1
  try clear_value l1
  repeat' first
    | with_reducible exact Kept.refl _
    | with_reducible apply Kept.mk_ ?_

theorem State.dropGroups_kept (s : State) (c : Nat) : Kept s (State.dropGroups s c) := by
  unfold State.dropGroups
  extract_lets l1
  try clear_value l1
  repeat' first
    | with_reducible exact Kept.refl _
    | with_reducible apply Kept.mk_ ?_

theorem State.bindSlots_kept (s : State) (c : Nat) (l : List (Nat × Nat)) : KeptX s (State.bindSlots s c l) := by
  induction l generalizing s with
  | nil => intro t h; cases h; exact Kept.refl s
  | cons x r ih =>
    intro t h
    unfold State.bindSlots at h
    split at h
    · exact (State.setSlot_kept ..).trans (ih _ t h)
    · cases h

theorem State.addRotary_kept (s : State) (c : Nat) (tick : Nat) (b : List Byte) : Kept s (State.addRotary s c tick b) := by
  unfold State.addRotary
  extract_lets l1 l2
  try clear_value l1
  try clear_value l2
  repeat' first
    | with_reducible exact Kept.refl _
    | with_reducible apply Kept.trans ?_ (State.setCtx_kept _ _ _)

end Sys2Proof.Machine
end

