-- ==== Sys2Proof/Laws/KeptJobImage.lean ====
section
/-! SUPPORT. Every operation of Machine/JobImage.lean keeps what `Kept` says. -/

namespace Sys2Proof.Machine

theorem imageBad_kept {α : Type} (idx : Nat) : KeptE (imageBad idx : Exec α) := KeptE.stop _

theorem needImage_kept (b : Bool) (idx : Nat) : KeptE (needImage b idx) := by
  unfold needImage
  repeat' first
    | with_reducible exact KeptE.pure _
    | with_reducible apply KeptE.ite (fun _ => ?_) (fun _ => ?_)
    | with_reducible exact imageBad_kept _

theorem hostRead_kept (a : Nat) (n : Nat) : KeptE (hostRead a n) := by
  unfold hostRead
  repeat' first
    | with_reducible exact KeptE.ask _
    | with_reducible exact KeptE.check _ _
    | with_reducible apply KeptE.bind ?_ (fun _ => ?_)

theorem readTable_kept (a imageLen n : Nat) : KeptE (readTable a imageLen n) := by
  unfold readTable
  refine KeptE.bind (needImage_kept _ _) fun _ => KeptE.bind (hostRead_kept _ _) fun b => ?_
  dsimp only
  cases badSection imageLen [] ((indexed (wordsOf 32 b)).map fun (e : Nat × Nat) => sectionOf e.1 e.2) with
  | none => exact KeptE.pure _
  | some i => exact imageBad_kept i

theorem loadTables_kept (c : Nat) (pa : Nat) (b : List Byte) : KeptE (loadTables c pa b) := by
  unfold loadTables
  repeat' first
    | with_reducible exact KeptE.ask _
    | with_reducible exact KeptE.check _ _
    | with_reducible apply KeptE.bind ?_ (fun _ => ?_)
    | with_reducible apply KeptE.each (fun _ => ?_)
    | with_reducible exact storePhys_kept _ _ _

theorem deviceAddr_kept (c : Nat) (work : Exec Nat) (h_work : KeptE (work)) : KeptE (deviceAddr c work) := by
  unfold deviceAddr
  repeat' first
    | with_reducible exact Kept.refl _
    | apply Kept.trans ?_ (KeptE.result (h_work ) (by with_reducible assumption))
    | split
    | refine KeptE.intro (fun _ => ?_)

theorem walkAddr_kept (c : Nat) (va : Nat) : KeptE (walkAddr c va) := by
  unfold walkAddr
  repeat' first
    | with_reducible exact Kept.refl _
    | with_reducible apply Kept.trans ?_ (State.hubWalk_kept _ _ _)
    | with_reducible exact KeptE.pure _
    | with_reducible exact KeptE.stop _
    | with_reducible apply KeptE.bind ?_ (fun _ => ?_)
    | with_reducible apply KeptE.ofState (fun _ => ?_)
    | split

theorem loadContents_kept (c : Nat) (va : Nat) (b : List Byte) : KeptE (loadContents c va b) := by
  unfold loadContents
  repeat' first
    | with_reducible apply KeptE.bind ?_ (fun _ => ?_)
    | with_reducible apply KeptE.each (fun _ => ?_)
    | with_reducible apply deviceAddr_kept (h_work := ?_) _ _
    | with_reducible exact walkAddr_kept _ _
    | with_reducible exact storePhys_kept _ _ _

theorem State.forgetAll_kept (s : State) (c : Nat) : Kept s (State.forgetAll s c) := by
  unfold State.forgetAll
  extract_lets l1
  repeat' first
    | with_reducible exact Kept.refl _
    | refine Kept.mem_ ?_ (fun h => h)

theorem copySection_kept (c : Nat) (image : Nat) (e : Section) : KeptE (copySection c image e) := by
  unfold copySection
  repeat' first
    | with_reducible exact Kept.refl _
    | with_reducible apply Kept.trans ?_ (State.forgetAll_kept _ _)
    | with_reducible apply Kept.trans ?_ (State.payOwed_kept _ _ _)
    | with_reducible exact KeptE.pure _
    | with_reducible apply KeptE.bind ?_ (fun _ => ?_)
    | with_reducible apply KeptE.ite (fun _ => ?_) (fun _ => ?_)
    | with_reducible apply KeptE.doState (fun _ => ?_)
    | with_reducible exact hostRead_kept _ _
    | with_reducible exact loadTables_kept _ _ _
    | with_reducible exact loadContents_kept _ _ _

theorem State.loadStreams_kept (s : State) (c : Nat) (b : List Byte) : KeptO s (State.loadStreams s c b) := by
  unfold State.loadStreams
  repeat' first
    | with_reducible exact Kept.refl _
    | with_reducible exact KeptO.none _
    | with_reducible apply KeptO.some
    | with_reducible apply KeptO.ite (fun _ => ?_) (fun _ => ?_)
    | with_reducible apply Kept.mk_ ?_

theorem State.loadPlans_kept (s : State) (c : Nat) (b : List Byte) : KeptO s (State.loadPlans s c b) := by
  unfold State.loadPlans
  repeat' first
    | with_reducible exact Kept.refl _
    | with_reducible exact KeptO.none _
    | with_reducible apply KeptO.some
    | with_reducible apply KeptO.ite (fun _ => ?_) (fun _ => ?_)
    | with_reducible apply Kept.trans ?_ (State.setPlan_kept _ _ _ _)
    | with_reducible apply Kept.fold (fun _ _ => ?_) ?_

theorem State.loadSems_kept (s : State) (c : Nat) (b : List Byte) : KeptO s (State.loadSems s c b) := by
  unfold State.loadSems
  repeat' first
    | with_reducible exact Kept.refl _
    | with_reducible apply Kept.trans ?_ (State.setSem_kept _ _ _)
    | with_reducible apply Kept.fold (fun _ _ => ?_) ?_
    | with_reducible apply KeptO.map (fun _ => ?_)

theorem State.loadVersionTable_kept (s : State) (c : Nat) (b : List Byte) : KeptO s (State.loadVersionTable s c b) := by
  unfold State.loadVersionTable
  repeat' first
    | with_reducible exact Kept.refl _
    | with_reducible exact KeptO.none _
    | with_reducible apply KeptO.some
    | with_reducible apply KeptO.ite (fun _ => ?_) (fun _ => ?_)
    | with_reducible apply Kept.trans ?_ (State.setShard_kept _ _ _ _)
    | with_reducible apply Kept.fold (fun _ _ => ?_) ?_
    | with_reducible apply Kept.mk_ ?_

theorem State.loadLayers_kept (s : State) (c : Nat) (b : List Byte) : KeptO s (State.loadLayers s c b) := by
  unfold State.loadLayers
  repeat' first
    | with_reducible exact Kept.refl _
    | with_reducible exact KeptO.none _
    | with_reducible apply KeptO.some
    | with_reducible apply KeptO.ite (fun _ => ?_) (fun _ => ?_)
    | with_reducible apply Kept.trans ?_ (State.setCtx_kept _ _ _)

theorem State.loadGroups_kept (s : State) (c : Nat) (b : List Byte) : KeptO s (State.loadGroups s c b) := by
  unfold State.loadGroups
  repeat' first
    | with_reducible exact Kept.refl _
    | with_reducible exact KeptO.none _
    | with_reducible apply KeptO.some
    | with_reducible apply KeptO.ite (fun _ => ?_) (fun _ => ?_)
    | with_reducible apply Kept.trans ?_ (State.setGroup_kept _ _ _)
    | with_reducible apply Kept.trans ?_ (State.dropGroups_kept _ _)
    | with_reducible apply Kept.trans ?_ (State.setMember_kept _ _ _)
    | with_reducible apply Kept.fold (fun _ _ => ?_) ?_

theorem State.loadDirectory_kept (s : State) (c : Nat) (b : List Byte) : KeptO s (State.loadDirectory s c b) := by
  unfold State.loadDirectory
  repeat' first
    | with_reducible exact Kept.refl _
    | with_reducible exact KeptO.none _
    | with_reducible apply KeptO.some
    | with_reducible apply KeptO.ite (fun _ => ?_) (fun _ => ?_)
    | with_reducible apply Kept.trans ?_ (State.setFld_kept _ _ _ ?_)
    | with_reducible exact Fld.dirValid_soft
    | with_reducible exact Fld.dirCtx_soft
    | with_reducible apply Kept.mk_ ?_

theorem State.loadRegions_kept (s : State) (c : Nat) (b : List Byte) : KeptO s (State.loadRegions s c b) := by
  unfold State.loadRegions
  repeat' first
    | with_reducible exact Kept.refl _
    | with_reducible exact KeptO.none _
    | with_reducible apply KeptO.some
    | with_reducible apply KeptO.ite (fun _ => ?_) (fun _ => ?_)
    | with_reducible apply Kept.trans ?_ (State.setCtx_kept _ _ _)

theorem State.loadRotary_kept (s : State) (c : Nat) (b : List Byte) : KeptO s (State.loadRotary s c b) := by
  unfold State.loadRotary
  repeat' first
    | with_reducible exact Kept.refl _
    | with_reducible exact KeptO.none _
    | with_reducible apply KeptO.some
    | with_reducible apply KeptO.ite (fun _ => ?_) (fun _ => ?_)
    | with_reducible apply Kept.trans ?_ (State.addRotary_kept _ _ _ _)
    | with_reducible apply Kept.trans ?_ (State.setCtx_kept _ _ _)

theorem State.loadSlots_kept (s : State) (c : Nat) (b : List Byte) : KeptO s (State.loadSlots s c b) := by
  unfold State.loadSlots
  repeat' first
    | (refine KeptX.toOption ?_; exact State.bindSlots_kept _ _ _)

theorem State.setUp_kept (s : State) (c : Nat) (kind : Nat) (b : List Byte) : KeptO s (State.setUp s c kind b) := by
  unfold State.setUp
  repeat' first
    | with_reducible exact Kept.refl _
    | with_reducible apply KeptO.some
    | with_reducible apply KeptO.trans ?_ (State.loadStreams_kept _ _ _)
    | with_reducible apply KeptO.trans ?_ (State.loadPlans_kept _ _ _)
    | with_reducible apply KeptO.trans ?_ (State.loadLayers_kept _ _ _)
    | with_reducible apply Kept.trans ?_ (State.setCtx_kept _ _ _)
    | with_reducible apply KeptO.trans ?_ (State.loadVersionTable_kept _ _ _)
    | with_reducible apply KeptO.trans ?_ (State.loadGroups_kept _ _ _)
    | with_reducible apply KeptO.trans ?_ (State.loadDirectory_kept _ _ _)
    | with_reducible apply KeptO.trans ?_ (State.loadRotary_kept _ _ _)
    | with_reducible apply KeptO.trans ?_ (State.loadRegions_kept _ _ _)
    | with_reducible apply KeptO.trans ?_ (State.loadSlots_kept _ _ _)
    | split

theorem applySection_kept (c : Nat) (image : Nat) (e : Section) : KeptE (applySection c image e) := by
  unfold applySection
  repeat' first
    | with_reducible exact Kept.refl _
    | with_reducible apply KeptO.trans ?_ (State.setUp_kept _ _ _ _)
    | with_reducible apply KeptE.bind ?_ (fun _ => ?_)
    | with_reducible apply KeptE.orElse (fun _ => ?_) ?_
    | with_reducible exact hostRead_kept _ _
    | with_reducible exact imageBad_kept _

theorem applySems_kept (c : Nat) (image : Nat) (l : List Section) : KeptE (applySems c image l) := by
  unfold applySems
  repeat' first
    | with_reducible exact Kept.refl _
    | with_reducible apply KeptO.trans ?_ (State.loadSems_kept _ _ _)
    | with_reducible apply KeptE.bind ?_ (fun _ => ?_)
    | with_reducible apply KeptE.collect (fun _ => ?_)
    | with_reducible apply KeptE.orElse (fun _ => ?_) ?_
    | with_reducible exact hostRead_kept _ _
    | with_reducible exact imageBad_kept _

theorem State.freshJob_kept (s : State) (c : Nat) : Kept s (State.freshJob s c) := by
  unfold State.freshJob
  extract_lets l1 l2 l3 l4
  try clear_value l1
  have h2 : Kept s l2 := by
    unfold l2
    repeat' first
      | with_reducible exact Kept.refl _
      | with_reducible apply Kept.trans ?_ (State.setCtx_kept _ _ _)
  try clear_value l2
  try clear_value l3
  try clear_value l4
  repeat' first
    | with_reducible assumption
    | with_reducible apply Kept.mk_ ?_

theorem needSections_kept (l : List Section) : KeptE (needSections l) := by
  unfold needSections
  repeat' first
    | with_reducible exact KeptE.pure _
    | with_reducible exact KeptE.free _
    | with_reducible apply KeptE.bind ?_ (fun _ => ?_)
    | with_reducible apply KeptE.ite (fun _ => ?_) (fun _ => ?_)
    | with_reducible exact imageBad_kept _

theorem needTraining_kept (c : Nat) (l : List Section) : KeptE (needTraining c l) := by
  unfold needTraining
  repeat' first
    | with_reducible exact KeptE.ask _
    | with_reducible exact KeptE.check _ _
    | with_reducible apply KeptE.bind ?_ (fun _ => ?_)

theorem loadImage_kept (q : Cmd) : KeptE (loadImage q) := by
  unfold loadImage
  extract_lets l1 l2
  try clear_value l1
  try clear_value l2
  repeat' first
    | with_reducible exact Kept.refl _
    | with_reducible apply Kept.trans ?_ (State.freshJob_kept _ _)
    | with_reducible exact KeptE.ask _
    | with_reducible exact KeptE.check _ _
    | with_reducible apply KeptE.bind ?_ (fun _ => ?_)
    | with_reducible apply KeptE.each (fun _ => ?_)
    | with_reducible apply KeptE.doState (fun _ => ?_)
    | with_reducible exact readTable_kept _ _ _
    | with_reducible exact needSections_kept _
    | with_reducible exact needTraining_kept _ _
    | with_reducible exact copySection_kept _ _ _
    | with_reducible exact applySection_kept _ _ _
    | with_reducible exact applySems_kept _ _ _

theorem State.loaded_kept (s old : State) (c : Nat) : Kept s (State.loaded s old c) := by
  unfold State.loaded
  have h1 : Kept s ((s.setFld (Fld.ctxState c) csLoaded).rankDecode.setTrain c) :=
    ((State.setFld_kept _ _ _ (Fld.ctxState_soft _)).trans (State.rankDecode_kept _)).trans (State.setTrain_kept ..)
  generalize (s.setFld (Fld.ctxState c) csLoaded).rankDecode.setTrain c = u at h1
  have h2 : Kept s (if u.fos.owed = [] then u.setFld Fld.partial_ 0 else u) :=
    Kept.ite (fun _ => h1.trans (State.setFld_kept _ _ _ Fld.partial__soft)) fun _ => h1
  exact (Kept.fold (fun _ _ => State.rewaitAll_kept ..) h2).trans (State.collSweep_kept _)

/-- The free values that a failed attempt has taken stay taken. -/
theorem Kept.counted {s t : State} (h : Kept s t) : Kept s { s with freeCtr := t.freeCtr } :=
  ⟨rfl, Nat.le_refl _, h.free, Nat.le_refl _, fun _ h => h, id, fun g => ⟨g.regs, g.mem, g.ident⟩⟩

theorem jobLoad_kept (at_ id : Nat) (s : State) : Kept s (jobLoad at_ id s) := by
  unfold jobLoad
  have h1 : Kept s (s.advanceTo at_) := State.advanceTo_kept s at_
  generalize s.advanceTo at_ = u at h1
  dsimp only
  split
  · exact h1
  · rename_i q _
    have h2 : Kept u (u.startCmd q) := State.startCmd_kept ..
    generalize u.startCmd q = t at h2
    refine Kept.ite (fun _ => (h1.trans h2).trans (State.completeCmd_kept ..)) fun _ =>
      Kept.ite (fun _ => (h1.trans h2).trans (State.completeCmd_kept ..)) fun _ => ?_
    split
    · exact (((h1.trans h2).trans (KeptE.result (loadImage_kept q) ‹_›)).trans (State.loaded_kept ..)).trans (State.completeCmd_kept ..)
    · exact h1
    · have h3 := (h1.trans h2).trans (Kept.counted (KeptE.result (loadImage_kept q) ‹_›))
      refine Kept.ite (fun _ => ?_) fun _ => h3.trans (State.completeCmd_kept ..)
      exact (h3.trans (State.setFld_kept _ _ _ (Fld.ctxState_soft _))).trans (State.completeCmd_kept ..)
    · exact (h1.trans h2).trans (State.completeCmd_kept ..)

theorem State.emptyStats_kept (s : State) (c : Nat) : Kept s (State.emptyStats s c) := by
  unfold State.emptyStats
  extract_lets m cores lo hi mine stat
  refine Kept.mem_ (Kept.refl s) fun h => Memory.wf_iff.2 { Memory.wf_iff.1 h with
    stat := SMap.wf_foldl_put _ _ _ (Memory.wf_iff.1 h).stat
    statPoison := SMap.wf_drop (fun k => mine (k / 16384) (k % 16384)) (Memory.wf_iff.1 h).statPoison }

theorem State.startStreams_kept (s : State) (c : Nat) : Kept s (State.startStreams s c) := by
  unfold State.startStreams
  repeat' first
    | with_reducible exact Kept.refl _
    | with_reducible apply Kept.trans ?_ (State.mapStreams_kept _ _)

theorem State.zeroTables_kept (s : State) (c : Nat) : Kept s (State.zeroTables s c) := by
  unfold State.zeroTables
  extract_lets l1 l2 l3
  try clear_value l1
  try clear_value l2
  try clear_value l3
  repeat' first
    | with_reducible exact Kept.refl _
    | split
    | with_reducible apply Kept.mk_ ?_

theorem State.startPlans_kept (s : State) (c : Nat) : Kept s (State.startPlans s c) := by
  unfold State.startPlans
  repeat' first
    | with_reducible exact Kept.refl _
    | with_reducible apply Kept.trans ?_ (State.setPlan_kept _ _ _ _)
    | with_reducible apply Kept.fold (fun _ _ => ?_) ?_

theorem State.startJob_kept (s : State) (c : Nat) (sq : Nat) : Kept s (State.startJob s c sq) := by
  unfold State.startJob
  extract_lets l1 l2 l3 l4 l5
  have h1 : Kept s l1 := by
    unfold l1
    repeat' first
      | with_reducible exact Kept.refl _
      | with_reducible apply Kept.trans ?_ (State.setCtx_kept _ _ _)
  try clear_value l1
  have h2 : Kept s l2 := by
    unfold l2
    repeat' first
      | with_reducible assumption
      | with_reducible apply Kept.trans ?_ (State.emptyStats_kept _ _)
      | with_reducible apply Kept.trans ?_ (State.zeroTables_kept _ _)
      | with_reducible apply Kept.trans ?_ (State.startPlans_kept _ _)
      | with_reducible apply Kept.trans ?_ (State.startStreams_kept _ _)
  try clear_value l2
  try clear_value l3
  have h4 : Kept s l4 := by
    unfold l4
    repeat' first
      | with_reducible assumption
      | with_reducible apply Kept.ite (fun _ => ?_) (fun _ => ?_)
      | with_reducible apply Kept.trans ?_ (State.setTrain_kept _ _)
      | with_reducible apply Kept.mk_ ?_
  try clear_value l4
  have h5 : Kept s l5 := by
    unfold l5
    repeat' first
      | with_reducible assumption
      | with_reducible apply Kept.trans ?_ (State.rankDecode_kept _)
      | with_reducible apply Kept.trans ?_ (State.setFld_kept _ _ _ ?_)
      | with_reducible exact Fld.ctxState_soft _
  try clear_value l5
  repeat' first
    | with_reducible assumption
    | with_reducible apply Kept.ite (fun _ => ?_) (fun _ => ?_)
    | with_reducible apply Kept.trans ?_ (State.setFld_kept _ _ _ ?_)
    | with_reducible apply Kept.trans ?_ (State.endJob_kept _ _ _)
    | with_reducible exact Fld.ctxState_soft _

theorem jobStart_kept (at_ : Nat) (id : Nat) (s : State) : Kept s (jobStart at_ id s) := by
  unfold jobStart
  extract_lets l1
  have h1 : Kept s l1 := by
    unfold l1
    repeat' first
      | with_reducible exact Kept.refl _
      | with_reducible apply Kept.trans ?_ (State.advanceTo_kept _ _)
  try clear_value l1
  repeat' first
    | with_reducible assumption
    | with_reducible apply Kept.ite (fun _ => ?_) (fun _ => ?_)
    | with_reducible apply Kept.trans ?_ (State.startCmd_kept _ _)
    | with_reducible apply Kept.trans ?_ (State.completeCmd_kept _ _ _ _)
    | with_reducible apply Kept.trans ?_ (State.startJob_kept _ _ _)
    | split

end Sys2Proof.Machine
end

