-- ==== Sys2Proof/Laws/KeptRings.lean ====
section
/-! SUPPORT. Every operation of Machine/Rings.lean keeps what `Kept` says. -/

namespace Sys2Proof.Machine

theorem State.setSqTail_kept (s : State) (r : Nat) (v : Nat) : Kept s (State.setSqTail s r v) := by
  unfold State.setSqTail
  extract_lets l1
  try clear_value l1
  repeat' first
    | with_reducible exact Kept.refl _
    | with_reducible apply Kept.mk_ ?_

theorem State.setCqHead_kept (s : State) (r : Nat) (v : Nat) : Kept s (State.setCqHead s r v) := by
  unfold State.setCqHead
  extract_lets l1
  try clear_value l1
  repeat' first
    | with_reducible exact Kept.refl _
    | with_reducible apply Kept.mk_ ?_

theorem doorbellSqTail_kept (at_ : Nat) (ring : Nat) (index : Nat) (s : State) : Kept s (doorbellSqTail at_ ring index s) := by
  unfold doorbellSqTail
  extract_lets l1
  have h1 : Kept s l1 := by
    unfold l1
    repeat' first
      | with_reducible exact Kept.refl _
      | with_reducible apply Kept.trans ?_ (State.advanceTo_kept _ _)
  try clear_value l1
  repeat' first
    | with_reducible assumption
    | with_reducible apply Kept.ite (fun _ => ?_) (fun _ => ?_)
    | with_reducible apply Kept.trans ?_ (State.setSqTail_kept _ _ _)
    | with_reducible apply Kept.trans ?_ (State.setFld_kept _ _ _ ?_)
    | with_reducible exact Fld.badDoorbell_soft

theorem doorbellCqHead_kept (at_ : Nat) (ring : Nat) (index : Nat) (s : State) : Kept s (doorbellCqHead at_ ring index s) := by
  unfold doorbellCqHead
  extract_lets l1
  have h1 : Kept s l1 := by
    unfold l1
    repeat' first
      | with_reducible exact Kept.refl _
      | with_reducible apply Kept.trans ?_ (State.advanceTo_kept _ _)
  try clear_value l1
  repeat' first
    | with_reducible assumption
    | with_reducible apply Kept.ite (fun _ => ?_) (fun _ => ?_)
    | with_reducible apply Kept.trans ?_ (State.setCqHead_kept _ _ _)
    | with_reducible apply Kept.trans ?_ (State.setFld_kept _ _ _ ?_)
    | with_reducible exact Fld.badDoorbell_soft

theorem State.accept_kept (s : State) (r : Nat) (raw : Nat) : Kept s (State.accept s r raw) := by
  unfold State.accept
  extract_lets l1 l2 l3 l4
  try clear_value l1
  try clear_value l2
  have h3 : Kept s l3 := by
    unfold l3
    repeat' first
      | with_reducible exact Kept.refl _
      | with_reducible apply Kept.mk_ ?_
  try clear_value l3
  try clear_value l4
  repeat' first
    | with_reducible assumption
    | with_reducible apply Kept.ite (fun _ => ?_) (fun _ => ?_)
    | with_reducible apply Kept.trans ?_ (State.completeCmd_kept _ _ _ _)

theorem State.abortUnread_kept (s : State) (r : Nat) (i : Nat) : Kept s (State.abortUnread s r i) := by
  unfold State.abortUnread
  extract_lets l1 l2 l3 l4
  try clear_value l1
  have h2 : Kept s l2.2 := by
    unfold l2
    repeat' first
      | with_reducible exact Kept.refl _
      | with_reducible apply Kept.trans ?_ (Kept.fresh _ _)
  try clear_value l2
  have h3 : Kept s l3.2 := by
    unfold l3
    repeat' first
      | with_reducible exact Kept.refl _
      | with_reducible assumption
      | split
  try clear_value l3
  try clear_value l4
  repeat' first
    | with_reducible assumption
    | with_reducible apply Kept.trans ?_ (State.post_kept _ _)

theorem State.sqStop_kept (s : State) (r : Nat) : Kept s (State.sqStop s r) := by
  unfold State.sqStop
  extract_lets l1 l2 l3 l4 l5
  try clear_value l1
  try clear_value l2
  try clear_value l3
  have h4 : Kept s l4 := by
    unfold l4
    repeat' first
      | with_reducible exact Kept.refl _
      | with_reducible apply Kept.trans ?_ (State.setFld_kept _ _ _ ?_)
      | with_reducible exact Fld.sqEnable_soft _
  try clear_value l4
  have h5 : Kept s l5 := by
    unfold l5
    repeat' first
      | with_reducible exact Kept.refl _
      | with_reducible assumption
      | with_reducible apply Kept.trans ?_ (State.abortUnread_kept _ _ _)
      | with_reducible apply Kept.fold (fun _ _ => ?_) ?_
  try clear_value l5
  repeat' first
    | with_reducible assumption
    | with_reducible apply Kept.trans ?_ (State.setFld_kept _ _ _ ?_)
    | with_reducible exact Fld.sqHead_soft _

theorem commandFetch_kept (at_ : Nat) (s : State) : Kept s (commandFetch at_ s) := by
  unfold commandFetch
  extract_lets l1 l2
  have h1 : Kept s l1 := by
    unfold l1
    repeat' first
      | with_reducible exact Kept.refl _
      | with_reducible apply Kept.trans ?_ (State.advanceTo_kept _ _)
  try clear_value l1
  try clear_value l2
  repeat' first
    | with_reducible assumption
    | with_reducible apply Kept.ite (fun _ => ?_) (fun _ => ?_)
    | with_reducible apply Kept.trans ?_ (State.report_kept _ _)
    | with_reducible apply Kept.trans ?_ (State.sqStop_kept _ _)
    | with_reducible apply Kept.trans ?_ (State.accept_kept _ _ _)
    | with_reducible apply Kept.trans ?_ (State.setFld_kept _ _ _ ?_)
    | with_reducible exact Fld.sqHead_soft _
    | split
    | with_reducible apply Kept.mk_ ?_

theorem State.fireVector_kept (s : State) (cq : Nat) : Kept s (State.fireVector s cq) := by
  unfold State.fireVector
  extract_lets l1 l2 l3
  try clear_value l1
  try clear_value l2
  try clear_value l3
  repeat' first
    | with_reducible exact Kept.refl _
    | split
    | with_reducible apply Kept.mk_ ?_

theorem State.noteEntry_kept (s : State) (cq kind : Nat) : Kept s (State.noteEntry s cq kind) := by
  unfold State.noteEntry
  extract_lets n h' h u
  have hu : Kept s u := Kept.mk_ (Kept.refl s)
  exact Kept.ite (fun _ => hu.trans (State.fireVector_kept _ _)) fun _ => hu

theorem State.advanceTail_kept (s : State) (cq : Nat) : Kept s (State.advanceTail s cq) := by
  unfold State.advanceTail
  extract_lets l1 l2 l3
  try clear_value l1
  have h2 : Kept s l2 := by
    unfold l2
    repeat' first
      | with_reducible exact Kept.refl _
      | with_reducible apply Kept.trans ?_ (State.setFld_kept _ _ _ ?_)
      | with_reducible exact Fld.cqTail_soft _
  try clear_value l2
  try clear_value l3
  repeat' first
    | with_reducible assumption
    | with_reducible apply Kept.ite (fun _ => ?_) (fun _ => ?_)
    | with_reducible apply Kept.mk_ ?_

theorem completionPost_kept (at_ : Nat) (cq : Nat) (s : State) : Kept s (completionPost at_ cq s) := by
  unfold completionPost
  extract_lets l1 l2
  have h1 : Kept s l1 := by
    unfold l1
    repeat' first
      | with_reducible exact Kept.refl _
      | with_reducible apply Kept.trans ?_ (State.advanceTo_kept _ _)
  try clear_value l1
  try clear_value l2
  repeat' first
    | with_reducible assumption
    | with_reducible apply Kept.ite (fun _ => ?_) (fun _ => ?_)
    | with_reducible apply Kept.trans ?_ (State.report_kept _ _)
    | with_reducible apply Kept.trans ?_ (State.setFld_kept _ _ _ ?_)
    | with_reducible apply Kept.trans ?_ (State.advanceTail_kept _ _)
    | with_reducible apply Kept.trans ?_ (State.putHost_kept _ _ _)
    | with_reducible apply Kept.trans ?_ (State.releaseSlot_kept _ _)
    | with_reducible apply Kept.trans ?_ (State.noteEntry_kept _ _ _)
    | with_reducible exact Fld.cqEnable_soft _
    | split
    | with_reducible apply Kept.mk_ ?_

theorem msixModeration_kept (at_ : Nat) (cq : Nat) (s : State) : Kept s (msixModeration at_ cq s) := by
  unfold msixModeration
  extract_lets l1 l2
  have h1 : Kept s l1 := by
    unfold l1
    repeat' first
      | with_reducible exact Kept.refl _
      | with_reducible apply Kept.trans ?_ (State.advanceTo_kept _ _)
  try clear_value l1
  try clear_value l2
  repeat' first
    | with_reducible assumption
    | with_reducible apply Kept.ite (fun _ => ?_) (fun _ => ?_)
    | with_reducible apply Kept.trans ?_ (State.fireVector_kept _ _)

theorem State.sqStart_kept (s : State) (r : Nat) : Kept s (State.sqStart s r) := by
  unfold State.sqStart
  repeat' first
    | with_reducible exact Kept.refl _
    | with_reducible apply Kept.trans ?_ (State.setSqTail_kept _ _ _)
    | with_reducible apply Kept.trans ?_ (State.setFld_kept _ _ _ ?_)
    | with_reducible exact Fld.sqHead_soft _

theorem State.cqStart_kept (s : State) (r : Nat) : Kept s (State.cqStart s r) := by
  unfold State.cqStart
  extract_lets l1 l2
  have h1 : Kept s l1 := by
    unfold l1
    repeat' first
      | with_reducible exact Kept.refl _
      | with_reducible apply Kept.trans ?_ (State.setCqHead_kept _ _ _)
      | with_reducible apply Kept.trans ?_ (State.setFld_kept _ _ _ ?_)
      | with_reducible exact Fld.cqTail_soft _
  try clear_value l1
  try clear_value l2
  repeat' first
    | with_reducible assumption
    | with_reducible apply Kept.mk_ ?_

theorem State.ringWrite_kept (s : State) (r o : Nat) (v : Word) : Kept s (State.ringWrite s r o v) := by
  unfold State.ringWrite
  extract_lets off sq en new old cfg on u
  have hr : Kept s (s.setFld Fld.hifCfgReject 1) := State.setFld_kept _ _ _ Fld.hifCfgReject_soft
  have hu : Kept s u := Kept.wr _ _ _ (soft_of_le (by simp only [off, Reg.ring]; omega))
  refine Kept.ite (fun _ => hr) fun _ => Kept.ite (fun _ => ?_) fun _ => Kept.ite (fun _ => ?_) fun _ => hu
  · exact Kept.ite (fun _ => hr) fun _ => Kept.ite (fun _ => Kept.ite (fun _ => State.sqStop_kept _ _)
      fun _ => State.setFld_kept _ _ _ (Fld.cqEnable_soft _)) fun _ => Kept.refl s
  · exact Kept.ite (fun _ => hu.trans (State.sqStart_kept _ _)) fun _ => hu.trans (State.cqStart_kept _ _)

theorem State.hifWrite_kept (s : State) (p : Party) (off : Nat) (v : Word) : Kept s (State.hifWrite s p off v) := by
  unfold State.hifWrite
  extract_lets o
  refine Kept.ite (fun h => ?_) fun _ => Kept.ite (fun _ => ?_) fun _ => ?_
  · exact Kept.ite (fun _ => Kept.wr _ _ _ (h ▸ Reg.hifBar4_soft)) fun _ => Kept.refl s
  · exact Kept.ite (fun _ => State.ringWrite_kept ..) fun _ => Kept.refl s
  · exact Kept.ite (fun _ => State.plainWrite_kept ..) fun _ => Kept.refl s

theorem hifRegWrite_kept (at_ : Nat) (party : Party) (off : Nat) (value : Word) (s : State) : Kept s (hifRegWrite at_ party off value s) := by
  unfold hifRegWrite
  extract_lets l1
  have h1 : Kept s l1 := by
    unfold l1
    repeat' first
      | with_reducible exact Kept.refl _
      | with_reducible apply Kept.trans ?_ (State.advanceTo_kept _ _)
  try clear_value l1
  repeat' first
    | with_reducible assumption
    | with_reducible apply Kept.ite (fun _ => ?_) (fun _ => ?_)
    | with_reducible apply Kept.trans ?_ (State.hifWrite_kept _ _ _ _)

theorem sqDisable_kept (at_ : Nat) (ring : Nat) (s : State) : Kept s (sqDisable at_ ring s) := by
  unfold sqDisable
  extract_lets l1
  have h1 : Kept s l1 := by
    unfold l1
    repeat' first
      | with_reducible exact Kept.refl _
      | with_reducible apply Kept.trans ?_ (State.advanceTo_kept _ _)
  try clear_value l1
  repeat' first
    | with_reducible assumption
    | with_reducible apply Kept.ite (fun _ => ?_) (fun _ => ?_)
    | with_reducible apply Kept.trans ?_ (State.hifWrite_kept _ _ _ _)

theorem State.cfgAccess_kept (s : State) (access : CfgAccess) : Kept s (State.cfgAccess s access) := by
  unfold State.cfgAccess
  extract_lets l1
  try clear_value l1
  repeat' first
    | with_reducible exact Kept.refl _
    | with_reducible apply Kept.ite (fun _ => ?_) (fun _ => ?_)
    | split
    | with_reducible apply Kept.mk_ ?_

theorem configurationRequest_kept (at_ : Nat) (access : CfgAccess) (s : State) : Kept s (configurationRequest at_ access s) := by
  unfold configurationRequest
  extract_lets l1 l2 l3 l4
  have h1 : Kept s l1 := by
    unfold l1
    repeat' first
      | with_reducible exact Kept.refl _
      | with_reducible apply Kept.trans ?_ (State.advanceTo_kept _ _)
  try clear_value l1
  try clear_value l2
  try clear_value l3
  have h4 : Kept s l4 := by
    unfold l4
    repeat' first
      | with_reducible assumption
      | with_reducible apply Kept.mk_ ?_
  try clear_value l4
  repeat' first
    | with_reducible assumption
    | with_reducible apply Kept.ite (fun _ => ?_) (fun _ => ?_)
    | with_reducible apply Kept.trans ?_ (State.cfgAccess_kept _ _)

theorem functionLevelReset_kept (at_ : Nat) (s : State) : Kept s (functionLevelReset at_ s) := by
  unfold functionLevelReset
  extract_lets l1 l2
  have h1 : Kept s l1 := by
    unfold l1
    repeat' first
      | with_reducible exact Kept.refl _
      | with_reducible apply Kept.trans ?_ (State.advanceTo_kept _ _)
  try clear_value l1
  try clear_value l2
  repeat' first
    | with_reducible assumption
    | with_reducible apply Kept.ite (fun _ => ?_) (fun _ => ?_)
    | with_reducible apply Kept.trans ?_ (State.collSweep_kept _)
    | with_reducible apply Kept.trans ?_ (State.flrStep_kept _)
    | with_reducible apply Kept.mk_ ?_

theorem State.bar4Read_kept (s : State) (l : List (Nat × Nat)) (x : Nat) : Kept s (State.bar4Read s l x).2 := by
  induction l generalizing s with
  | nil => exact Kept.refl s
  | cons p r ih =>
    unfold State.bar4Read
    split
    · exact ih s
    · rename_i pa _
      have hg := State.readGran_kept s pa
      extract_lets g y z
      split
      · exact hg.trans ((State.report_kept _ _).trans (ih _))
      · exact hg.trans (ih _)

theorem bar4Write_kept (x : Nat) (data : List Byte) : KeptE (bar4Write x data) := by
  unfold bar4Write
  repeat' first
    | with_reducible exact KeptE.pure _
    | with_reducible exact KeptE.ask _
    | with_reducible apply KeptE.bind ?_ (fun _ => ?_)
    | with_reducible apply KeptE.each (fun _ => ?_)
    | with_reducible exact storePhys_kept _ _ _
    | split

theorem bar4Access_kept (at_ : Nat) (write : Bool) (x : Nat) (data : List Byte) (n : Nat) (s : State) : Kept s (bar4Access at_ write x data n s) := by
  unfold bar4Access
  extract_lets l1 l2 l3 l4
  have h1 : Kept s l1 := by
    unfold l1
    repeat' first
      | with_reducible exact Kept.refl _
      | with_reducible apply Kept.trans ?_ (State.advanceTo_kept _ _)
  try clear_value l1
  have h2 : Kept s l2.2 := by
    unfold l2
    repeat' first
      | with_reducible assumption
      | with_reducible apply Kept.trans ?_ (State.bar4Read_kept _ _ _)
  try clear_value l2
  have h3 : Kept s l3 := by
    unfold l3
    repeat' first
      | with_reducible assumption
  try clear_value l3
  try clear_value l4
  repeat' first
    | with_reducible assumption
    | with_reducible apply Kept.ite (fun _ => ?_) (fun _ => ?_)
    | apply Kept.trans ?_ (KeptE.result (bar4Write_kept _ _) (by with_reducible assumption))
    | split
    | with_reducible apply Kept.mk_ ?_

end Sys2Proof.Machine
end

