-- ==== Sys2Proof/Laws/KeptHostDma.lean ====
section
/-! SUPPORT. Every operation of Machine/HostDma.lean keeps what `Kept` says. -/

namespace Sys2Proof.Machine

theorem countGranule_kept (id : Nat) (off : Nat) (bad : Bool) : KeptE (countGranule id off bad) := by
  unfold countGranule
  repeat' first
    | with_reducible exact Kept.refl _
    | with_reducible apply Kept.trans ?_ (State.setCmd_kept _ _)
    | with_reducible apply KeptE.doState (fun _ => ?_)
    | split

theorem dmaAddr_kept (c : Nat) (va : Nat) (write : Bool) : KeptE (dmaAddr c va write) := by
  unfold dmaAddr
  repeat' first
    | with_reducible exact KeptE.check _ _
    | with_reducible apply KeptE.bind ?_ (fun _ => ?_)
    | with_reducible apply deviceAddr_kept (h_work := ?_) _ _
    | with_reducible exact hubTranslate_kept _ _ _

theorem moveIn_kept (c : Cmd) (i : Nat) : KeptE (moveIn c i) := by
  unfold moveIn
  extract_lets l1 l2
  try clear_value l1
  try clear_value l2
  repeat' first
    | with_reducible exact Kept.refl _
    | with_reducible apply Kept.trans ?_ (State.payOwed_kept _ _ _)
    | with_reducible exact KeptE.ask _
    | with_reducible exact KeptE.check _ _
    | with_reducible apply KeptE.bind ?_ (fun _ => ?_)
    | with_reducible apply KeptE.doState (fun _ => ?_)
    | with_reducible exact dmaAddr_kept _ _ _
    | with_reducible exact storePhys_kept _ _ _
    | with_reducible exact countGranule_kept _ _ _

theorem moveOut_kept (c : Cmd) (i : Nat) : KeptE (moveOut c i) := by
  unfold moveOut
  extract_lets l1
  try clear_value l1
  repeat' first
    | with_reducible exact Kept.refl _
    | with_reducible apply Kept.trans ?_ (State.readGran_kept _ _)
    | with_reducible apply Kept.trans ?_ (State.putHost_kept _ _ _)
    | with_reducible exact KeptE.ask _
    | with_reducible exact KeptE.check _ _
    | with_reducible apply KeptE.bind ?_ (fun _ => ?_)
    | with_reducible apply KeptE.ite (fun _ => ?_) (fun _ => ?_)
    | with_reducible apply KeptE.doState (fun _ => ?_)
    | with_reducible apply KeptE.ofState (fun _ => ?_)
    | with_reducible exact dmaAddr_kept _ _ _
    | with_reducible exact countGranule_kept _ _ _

theorem State.dmaEnd_kept (s : State) (id : Nat) (status : Nat) : Kept s (State.dmaEnd s id status) := by
  unfold State.dmaEnd
  repeat' first
    | with_reducible exact Kept.refl _
    | with_reducible apply Kept.trans ?_ (State.setCmd_kept _ _)
    | split

theorem State.hostDma_kept (s : State) (id : Nat) (op : Nat) (work : Cmd → Nat → Exec Unit) (h_work : ∀ x0 x1, KeptE (work x0 x1)) : Kept s (State.hostDma s id op work) := by
  unfold State.hostDma
  repeat' first
    | with_reducible apply Kept.trans ?_ (KeptE.result (KeptE.each fun _ => h_work _ _) (by with_reducible assumption))
    | with_reducible exact Kept.refl _
    | with_reducible apply Kept.ite (fun _ => ?_) (fun _ => ?_)
    | with_reducible apply Kept.trans ?_ (State.startCmd_kept _ _)
    | with_reducible apply Kept.trans ?_ (State.completeCmd_kept _ _ _ _)
    | with_reducible apply Kept.trans ?_ (State.dmaEnd_kept _ _ _)
    | split

theorem dmaH2d_kept (at_ : Nat) (id : Nat) (s : State) : Kept s (dmaH2d at_ id s) := by
  unfold dmaH2d
  repeat' first
    | with_reducible exact Kept.refl _
    | with_reducible apply Kept.trans ?_ (State.hostDma_kept (h_work := fun _ _ => ?_) _ _ _ _)
    | with_reducible apply Kept.trans ?_ (State.advanceTo_kept _ _)
    | with_reducible exact moveIn_kept _ _

theorem dmaD2h_kept (at_ : Nat) (id : Nat) (s : State) : Kept s (dmaD2h at_ id s) := by
  unfold dmaD2h
  repeat' first
    | with_reducible exact Kept.refl _
    | with_reducible apply Kept.trans ?_ (State.hostDma_kept (h_work := fun _ _ => ?_) _ _ _ _)
    | with_reducible apply Kept.trans ?_ (State.advanceTo_kept _ _)
    | with_reducible exact moveOut_kept _ _

theorem hostDmaDone_kept (at_ : Nat) (queue : Nat) (s : State) : Kept s (hostDmaDone at_ queue s) := by
  unfold hostDmaDone
  extract_lets l1
  have h1 : Kept s l1 := by
    unfold l1
    repeat' first
      | with_reducible exact Kept.refl _
      | with_reducible apply Kept.trans ?_ (State.advanceTo_kept _ _)
  try clear_value l1
  repeat' first
    | with_reducible assumption
    | with_reducible apply Kept.trans ?_ (State.completeCmd_kept _ _ _ _)
    | split

end Sys2Proof.Machine
end

