-- ==== Sys2Proof/Laws/KeptQueries.lean ====
section
/-! SUPPORT. Every operation of Machine/Queries.lean keeps what `Kept` says. -/

namespace Sys2Proof.Machine

theorem State.answerHost_kept (s : State) (id : Nat) (a : Nat) (b : List Byte) (then_ : State → State) (h_then_ : ∀ x0, Kept x0 (then_ x0)) : Kept s (State.answerHost s id a b then_) := by
  unfold State.answerHost
  repeat' first
    | with_reducible exact Kept.refl _
    | with_reducible apply Kept.ite (fun _ => ?_) (fun _ => ?_)
    | with_reducible apply Kept.trans ?_ (State.completeCmd_kept _ _ _ _)
    | with_reducible apply Kept.trans ?_ (State.putHost_kept _ _ _)
    | with_reducible apply Kept.trans ?_ (h_then_ _)

theorem query_kept (at_ : Nat) (id : Nat) (s : State) : Kept s (query at_ id s) := by
  unfold query
  extract_lets l1
  have h1 : Kept s l1 := by
    unfold l1
    repeat' first
      | with_reducible exact Kept.refl _
      | with_reducible apply Kept.trans ?_ (State.advanceTo_kept _ _)
  try clear_value l1
  repeat' first
    | with_reducible exact Kept.refl _
    | with_reducible assumption
    | with_reducible apply Kept.ite (fun _ => ?_) (fun _ => ?_)
    | with_reducible apply Kept.trans ?_ (State.startCmd_kept _ _)
    | with_reducible apply Kept.trans ?_ (State.completeCmd_kept _ _ _ _)
    | with_reducible apply Kept.trans ?_ (State.answerHost_kept (h_then_ := fun _ => ?_) _ _ _ _ _)
    | split

theorem State.fenceNow_kept (s : State) (dom : Nat) (i : Nat) : Kept s (State.fenceNow s dom i) := by
  unfold State.fenceNow
  extract_lets l1 l2
  have h1 : Kept s l1 := by
    unfold l1
    repeat' first
      | with_reducible exact Kept.refl _
      | with_reducible apply Kept.ite (fun _ => ?_) (fun _ => ?_)
      | with_reducible apply Kept.trans ?_ (State.setFence_kept _ _ _)
  try clear_value l1
  have h2 : Kept s l2.2 := by
    unfold l2
    repeat' first
      | with_reducible assumption
      | with_reducible apply Kept.trans ?_ (Kept.fresh _ _)
  try clear_value l2
  repeat' first
    | with_reducible assumption
    | with_reducible apply Kept.trans ?_ (State.collSweep_kept _)
    | with_reducible apply Kept.trans ?_ (State.raise_kept _ _)

theorem fenceUnitCmd_kept (at_ : Nat) (id : Nat) (s : State) : Kept s (fenceUnitCmd at_ id s) := by
  unfold fenceUnitCmd
  extract_lets l1
  have h1 : Kept s l1 := by
    unfold l1
    repeat' first
      | with_reducible exact Kept.refl _
      | with_reducible apply Kept.trans ?_ (State.advanceTo_kept _ _)
  try clear_value l1
  repeat' first
    | with_reducible assumption
    | with_reducible apply Kept.ite (fun _ => ?_) (fun _ => ?_)
    | with_reducible apply Kept.trans ?_ (State.startCmd_kept _ _)
    | with_reducible apply Kept.trans ?_ (State.completeCmd_kept _ _ _ _)
    | with_reducible apply Kept.trans ?_ (State.fenceNow_kept _ _ _)
    | split

theorem State.zeroTelemetry_kept (s : State) (c : Nat) (table : Nat) (first : Nat) (n : Nat) : Kept s (State.zeroTelemetry s c table first n) := by
  unfold State.zeroTelemetry
  extract_lets l1 l2 l3 l4
  try clear_value l1
  try clear_value l2
  try clear_value l3
  try clear_value l4
  repeat' first
    | with_reducible exact Kept.refl _
    | split
    | with_reducible apply Kept.mk_ ?_

theorem telemetryRead_kept (at_ : Nat) (id : Nat) (s : State) : Kept s (telemetryRead at_ id s) := by
  unfold telemetryRead
  extract_lets l1
  have h1 : Kept s l1 := by
    unfold l1
    repeat' first
      | with_reducible exact Kept.refl _
      | with_reducible apply Kept.trans ?_ (State.advanceTo_kept _ _)
  try clear_value l1
  repeat' first
    | with_reducible exact Kept.refl _
    | with_reducible assumption
    | with_reducible apply Kept.ite (fun _ => ?_) (fun _ => ?_)
    | with_reducible apply Kept.trans ?_ (State.startCmd_kept _ _)
    | with_reducible apply Kept.trans ?_ (State.completeCmd_kept _ _ _ _)
    | with_reducible apply Kept.trans ?_ (State.answerHost_kept (h_then_ := fun _ => ?_) _ _ _ _ _)
    | with_reducible apply Kept.trans ?_ (State.zeroTelemetry_kept _ _ _ _ _)
    | split

end Sys2Proof.Machine
end

