-- ==== Sys2Proof/Laws/KeptPolicy.lean ====
section
/-! SUPPORT. Every operation of Machine/Policy.lean keeps what `Kept` says. -/

namespace Sys2Proof.Machine

theorem rejectAt_kept (s : State) (off : Nat) : KeptA s (rejectAt s off) := by
  unfold rejectAt
  repeat' first
    | with_reducible exact Kept.refl _
    | with_reducible apply KeptA.error

theorem reservedSet_kept (s : State) : KeptA s (reservedSet s) := by
  unfold reservedSet
  repeat' first
    | with_reducible exact Kept.refl _
    | with_reducible apply KeptA.error

theorem State.policyStr_kept (s : State) (b : List Byte) : KeptA s (State.policyStr s b) := by
  unfold State.policyStr
  repeat' first
    | with_reducible exact Kept.refl _
    | with_reducible apply Kept.ite (fun _ => ?_) (fun _ => ?_)
    | with_reducible apply KeptA.ok
    | with_reducible apply KeptA.ite (fun _ => ?_) (fun _ => ?_)
    | with_reducible apply KeptA.trans ?_ (rejectAt_kept _ _)
    | with_reducible apply Kept.trans ?_ (State.setFld_kept _ _ _ ?_)
    | with_reducible apply Kept.trans ?_ (Kept.wr _ _ _ ?_)
    | with_reducible apply Kept.trans ?_ (State.runChange_kept _ _)
    | with_reducible exact Reg.strCtrl_soft
    | with_reducible exact Reg.strDomain_soft
    | with_reducible exact Fld.strCfgReject_soft _
    | with_reducible exact Reg.strPeriod_soft
    | with_reducible apply Kept.mk_ ?_

theorem State.policyMem_kept (s : State) (b : List Byte) : KeptA s (State.policyMem s b) := by
  unfold State.policyMem
  repeat' first
    | with_reducible exact Kept.refl _
    | with_reducible apply KeptA.ok
    | with_reducible apply KeptA.ite (fun _ => ?_) (fun _ => ?_)
    | with_reducible apply KeptA.trans ?_ (rejectAt_kept _ _)
    | with_reducible apply Kept.trans ?_ (State.setFld_kept _ _ _ ?_)
    | with_reducible apply Kept.trans ?_ (Kept.wr _ _ _ ?_)
    | with_reducible apply Kept.trans ?_ (State.layoutWrite_kept _ _)
    | with_reducible exact Fld.memCfgReject_soft
    | with_reducible exact Reg.memScrub_soft

theorem State.policyRetired_kept (s : State) (b : List Byte) : KeptA s (State.policyRetired s b) := by
  unfold State.policyRetired
  repeat' first
    | with_reducible exact Kept.refl _
    | with_reducible apply KeptA.ok
    | with_reducible apply KeptA.trans ?_ (rejectAt_kept _ _)
    | split
    | refine Kept.mem_ ?_ (fun h => h)
    | dsimp only

theorem State.enterQuarry_kept (s : State) (n : Nat) (count : BitVec 48) (q : Nat) : Kept s (State.enterQuarry s n count q) := by
  unfold State.enterQuarry
  extract_lets l1 l2
  try clear_value l1
  have h2 : Kept s l2 := by
    unfold l2
    repeat' first
      | exact soft_of_le (by simp only [Reg.strStat]; omega)
      | with_reducible exact Kept.refl _
      | with_reducible apply Kept.trans ?_ (Kept.wr _ _ _ ?_)
      | with_reducible apply Kept.fold (fun _ _ => ?_) ?_
  try clear_value l2
  repeat' first
    | with_reducible exact Kept.refl _
    | with_reducible assumption
    | with_reducible apply Kept.ite (fun _ => ?_) (fun _ => ?_)
    | with_reducible apply Kept.trans ?_ (State.setQuarry_kept _ _ _)

theorem State.setMode_kept (s : State) (m : Nat) : Kept s (State.setMode s m) := by
  unfold State.setMode
  extract_lets l1 l2 l3 l4 l5
  try clear_value l1
  have h2 : Kept s l2 := by
    unfold l2
    repeat' first
      | with_reducible exact Kept.refl _
      | with_reducible apply Kept.trans ?_ (State.setFld_kept _ _ _ ?_)
      | with_reducible exact Fld.mode_soft
  try clear_value l2
  try clear_value l3
  try clear_value l4
  have h5 : Kept s l5 := by
    unfold l5
    repeat' first
      | with_reducible assumption
      | with_reducible apply Kept.mk_ ?_
  try clear_value l5
  repeat' first
    | with_reducible exact Kept.refl _
    | with_reducible assumption
    | with_reducible apply Kept.trans ?_ (State.enterQuarry_kept _ _ _ _)
    | with_reducible apply Kept.fold (fun _ _ => ?_) ?_

theorem State.policyMode_kept (s : State) (b : List Byte) : KeptA s (State.policyMode s b) := by
  unfold State.policyMode
  repeat' first
    | with_reducible exact Kept.refl _
    | with_reducible apply KeptA.ok
    | with_reducible apply KeptA.ite (fun _ => ?_) (fun _ => ?_)
    | with_reducible apply KeptA.trans ?_ (rejectAt_kept _ _)
    | with_reducible apply Kept.trans ?_ (State.setFld_kept _ _ _ ?_)
    | with_reducible apply Kept.trans ?_ (State.setMode_kept _ _)
    | with_reducible exact Fld.ctxCfgReject_soft

theorem State.setPool_kept (s : State) (p : Nat) (pool : Nat) (n : Nat) : Kept s (State.setPool s p pool n) := by
  unfold State.setPool
  extract_lets l1
  try clear_value l1
  repeat' first
    | with_reducible exact Kept.refl _
    | with_reducible apply Kept.mk_ ?_

theorem State.policyVein_kept (s : State) (b : List Byte) : KeptA s (State.policyVein s b) := by
  unfold State.policyVein
  repeat' first
    | with_reducible exact Kept.refl _
    | with_reducible apply KeptA.ok
    | with_reducible apply KeptA.ite (fun _ => ?_) (fun _ => ?_)
    | with_reducible apply KeptA.trans ?_ (rejectAt_kept _ _)
    | with_reducible apply KeptA.trans ?_ (reservedSet_kept _)
    | with_reducible apply Kept.trans ?_ (State.setFld_kept _ _ _ ?_)
    | with_reducible apply Kept.trans ?_ (Kept.wr _ _ _ ?_)
    | with_reducible apply Kept.trans ?_ (State.setPool_kept _ _ _ _)
    | with_reducible apply Kept.trans ?_ (State.portConfig_kept _ _ _)
    | with_reducible apply Kept.trans ?_ (State.routeWrite_kept _ _ _)
    | with_reducible apply Kept.trans ?_ (State.collSweep_kept _)
    | with_reducible apply Kept.fold (fun _ _ => ?_) ?_
    | with_reducible exact Fld.veiCfgReject_soft
    | with_reducible exact Reg.veiModule_soft
    | split
    | dsimp only

theorem State.policyJob_kept (s : State) (c : Nat) (b : List Byte) : KeptA s (State.policyJob s c b) := by
  unfold State.policyJob
  repeat' first
    | with_reducible exact Kept.refl _
    | with_reducible apply KeptA.ok
    | with_reducible apply KeptA.ite (fun _ => ?_) (fun _ => ?_)
    | with_reducible apply Kept.trans ?_ (State.setPool_kept _ _ _ _)
    | with_reducible apply KeptA.trans ?_ (reservedSet_kept _)
    | with_reducible apply KeptA.trans ?_ (rejectAt_kept _ _)
    | with_reducible apply Kept.trans ?_ (State.setFld_kept _ _ _ ?_)
    | with_reducible apply Kept.trans ?_ (State.collSweep_kept _)
    | with_reducible apply Kept.trans ?_ (Kept.wr _ _ _ ?_)
    | with_reducible apply Kept.fold (fun _ _ => ?_) ?_
    | with_reducible exact Fld.veiCfgReject_soft
    | with_reducible exact Reg.veiJob_soft _
    | split

theorem State.policyGroups_kept (s : State) (c : Nat) (b : List Byte) : KeptA s (State.policyGroups s c b) := by
  unfold State.policyGroups
  repeat' first
    | with_reducible exact Kept.refl _
    | with_reducible apply KeptA.ok
    | with_reducible apply KeptA.ite (fun _ => ?_) (fun _ => ?_)
    | with_reducible apply KeptA.trans ?_ (rejectAt_kept _ _)
    | with_reducible apply Kept.trans ?_ (State.setFld_kept _ _ _ ?_)
    | with_reducible apply KeptA.trans ?_ (reservedSet_kept _)
    | with_reducible apply Kept.trans ?_ (State.setGroup_kept _ _ _)
    | with_reducible apply Kept.trans ?_ (State.setMember_kept _ _ _)
    | with_reducible apply Kept.fold (fun _ _ => ?_) ?_
    | with_reducible exact Fld.colCfgReject_soft
    | split
    | dsimp only

theorem State.policyDirectory_kept (s : State) (c : Nat) (b : List Byte) : KeptA s (State.policyDirectory s c b) := by
  unfold State.policyDirectory
  repeat' first
    | with_reducible exact Kept.refl _
    | with_reducible apply KeptA.ok
    | with_reducible apply KeptA.ite (fun _ => ?_) (fun _ => ?_)
    | with_reducible apply KeptA.trans ?_ (reservedSet_kept _)
    | with_reducible apply KeptA.trans ?_ (rejectAt_kept _ _)
    | with_reducible apply Kept.trans ?_ (State.setFld_kept _ _ _ ?_)
    | with_reducible exact Fld.colCfgReject_soft
    | split
    | with_reducible apply Kept.mk_ ?_

theorem State.policyPrio_kept (s : State) (c : Nat) (b : List Byte) : KeptA s (State.policyPrio s c b) := by
  unfold State.policyPrio
  repeat' first
    | with_reducible exact Kept.refl _
    | with_reducible apply KeptA.ok
    | with_reducible apply KeptA.ite (fun _ => ?_) (fun _ => ?_)
    | with_reducible apply KeptA.trans ?_ (reservedSet_kept _)
    | with_reducible apply KeptA.trans ?_ (rejectAt_kept _ _)
    | with_reducible apply Kept.trans ?_ (State.setFld_kept _ _ _ ?_)
    | with_reducible apply Kept.trans ?_ (State.setCtx_kept _ _ _)
    | with_reducible exact Fld.ctxPrio_soft _
    | with_reducible exact Fld.donateStrata_soft _

theorem State.policyTraps_kept (s : State) (c : Nat) (b : List Byte) : KeptA s (State.policyTraps s c b) := by
  unfold State.policyTraps
  repeat' first
    | with_reducible exact Kept.refl _
    | with_reducible apply KeptA.ok
    | with_reducible apply KeptA.ite (fun _ => ?_) (fun _ => ?_)
    | with_reducible apply KeptA.trans ?_ (reservedSet_kept _)
    | with_reducible apply Kept.trans ?_ (State.setCtx_kept _ _ _)

theorem State.policyRotary_kept (s : State) (c : Nat) (b : List Byte) : KeptA s (State.policyRotary s c b) := by
  unfold State.policyRotary
  repeat' first
    | with_reducible exact Kept.refl _
    | with_reducible apply KeptA.ok
    | with_reducible apply KeptA.ite (fun _ => ?_) (fun _ => ?_)
    | with_reducible apply Kept.trans ?_ (State.addRotary_kept _ _ _ _)
    | with_reducible apply KeptA.trans ?_ (reservedSet_kept _)

theorem State.policyPool_kept (s : State) (c : Nat) (b : List Byte) : KeptA s (State.policyPool s c b) := by
  unfold State.policyPool
  repeat' first
    | with_reducible exact Kept.refl _
    | with_reducible apply KeptA.ok
    | with_reducible apply KeptA.ite (fun _ => ?_) (fun _ => ?_)
    | with_reducible apply KeptA.trans ?_ (reservedSet_kept _)
    | with_reducible apply KeptA.trans ?_ (rejectAt_kept _ _)
    | with_reducible apply Kept.trans ?_ (State.setCtx_kept _ _ _)

theorem State.policyEvents_kept (s : State) (b : List Byte) : KeptA s (State.policyEvents s b) := by
  unfold State.policyEvents
  repeat' first
    | with_reducible exact Kept.refl _
    | with_reducible apply KeptA.ok
    | with_reducible apply KeptA.ite (fun _ => ?_) (fun _ => ?_)
    | with_reducible apply KeptA.trans ?_ (reservedSet_kept _)
    | with_reducible apply KeptA.trans ?_ (rejectAt_kept _ _)
    | split
    | with_reducible apply Kept.mk_ ?_

theorem State.policySwap_kept (s : State) (b : List Byte) : KeptA s (State.policySwap s b) := by
  unfold State.policySwap
  repeat' first
    | with_reducible exact Kept.refl _
    | with_reducible apply KeptA.ok
    | with_reducible apply KeptA.ite (fun _ => ?_) (fun _ => ?_)
    | with_reducible apply KeptA.trans ?_ (reservedSet_kept _)
    | with_reducible apply Kept.trans ?_ (State.startSwap_kept _ _ _)
    | with_reducible apply KeptA.trans ?_ (rejectAt_kept _ _)

theorem State.policySlots_kept (s : State) (c : Nat) (b : List Byte) : KeptA s (State.policySlots s c b) := by
  unfold State.policySlots
  repeat' first
    | with_reducible exact Kept.refl _
    | with_reducible apply KeptA.ok
    | with_reducible apply KeptA.error
    | with_reducible apply KeptA.ite (fun _ => ?_) (fun _ => ?_)
    | with_reducible apply KeptA.trans ?_ (reservedSet_kept _)
    | with_reducible apply KeptA.trans ?_ (rejectAt_kept _ _)
    | apply Kept.trans ?_ ((State.bindSlots_kept _ _ _) _ (by with_reducible assumption))
    | split

theorem State.policyInval_kept (s : State) (c : Nat) (b : List Byte) : KeptA s (State.policyInval s c b) := by
  unfold State.policyInval
  repeat' first
    | with_reducible exact Kept.refl _
    | with_reducible apply KeptA.ok
    | with_reducible apply KeptA.ite (fun _ => ?_) (fun _ => ?_)
    | with_reducible apply KeptA.trans ?_ (reservedSet_kept _)
    | with_reducible apply KeptA.trans ?_ (rejectAt_kept _ _)
    | split
    | refine Kept.mem_ ?_ (fun h => h)

theorem State.applyPolicy_kept (s : State) (type : Nat) (c : Nat) (b : List Byte) : KeptA s (State.applyPolicy s type c b) := by
  unfold State.applyPolicy
  repeat' first
    | with_reducible exact Kept.refl _
    | with_reducible apply KeptA.trans ?_ (State.policyStr_kept _ _)
    | with_reducible apply KeptA.trans ?_ (State.policyMem_kept _ _)
    | with_reducible apply KeptA.trans ?_ (State.policyRetired_kept _ _)
    | with_reducible apply KeptA.trans ?_ (State.policyMode_kept _ _)
    | with_reducible apply KeptA.trans ?_ (State.policyVein_kept _ _)
    | with_reducible apply KeptA.trans ?_ (State.policyJob_kept _ _ _)
    | with_reducible apply KeptA.trans ?_ (State.policyGroups_kept _ _ _)
    | with_reducible apply KeptA.trans ?_ (State.policyDirectory_kept _ _ _)
    | with_reducible apply KeptA.trans ?_ (State.policyPrio_kept _ _ _)
    | with_reducible apply KeptA.trans ?_ (State.policyTraps_kept _ _ _)
    | with_reducible apply KeptA.trans ?_ (State.policyRotary_kept _ _ _)
    | with_reducible apply KeptA.trans ?_ (State.policyPool_kept _ _ _)
    | with_reducible apply KeptA.trans ?_ (State.policyEvents_kept _ _)
    | with_reducible apply KeptA.trans ?_ (State.policySwap_kept _ _)
    | with_reducible apply KeptA.trans ?_ (State.policySlots_kept _ _ _)
    | with_reducible apply KeptA.trans ?_ (State.policyInval_kept _ _ _)
    | split

theorem setPolicy_kept (at_ : Nat) (id : Nat) (s : State) : Kept s (setPolicy at_ id s) := by
  unfold setPolicy
  extract_lets l1
  have h1 : Kept s l1 := by
    unfold l1
    repeat' first
      | with_reducible exact Kept.refl _
      | with_reducible apply Kept.trans ?_ (State.advanceTo_kept _ _)
  try clear_value l1
  repeat' first
    | with_reducible assumption
    | with_reducible apply Kept.ite (fun _ => ?_) (fun _ => ?_)
    | with_reducible apply Kept.trans ?_ (State.startCmd_kept _ _)
    | with_reducible apply Kept.trans ?_ (State.completeCmd_kept _ _ _ _)
    | apply Kept.trans ?_ (KeptA.of_ok (State.applyPolicy_kept _ _ _ _) (by with_reducible assumption))
    | apply Kept.trans ?_ (KeptA.of_error (State.applyPolicy_kept _ _ _ _) (by with_reducible assumption))
    | split

end Sys2Proof.Machine
end

