-- ==== Sys2Proof/Laws/KeptErrors.lean ====
section
/-! SUPPORT. Every operation of Machine/Errors.lean keeps what `Kept` says. -/

namespace Sys2Proof.Machine

theorem State.clearSlotPoison_kept (s : State) (c : Nat) : Kept s (State.clearSlotPoison s c) := by
  unfold State.clearSlotPoison
  extract_lets l1 l2 l3 l4 l5
  repeat' first
    | with_reducible exact Kept.refl _
    | refine Kept.mem_ ?_ (fun h => Memory.wf_iff.2 { Memory.wf_iff.1 h with accPoison := SMap.wf_drop _ (Memory.wf_iff.1 h).accPoison })

theorem State.clearCtx_kept (s : State) (c : Nat) : Kept s (State.clearCtx s c) := by
  unfold State.clearCtx
  extract_lets l1 l2
  have h1 : Kept s l1 := by
    unfold l1
    repeat' first
      | with_reducible exact Kept.refl _
      | with_reducible apply Kept.trans ?_ (State.endJob_kept _ _ _)
      | with_reducible apply Kept.trans ?_ (State.emptyStats_kept _ _)
      | with_reducible apply Kept.trans ?_ (State.clearSlotPoison_kept _ _)
  try clear_value l1
  try clear_value l2
  repeat' first
    | with_reducible assumption
    | with_reducible apply Kept.trans ?_ (State.setFld_kept _ _ _ ?_)
    | with_reducible apply Kept.trans ?_ (State.setCtx_kept _ _ _)
    | with_reducible exact Fld.ctxState_soft _

theorem State.closeRec_kept (s : State) (i : Nat) : Kept s (State.closeRec s i) := by
  unfold State.closeRec
  extract_lets l1 l2 l3 l4
  try clear_value l1
  have h2 : Kept s l2 := by
    unfold l2
    repeat' first
      | with_reducible exact Kept.refl _
      | with_reducible apply Kept.trans ?_ (State.setRec_kept _ _ _)
  try clear_value l2
  try clear_value l3
  have h4 : Kept s l4 := by
    unfold l4
    repeat' first
      | with_reducible assumption
      | with_reducible apply Kept.trans ?_ (State.countOpen_kept _)
      | with_reducible apply Kept.mk_ ?_
  try clear_value l4
  repeat' first
    | with_reducible assumption
    | with_reducible apply Kept.ite (fun _ => ?_) (fun _ => ?_)
    | with_reducible apply Kept.trans ?_ (State.postEvent_kept _ _ _ _ _)

theorem recordClose_kept (at_ : Nat) (index : Nat) (s : State) : Kept s (recordClose at_ index s) := by
  unfold recordClose
  extract_lets l1 l2 l3
  have h1 : Kept s l1 := by
    unfold l1
    repeat' first
      | with_reducible exact Kept.refl _
      | with_reducible apply Kept.trans ?_ (State.advanceTo_kept _ _)
  try clear_value l1
  try clear_value l2
  have h3 : Kept s l3 := by
    unfold l3
    repeat' first
      | with_reducible assumption
      | with_reducible apply Kept.ite (fun _ => ?_) (fun _ => ?_)
      | with_reducible apply Kept.trans ?_ (State.clearCtx_kept _ _)
  try clear_value l3
  repeat' first
    | with_reducible assumption
    | with_reducible apply Kept.ite (fun _ => ?_) (fun _ => ?_)
    | with_reducible apply Kept.trans ?_ (State.closeRec_kept _ _)

theorem watchdogAck_kept (at_ : Nat) (s : State) : Kept s (watchdogAck at_ s) := by
  unfold watchdogAck
  extract_lets l1 l2
  have h1 : Kept s l1 := by
    unfold l1
    repeat' first
      | with_reducible exact Kept.refl _
      | with_reducible apply Kept.trans ?_ (State.advanceTo_kept _ _)
  try clear_value l1
  try clear_value l2
  repeat' first
    | with_reducible assumption
    | with_reducible apply Kept.ite (fun _ => ?_) (fun _ => ?_)
    | with_reducible apply Kept.mk_ ?_

theorem State.holdFlint_kept (s : State) : Kept s (State.holdFlint s) := by
  unfold State.holdFlint
  extract_lets l1 l2
  repeat' first
    | with_reducible exact Kept.refl _
    | refine Kept.fw_ ?_ rfl rfl

theorem watchdogRestart_kept (at_ : Nat) (exception : Bool) (s : State) : Kept s (watchdogRestart at_ exception s) := by
  unfold watchdogRestart
  extract_lets l1 l2 l3
  have h1 : Kept s l1 := by
    unfold l1
    repeat' first
      | with_reducible exact Kept.refl _
      | with_reducible apply Kept.trans ?_ (State.advanceTo_kept _ _)
  try clear_value l1
  try clear_value l2
  have h3 : Kept s l3 := by
    unfold l3
    repeat' first
      | with_reducible assumption
      | with_reducible apply Kept.trans ?_ (State.holdFlint_kept _)
      | with_reducible apply Kept.trans ?_ (State.bump_kept _ _ _ ?_)
      | with_reducible exact Fld.wdTrips_soft
  try clear_value l3
  repeat' first
    | with_reducible assumption
    | with_reducible apply Kept.ite (fun _ => ?_) (fun _ => ?_)
    | with_reducible apply Kept.trans ?_ (State.raise_kept _ _)
    | with_reducible apply Kept.trans ?_ (State.report_kept _ _)

theorem State.actDeferred_kept (s : State) (a : Nat × Nat) : Kept s (State.actDeferred s a) := by
  unfold State.actDeferred
  repeat' first
    | with_reducible exact Kept.refl _
    | with_reducible apply Kept.ite (fun _ => ?_) (fun _ => ?_)
    | with_reducible apply Kept.trans ?_ (State.abortTick_kept _)
    | with_reducible apply Kept.trans ?_ (State.swapBlocked_kept _ _)
    | with_reducible apply Kept.trans ?_ (State.raiseCtx_kept _ _ _)

theorem flintRestartDone_kept (at_ : Nat) (s : State) : Kept s (flintRestartDone at_ s) := by
  unfold flintRestartDone
  extract_lets l1 l2 l3 l4 l5 l6
  have h1 : Kept s l1 := by
    unfold l1
    repeat' first
      | with_reducible exact Kept.refl _
      | with_reducible apply Kept.trans ?_ (State.advanceTo_kept _ _)
  try clear_value l1
  try clear_value l2
  try clear_value l3
  try clear_value l4
  have h5 : Kept s l5 := by
    unfold l5
    repeat' first
      | with_reducible assumption
      | with_reducible apply Kept.mk_ ?_
  try clear_value l5
  have h6 : Kept s l6 := by
    unfold l6
    repeat' first
      | with_reducible exact Kept.refl _
      | with_reducible assumption
      | with_reducible apply Kept.trans ?_ (State.completeCmd_kept _ _ _ _)
      | with_reducible apply Kept.fold (fun _ _ => ?_) ?_
  try clear_value l6
  repeat' first
    | with_reducible exact Kept.refl _
    | with_reducible assumption
    | with_reducible apply Kept.ite (fun _ => ?_) (fun _ => ?_)
    | with_reducible apply Kept.trans ?_ (State.actDeferred_kept _ _)
    | with_reducible apply Kept.fold (fun _ _ => ?_) ?_

end Sys2Proof.Machine
end

