-- ==== Sys2Proof/Laws/KeptVector.lean ====
section
/-! SUPPORT. Every operation of Machine/Vector.lean keeps what `Kept` says. -/

namespace Sys2Proof.Machine

theorem lsPlain_kept (core : Nat) (c : Nat) (off : Nat) (n : Nat) : KeptE (lsPlain core c off n) := by
  unfold lsPlain
  repeat' first
    | with_reducible exact KeptE.pure _
    | with_reducible apply KeptE.bind ?_ (fun _ => ?_)
    | with_reducible exact readTell_kept _ _ _ _ _

theorem readKernel_kept (core : Nat) (c : Nat) (d : Nat) : KeptE (readKernel core c d) := by
  unfold readKernel
  extract_lets l1
  try clear_value l1
  repeat' first
    | with_reducible exact KeptE.pure _
    | with_reducible exact KeptE.stop _
    | with_reducible exact KeptE.ask _
    | with_reducible apply KeptE.bind ?_ (fun _ => ?_)
    | with_reducible exact lsPlain_kept _ _ _ _
    | split

theorem readElem_kept (core : Nat) (c : Nat) (a : Addr) (f : Fmt) : KeptE (readElem core c a f) := by
  unfold readElem
  repeat' first
    | with_reducible exact KeptE.pure _
    | with_reducible apply KeptE.bind ?_ (fun _ => ?_)
    | with_reducible exact readUse_kept _ _ _ _ _

theorem loadInput_kept (core : Nat) (c : Nat) (k : Kernel) (r : StreamRec) (v : Nat) (active : Nat) : KeptE (loadInput core c k r v active) := by
  unfold loadInput
  extract_lets l1
  try clear_value l1
  repeat' first
    | with_reducible exact KeptE.pure _
    | with_reducible apply KeptE.bind ?_ (fun _ => ?_)
    | with_reducible apply KeptE.collect (fun _ => ?_)
    | with_reducible exact readElem_kept _ _ _ _

theorem approxIn_kept (f : Fmt) (x : Exec NumF) (h_x : KeptE (x)) : KeptE (approxIn f x) := by
  unfold approxIn
  repeat' first
    | with_reducible assumption
    | with_reducible exact KeptE.pure _
    | with_reducible apply KeptE.bind ?_ (fun _ => ?_)

theorem laneOp_kept (k : Kernel) (key : DrawKey) (o : MicroOp) (v l : Nat) (a b c : Num) :
    KeptE (laneOp k key o v l a b c) := by
  unfold laneOp
  extract_lets f arith approx
  have h1 : ∀ x, KeptE (arith x) := fun x => KeptE.pure _
  have h2 : ∀ x, KeptE x → KeptE (approx x) := fun x hx => KeptE.bind (approxIn_kept f x hx) fun _ => KeptE.pure _
  split
  all_goals first
    | with_reducible exact h1 _
    | with_reducible exact KeptE.pure _
    | exact h2 _ (exp2Op_kept _)
    | exact h2 _ (log2Op_kept _)
    | exact h2 _ (rcpOp_kept _)
    | exact h2 _ (rsqrtOp_kept _)

theorem vectorOp_kept (core : Nat) (c : Nat) (k : Kernel) (key : DrawKey) (o : MicroOp) (v : Nat) (ins : List (List Num)) (es : List Elem) : KeptE (vectorOp core c k key o v ins es) := by
  unfold vectorOp
  extract_lets l1 l2 l3 l4
  try clear_value l1
  try clear_value l2
  try clear_value l3
  try clear_value l4
  repeat' first
    | with_reducible exact KeptE.pure _
    | with_reducible apply KeptE.bind ?_ (fun _ => ?_)
    | with_reducible apply KeptE.collect (fun _ => ?_)
    | with_reducible exact readElem_kept _ _ _ _
    | with_reducible exact laneOp_kept _ _ _ _ _ _ _ _
    | split

theorem runProgram_kept (core : Nat) (c : Nat) (k : Kernel) (key : DrawKey) (v : Nat) (ins : List (List Num)) (es : List Elem) (y : Tally) : KeptE (runProgram core c k key v ins es y) := by
  unfold runProgram
  repeat' first
    | with_reducible exact KeptE.pure _
    | with_reducible exact KeptE.check _ _
    | with_reducible apply KeptE.bind ?_ (fun _ => ?_)
    | with_reducible apply KeptE.fold (fun _ _ => ?_)
    | with_reducible exact vectorOp_kept _ _ _ _ _ _ _ _

theorem storedBytes_kept (shared_ : Bool) (n : Nat) (v : Nat) : KeptE (storedBytes shared_ n v) := by
  unfold storedBytes
  extract_lets l1
  have h1 : ∀ x0, KeptE (l1 x0) := by
    intro _
    unfold l1
    repeat' first
      | with_reducible exact KeptE.pure _
  repeat' first
    | with_reducible exact h1 _
    | with_reducible exact KeptE.pure _
    | with_reducible exact KeptE.free _
    | with_reducible apply KeptE.bind ?_ (fun _ => ?_)
    | with_reducible apply KeptE.ite (fun _ => ?_) (fun _ => ?_)

theorem storeOutput_kept (core : Nat) (c : Nat) (k : Kernel) (key : DrawKey) (i : Nat) (r : StreamRec) (v : Nat) (es : List Elem) : KeptE (storeOutput core c k key i r v es) := by
  unfold storeOutput
  extract_lets l1 l2 l3
  try clear_value l1
  try clear_value l2
  try clear_value l3
  repeat' first
    | with_reducible exact KeptE.pure _
    | with_reducible apply KeptE.bind ?_ (fun _ => ?_)
    | with_reducible apply KeptE.each (fun _ => ?_)
    | with_reducible apply KeptE.collect (fun _ => ?_)
    | with_reducible exact storedBytes_kept _ _ _
    | with_reducible exact writeMem_kept _ _ _ _ _ _

theorem runVector_kept (t : Tile) (k : Kernel) (key : DrawKey) (v : Nat) (y : Tally × Num) : KeptE (runVector t k key v y) := by
  unfold runVector
  extract_lets l1 l2
  try clear_value l1
  try clear_value l2
  repeat' first
    | with_reducible exact KeptE.pure _
    | with_reducible apply KeptE.bind ?_ (fun _ => ?_)
    | with_reducible apply KeptE.ite (fun _ => ?_) (fun _ => ?_)
    | with_reducible apply KeptE.collect (fun _ => ?_)
    | with_reducible exact loadInput_kept _ _ _ _ _ _
    | with_reducible exact runProgram_kept _ _ _ _ _ _ _ _
    | with_reducible exact storeOutput_kept _ _ _ _ _ _ _ _

theorem kernelWork_kept (t : Tile) : KeptE (kernelWork t) := by
  unfold kernelWork
  repeat' first
    | with_reducible exact KeptE.ask _
    | with_reducible apply KeptE.bind ?_ (fun _ => ?_)
    | with_reducible apply KeptE.fold (fun _ _ => ?_)
    | with_reducible exact readKernel_kept _ _ _
    | with_reducible exact runVector_kept _ _ _ _ _
    | with_reducible exact endAmax_kept _ _ _ _ _

end Sys2Proof.Machine
end

