-- ==== Sys2Proof/Laws/KeptAssay.lean ====
section
/-! SUPPORT. Every operation of Machine/Assay.lean keeps what `Kept` says. -/

namespace Sys2Proof.Machine

theorem State.readAgain_kept (s : State) (k c : Nat) (l : List (Nat × Nat × List Byte)) : Kept s (State.readAgain s k c l) :=
  Kept.fold (fun u w => Kept.ite (fun _ => readCopy_kept k c ⟨true, w.2.1⟩ w.2.2.length none u) fun _ => Kept.refl u) (Kept.refl s)

theorem State.occupy_kept (s : State) (u : Tile) : Kept s (State.occupy s u) := by
  unfold State.occupy
  extract_lets l1
  try clear_value l1
  repeat' first
    | with_reducible exact Kept.refl _
    | with_reducible apply Kept.mk_ ?_

theorem State.startChecker_kept (s : State) (t : Tile) (k : Nat) : Kept s (State.startChecker s t k) := by
  unfold State.startChecker
  generalize (s.checkerState t k).execute t = r
  dsimp only
  have h (u : Tile) (v : Tile) : Kept s (((s.readAgain k t.ctx r.2.accesses).setTile u).occupy v) :=
    ((State.readAgain_kept ..).trans (State.setTile_kept ..)).trans (State.occupy_kept ..)
  split
  · exact h _ _
  · exact (h _ _).trans (State.raiseCtx_kept ..)
  · exact Kept.refl s

theorem State.reassign_kept (s : State) (t : Tile) (k : Nat) : Kept s (State.reassign s t k).1 := by
  unfold State.reassign
  repeat' first
    | with_reducible exact Kept.refl _
    | with_reducible apply Kept.trans ?_ (State.setTile_kept _ _)
    | with_reducible apply Kept.trans ?_ (State.finishTile_kept _ _)
    | with_reducible apply Kept.trans ?_ (State.bump_kept _ _ _ ?_)
    | with_reducible exact Fld.assaySkip_soft
    | split

theorem assayCheckerStart_kept (at_ : Nat) (core : Nat) (stream : Nat) (s : State) : Kept s (assayCheckerStart at_ core stream s) := by
  unfold assayCheckerStart
  extract_lets l1
  have h1 : Kept s l1 := by
    unfold l1
    repeat' first
      | with_reducible exact Kept.refl _
      | with_reducible apply Kept.trans ?_ (State.advanceTo_kept _ _)
  try clear_value l1
  repeat' first
    | with_reducible assumption
    | with_reducible apply Kept.ite (fun _ => ?_) (fun _ => ?_)
    | with_reducible apply Kept.trans ?_ (State.reassign_kept _ _ _)
    | with_reducible apply Kept.trans ?_ (State.startChecker_kept _ _ _)
    | split
    | dsimp only

theorem State.mismatch_kept (s : State) (t : Tile) (k : Nat) (sigP : Nat) (sigC : Nat) : Kept s (State.mismatch s t k sigP sigC) := by
  unfold State.mismatch
  extract_lets l1 l2
  have h1 : Kept s l1 := by
    unfold l1
    repeat' first
      | with_reducible exact Kept.refl _
      | with_reducible apply Kept.trans ?_ (State.dropTile_kept _ _ _)
  try clear_value l1
  have h2 : Kept s l2 := by
    unfold l2
    repeat' first
      | with_reducible assumption
      | with_reducible apply Kept.trans ?_ (State.raiseCtx_kept _ _ _)
  try clear_value l2
  repeat' first
    | with_reducible assumption
    | with_reducible apply Kept.trans ?_ (State.capture_kept _ _ _ _ _ _ _ _)

theorem signatureCompare_kept (at_ : Nat) (core : Nat) (stream : Nat) (delta : Nat) (s : State) : Kept s (signatureCompare at_ core stream delta s) := by
  unfold signatureCompare
  extract_lets l1 l2
  have h1 : Kept s l1 := by
    unfold l1
    repeat' first
      | with_reducible exact Kept.refl _
      | with_reducible apply Kept.trans ?_ (State.advanceTo_kept _ _)
  try clear_value l1
  try clear_value l2
  repeat' first
    | with_reducible assumption
    | with_reducible apply Kept.ite (fun _ => ?_) (fun _ => ?_)
    | with_reducible apply Kept.trans ?_ (State.bump_kept _ _ _ ?_)
    | with_reducible apply Kept.trans ?_ (State.dropTile_kept _ _ _)
    | with_reducible apply Kept.trans ?_ (State.finishTile_kept _ _)
    | with_reducible apply Kept.trans ?_ (State.mismatch_kept _ _ _ _ _)
    | with_reducible exact Fld.assayChk_soft
    | split

theorem State.settleReplay_kept (s : State) : Kept s (State.settleReplay s) := by
  unfold State.settleReplay
  repeat' first
    | with_reducible exact Kept.refl _
    | with_reducible apply Kept.trans ?_ (State.setFld_kept _ _ _ ?_)
    | with_reducible exact Fld.replayBusy_soft

theorem patternReplay_kept (at_ : Nat) (entry : Nat) (sigs : List Nat) (s : State) : Kept s (patternReplay at_ entry sigs s) := by
  unfold patternReplay
  extract_lets l1 l2 l3 l4 l5 l6 l7
  have h1 : Kept s l1 := by
    unfold l1
    repeat' first
      | with_reducible exact Kept.refl _
      | with_reducible apply Kept.trans ?_ (State.advanceTo_kept _ _)
  try clear_value l1
  try clear_value l2
  try clear_value l3
  try clear_value l4
  have h5 : Kept s l5 := by
    unfold l5
    repeat' first
      | with_reducible assumption
      | with_reducible apply Kept.trans ?_ (State.setEvid_kept _ _ _)
  try clear_value l5
  have h6 : Kept s l6 := by
    unfold l6
    repeat' first
      | with_reducible assumption
      | with_reducible apply Kept.trans ?_ (State.settleReplay_kept _)
  try clear_value l6
  try clear_value l7
  repeat' first
    | with_reducible exact Kept.refl _
    | with_reducible assumption
    | with_reducible apply Kept.ite (fun _ => ?_) (fun _ => ?_)
    | with_reducible apply Kept.trans ?_ (State.report_kept _ _)
    | with_reducible apply Kept.trans ?_ (State.raise_kept _ _)
    | with_reducible apply Kept.fold (fun _ _ => ?_) ?_

theorem State.evidParts_kept (s : State) (v : Evid) (n m : Nat) : Kept s (s.evidParts v n m).2 := by
  unfold State.evidParts
  dsimp only
  exact ((Kept.fresh s 32).trans (State.freshBytes_kept _ n)).trans (State.freshBytes_kept _ m)

theorem State.evidBytes_kept (s : State) (v : Evid) : Kept s (State.evidBytes s v).2 := by
  unfold State.evidBytes
  split
  · exact Kept.refl s
  · exact State.evidParts_kept s v 512 (8 * 2 ^ 20)

theorem evidenceReady_kept (at_ : Nat) (entry : Nat) (s : State) : Kept s (evidenceReady at_ entry s) := by
  unfold evidenceReady
  have h : Kept s (s.advanceTo at_) := State.advanceTo_kept ..
  generalize s.advanceTo at_ = u at h
  refine h.trans (Kept.ite (fun _ => ?_) fun _ => Kept.refl u)
  have h1 := State.evidBytes_kept u (u.evid entry)
  generalize u.evidBytes (u.evid entry) = b at h1
  have h2 : ∀ a, Kept u (if b.2.hostAborts a b.1.length then b.2 else b.2.putHost a b.1) := fun a =>
    Kept.ite (fun _ => h1) fun _ => h1.trans (State.putHost_kept ..)
  exact (Kept.mk_ ((h2 _).trans (State.setEvid_kept ..))).trans (State.report_kept ..)

theorem State.screenWrite_kept (s : State) (v : Nat) (deltas : List (List Nat)) : Kept s (State.screenWrite s v deltas) := by
  unfold State.screenWrite
  extract_lets l1 l2 l3 l4 l5
  try clear_value l1
  have h2 : Kept s l2 := by
    unfold l2
    repeat' first
      | with_reducible exact Kept.refl _
      | with_reducible apply Kept.trans ?_ (State.setFld_kept _ _ _ ?_)
      | with_reducible exact Fld.screenCount_soft
  try clear_value l2
  try clear_value l3
  try clear_value l4
  try clear_value l5
  repeat' first
    | with_reducible exact Kept.refl _
    | with_reducible assumption
    | with_reducible apply Kept.ite (fun _ => ?_) (fun _ => ?_)
    | with_reducible apply Kept.trans ?_ (State.setFld_kept _ _ _ ?_)
    | with_reducible exact Fld.errCfgReject_soft
    | with_reducible exact Fld.screenBusy_soft
    | with_reducible apply Kept.mk_ ?_

theorem screenStart_kept (at_ : Nat) (party : Party) (value : Word) (deltas : List (List Nat)) (s : State) : Kept s (screenStart at_ party value deltas s) := by
  unfold screenStart
  extract_lets l1
  have h1 : Kept s l1 := by
    unfold l1
    repeat' first
      | with_reducible exact Kept.refl _
      | with_reducible apply Kept.trans ?_ (State.advanceTo_kept _ _)
  try clear_value l1
  repeat' first
    | with_reducible assumption
    | with_reducible apply Kept.ite (fun _ => ?_) (fun _ => ?_)
    | with_reducible apply Kept.trans ?_ (State.screenWrite_kept _ _ _)

theorem State.screenNext_kept (s : State) : Kept s (State.screenNext s) := by
  unfold State.screenNext
  extract_lets l1
  try clear_value l1
  repeat' first
    | with_reducible exact Kept.refl _
    | with_reducible apply Kept.ite (fun _ => ?_) (fun _ => ?_)
    | with_reducible apply Kept.trans ?_ (State.setFld_kept _ _ _ ?_)
    | with_reducible apply Kept.trans ?_ (State.raise_kept _ _)
    | with_reducible apply Kept.fold (fun _ _ => ?_) ?_
    | with_reducible exact Fld.screenBusy_soft
    | split
    | with_reducible apply Kept.mk_ ?_

theorem State.errCtrlWrite_kept (s : State) (v : Word) : Kept s (State.errCtrlWrite s v) := by
  unfold State.errCtrlWrite
  extract_lets l1 l2 l3 l4
  try clear_value l1
  try clear_value l2
  try clear_value l3
  try clear_value l4
  repeat' first
    | with_reducible exact Kept.refl _
    | with_reducible apply Kept.ite (fun _ => ?_) (fun _ => ?_)
    | with_reducible apply Kept.trans ?_ (State.setFld_kept _ _ _ ?_)
    | with_reducible apply Kept.trans ?_ (Kept.wr _ _ _ ?_)
    | with_reducible exact Fld.errCfgReject_soft
    | with_reducible exact Reg.errCtrl_soft

theorem errCtrlWriteCmd_kept (at_ : Nat) (party : Party) (value : Word) (s : State) : Kept s (errCtrlWriteCmd at_ party value s) := by
  unfold errCtrlWriteCmd
  extract_lets l1
  have h1 : Kept s l1 := by
    unfold l1
    repeat' first
      | with_reducible exact Kept.refl _
      | with_reducible apply Kept.trans ?_ (State.advanceTo_kept _ _)
  try clear_value l1
  repeat' first
    | with_reducible assumption
    | with_reducible apply Kept.ite (fun _ => ?_) (fun _ => ?_)
    | with_reducible apply Kept.trans ?_ (State.errCtrlWrite_kept _ _)

end Sys2Proof.Machine
end

