-- ==== Sys2Proof/Laws/KeptRegisters.lean ====
section
/-! SUPPORT. Every operation of Machine/Registers.lean keeps what `Kept` says. -/

namespace Sys2Proof.Machine

theorem State.hostOnly_kept (s : State) (off : Nat) (v : Word) : Kept s (State.hostOnly s off v) := by
  unfold State.hostOnly
  split
  · rename_i r hr
    have h : Kept s (s.wr off (s.rd off &&& ~~~(v &&& BitVec.ofNat 32 r.w1c))) := by
      refine (Kept.refl s).registers rfl rfl rfl rfl rfl SMap.wf_put fun hw o ho hs => ?_
      by_cases he : o = off
      · subst he
        have hz : (BitVec.ofNat 32 0 : Word) = 0#32 := rfl
        unfold State.rd State.wr
        rw [SMap.get_put_same hw, (hardwired_fixed ho hr).2, hz]
        simp only [BitVec.and_zero, BitVec.not_zero, BitVec.and_allOnes]
        exact hs
      · unfold State.rd State.wr
        rw [SMap.get_put_of_ne he]
        exact hs
    exact Kept.ite (fun _ => h) fun _ => h.trans (State.setFld_kept _ _ _ Fld.hostWrReject_soft)
  · exact Kept.refl s

theorem State.hostIndex_kept (s : State) (off : Nat) (v : Word) : Kept s (State.hostIndex s off v) := by
  unfold State.hostIndex
  extract_lets l1 l2
  try clear_value l1
  try clear_value l2
  repeat' first
    | with_reducible exact Kept.refl _
    | with_reducible apply Kept.mk_ ?_

theorem State.strReg_kept (s : State) (p : Party) (off : Nat) (v : Word) : Kept s (State.strReg s p off v) := by
  unfold State.strReg
  extract_lets l1 l2
  try clear_value l1
  try clear_value l2
  repeat' first
    | (obtain rfl | rfl | rfl := ‹off = Reg.strCtrl ∨ off = Reg.strPeriod ∨ off = Reg.strDomain› <;> first | exact Reg.strCtrl_soft | exact Reg.strPeriod_soft | exact Reg.strDomain_soft)
    | with_reducible exact Kept.refl _
    | with_reducible apply Kept.ite (fun _ => ?_) (fun _ => ?_)
    | with_reducible apply Kept.trans ?_ (State.hostOnly_kept _ _ _)
    | with_reducible apply Kept.trans ?_ (State.strWrite_kept _ _ _ ?_)
    | with_reducible apply Kept.trans ?_ (strCountWrite_kept _ _ _ _ _)
    | with_reducible apply Kept.trans ?_ (State.plainWrite_kept _ _ _)
    | split

theorem State.memReg_kept (s : State) (off : Nat) (v : Word) : Kept s (State.memReg s off v) := by
  unfold State.memReg
  repeat' first
    | (rw [‹off = Reg.memTlbInvLo›]; exact Reg.memTlbInvLo_soft)
    | with_reducible exact Kept.refl _
    | with_reducible apply Kept.ite (fun _ => ?_) (fun _ => ?_)
    | with_reducible apply Kept.trans ?_ (State.layoutWrite_kept _ _)
    | with_reducible apply Kept.trans ?_ (State.plainWrite_kept _ _ _)
    | with_reducible apply Kept.trans ?_ (State.setFld_kept _ _ _ ?_)
    | with_reducible apply Kept.trans ?_ (Kept.wr _ _ _ ?_)
    | with_reducible apply Kept.trans ?_ (State.invalidateWrite_kept _ _)
    | with_reducible exact Fld.memCfgReject_soft

theorem State.veiReg_kept (s : State) (off : Nat) (v : Word) : Kept s (State.veiReg s off v) := by
  unfold State.veiReg
  extract_lets l1
  try clear_value l1
  repeat' first
    | with_reducible exact Kept.refl _
    | with_reducible apply Kept.ite (fun _ => ?_) (fun _ => ?_)
    | with_reducible apply Kept.trans ?_ (State.routeWrite_kept _ _ _)
    | with_reducible apply Kept.trans ?_ (State.poolWrite_kept _ _ _ _)
    | with_reducible apply Kept.trans ?_ (State.portConfig_kept _ _ _)
    | with_reducible apply Kept.trans ?_ (State.plainWrite_kept _ _ _)

theorem State.flintBlock_kept (s : State) (p : Party) (off : Nat) (v : Word) : Kept s (State.flintBlock s p off v) := by
  unfold State.flintBlock
  repeat' first
    | with_reducible exact Kept.refl _
    | with_reducible apply Kept.ite (fun _ => ?_) (fun _ => ?_)
    | with_reducible apply Kept.trans ?_ (State.strReg_kept _ _ _ _)
    | with_reducible apply Kept.trans ?_ (State.hostIndex_kept _ _ _)
    | with_reducible apply Kept.trans ?_ (State.hostOnly_kept _ _ _)
    | with_reducible apply Kept.trans ?_ (State.memReg_kept _ _ _)
    | with_reducible apply Kept.trans ?_ (State.veiReg_kept _ _ _)
    | with_reducible apply Kept.trans ?_ (State.plainWrite_kept _ _ _)
    | split

theorem State.errReg_kept (s : State) (off : Nat) (v : Word) : Kept s (State.errReg s off v) := by
  unfold State.errReg
  repeat' first
    | with_reducible exact Kept.refl _
    | with_reducible apply Kept.ite (fun _ => ?_) (fun _ => ?_)
    | with_reducible apply Kept.trans ?_ (State.errCtrlWrite_kept _ _)
    | with_reducible apply Kept.trans ?_ (State.screenWrite_kept _ _ _)
    | with_reducible apply Kept.trans ?_ (State.plainWrite_kept _ _ _)

theorem State.pwrReg_kept (s : State) (off : Nat) (v : Word) : Kept s (State.pwrReg s off v) := by
  unfold State.pwrReg
  extract_lets l1
  have h1 : Kept s l1 := by
    unfold l1
    repeat' first
      | with_reducible exact Kept.refl _
      | with_reducible apply Kept.trans ?_ (State.plainWrite_kept _ _ _)
  try clear_value l1
  repeat' first
    | with_reducible exact Kept.refl _
    | with_reducible assumption
    | with_reducible apply Kept.ite (fun _ => ?_) (fun _ => ?_)
    | with_reducible apply Kept.trans ?_ (State.askPlan_kept _)

theorem State.updCtrl_kept (s : State) (v : Nat) : Kept s (State.updCtrl s v) := by
  unfold State.updCtrl
  extract_lets l1 l2
  have h1 : Kept s l1 := by
    unfold l1
    repeat' first
      | with_reducible exact Kept.refl _
      | with_reducible apply Kept.ite (fun _ => ?_) (fun _ => ?_)
      | with_reducible apply Kept.trans ?_ (State.updateGo_kept _)
  try clear_value l1
  have h2 : Kept s l2 := by
    unfold l2
    repeat' first
      | with_reducible assumption
      | with_reducible apply Kept.ite (fun _ => ?_) (fun _ => ?_)
      | with_reducible apply Kept.trans ?_ (State.confirm_kept _)
  try clear_value l2
  repeat' first
    | with_reducible exact Kept.refl _
    | with_reducible assumption
    | with_reducible apply Kept.ite (fun _ => ?_) (fun _ => ?_)
    | with_reducible apply Kept.trans ?_ (State.burn_kept _)

theorem State.secBoot_kept (s : State) (off : Nat) (v : Word) : Kept s (State.secBoot s off v) := by
  unfold State.secBoot
  repeat' first
    | (rw [‹off = Reg.secProt›]; exact Reg.secProt_soft)
    | with_reducible exact Kept.refl _
    | with_reducible apply Kept.ite (fun _ => ?_) (fun _ => ?_)
    | with_reducible apply Kept.trans ?_ (Kept.wr _ _ _ ?_)
    | with_reducible apply Kept.trans ?_ (State.debugWrite_kept _ _)
    | with_reducible apply Kept.trans ?_ (State.enrollWrite_kept _ _)
    | with_reducible apply Kept.trans ?_ (bootLock_kept _ _)

theorem State.secReg_kept (s : State) (p : Party) (off : Nat) (v : Word) : Kept s (State.secReg s p off v) := by
  unfold State.secReg
  repeat' first
    | with_reducible exact Kept.refl _
    | with_reducible apply Kept.ite (fun _ => ?_) (fun _ => ?_)
    | with_reducible apply Kept.trans ?_ (State.updCtrl_kept _ _)
    | with_reducible apply Kept.trans ?_ (State.attestGo_kept _)
    | with_reducible apply Kept.trans ?_ (State.secBoot_kept _ _ _)
    | with_reducible apply Kept.trans ?_ (State.plainWrite_kept _ _ _)
    | split

theorem State.regWrite_kept (s : State) (p : Party) (off : Nat) (v : Word) : Kept s (State.regWrite s p off v) := by
  unfold State.regWrite
  repeat' first
    | with_reducible exact Kept.refl _
    | with_reducible apply Kept.ite (fun _ => ?_) (fun _ => ?_)
    | with_reducible apply Kept.trans ?_ (State.plainWrite_kept _ _ _)
    | with_reducible apply Kept.trans ?_ (State.hifWrite_kept _ _ _ _)
    | with_reducible apply Kept.trans ?_ (State.flintBlock_kept _ _ _ _)
    | with_reducible apply Kept.trans ?_ (State.errReg_kept _ _ _)
    | with_reducible apply Kept.trans ?_ (State.fosWrite_kept _ _ _)
    | with_reducible apply Kept.trans ?_ (State.pwrReg_kept _ _ _)
    | with_reducible apply Kept.trans ?_ (State.secReg_kept _ _ _ _)

theorem regWriteCmd_kept (at_ : Nat) (party : Party) (off : Nat) (bytes : Nat) (value : Nat) (s : State) : Kept s (regWriteCmd at_ party off bytes value s) := by
  unfold regWriteCmd
  extract_lets l1
  have h1 : Kept s l1 := by
    unfold l1
    repeat' first
      | with_reducible exact Kept.refl _
      | with_reducible apply Kept.trans ?_ (State.advanceTo_kept _ _)
  try clear_value l1
  repeat' first
    | with_reducible assumption
    | with_reducible apply Kept.ite (fun _ => ?_) (fun _ => ?_)
    | with_reducible apply Kept.trans ?_ (State.regWrite_kept _ _ _ _)

theorem State.idle_kept (s : State) : Kept s (State.idle s) := by
  unfold State.idle
  repeat' first
    | with_reducible exact Kept.refl _
    | with_reducible apply Kept.trans ?_ (State.screenNext_kept _)
    | with_reducible apply Kept.trans ?_ (State.collSweep_kept _)
    | with_reducible apply Kept.trans ?_ (State.landWaiting_kept _)
    | with_reducible apply Kept.trans ?_ (State.askFill_kept _)
    | with_reducible apply Kept.trans ?_ (State.endStreaming_kept _)
    | with_reducible apply Kept.trans ?_ (State.pumpAll_kept _)
    | with_reducible apply Kept.trans ?_ (State.advanceTo_kept _ _)

end Sys2Proof.Machine
end

