-- ==== Sys2Proof/Laws/KeptSideband.lean ====
section
/-! SUPPORT. Every operation of Machine/Sideband.lean keeps what `Kept` says. -/

namespace Sys2Proof.Machine

theorem State.jtagRun_kept (s : State) (i : Jtag) (out : List Nat) : Kept s (State.jtagRun s i out) := by
  unfold State.jtagRun
  extract_lets l1
  try clear_value l1
  repeat' first
    | with_reducible exact Kept.refl _
    | with_reducible apply Kept.ite (fun _ => ?_) (fun _ => ?_)
    | with_reducible apply Kept.mk_ ?_

theorem samplePreload_kept (at_ : Nat) (outputs : List Bool) (s : State) : Kept s (samplePreload at_ outputs s) := by
  unfold samplePreload
  extract_lets l1 l2 l3
  have h1 : Kept s l1 := by
    unfold l1
    repeat' first
      | with_reducible exact Kept.refl _
      | with_reducible apply Kept.trans ?_ (State.advanceTo_kept _ _)
  try clear_value l1
  have h2 : Kept s l2 := by
    unfold l2
    repeat' first
      | with_reducible assumption
      | with_reducible apply Kept.trans ?_ (State.jtagRun_kept _ _ _)
  try clear_value l2
  try clear_value l3
  repeat' first
    | with_reducible assumption
    | with_reducible apply Kept.ite (fun _ => ?_) (fun _ => ?_)
    | with_reducible apply Kept.mk_ ?_

theorem extest_kept (at_ : Nat) (s : State) : Kept s (extest at_ s) := by
  unfold extest
  extract_lets l1
  have h1 : Kept s l1 := by
    unfold l1
    repeat' first
      | with_reducible exact Kept.refl _
      | with_reducible apply Kept.trans ?_ (State.advanceTo_kept _ _)
  try clear_value l1
  repeat' first
    | with_reducible assumption
    | with_reducible apply Kept.ite (fun _ => ?_) (fun _ => ?_)
    | with_reducible apply Kept.trans ?_ (State.jtagRun_kept _ _ _)

theorem kuermouPrivateDebug_kept (at_ : Nat) (s : State) : Kept s (kuermouPrivateDebug at_ s) := by
  unfold kuermouPrivateDebug
  extract_lets l1
  have h1 : Kept s l1 := by
    unfold l1
    repeat' first
      | with_reducible exact Kept.refl _
      | with_reducible apply Kept.trans ?_ (State.advanceTo_kept _ _)
  try clear_value l1
  repeat' first
    | with_reducible assumption
    | with_reducible apply Kept.ite (fun _ => ?_) (fun _ => ?_)
    | with_reducible apply Kept.trans ?_ (State.jtagRun_kept _ _ _)

theorem State.smbReply_kept (s : State) (fatalToo : Bool) (completion : Nat) (values : List Nat) : Kept s (State.smbReply s fatalToo completion values) := by
  unfold State.smbReply
  extract_lets l1
  try clear_value l1
  repeat' first
    | with_reducible exact Kept.refl _
    | split
    | with_reducible apply Kept.mk_ ?_

theorem State.freeReply_kept (s : State) (fatalToo : Bool) (n : Nat) : Kept s (State.freeReply s fatalToo n) := by
  unfold State.freeReply
  extract_lets l1
  have h1 : Kept s l1.2 := by
    unfold l1
    repeat' first
      | with_reducible exact Kept.refl _
      | with_reducible apply Kept.trans ?_ (Kept.fresh _ _)
  try clear_value l1
  repeat' first
    | with_reducible assumption
    | with_reducible apply Kept.trans ?_ (State.smbReply_kept _ _ _ _)

theorem setEndpointId_kept (at_ : Nat) (eid : Nat) (s : State) : Kept s (setEndpointId at_ eid s) := by
  unfold setEndpointId
  extract_lets l1 l2 l3
  have h1 : Kept s l1 := by
    unfold l1
    repeat' first
      | with_reducible exact Kept.refl _
      | with_reducible apply Kept.trans ?_ (State.advanceTo_kept _ _)
  try clear_value l1
  try clear_value l2
  have h3 : Kept s l3 := by
    unfold l3
    repeat' first
      | with_reducible assumption
      | with_reducible apply Kept.mk_ ?_
  try clear_value l3
  repeat' first
    | with_reducible assumption
    | with_reducible apply Kept.ite (fun _ => ?_) (fun _ => ?_)
    | with_reducible apply Kept.trans ?_ (State.smbReply_kept _ _ _ _)

theorem getpdr_kept (at_ : Nat) (record : Nat) (s : State) : Kept s (getpdr at_ record s) := by
  unfold getpdr
  extract_lets l1 l2
  have h1 : Kept s l1 := by
    unfold l1
    repeat' first
      | with_reducible exact Kept.refl _
      | with_reducible apply Kept.trans ?_ (State.advanceTo_kept _ _)
  try clear_value l1
  have h2 : Kept s l2.2 := by
    unfold l2
    repeat' first
      | with_reducible assumption
      | with_reducible apply Kept.trans ?_ (Kept.fresh _ _)
  try clear_value l2
  repeat' first
    | with_reducible assumption
    | with_reducible apply Kept.ite (fun _ => ?_) (fun _ => ?_)
    | with_reducible apply Kept.trans ?_ (State.smbReply_kept _ _ _ _)

theorem State.readSensor_kept (s : State) (lo : Nat) (hi : Nat) (sensor : Nat) : Kept s (State.readSensor s lo hi sensor) := by
  unfold State.readSensor
  repeat' first
    | with_reducible exact Kept.refl _
    | with_reducible apply Kept.ite (fun _ => ?_) (fun _ => ?_)
    | with_reducible apply Kept.trans ?_ (State.smbReply_kept _ _ _ _)

theorem sensorRefresh_kept (at_ : Nat) (s : State) : Kept s (sensorRefresh at_ s) := by
  unfold sensorRefresh
  extract_lets l1 l2
  have h1 : Kept s l1 := by
    unfold l1
    repeat' first
      | with_reducible exact Kept.refl _
      | with_reducible apply Kept.trans ?_ (State.advanceTo_kept _ _)
  try clear_value l1
  try clear_value l2
  repeat' first
    | with_reducible assumption
    | with_reducible apply Kept.ite (fun _ => ?_) (fun _ => ?_)
    | with_reducible apply Kept.mk_ ?_

end Sys2Proof.Machine
end

