-- ==== Sys2Proof/Laws/KeptStep.lean ====
section
/-! SUPPORT. The next state that a command answers keeps what `Kept` says. -/

namespace Sys2Proof.Machine

theorem next_kept {s u t : State} (h : (.next u : Host.Outcome State Fault Refusal) = .next t) (k : Kept s u) : Kept s t := by
  cases h
  exact k

theorem exec_kept {i : Instr} {s t : State} (h : exec i s = .next t) : Kept s t := by
  cases i with
  | stratumInEdge _ => exact next_kept h (stratumInEdge_kept ..)
  | tickSymbolReceived _ _ _ _ _ => exact next_kept h (tickSymbolReceived_kept ..)
  | masterTickIssue _ _ => exact next_kept h (masterTickIssue_kept ..)
  | holdoverTick _ => exact next_kept h (holdoverTick_kept ..)
  | stretchSymbolSend _ => exact next_kept h (stretchSymbolSend_kept ..)
  | stretchSymbolReceived _ _ _ _ => exact next_kept h (stretchSymbolReceived_kept ..)
  | doneSymbolReceived _ _ _ _ => exact next_kept h (doneSymbolReceived_kept ..)
  | moduleDone _ _ => exact next_kept h (moduleDone_kept ..)
  | stratumOverrun _ _ => exact next_kept h (stratumOverrun_kept ..)
  | domainOverrun _ => exact next_kept h (domainOverrun_kept ..)
  | tickLost _ => exact next_kept h (tickLost_kept ..)
  | tickStuck _ _ => exact next_kept h (tickStuck_kept ..)
  | strConfigWrite _ _ _ _ => exact next_kept h (strConfigWrite_kept ..)
  | strCountLoRead _ _ => exact next_kept h (strCountLoRead_kept ..)
  | strCountWrite _ _ _ _ => exact next_kept h (strCountWrite_kept ..)
  | descriptorIssue _ _ _ => exact next_kept h (descriptorIssue_kept ..)
  | tilePick _ _ _ => exact next_kept h (tilePick_kept ..)
  | queueAdmission _ _ _ => exact next_kept h (queueAdmission_kept ..)
  | semaphoreWake _ _ => exact next_kept h (semaphoreWake_kept ..)
  | wait _ _ _ => exact next_kept h (waitCtl_kept ..)
  | signal _ _ _ => exact next_kept h (signalCtl_kept ..)
  | loop _ _ _ => exact next_kept h (loopCtl_kept ..)
  | branch _ _ _ => exact next_kept h (branchCtl_kept ..)
  | yield _ _ _ => exact next_kept h (yieldCtl_kept ..)
  | end_ _ _ _ => exact next_kept h (endCtl_kept ..)
  | tileFinish _ _ _ => exact next_kept h (tileFinish_kept ..)
  | tileGuard _ _ _ => exact next_kept h (tileGuard_kept ..)
  | coreHang _ _ => exact next_kept h (coreHang_kept ..)
  | matmul _ _ _ => exact next_kept h (State.runTile_kept _ _ _ _ _ _ fun _ => matmulWork_kept _ _)
  | epilogue _ _ => exact next_kept h (State.runTile_kept _ _ _ _ _ _ fun _ => epilogueWork_kept _)
  | slotCombine _ _ => exact next_kept h (State.runTile_kept _ _ _ _ _ _ fun _ => combineWork_kept _)
  | reduce _ _ => exact next_kept h (reduceStart_kept ..)
  | reducePull _ _ _ => exact next_kept h (reducePull_kept ..)
  | elementwise _ _ => exact next_kept h (State.runTile_kept _ _ _ _ _ _ fun _ => elementwiseWork_kept _)
  | spill _ _ => exact next_kept h (State.runTile_kept _ _ _ _ _ _ fun _ => spillWork_kept _)
  | fill _ _ => exact next_kept h (State.runTile_kept _ _ _ _ _ _ fun _ => fillSlotsWork_kept _)
  | kernel _ _ => exact next_kept h (State.runTile_kept _ _ _ _ _ _ fun _ => kernelWork_kept _)
  | softmaxFwd _ _ => exact next_kept h (State.runTile_kept _ _ _ _ _ _ fun _ => softmaxFwdWork_kept _)
  | softmaxBwd _ _ => exact next_kept h (State.runTile_kept _ _ _ _ _ _ fun _ => softmaxBwdWork_kept _)
  | lnormFwd _ _ => exact next_kept h (State.runTile_kept _ _ _ _ _ _ fun _ => normFwdWork_kept _ _)
  | lnormBwd _ _ => exact next_kept h (State.runTile_kept _ _ _ _ _ _ fun _ => normBwdWork_kept _ _)
  | rmsnormFwd _ _ => exact next_kept h (State.runTile_kept _ _ _ _ _ _ fun _ => normFwdWork_kept _ _)
  | rmsnormBwd _ _ => exact next_kept h (State.runTile_kept _ _ _ _ _ _ fun _ => normBwdWork_kept _ _)
  | statsSpill _ _ => exact next_kept h (State.runTile_kept _ _ _ _ _ _ fun _ => statsSpillWork_kept _)
  | statsFill _ _ => exact next_kept h (State.runTile_kept _ _ _ _ _ _ fun _ => statsFillWork_kept _)
  | copy _ _ => exact next_kept h (State.runDma_kept _ _ _ _ _ fun _ _ _ => copyWork_kept _ _ _)
  | transpose _ _ => exact next_kept h (State.runDma_kept _ _ _ _ _ fun _ _ _ => transposeWork_kept _ _ _)
  | dmaFill _ _ => exact next_kept h (State.runDma_kept _ _ _ _ _ fun _ _ _ => fillWork_kept _ _ _)
  | dmaLanded _ _ _ => exact next_kept h (dmaLanded_kept ..)
  | patrolScrub _ _ _ => exact next_kept h (patrolScrub_kept ..)
  | frameCountRestart _ => exact next_kept h (frameCountRestart_kept ..)
  | channelBurst _ _ => exact next_kept h (channelBurst_kept ..)
  | tlbInvalidate _ _ => exact next_kept h (tlbInvalidate_kept ..)
  | invalidateDone _ => exact next_kept h (invalidateDone_kept ..)
  | memLayoutWrite _ _ => exact next_kept h (memLayoutWrite_kept ..)
  | kvAppend _ _ => exact next_kept h (State.pipeRun_kept _ _ _ _ _ _ _ fun _ => appendStage_kept _)
  | kvDemote _ _ _ => exact next_kept h (State.pipeRun_kept _ _ _ _ _ _ _ fun _ => demoteStage_kept _)
  | kvFrameMap _ _ => exact next_kept h (kvFrameMap_kept ..)
  | kvFull _ _ => exact next_kept h (kvFull_kept ..)
  | kvSubslotRelease _ => exact next_kept h (kvSubslotRelease_kept ..)
  | kvVersionReplay _ _ _ => exact next_kept h (kvVersionReplay_kept ..)
  | attnFwd _ _ _ => exact next_kept h (State.pipeRun_kept _ _ _ _ _ _ _ fun _ => attnStage_kept _ _ _)
  | attnBwd _ _ _ => exact next_kept h (State.pipeRun_kept _ _ _ _ _ _ _ fun _ => attnStage_kept _ _ _)
  | attnDecode _ _ _ => exact next_kept h (State.pipeRun_kept _ _ _ _ _ _ _ fun _ => attnStage_kept _ _ _)
  | bucketSort _ _ => exact next_kept h (State.pipeRun_kept _ _ _ _ _ _ _ fun _ => bucketSortStage_kept _)
  | seqDone _ _ => exact next_kept h (State.pipeRun_kept _ _ _ _ _ _ _ fun _ => seqDoneStage_kept _)
  | wsUpdate _ _ => exact next_kept h (wsUpdate_kept ..)
  | wsUpdateWriteback _ _ _ => exact next_kept h (wsUpdateWriteback_kept ..)
  | shardDrainComplete _ _ _ => exact next_kept h (shardDrainComplete_kept ..)
  | leaseHeld _ _ _ => exact next_kept h (leaseHeld_kept ..)
  | wsLease _ _ => exact next_kept h (wsLease_kept ..)
  | leaseMessage _ _ _ _ _ _ _ => exact next_kept h (leaseMessage_kept ..)
  | leaseReply _ _ _ _ _ => exact next_kept h (leaseReply_kept ..)
  | wsSeal _ _ => exact next_kept h (wsSeal_kept ..)
  | flitGroupReceived _ _ _ _ _ => exact next_kept h (flitGroupReceived_kept ..)
  | packetReceived _ _ _ => exact next_kept h (packetReceived_kept ..)
  | routeFailReceived _ _ _ => exact next_kept h (routeFailReceived_kept ..)
  | linkControlReceived _ _ _ => exact next_kept h (linkControlReceived_kept ..)
  | linkControlDue _ _ => exact next_kept h (linkControlDue_kept ..)
  | ackTimeout _ _ => exact next_kept h (ackTimeout_kept ..)
  | linkFailed _ _ => exact next_kept h (linkFailed_kept ..)
  | laneDegrade _ _ _ => exact next_kept h (laneDegrade_kept ..)
  | linkDegraded _ _ => exact next_kept h (linkDegraded_kept ..)
  | linkDown _ _ => exact next_kept h (linkDown_kept ..)
  | linkUp _ _ _ _ => exact next_kept h (linkUp_kept ..)
  | trainingRetry _ _ => exact next_kept h (trainingRetry_kept ..)
  | portRetrain _ _ => exact next_kept h (portRetrain_kept ..)
  | veiPoolDataWrite _ _ => exact next_kept h (veiPoolDataWrite_kept ..)
  | veiRouteDataWrite _ _ => exact next_kept h (veiRouteDataWrite_kept ..)
  | coll _ _ => exact next_kept h (coll_kept ..)
  | shift _ _ => exact next_kept h (shift_kept ..)
  | expertDispatch _ _ => exact next_kept h (expertDispatch_kept ..)
  | expertCombine _ _ => exact next_kept h (expertCombine_kept ..)
  | endMarkerReceived _ _ _ _ _ => exact next_kept h (endMarkerReceived_kept ..)
  | collTimeout _ _ => exact next_kept h (collTimeout_kept ..)
  | donationExhausted _ _ _ => exact next_kept h (donationExhausted_kept ..)
  | allBlocked _ _ => exact next_kept h (allBlocked_kept ..)
  | swapExchange _ _ => exact next_kept h (swapExchange_kept ..)
  | swapAbandoned _ _ => exact next_kept h (swapAbandoned_kept ..)
  | swapDone _ _ => exact next_kept h (swapDone_kept ..)
  | doorbellSqTail _ _ _ => exact next_kept h (doorbellSqTail_kept ..)
  | doorbellCqHead _ _ _ => exact next_kept h (doorbellCqHead_kept ..)
  | commandFetch _ => exact next_kept h (commandFetch_kept ..)
  | ctxCreate _ _ => exact next_kept h (ctxCreate_kept ..)
  | ctxDestroy _ _ => exact next_kept h (ctxDestroy_kept ..)
  | jobLoad _ _ => exact next_kept h (jobLoad_kept ..)
  | jobStart _ _ => exact next_kept h (jobStart_kept ..)
  | dmaH2d _ _ => exact next_kept h (dmaH2d_kept ..)
  | dmaD2h _ _ => exact next_kept h (dmaD2h_kept ..)
  | fossilBegin _ _ => exact next_kept h (fossilBegin_kept ..)
  | fossilCommit _ _ => exact next_kept h (fossilCommit_kept ..)
  | fillFromBuddy _ _ => exact next_kept h (fillFromBuddy_kept ..)
  | query _ _ => exact next_kept h (query_kept ..)
  | fenceUnit _ _ => exact next_kept h (fenceUnitCmd_kept ..)
  | setPolicy _ _ => exact next_kept h (setPolicy_kept ..)
  | telemetryRead _ _ => exact next_kept h (telemetryRead_kept ..)
  | completionPost _ _ => exact next_kept h (completionPost_kept ..)
  | msixModeration _ _ => exact next_kept h (msixModeration_kept ..)
  | sqDisable _ _ => exact next_kept h (sqDisable_kept ..)
  | hifRegWrite _ _ _ _ => exact next_kept h (hifRegWrite_kept ..)
  | functionLevelReset _ => exact next_kept h (functionLevelReset_kept ..)
  | bar4Access _ _ _ _ _ => exact next_kept h (bar4Access_kept ..)
  | recordClose _ _ => exact next_kept h (recordClose_kept ..)
  | watchdogAck _ => exact next_kept h (watchdogAck_kept ..)
  | watchdogRestart _ _ => exact next_kept h (watchdogRestart_kept ..)
  | flintRestartDone _ => exact next_kept h (flintRestartDone_kept ..)
  | assayCheckerStart _ _ _ => exact next_kept h (assayCheckerStart_kept ..)
  | signatureCompare _ _ _ _ => exact next_kept h (signatureCompare_kept ..)
  | patternReplay _ _ _ => exact next_kept h (patternReplay_kept ..)
  | evidenceReady _ _ => exact next_kept h (evidenceReady_kept ..)
  | screenStart _ _ _ _ => exact next_kept h (screenStart_kept ..)
  | errCtrlWrite _ _ _ => exact next_kept h (errCtrlWriteCmd_kept ..)
  | firstTouchCopy _ _ => exact next_kept h (firstTouchCopy_kept ..)
  | fossilPageStream _ _ => exact next_kept h (fossilPageStream_kept ..)
  | epochStreamed _ => exact next_kept h (epochStreamed_kept ..)
  | fossilStoreFailed _ => exact next_kept h (fossilStoreFailed_kept ..)
  | buddyOpenMessage _ _ _ _ => exact next_kept h (buddyOpenMessage_kept ..)
  | buddyOpenReply _ _ _ => exact next_kept h (buddyOpenReply_kept ..)
  | buddyImagePage _ _ _ _ => exact next_kept h (buddyImagePage_kept ..)
  | commitMarkerReceived _ _ _ => exact next_kept h (commitMarkerReceived_kept ..)
  | fossilBuddyLost _ => exact next_kept h (fossilBuddyLost_kept ..)
  | fillRequestReceived _ _ _ => exact next_kept h (fillRequestReceived_kept ..)
  | fillPageReceived _ _ _ _ => exact next_kept h (fillPageReceived_kept ..)
  | fillSourceLost _ => exact next_kept h (fillSourceLost_kept ..)
  | fosRegWrite _ _ _ _ => exact next_kept h (fosRegWrite_kept ..)
  | bootRomStart _ => exact next_kept h (bootRomStart_kept ..)
  | bootLock _ => exact next_kept h (bootLock_kept ..)
  | ownerEnroll _ _ _ => exact next_kept h (ownerEnroll_kept ..)
  | debugOpen _ _ _ => exact next_kept h (debugOpen_kept ..)
  | fwUpdate _ => exact next_kept h ((State.advanceTo_kept s _).trans (Kept.ite (fun _ => State.updateGo_kept ..) fun _ => Kept.refl _))
  | fwUpdateDone _ => exact next_kept h (fwUpdateDone_kept ..)
  | fwConfirm _ => exact next_kept h ((State.advanceTo_kept s _).trans (Kept.ite (fun _ => State.confirm_kept ..) fun _ => Kept.refl _))
  | burnSvn _ => exact next_kept h ((State.advanceTo_kept s _).trans (Kept.ite (fun _ => State.burn_kept ..) fun _ => Kept.refl _))
  | attestationRequest _ => exact next_kept h ((State.advanceTo_kept s _).trans (Kept.ite (fun _ => State.attestGo_kept ..) fun _ => Kept.refl _))
  | attestationReportWritten _ => exact next_kept h (attestationReportWritten_kept ..)
  | bypass _ => exact next_kept h ((State.advanceTo_kept s _).trans (State.jtagRun_kept ..))
  | idcode _ => exact next_kept h ((State.advanceTo_kept s _).trans (State.jtagRun_kept ..))
  | samplePreload _ _ => exact next_kept h (samplePreload_kept ..)
  | extest _ => exact next_kept h (extest_kept ..)
  | kuermouPrivateDebug _ => exact next_kept h (kuermouPrivateDebug_kept ..)
  | pwrEnRise _ => exact next_kept h (pwrEnRise_kept ..)
  | pwrGoodRise _ _ _ _ => exact next_kept h (pwrGoodRise_kept ..)
  | pwrEnFall _ => exact next_kept h (pwrEnFall_kept ..)
  | perstAssert _ => exact next_kept h (perstAssert_kept ..)
  | inputUndervoltage _ => exact next_kept h ((State.advanceTo_kept s _).trans (State.regulatorsOff_kept ..))
  | inputOvervoltage _ => exact next_kept h ((State.advanceTo_kept s _).trans (State.regulatorsOff_kept ..))
  | inputVoltage _ _ => exact next_kept h (inputVoltage_kept ..)
  | powerSample _ _ _ _ _ => exact next_kept h (powerSample_kept ..)
  | capStep _ => exact next_kept h (capStep_kept ..)
  | thermalThrottle _ _ _ => exact next_kept h (thermalThrottle_kept ..)
  | thermalTrip _ _ _ => exact next_kept h (thermalTrip_kept ..)
  | throttleInAssert _ => exact next_kept h (throttleInAssert_kept ..)
  | throttleInRelease _ => exact next_kept h (throttleInRelease_kept ..)
  | throttleInPulse _ => exact next_kept h (throttleInPulse_kept ..)
  | throttleHeld _ => exact next_kept h (throttleHeld_kept ..)
  | droop _ _ => exact next_kept h ((State.advanceTo_kept s _).trans (State.stretch_kept ..))
  | droopRecovery _ _ => exact next_kept h (droopRecovery_kept ..)
  | canaryStretch _ _ => exact next_kept h ((State.advanceTo_kept s _).trans (State.stretch_kept ..))
  | refclkLost _ _ => exact next_kept h (refclkLost_kept ..)
  | wearPlan _ _ _ _ _ => exact next_kept h (wearPlan_kept ..)
  | planNow _ => exact next_kept h ((State.advanceTo_kept s _).trans (Kept.ite (fun _ => State.askPlan_kept ..) fun _ => Kept.refl _))
  | wearPlanDue _ => exact next_kept h (wearPlanDue_kept ..)
  | setEndpointId _ _ => exact next_kept h (setEndpointId_kept ..)
  | getEndpointId _ => exact next_kept h ((State.advanceTo_kept s _).trans (State.smbReply_kept ..))
  | getMctpVersionSupport _ => exact next_kept h ((State.advanceTo_kept s _).trans (State.freeReply_kept ..))
  | getMessageTypeSupport _ => exact next_kept h ((State.advanceTo_kept s _).trans (State.smbReply_kept ..))
  | gettid _ => exact next_kept h ((State.advanceTo_kept s _).trans (State.freeReply_kept ..))
  | getpldmversion _ _ => exact next_kept h ((State.advanceTo_kept s _).trans (Kept.ite (fun _ => State.freeReply_kept ..) fun _ => State.smbReply_kept ..))
  | getpldmtypes _ => exact next_kept h ((State.advanceTo_kept s _).trans (State.smbReply_kept ..))
  | getpldmcommands _ _ => exact next_kept h ((State.advanceTo_kept s _).trans (Kept.ite (fun _ => State.smbReply_kept ..) fun _ => State.smbReply_kept ..))
  | getpdrrepositoryinfo _ => exact next_kept h ((State.advanceTo_kept s _).trans (State.smbReply_kept ..))
  | getpdr _ _ => exact next_kept h (getpdr_kept ..)
  | getsensorreading _ _ => exact next_kept h ((State.advanceTo_kept s _).trans (State.readSensor_kept ..))
  | getstatesensorreadings _ _ => exact next_kept h ((State.advanceTo_kept s _).trans (State.readSensor_kept ..))
  | unsupportedPldmCmd _ => exact next_kept h ((State.advanceTo_kept s _).trans (State.smbReply_kept ..))
  | sensorRefresh _ => exact next_kept h (sensorRefresh_kept ..)
  | regWrite _ _ _ _ _ => exact next_kept h (regWriteCmd_kept ..)
  | hostDmaDone _ _ => exact next_kept h (hostDmaDone_kept ..)
  | configurationRequest _ => exact next_kept h (configurationRequest_kept ..)
  | channelRetrainDone _ _ => exact next_kept h (channelRetrainDone_kept ..)
  | refclkRestored _ => exact next_kept h ((State.advanceTo_kept s _).trans (State.setFld_kept _ _ _ Fld.ref156Lost_soft))

end Sys2Proof.Machine
end

