-- ==== Sys2Proof/Laws/State.lean ====
section
/-! SUPPORT. What each named update of one part of the state leaves alone: one lemma per field, true by unfolding. -/

namespace Sys2Proof.Machine


/-! ### State.wr -/

@[simp] theorem State.wr_now (s : State) (off : Nat) (w : Word) : (s.wr off w).now = s.now := rfl
@[simp] theorem State.wr_quarries (s : State) (off : Nat) (w : Word) : (s.wr off w).quarries = s.quarries := rfl
@[simp] theorem State.wr_core (s : State) (off : Nat) (w : Word) : (s.wr off w).core = s.core := rfl
@[simp] theorem State.wr_mem (s : State) (off : Nat) (w : Word) : (s.wr off w).mem = s.mem := rfl
@[simp] theorem State.wr_ctx (s : State) (off : Nat) (w : Word) : (s.wr off w).ctx = s.ctx := rfl
@[simp] theorem State.wr_host (s : State) (off : Nat) (w : Word) : (s.wr off w).host = s.host := rfl
@[simp] theorem State.wr_err (s : State) (off : Nat) (w : Word) : (s.wr off w).err = s.err := rfl
@[simp] theorem State.wr_ws (s : State) (off : Nat) (w : Word) : (s.wr off w).ws = s.ws := rfl
@[simp] theorem State.wr_kv (s : State) (off : Nat) (w : Word) : (s.wr off w).kv = s.kv := rfl
@[simp] theorem State.wr_pwr (s : State) (off : Nat) (w : Word) : (s.wr off w).pwr = s.pwr := rfl
@[simp] theorem State.wr_vein (s : State) (off : Nat) (w : Word) : (s.wr off w).vein = s.vein := rfl
@[simp] theorem State.wr_coll (s : State) (off : Nat) (w : Word) : (s.wr off w).coll = s.coll := rfl
@[simp] theorem State.wr_fos (s : State) (off : Nat) (w : Word) : (s.wr off w).fos = s.fos := rfl
@[simp] theorem State.wr_fw (s : State) (off : Nat) (w : Word) : (s.wr off w).fw = s.fw := rfl
@[simp] theorem State.wr_blk (s : State) (off : Nat) (w : Word) : (s.wr off w).blk = s.blk := rfl
@[simp] theorem State.wr_pins (s : State) (off : Nat) (w : Word) : (s.wr off w).pins = s.pins := rfl
@[simp] theorem State.wr_freeCtr (s : State) (off : Nat) (w : Word) : (s.wr off w).freeCtr = s.freeCtr := rfl
@[simp] theorem State.wr_pending (s : State) (off : Nat) (w : Word) : (s.wr off w).pending = s.pending := rfl
@[simp] theorem State.wr_quarry (s : State) (off : Nat) (w : Word) (z1 : Nat) : (s.wr off w).quarry z1 = s.quarry z1 := rfl
@[simp] theorem State.wr_stream (s : State) (off : Nat) (w : Word) (z1 z2 : Nat) : (s.wr off w).stream z1 z2 = s.stream z1 z2 := rfl
@[simp] theorem State.wr_sem (s : State) (off : Nat) (w : Word) (z1 : Nat) : (s.wr off w).sem z1 = s.sem z1 := rfl
@[simp] theorem State.wr_ctxAt (s : State) (off : Nat) (w : Word) (z1 : Nat) : (s.wr off w).ctxAt z1 = s.ctxAt z1 := rfl

/-! ### State.setFld -/

@[simp] theorem State.setFld_now (s : State) (f : Fld) (v : Nat) : (s.setFld f v).now = s.now := rfl
@[simp] theorem State.setFld_quarries (s : State) (f : Fld) (v : Nat) : (s.setFld f v).quarries = s.quarries := rfl
@[simp] theorem State.setFld_core (s : State) (f : Fld) (v : Nat) : (s.setFld f v).core = s.core := rfl
@[simp] theorem State.setFld_mem (s : State) (f : Fld) (v : Nat) : (s.setFld f v).mem = s.mem := rfl
@[simp] theorem State.setFld_ctx (s : State) (f : Fld) (v : Nat) : (s.setFld f v).ctx = s.ctx := rfl
@[simp] theorem State.setFld_host (s : State) (f : Fld) (v : Nat) : (s.setFld f v).host = s.host := rfl
@[simp] theorem State.setFld_err (s : State) (f : Fld) (v : Nat) : (s.setFld f v).err = s.err := rfl
@[simp] theorem State.setFld_ws (s : State) (f : Fld) (v : Nat) : (s.setFld f v).ws = s.ws := rfl
@[simp] theorem State.setFld_kv (s : State) (f : Fld) (v : Nat) : (s.setFld f v).kv = s.kv := rfl
@[simp] theorem State.setFld_pwr (s : State) (f : Fld) (v : Nat) : (s.setFld f v).pwr = s.pwr := rfl
@[simp] theorem State.setFld_vein (s : State) (f : Fld) (v : Nat) : (s.setFld f v).vein = s.vein := rfl
@[simp] theorem State.setFld_coll (s : State) (f : Fld) (v : Nat) : (s.setFld f v).coll = s.coll := rfl
@[simp] theorem State.setFld_fos (s : State) (f : Fld) (v : Nat) : (s.setFld f v).fos = s.fos := rfl
@[simp] theorem State.setFld_fw (s : State) (f : Fld) (v : Nat) : (s.setFld f v).fw = s.fw := rfl
@[simp] theorem State.setFld_blk (s : State) (f : Fld) (v : Nat) : (s.setFld f v).blk = s.blk := rfl
@[simp] theorem State.setFld_pins (s : State) (f : Fld) (v : Nat) : (s.setFld f v).pins = s.pins := rfl
@[simp] theorem State.setFld_freeCtr (s : State) (f : Fld) (v : Nat) : (s.setFld f v).freeCtr = s.freeCtr := rfl
@[simp] theorem State.setFld_pending (s : State) (f : Fld) (v : Nat) : (s.setFld f v).pending = s.pending := rfl
@[simp] theorem State.setFld_quarry (s : State) (f : Fld) (v : Nat) (z1 : Nat) : (s.setFld f v).quarry z1 = s.quarry z1 := rfl
@[simp] theorem State.setFld_stream (s : State) (f : Fld) (v : Nat) (z1 z2 : Nat) : (s.setFld f v).stream z1 z2 = s.stream z1 z2 := rfl
@[simp] theorem State.setFld_sem (s : State) (f : Fld) (v : Nat) (z1 : Nat) : (s.setFld f v).sem z1 = s.sem z1 := rfl
@[simp] theorem State.setFld_ctxAt (s : State) (f : Fld) (v : Nat) (z1 : Nat) : (s.setFld f v).ctxAt z1 = s.ctxAt z1 := rfl

/-! ### State.bump -/

@[simp] theorem State.bump_now (s : State) (f : Fld) (k : Nat) : (s.bump f k).now = s.now := rfl
@[simp] theorem State.bump_quarries (s : State) (f : Fld) (k : Nat) : (s.bump f k).quarries = s.quarries := rfl
@[simp] theorem State.bump_core (s : State) (f : Fld) (k : Nat) : (s.bump f k).core = s.core := rfl
@[simp] theorem State.bump_mem (s : State) (f : Fld) (k : Nat) : (s.bump f k).mem = s.mem := rfl
@[simp] theorem State.bump_ctx (s : State) (f : Fld) (k : Nat) : (s.bump f k).ctx = s.ctx := rfl
@[simp] theorem State.bump_host (s : State) (f : Fld) (k : Nat) : (s.bump f k).host = s.host := rfl
@[simp] theorem State.bump_err (s : State) (f : Fld) (k : Nat) : (s.bump f k).err = s.err := rfl
@[simp] theorem State.bump_ws (s : State) (f : Fld) (k : Nat) : (s.bump f k).ws = s.ws := rfl
@[simp] theorem State.bump_kv (s : State) (f : Fld) (k : Nat) : (s.bump f k).kv = s.kv := rfl
@[simp] theorem State.bump_pwr (s : State) (f : Fld) (k : Nat) : (s.bump f k).pwr = s.pwr := rfl
@[simp] theorem State.bump_vein (s : State) (f : Fld) (k : Nat) : (s.bump f k).vein = s.vein := rfl
@[simp] theorem State.bump_coll (s : State) (f : Fld) (k : Nat) : (s.bump f k).coll = s.coll := rfl
@[simp] theorem State.bump_fos (s : State) (f : Fld) (k : Nat) : (s.bump f k).fos = s.fos := rfl
@[simp] theorem State.bump_fw (s : State) (f : Fld) (k : Nat) : (s.bump f k).fw = s.fw := rfl
@[simp] theorem State.bump_blk (s : State) (f : Fld) (k : Nat) : (s.bump f k).blk = s.blk := rfl
@[simp] theorem State.bump_pins (s : State) (f : Fld) (k : Nat) : (s.bump f k).pins = s.pins := rfl
@[simp] theorem State.bump_freeCtr (s : State) (f : Fld) (k : Nat) : (s.bump f k).freeCtr = s.freeCtr := rfl
@[simp] theorem State.bump_pending (s : State) (f : Fld) (k : Nat) : (s.bump f k).pending = s.pending := rfl
@[simp] theorem State.bump_quarry (s : State) (f : Fld) (k : Nat) (z1 : Nat) : (s.bump f k).quarry z1 = s.quarry z1 := rfl
@[simp] theorem State.bump_stream (s : State) (f : Fld) (k : Nat) (z1 z2 : Nat) : (s.bump f k).stream z1 z2 = s.stream z1 z2 := rfl
@[simp] theorem State.bump_sem (s : State) (f : Fld) (k : Nat) (z1 : Nat) : (s.bump f k).sem z1 = s.sem z1 := rfl
@[simp] theorem State.bump_ctxAt (s : State) (f : Fld) (k : Nat) (z1 : Nat) : (s.bump f k).ctxAt z1 = s.ctxAt z1 := rfl

/-! ### State.setQuarry -/

@[simp] theorem State.setQuarry_now (s : State) (q : Nat) (v : Quarry) : (s.setQuarry q v).now = s.now := rfl
@[simp] theorem State.setQuarry_regs (s : State) (q : Nat) (v : Quarry) : (s.setQuarry q v).regs = s.regs := rfl
@[simp] theorem State.setQuarry_core (s : State) (q : Nat) (v : Quarry) : (s.setQuarry q v).core = s.core := rfl
@[simp] theorem State.setQuarry_mem (s : State) (q : Nat) (v : Quarry) : (s.setQuarry q v).mem = s.mem := rfl
@[simp] theorem State.setQuarry_ctx (s : State) (q : Nat) (v : Quarry) : (s.setQuarry q v).ctx = s.ctx := rfl
@[simp] theorem State.setQuarry_host (s : State) (q : Nat) (v : Quarry) : (s.setQuarry q v).host = s.host := rfl
@[simp] theorem State.setQuarry_err (s : State) (q : Nat) (v : Quarry) : (s.setQuarry q v).err = s.err := rfl
@[simp] theorem State.setQuarry_ws (s : State) (q : Nat) (v : Quarry) : (s.setQuarry q v).ws = s.ws := rfl
@[simp] theorem State.setQuarry_kv (s : State) (q : Nat) (v : Quarry) : (s.setQuarry q v).kv = s.kv := rfl
@[simp] theorem State.setQuarry_pwr (s : State) (q : Nat) (v : Quarry) : (s.setQuarry q v).pwr = s.pwr := rfl
@[simp] theorem State.setQuarry_vein (s : State) (q : Nat) (v : Quarry) : (s.setQuarry q v).vein = s.vein := rfl
@[simp] theorem State.setQuarry_coll (s : State) (q : Nat) (v : Quarry) : (s.setQuarry q v).coll = s.coll := rfl
@[simp] theorem State.setQuarry_fos (s : State) (q : Nat) (v : Quarry) : (s.setQuarry q v).fos = s.fos := rfl
@[simp] theorem State.setQuarry_fw (s : State) (q : Nat) (v : Quarry) : (s.setQuarry q v).fw = s.fw := rfl
@[simp] theorem State.setQuarry_blk (s : State) (q : Nat) (v : Quarry) : (s.setQuarry q v).blk = s.blk := rfl
@[simp] theorem State.setQuarry_pins (s : State) (q : Nat) (v : Quarry) : (s.setQuarry q v).pins = s.pins := rfl
@[simp] theorem State.setQuarry_freeCtr (s : State) (q : Nat) (v : Quarry) : (s.setQuarry q v).freeCtr = s.freeCtr := rfl
@[simp] theorem State.setQuarry_pending (s : State) (q : Nat) (v : Quarry) : (s.setQuarry q v).pending = s.pending := rfl
@[simp] theorem State.setQuarry_rd (s : State) (q : Nat) (v : Quarry) (o : Nat) : (s.setQuarry q v).rd o = s.rd o := rfl
@[simp] theorem State.setQuarry_fld (s : State) (q : Nat) (v : Quarry) (g : Fld) : (s.setQuarry q v).fld g = s.fld g := rfl
@[simp] theorem State.setQuarry_flag (s : State) (q : Nat) (v : Quarry) (g : Fld) : (s.setQuarry q v).flag g = s.flag g := rfl
@[simp] theorem State.setQuarry_stream (s : State) (q : Nat) (v : Quarry) (z1 z2 : Nat) : (s.setQuarry q v).stream z1 z2 = s.stream z1 z2 := rfl
@[simp] theorem State.setQuarry_sem (s : State) (q : Nat) (v : Quarry) (z1 : Nat) : (s.setQuarry q v).sem z1 = s.sem z1 := rfl
@[simp] theorem State.setQuarry_ctxAt (s : State) (q : Nat) (v : Quarry) (z1 : Nat) : (s.setQuarry q v).ctxAt z1 = s.ctxAt z1 := rfl

/-! ### State.setSlab -/

@[simp] theorem State.setSlab_now (s : State) (i : Nat) (v : Slab) : (s.setSlab i v).now = s.now := rfl
@[simp] theorem State.setSlab_regs (s : State) (i : Nat) (v : Slab) : (s.setSlab i v).regs = s.regs := rfl
@[simp] theorem State.setSlab_quarries (s : State) (i : Nat) (v : Slab) : (s.setSlab i v).quarries = s.quarries := rfl
@[simp] theorem State.setSlab_core (s : State) (i : Nat) (v : Slab) : (s.setSlab i v).core = s.core := rfl
@[simp] theorem State.setSlab_mem (s : State) (i : Nat) (v : Slab) : (s.setSlab i v).mem = s.mem := rfl
@[simp] theorem State.setSlab_ctx (s : State) (i : Nat) (v : Slab) : (s.setSlab i v).ctx = s.ctx := rfl
@[simp] theorem State.setSlab_host (s : State) (i : Nat) (v : Slab) : (s.setSlab i v).host = s.host := rfl
@[simp] theorem State.setSlab_err (s : State) (i : Nat) (v : Slab) : (s.setSlab i v).err = s.err := rfl
@[simp] theorem State.setSlab_ws (s : State) (i : Nat) (v : Slab) : (s.setSlab i v).ws = s.ws := rfl
@[simp] theorem State.setSlab_kv (s : State) (i : Nat) (v : Slab) : (s.setSlab i v).kv = s.kv := rfl
@[simp] theorem State.setSlab_vein (s : State) (i : Nat) (v : Slab) : (s.setSlab i v).vein = s.vein := rfl
@[simp] theorem State.setSlab_coll (s : State) (i : Nat) (v : Slab) : (s.setSlab i v).coll = s.coll := rfl
@[simp] theorem State.setSlab_fos (s : State) (i : Nat) (v : Slab) : (s.setSlab i v).fos = s.fos := rfl
@[simp] theorem State.setSlab_fw (s : State) (i : Nat) (v : Slab) : (s.setSlab i v).fw = s.fw := rfl
@[simp] theorem State.setSlab_blk (s : State) (i : Nat) (v : Slab) : (s.setSlab i v).blk = s.blk := rfl
@[simp] theorem State.setSlab_pins (s : State) (i : Nat) (v : Slab) : (s.setSlab i v).pins = s.pins := rfl
@[simp] theorem State.setSlab_freeCtr (s : State) (i : Nat) (v : Slab) : (s.setSlab i v).freeCtr = s.freeCtr := rfl
@[simp] theorem State.setSlab_pending (s : State) (i : Nat) (v : Slab) : (s.setSlab i v).pending = s.pending := rfl
@[simp] theorem State.setSlab_rd (s : State) (i : Nat) (v : Slab) (o : Nat) : (s.setSlab i v).rd o = s.rd o := rfl
@[simp] theorem State.setSlab_fld (s : State) (i : Nat) (v : Slab) (g : Fld) : (s.setSlab i v).fld g = s.fld g := rfl
@[simp] theorem State.setSlab_flag (s : State) (i : Nat) (v : Slab) (g : Fld) : (s.setSlab i v).flag g = s.flag g := rfl
@[simp] theorem State.setSlab_quarry (s : State) (i : Nat) (v : Slab) (z1 : Nat) : (s.setSlab i v).quarry z1 = s.quarry z1 := rfl
@[simp] theorem State.setSlab_stream (s : State) (i : Nat) (v : Slab) (z1 z2 : Nat) : (s.setSlab i v).stream z1 z2 = s.stream z1 z2 := rfl
@[simp] theorem State.setSlab_sem (s : State) (i : Nat) (v : Slab) (z1 : Nat) : (s.setSlab i v).sem z1 = s.sem z1 := rfl
@[simp] theorem State.setSlab_ctxAt (s : State) (i : Nat) (v : Slab) (z1 : Nat) : (s.setSlab i v).ctxAt z1 = s.ctxAt z1 := rfl

/-! ### State.setCtx -/

@[simp] theorem State.setCtx_now (s : State) (c : Nat) (v : Ctx) : (s.setCtx c v).now = s.now := rfl
@[simp] theorem State.setCtx_regs (s : State) (c : Nat) (v : Ctx) : (s.setCtx c v).regs = s.regs := rfl
@[simp] theorem State.setCtx_quarries (s : State) (c : Nat) (v : Ctx) : (s.setCtx c v).quarries = s.quarries := rfl
@[simp] theorem State.setCtx_core (s : State) (c : Nat) (v : Ctx) : (s.setCtx c v).core = s.core := rfl
@[simp] theorem State.setCtx_mem (s : State) (c : Nat) (v : Ctx) : (s.setCtx c v).mem = s.mem := rfl
@[simp] theorem State.setCtx_host (s : State) (c : Nat) (v : Ctx) : (s.setCtx c v).host = s.host := rfl
@[simp] theorem State.setCtx_err (s : State) (c : Nat) (v : Ctx) : (s.setCtx c v).err = s.err := rfl
@[simp] theorem State.setCtx_ws (s : State) (c : Nat) (v : Ctx) : (s.setCtx c v).ws = s.ws := rfl
@[simp] theorem State.setCtx_kv (s : State) (c : Nat) (v : Ctx) : (s.setCtx c v).kv = s.kv := rfl
@[simp] theorem State.setCtx_pwr (s : State) (c : Nat) (v : Ctx) : (s.setCtx c v).pwr = s.pwr := rfl
@[simp] theorem State.setCtx_vein (s : State) (c : Nat) (v : Ctx) : (s.setCtx c v).vein = s.vein := rfl
@[simp] theorem State.setCtx_coll (s : State) (c : Nat) (v : Ctx) : (s.setCtx c v).coll = s.coll := rfl
@[simp] theorem State.setCtx_fos (s : State) (c : Nat) (v : Ctx) : (s.setCtx c v).fos = s.fos := rfl
@[simp] theorem State.setCtx_fw (s : State) (c : Nat) (v : Ctx) : (s.setCtx c v).fw = s.fw := rfl
@[simp] theorem State.setCtx_blk (s : State) (c : Nat) (v : Ctx) : (s.setCtx c v).blk = s.blk := rfl
@[simp] theorem State.setCtx_pins (s : State) (c : Nat) (v : Ctx) : (s.setCtx c v).pins = s.pins := rfl
@[simp] theorem State.setCtx_freeCtr (s : State) (c : Nat) (v : Ctx) : (s.setCtx c v).freeCtr = s.freeCtr := rfl
@[simp] theorem State.setCtx_pending (s : State) (c : Nat) (v : Ctx) : (s.setCtx c v).pending = s.pending := rfl
@[simp] theorem State.setCtx_rd (s : State) (c : Nat) (v : Ctx) (o : Nat) : (s.setCtx c v).rd o = s.rd o := rfl
@[simp] theorem State.setCtx_fld (s : State) (c : Nat) (v : Ctx) (g : Fld) : (s.setCtx c v).fld g = s.fld g := rfl
@[simp] theorem State.setCtx_flag (s : State) (c : Nat) (v : Ctx) (g : Fld) : (s.setCtx c v).flag g = s.flag g := rfl
@[simp] theorem State.setCtx_quarry (s : State) (c : Nat) (v : Ctx) (z1 : Nat) : (s.setCtx c v).quarry z1 = s.quarry z1 := rfl
@[simp] theorem State.setCtx_stream (s : State) (c : Nat) (v : Ctx) (z1 z2 : Nat) : (s.setCtx c v).stream z1 z2 = s.stream z1 z2 := rfl
@[simp] theorem State.setCtx_sem (s : State) (c : Nat) (v : Ctx) (z1 : Nat) : (s.setCtx c v).sem z1 = s.sem z1 := rfl

/-! ### State.setPlan -/

@[simp] theorem State.setPlan_now (s : State) (c core : Nat) (p : Plan) : (s.setPlan c core p).now = s.now := rfl
@[simp] theorem State.setPlan_regs (s : State) (c core : Nat) (p : Plan) : (s.setPlan c core p).regs = s.regs := rfl
@[simp] theorem State.setPlan_quarries (s : State) (c core : Nat) (p : Plan) : (s.setPlan c core p).quarries = s.quarries := rfl
@[simp] theorem State.setPlan_core (s : State) (c core : Nat) (p : Plan) : (s.setPlan c core p).core = s.core := rfl
@[simp] theorem State.setPlan_mem (s : State) (c core : Nat) (p : Plan) : (s.setPlan c core p).mem = s.mem := rfl
@[simp] theorem State.setPlan_host (s : State) (c core : Nat) (p : Plan) : (s.setPlan c core p).host = s.host := rfl
@[simp] theorem State.setPlan_err (s : State) (c core : Nat) (p : Plan) : (s.setPlan c core p).err = s.err := rfl
@[simp] theorem State.setPlan_ws (s : State) (c core : Nat) (p : Plan) : (s.setPlan c core p).ws = s.ws := rfl
@[simp] theorem State.setPlan_kv (s : State) (c core : Nat) (p : Plan) : (s.setPlan c core p).kv = s.kv := rfl
@[simp] theorem State.setPlan_pwr (s : State) (c core : Nat) (p : Plan) : (s.setPlan c core p).pwr = s.pwr := rfl
@[simp] theorem State.setPlan_vein (s : State) (c core : Nat) (p : Plan) : (s.setPlan c core p).vein = s.vein := rfl
@[simp] theorem State.setPlan_coll (s : State) (c core : Nat) (p : Plan) : (s.setPlan c core p).coll = s.coll := rfl
@[simp] theorem State.setPlan_fos (s : State) (c core : Nat) (p : Plan) : (s.setPlan c core p).fos = s.fos := rfl
@[simp] theorem State.setPlan_fw (s : State) (c core : Nat) (p : Plan) : (s.setPlan c core p).fw = s.fw := rfl
@[simp] theorem State.setPlan_blk (s : State) (c core : Nat) (p : Plan) : (s.setPlan c core p).blk = s.blk := rfl
@[simp] theorem State.setPlan_pins (s : State) (c core : Nat) (p : Plan) : (s.setPlan c core p).pins = s.pins := rfl
@[simp] theorem State.setPlan_freeCtr (s : State) (c core : Nat) (p : Plan) : (s.setPlan c core p).freeCtr = s.freeCtr := rfl
@[simp] theorem State.setPlan_pending (s : State) (c core : Nat) (p : Plan) : (s.setPlan c core p).pending = s.pending := rfl
@[simp] theorem State.setPlan_rd (s : State) (c core : Nat) (p : Plan) (o : Nat) : (s.setPlan c core p).rd o = s.rd o := rfl
@[simp] theorem State.setPlan_fld (s : State) (c core : Nat) (p : Plan) (g : Fld) : (s.setPlan c core p).fld g = s.fld g := rfl
@[simp] theorem State.setPlan_flag (s : State) (c core : Nat) (p : Plan) (g : Fld) : (s.setPlan c core p).flag g = s.flag g := rfl
@[simp] theorem State.setPlan_quarry (s : State) (c core : Nat) (p : Plan) (z1 : Nat) : (s.setPlan c core p).quarry z1 = s.quarry z1 := rfl
@[simp] theorem State.setPlan_stream (s : State) (c core : Nat) (p : Plan) (z1 z2 : Nat) : (s.setPlan c core p).stream z1 z2 = s.stream z1 z2 := rfl
@[simp] theorem State.setPlan_sem (s : State) (c core : Nat) (p : Plan) (z1 : Nat) : (s.setPlan c core p).sem z1 = s.sem z1 := rfl

/-! ### State.setStream -/

@[simp] theorem State.setStream_now (s : State) (c n : Nat) (v : Stream) : (s.setStream c n v).now = s.now := rfl
@[simp] theorem State.setStream_regs (s : State) (c n : Nat) (v : Stream) : (s.setStream c n v).regs = s.regs := rfl
@[simp] theorem State.setStream_quarries (s : State) (c n : Nat) (v : Stream) : (s.setStream c n v).quarries = s.quarries := rfl
@[simp] theorem State.setStream_mem (s : State) (c n : Nat) (v : Stream) : (s.setStream c n v).mem = s.mem := rfl
@[simp] theorem State.setStream_ctx (s : State) (c n : Nat) (v : Stream) : (s.setStream c n v).ctx = s.ctx := rfl
@[simp] theorem State.setStream_host (s : State) (c n : Nat) (v : Stream) : (s.setStream c n v).host = s.host := rfl
@[simp] theorem State.setStream_err (s : State) (c n : Nat) (v : Stream) : (s.setStream c n v).err = s.err := rfl
@[simp] theorem State.setStream_ws (s : State) (c n : Nat) (v : Stream) : (s.setStream c n v).ws = s.ws := rfl
@[simp] theorem State.setStream_kv (s : State) (c n : Nat) (v : Stream) : (s.setStream c n v).kv = s.kv := rfl
@[simp] theorem State.setStream_pwr (s : State) (c n : Nat) (v : Stream) : (s.setStream c n v).pwr = s.pwr := rfl
@[simp] theorem State.setStream_vein (s : State) (c n : Nat) (v : Stream) : (s.setStream c n v).vein = s.vein := rfl
@[simp] theorem State.setStream_coll (s : State) (c n : Nat) (v : Stream) : (s.setStream c n v).coll = s.coll := rfl
@[simp] theorem State.setStream_fos (s : State) (c n : Nat) (v : Stream) : (s.setStream c n v).fos = s.fos := rfl
@[simp] theorem State.setStream_fw (s : State) (c n : Nat) (v : Stream) : (s.setStream c n v).fw = s.fw := rfl
@[simp] theorem State.setStream_blk (s : State) (c n : Nat) (v : Stream) : (s.setStream c n v).blk = s.blk := rfl
@[simp] theorem State.setStream_pins (s : State) (c n : Nat) (v : Stream) : (s.setStream c n v).pins = s.pins := rfl
@[simp] theorem State.setStream_freeCtr (s : State) (c n : Nat) (v : Stream) : (s.setStream c n v).freeCtr = s.freeCtr := rfl
@[simp] theorem State.setStream_pending (s : State) (c n : Nat) (v : Stream) : (s.setStream c n v).pending = s.pending := rfl
@[simp] theorem State.setStream_rd (s : State) (c n : Nat) (v : Stream) (o : Nat) : (s.setStream c n v).rd o = s.rd o := rfl
@[simp] theorem State.setStream_fld (s : State) (c n : Nat) (v : Stream) (g : Fld) : (s.setStream c n v).fld g = s.fld g := rfl
@[simp] theorem State.setStream_flag (s : State) (c n : Nat) (v : Stream) (g : Fld) : (s.setStream c n v).flag g = s.flag g := rfl
@[simp] theorem State.setStream_quarry (s : State) (c n : Nat) (v : Stream) (z1 : Nat) : (s.setStream c n v).quarry z1 = s.quarry z1 := rfl
@[simp] theorem State.setStream_ctxAt (s : State) (c n : Nat) (v : Stream) (z1 : Nat) : (s.setStream c n v).ctxAt z1 = s.ctxAt z1 := rfl

/-! ### State.setSem -/

@[simp] theorem State.setSem_now (s : State) (k : Nat) (v : Sem) : (s.setSem k v).now = s.now := rfl
@[simp] theorem State.setSem_regs (s : State) (k : Nat) (v : Sem) : (s.setSem k v).regs = s.regs := rfl
@[simp] theorem State.setSem_quarries (s : State) (k : Nat) (v : Sem) : (s.setSem k v).quarries = s.quarries := rfl
@[simp] theorem State.setSem_mem (s : State) (k : Nat) (v : Sem) : (s.setSem k v).mem = s.mem := rfl
@[simp] theorem State.setSem_ctx (s : State) (k : Nat) (v : Sem) : (s.setSem k v).ctx = s.ctx := rfl
@[simp] theorem State.setSem_host (s : State) (k : Nat) (v : Sem) : (s.setSem k v).host = s.host := rfl
@[simp] theorem State.setSem_err (s : State) (k : Nat) (v : Sem) : (s.setSem k v).err = s.err := rfl
@[simp] theorem State.setSem_ws (s : State) (k : Nat) (v : Sem) : (s.setSem k v).ws = s.ws := rfl
@[simp] theorem State.setSem_kv (s : State) (k : Nat) (v : Sem) : (s.setSem k v).kv = s.kv := rfl
@[simp] theorem State.setSem_pwr (s : State) (k : Nat) (v : Sem) : (s.setSem k v).pwr = s.pwr := rfl
@[simp] theorem State.setSem_vein (s : State) (k : Nat) (v : Sem) : (s.setSem k v).vein = s.vein := rfl
@[simp] theorem State.setSem_coll (s : State) (k : Nat) (v : Sem) : (s.setSem k v).coll = s.coll := rfl
@[simp] theorem State.setSem_fos (s : State) (k : Nat) (v : Sem) : (s.setSem k v).fos = s.fos := rfl
@[simp] theorem State.setSem_fw (s : State) (k : Nat) (v : Sem) : (s.setSem k v).fw = s.fw := rfl
@[simp] theorem State.setSem_blk (s : State) (k : Nat) (v : Sem) : (s.setSem k v).blk = s.blk := rfl
@[simp] theorem State.setSem_pins (s : State) (k : Nat) (v : Sem) : (s.setSem k v).pins = s.pins := rfl
@[simp] theorem State.setSem_freeCtr (s : State) (k : Nat) (v : Sem) : (s.setSem k v).freeCtr = s.freeCtr := rfl
@[simp] theorem State.setSem_pending (s : State) (k : Nat) (v : Sem) : (s.setSem k v).pending = s.pending := rfl
@[simp] theorem State.setSem_rd (s : State) (k : Nat) (v : Sem) (o : Nat) : (s.setSem k v).rd o = s.rd o := rfl
@[simp] theorem State.setSem_fld (s : State) (k : Nat) (v : Sem) (g : Fld) : (s.setSem k v).fld g = s.fld g := rfl
@[simp] theorem State.setSem_flag (s : State) (k : Nat) (v : Sem) (g : Fld) : (s.setSem k v).flag g = s.flag g := rfl
@[simp] theorem State.setSem_quarry (s : State) (k : Nat) (v : Sem) (z1 : Nat) : (s.setSem k v).quarry z1 = s.quarry z1 := rfl
@[simp] theorem State.setSem_ctxAt (s : State) (k : Nat) (v : Sem) (z1 : Nat) : (s.setSem k v).ctxAt z1 = s.ctxAt z1 := rfl

/-! ### State.setTile -/

@[simp] theorem State.setTile_now (s : State) (v : Tile) : (s.setTile v).now = s.now := rfl
@[simp] theorem State.setTile_regs (s : State) (v : Tile) : (s.setTile v).regs = s.regs := rfl
@[simp] theorem State.setTile_quarries (s : State) (v : Tile) : (s.setTile v).quarries = s.quarries := rfl
@[simp] theorem State.setTile_mem (s : State) (v : Tile) : (s.setTile v).mem = s.mem := rfl
@[simp] theorem State.setTile_ctx (s : State) (v : Tile) : (s.setTile v).ctx = s.ctx := rfl
@[simp] theorem State.setTile_host (s : State) (v : Tile) : (s.setTile v).host = s.host := rfl
@[simp] theorem State.setTile_err (s : State) (v : Tile) : (s.setTile v).err = s.err := rfl
@[simp] theorem State.setTile_ws (s : State) (v : Tile) : (s.setTile v).ws = s.ws := rfl
@[simp] theorem State.setTile_kv (s : State) (v : Tile) : (s.setTile v).kv = s.kv := rfl
@[simp] theorem State.setTile_pwr (s : State) (v : Tile) : (s.setTile v).pwr = s.pwr := rfl
@[simp] theorem State.setTile_vein (s : State) (v : Tile) : (s.setTile v).vein = s.vein := rfl
@[simp] theorem State.setTile_coll (s : State) (v : Tile) : (s.setTile v).coll = s.coll := rfl
@[simp] theorem State.setTile_fos (s : State) (v : Tile) : (s.setTile v).fos = s.fos := rfl
@[simp] theorem State.setTile_fw (s : State) (v : Tile) : (s.setTile v).fw = s.fw := rfl
@[simp] theorem State.setTile_blk (s : State) (v : Tile) : (s.setTile v).blk = s.blk := rfl
@[simp] theorem State.setTile_pins (s : State) (v : Tile) : (s.setTile v).pins = s.pins := rfl
@[simp] theorem State.setTile_freeCtr (s : State) (v : Tile) : (s.setTile v).freeCtr = s.freeCtr := rfl
@[simp] theorem State.setTile_pending (s : State) (v : Tile) : (s.setTile v).pending = s.pending := rfl
@[simp] theorem State.setTile_rd (s : State) (v : Tile) (o : Nat) : (s.setTile v).rd o = s.rd o := rfl
@[simp] theorem State.setTile_fld (s : State) (v : Tile) (g : Fld) : (s.setTile v).fld g = s.fld g := rfl
@[simp] theorem State.setTile_flag (s : State) (v : Tile) (g : Fld) : (s.setTile v).flag g = s.flag g := rfl
@[simp] theorem State.setTile_quarry (s : State) (v : Tile) (z1 : Nat) : (s.setTile v).quarry z1 = s.quarry z1 := rfl
@[simp] theorem State.setTile_ctxAt (s : State) (v : Tile) (z1 : Nat) : (s.setTile v).ctxAt z1 = s.ctxAt z1 := rfl

/-! ### State.dropTile -/

@[simp] theorem State.dropTile_now (s : State) (c n : Nat) : (s.dropTile c n).now = s.now := rfl
@[simp] theorem State.dropTile_regs (s : State) (c n : Nat) : (s.dropTile c n).regs = s.regs := rfl
@[simp] theorem State.dropTile_quarries (s : State) (c n : Nat) : (s.dropTile c n).quarries = s.quarries := rfl
@[simp] theorem State.dropTile_mem (s : State) (c n : Nat) : (s.dropTile c n).mem = s.mem := rfl
@[simp] theorem State.dropTile_ctx (s : State) (c n : Nat) : (s.dropTile c n).ctx = s.ctx := rfl
@[simp] theorem State.dropTile_host (s : State) (c n : Nat) : (s.dropTile c n).host = s.host := rfl
@[simp] theorem State.dropTile_err (s : State) (c n : Nat) : (s.dropTile c n).err = s.err := rfl
@[simp] theorem State.dropTile_ws (s : State) (c n : Nat) : (s.dropTile c n).ws = s.ws := rfl
@[simp] theorem State.dropTile_kv (s : State) (c n : Nat) : (s.dropTile c n).kv = s.kv := rfl
@[simp] theorem State.dropTile_pwr (s : State) (c n : Nat) : (s.dropTile c n).pwr = s.pwr := rfl
@[simp] theorem State.dropTile_vein (s : State) (c n : Nat) : (s.dropTile c n).vein = s.vein := rfl
@[simp] theorem State.dropTile_coll (s : State) (c n : Nat) : (s.dropTile c n).coll = s.coll := rfl
@[simp] theorem State.dropTile_fos (s : State) (c n : Nat) : (s.dropTile c n).fos = s.fos := rfl
@[simp] theorem State.dropTile_fw (s : State) (c n : Nat) : (s.dropTile c n).fw = s.fw := rfl
@[simp] theorem State.dropTile_blk (s : State) (c n : Nat) : (s.dropTile c n).blk = s.blk := rfl
@[simp] theorem State.dropTile_pins (s : State) (c n : Nat) : (s.dropTile c n).pins = s.pins := rfl
@[simp] theorem State.dropTile_freeCtr (s : State) (c n : Nat) : (s.dropTile c n).freeCtr = s.freeCtr := rfl
@[simp] theorem State.dropTile_pending (s : State) (c n : Nat) : (s.dropTile c n).pending = s.pending := rfl
@[simp] theorem State.dropTile_rd (s : State) (c n : Nat) (o : Nat) : (s.dropTile c n).rd o = s.rd o := rfl
@[simp] theorem State.dropTile_fld (s : State) (c n : Nat) (g : Fld) : (s.dropTile c n).fld g = s.fld g := rfl
@[simp] theorem State.dropTile_flag (s : State) (c n : Nat) (g : Fld) : (s.dropTile c n).flag g = s.flag g := rfl
@[simp] theorem State.dropTile_quarry (s : State) (c n : Nat) (z1 : Nat) : (s.dropTile c n).quarry z1 = s.quarry z1 := rfl
@[simp] theorem State.dropTile_ctxAt (s : State) (c n : Nat) (z1 : Nat) : (s.dropTile c n).ctxAt z1 = s.ctxAt z1 := rfl

/-! ### State.setFence -/

@[simp] theorem State.setFence_now (s : State) (dom i : Nat) : (s.setFence dom i).now = s.now := rfl
@[simp] theorem State.setFence_regs (s : State) (dom i : Nat) : (s.setFence dom i).regs = s.regs := rfl
@[simp] theorem State.setFence_quarries (s : State) (dom i : Nat) : (s.setFence dom i).quarries = s.quarries := rfl
@[simp] theorem State.setFence_core (s : State) (dom i : Nat) : (s.setFence dom i).core = s.core := rfl
@[simp] theorem State.setFence_mem (s : State) (dom i : Nat) : (s.setFence dom i).mem = s.mem := rfl
@[simp] theorem State.setFence_ctx (s : State) (dom i : Nat) : (s.setFence dom i).ctx = s.ctx := rfl
@[simp] theorem State.setFence_host (s : State) (dom i : Nat) : (s.setFence dom i).host = s.host := rfl
@[simp] theorem State.setFence_ws (s : State) (dom i : Nat) : (s.setFence dom i).ws = s.ws := rfl
@[simp] theorem State.setFence_kv (s : State) (dom i : Nat) : (s.setFence dom i).kv = s.kv := rfl
@[simp] theorem State.setFence_pwr (s : State) (dom i : Nat) : (s.setFence dom i).pwr = s.pwr := rfl
@[simp] theorem State.setFence_vein (s : State) (dom i : Nat) : (s.setFence dom i).vein = s.vein := rfl
@[simp] theorem State.setFence_coll (s : State) (dom i : Nat) : (s.setFence dom i).coll = s.coll := rfl
@[simp] theorem State.setFence_fos (s : State) (dom i : Nat) : (s.setFence dom i).fos = s.fos := rfl
@[simp] theorem State.setFence_fw (s : State) (dom i : Nat) : (s.setFence dom i).fw = s.fw := rfl
@[simp] theorem State.setFence_blk (s : State) (dom i : Nat) : (s.setFence dom i).blk = s.blk := rfl
@[simp] theorem State.setFence_pins (s : State) (dom i : Nat) : (s.setFence dom i).pins = s.pins := rfl
@[simp] theorem State.setFence_freeCtr (s : State) (dom i : Nat) : (s.setFence dom i).freeCtr = s.freeCtr := rfl
@[simp] theorem State.setFence_pending (s : State) (dom i : Nat) : (s.setFence dom i).pending = s.pending := rfl
@[simp] theorem State.setFence_rd (s : State) (dom i : Nat) (o : Nat) : (s.setFence dom i).rd o = s.rd o := rfl
@[simp] theorem State.setFence_fld (s : State) (dom i : Nat) (g : Fld) : (s.setFence dom i).fld g = s.fld g := rfl
@[simp] theorem State.setFence_flag (s : State) (dom i : Nat) (g : Fld) : (s.setFence dom i).flag g = s.flag g := rfl
@[simp] theorem State.setFence_quarry (s : State) (dom i : Nat) (z1 : Nat) : (s.setFence dom i).quarry z1 = s.quarry z1 := rfl
@[simp] theorem State.setFence_stream (s : State) (dom i : Nat) (z1 z2 : Nat) : (s.setFence dom i).stream z1 z2 = s.stream z1 z2 := rfl
@[simp] theorem State.setFence_sem (s : State) (dom i : Nat) (z1 : Nat) : (s.setFence dom i).sem z1 = s.sem z1 := rfl
@[simp] theorem State.setFence_ctxAt (s : State) (dom i : Nat) (z1 : Nat) : (s.setFence dom i).ctxAt z1 = s.ctxAt z1 := rfl

/-! ### State.setRec -/

@[simp] theorem State.setRec_now (s : State) (i : Nat) (r : ErrRec) : (s.setRec i r).now = s.now := rfl
@[simp] theorem State.setRec_regs (s : State) (i : Nat) (r : ErrRec) : (s.setRec i r).regs = s.regs := rfl
@[simp] theorem State.setRec_quarries (s : State) (i : Nat) (r : ErrRec) : (s.setRec i r).quarries = s.quarries := rfl
@[simp] theorem State.setRec_core (s : State) (i : Nat) (r : ErrRec) : (s.setRec i r).core = s.core := rfl
@[simp] theorem State.setRec_mem (s : State) (i : Nat) (r : ErrRec) : (s.setRec i r).mem = s.mem := rfl
@[simp] theorem State.setRec_ctx (s : State) (i : Nat) (r : ErrRec) : (s.setRec i r).ctx = s.ctx := rfl
@[simp] theorem State.setRec_host (s : State) (i : Nat) (r : ErrRec) : (s.setRec i r).host = s.host := rfl
@[simp] theorem State.setRec_ws (s : State) (i : Nat) (r : ErrRec) : (s.setRec i r).ws = s.ws := rfl
@[simp] theorem State.setRec_kv (s : State) (i : Nat) (r : ErrRec) : (s.setRec i r).kv = s.kv := rfl
@[simp] theorem State.setRec_pwr (s : State) (i : Nat) (r : ErrRec) : (s.setRec i r).pwr = s.pwr := rfl
@[simp] theorem State.setRec_vein (s : State) (i : Nat) (r : ErrRec) : (s.setRec i r).vein = s.vein := rfl
@[simp] theorem State.setRec_coll (s : State) (i : Nat) (r : ErrRec) : (s.setRec i r).coll = s.coll := rfl
@[simp] theorem State.setRec_fos (s : State) (i : Nat) (r : ErrRec) : (s.setRec i r).fos = s.fos := rfl
@[simp] theorem State.setRec_fw (s : State) (i : Nat) (r : ErrRec) : (s.setRec i r).fw = s.fw := rfl
@[simp] theorem State.setRec_blk (s : State) (i : Nat) (r : ErrRec) : (s.setRec i r).blk = s.blk := rfl
@[simp] theorem State.setRec_pins (s : State) (i : Nat) (r : ErrRec) : (s.setRec i r).pins = s.pins := rfl
@[simp] theorem State.setRec_freeCtr (s : State) (i : Nat) (r : ErrRec) : (s.setRec i r).freeCtr = s.freeCtr := rfl
@[simp] theorem State.setRec_pending (s : State) (i : Nat) (r : ErrRec) : (s.setRec i r).pending = s.pending := rfl
@[simp] theorem State.setRec_rd (s : State) (i : Nat) (r : ErrRec) (o : Nat) : (s.setRec i r).rd o = s.rd o := rfl
@[simp] theorem State.setRec_fld (s : State) (i : Nat) (r : ErrRec) (g : Fld) : (s.setRec i r).fld g = s.fld g := rfl
@[simp] theorem State.setRec_flag (s : State) (i : Nat) (r : ErrRec) (g : Fld) : (s.setRec i r).flag g = s.flag g := rfl
@[simp] theorem State.setRec_quarry (s : State) (i : Nat) (r : ErrRec) (z1 : Nat) : (s.setRec i r).quarry z1 = s.quarry z1 := rfl
@[simp] theorem State.setRec_stream (s : State) (i : Nat) (r : ErrRec) (z1 z2 : Nat) : (s.setRec i r).stream z1 z2 = s.stream z1 z2 := rfl
@[simp] theorem State.setRec_sem (s : State) (i : Nat) (r : ErrRec) (z1 : Nat) : (s.setRec i r).sem z1 = s.sem z1 := rfl
@[simp] theorem State.setRec_ctxAt (s : State) (i : Nat) (r : ErrRec) (z1 : Nat) : (s.setRec i r).ctxAt z1 = s.ctxAt z1 := rfl

/-! ### State.setEvid -/

@[simp] theorem State.setEvid_now (s : State) (i : Nat) (v : Evid) : (s.setEvid i v).now = s.now := rfl
@[simp] theorem State.setEvid_regs (s : State) (i : Nat) (v : Evid) : (s.setEvid i v).regs = s.regs := rfl
@[simp] theorem State.setEvid_quarries (s : State) (i : Nat) (v : Evid) : (s.setEvid i v).quarries = s.quarries := rfl
@[simp] theorem State.setEvid_core (s : State) (i : Nat) (v : Evid) : (s.setEvid i v).core = s.core := rfl
@[simp] theorem State.setEvid_mem (s : State) (i : Nat) (v : Evid) : (s.setEvid i v).mem = s.mem := rfl
@[simp] theorem State.setEvid_ctx (s : State) (i : Nat) (v : Evid) : (s.setEvid i v).ctx = s.ctx := rfl
@[simp] theorem State.setEvid_host (s : State) (i : Nat) (v : Evid) : (s.setEvid i v).host = s.host := rfl
@[simp] theorem State.setEvid_ws (s : State) (i : Nat) (v : Evid) : (s.setEvid i v).ws = s.ws := rfl
@[simp] theorem State.setEvid_kv (s : State) (i : Nat) (v : Evid) : (s.setEvid i v).kv = s.kv := rfl
@[simp] theorem State.setEvid_pwr (s : State) (i : Nat) (v : Evid) : (s.setEvid i v).pwr = s.pwr := rfl
@[simp] theorem State.setEvid_vein (s : State) (i : Nat) (v : Evid) : (s.setEvid i v).vein = s.vein := rfl
@[simp] theorem State.setEvid_coll (s : State) (i : Nat) (v : Evid) : (s.setEvid i v).coll = s.coll := rfl
@[simp] theorem State.setEvid_fos (s : State) (i : Nat) (v : Evid) : (s.setEvid i v).fos = s.fos := rfl
@[simp] theorem State.setEvid_fw (s : State) (i : Nat) (v : Evid) : (s.setEvid i v).fw = s.fw := rfl
@[simp] theorem State.setEvid_blk (s : State) (i : Nat) (v : Evid) : (s.setEvid i v).blk = s.blk := rfl
@[simp] theorem State.setEvid_pins (s : State) (i : Nat) (v : Evid) : (s.setEvid i v).pins = s.pins := rfl
@[simp] theorem State.setEvid_freeCtr (s : State) (i : Nat) (v : Evid) : (s.setEvid i v).freeCtr = s.freeCtr := rfl
@[simp] theorem State.setEvid_pending (s : State) (i : Nat) (v : Evid) : (s.setEvid i v).pending = s.pending := rfl
@[simp] theorem State.setEvid_rd (s : State) (i : Nat) (v : Evid) (o : Nat) : (s.setEvid i v).rd o = s.rd o := rfl
@[simp] theorem State.setEvid_fld (s : State) (i : Nat) (v : Evid) (g : Fld) : (s.setEvid i v).fld g = s.fld g := rfl
@[simp] theorem State.setEvid_flag (s : State) (i : Nat) (v : Evid) (g : Fld) : (s.setEvid i v).flag g = s.flag g := rfl
@[simp] theorem State.setEvid_quarry (s : State) (i : Nat) (v : Evid) (z1 : Nat) : (s.setEvid i v).quarry z1 = s.quarry z1 := rfl
@[simp] theorem State.setEvid_stream (s : State) (i : Nat) (v : Evid) (z1 z2 : Nat) : (s.setEvid i v).stream z1 z2 = s.stream z1 z2 := rfl
@[simp] theorem State.setEvid_sem (s : State) (i : Nat) (v : Evid) (z1 : Nat) : (s.setEvid i v).sem z1 = s.sem z1 := rfl
@[simp] theorem State.setEvid_ctxAt (s : State) (i : Nat) (v : Evid) (z1 : Nat) : (s.setEvid i v).ctxAt z1 = s.ctxAt z1 := rfl

/-! ### State.setSlot -/

@[simp] theorem State.setSlot_now (s : State) (q : Nat) (v : Slot) : (s.setSlot q v).now = s.now := rfl
@[simp] theorem State.setSlot_regs (s : State) (q : Nat) (v : Slot) : (s.setSlot q v).regs = s.regs := rfl
@[simp] theorem State.setSlot_quarries (s : State) (q : Nat) (v : Slot) : (s.setSlot q v).quarries = s.quarries := rfl
@[simp] theorem State.setSlot_core (s : State) (q : Nat) (v : Slot) : (s.setSlot q v).core = s.core := rfl
@[simp] theorem State.setSlot_mem (s : State) (q : Nat) (v : Slot) : (s.setSlot q v).mem = s.mem := rfl
@[simp] theorem State.setSlot_ctx (s : State) (q : Nat) (v : Slot) : (s.setSlot q v).ctx = s.ctx := rfl
@[simp] theorem State.setSlot_host (s : State) (q : Nat) (v : Slot) : (s.setSlot q v).host = s.host := rfl
@[simp] theorem State.setSlot_err (s : State) (q : Nat) (v : Slot) : (s.setSlot q v).err = s.err := rfl
@[simp] theorem State.setSlot_ws (s : State) (q : Nat) (v : Slot) : (s.setSlot q v).ws = s.ws := rfl
@[simp] theorem State.setSlot_pwr (s : State) (q : Nat) (v : Slot) : (s.setSlot q v).pwr = s.pwr := rfl
@[simp] theorem State.setSlot_vein (s : State) (q : Nat) (v : Slot) : (s.setSlot q v).vein = s.vein := rfl
@[simp] theorem State.setSlot_coll (s : State) (q : Nat) (v : Slot) : (s.setSlot q v).coll = s.coll := rfl
@[simp] theorem State.setSlot_fos (s : State) (q : Nat) (v : Slot) : (s.setSlot q v).fos = s.fos := rfl
@[simp] theorem State.setSlot_fw (s : State) (q : Nat) (v : Slot) : (s.setSlot q v).fw = s.fw := rfl
@[simp] theorem State.setSlot_blk (s : State) (q : Nat) (v : Slot) : (s.setSlot q v).blk = s.blk := rfl
@[simp] theorem State.setSlot_pins (s : State) (q : Nat) (v : Slot) : (s.setSlot q v).pins = s.pins := rfl
@[simp] theorem State.setSlot_freeCtr (s : State) (q : Nat) (v : Slot) : (s.setSlot q v).freeCtr = s.freeCtr := rfl
@[simp] theorem State.setSlot_pending (s : State) (q : Nat) (v : Slot) : (s.setSlot q v).pending = s.pending := rfl
@[simp] theorem State.setSlot_rd (s : State) (q : Nat) (v : Slot) (o : Nat) : (s.setSlot q v).rd o = s.rd o := rfl
@[simp] theorem State.setSlot_fld (s : State) (q : Nat) (v : Slot) (g : Fld) : (s.setSlot q v).fld g = s.fld g := rfl
@[simp] theorem State.setSlot_flag (s : State) (q : Nat) (v : Slot) (g : Fld) : (s.setSlot q v).flag g = s.flag g := rfl
@[simp] theorem State.setSlot_quarry (s : State) (q : Nat) (v : Slot) (z1 : Nat) : (s.setSlot q v).quarry z1 = s.quarry z1 := rfl
@[simp] theorem State.setSlot_stream (s : State) (q : Nat) (v : Slot) (z1 z2 : Nat) : (s.setSlot q v).stream z1 z2 = s.stream z1 z2 := rfl
@[simp] theorem State.setSlot_sem (s : State) (q : Nat) (v : Slot) (z1 : Nat) : (s.setSlot q v).sem z1 = s.sem z1 := rfl
@[simp] theorem State.setSlot_ctxAt (s : State) (q : Nat) (v : Slot) (z1 : Nat) : (s.setSlot q v).ctxAt z1 = s.ctxAt z1 := rfl

/-! ### State.setShard -/

@[simp] theorem State.setShard_now (s : State) (c n : Nat) (v : Shard) : (s.setShard c n v).now = s.now := rfl
@[simp] theorem State.setShard_regs (s : State) (c n : Nat) (v : Shard) : (s.setShard c n v).regs = s.regs := rfl
@[simp] theorem State.setShard_quarries (s : State) (c n : Nat) (v : Shard) : (s.setShard c n v).quarries = s.quarries := rfl
@[simp] theorem State.setShard_core (s : State) (c n : Nat) (v : Shard) : (s.setShard c n v).core = s.core := rfl
@[simp] theorem State.setShard_mem (s : State) (c n : Nat) (v : Shard) : (s.setShard c n v).mem = s.mem := rfl
@[simp] theorem State.setShard_ctx (s : State) (c n : Nat) (v : Shard) : (s.setShard c n v).ctx = s.ctx := rfl
@[simp] theorem State.setShard_host (s : State) (c n : Nat) (v : Shard) : (s.setShard c n v).host = s.host := rfl
@[simp] theorem State.setShard_err (s : State) (c n : Nat) (v : Shard) : (s.setShard c n v).err = s.err := rfl
@[simp] theorem State.setShard_kv (s : State) (c n : Nat) (v : Shard) : (s.setShard c n v).kv = s.kv := rfl
@[simp] theorem State.setShard_pwr (s : State) (c n : Nat) (v : Shard) : (s.setShard c n v).pwr = s.pwr := rfl
@[simp] theorem State.setShard_vein (s : State) (c n : Nat) (v : Shard) : (s.setShard c n v).vein = s.vein := rfl
@[simp] theorem State.setShard_coll (s : State) (c n : Nat) (v : Shard) : (s.setShard c n v).coll = s.coll := rfl
@[simp] theorem State.setShard_fos (s : State) (c n : Nat) (v : Shard) : (s.setShard c n v).fos = s.fos := rfl
@[simp] theorem State.setShard_fw (s : State) (c n : Nat) (v : Shard) : (s.setShard c n v).fw = s.fw := rfl
@[simp] theorem State.setShard_blk (s : State) (c n : Nat) (v : Shard) : (s.setShard c n v).blk = s.blk := rfl
@[simp] theorem State.setShard_pins (s : State) (c n : Nat) (v : Shard) : (s.setShard c n v).pins = s.pins := rfl
@[simp] theorem State.setShard_freeCtr (s : State) (c n : Nat) (v : Shard) : (s.setShard c n v).freeCtr = s.freeCtr := rfl
@[simp] theorem State.setShard_pending (s : State) (c n : Nat) (v : Shard) : (s.setShard c n v).pending = s.pending := rfl
@[simp] theorem State.setShard_rd (s : State) (c n : Nat) (v : Shard) (o : Nat) : (s.setShard c n v).rd o = s.rd o := rfl
@[simp] theorem State.setShard_fld (s : State) (c n : Nat) (v : Shard) (g : Fld) : (s.setShard c n v).fld g = s.fld g := rfl
@[simp] theorem State.setShard_flag (s : State) (c n : Nat) (v : Shard) (g : Fld) : (s.setShard c n v).flag g = s.flag g := rfl
@[simp] theorem State.setShard_quarry (s : State) (c n : Nat) (v : Shard) (z1 : Nat) : (s.setShard c n v).quarry z1 = s.quarry z1 := rfl
@[simp] theorem State.setShard_stream (s : State) (c n : Nat) (v : Shard) (z1 z2 : Nat) : (s.setShard c n v).stream z1 z2 = s.stream z1 z2 := rfl
@[simp] theorem State.setShard_sem (s : State) (c n : Nat) (v : Shard) (z1 : Nat) : (s.setShard c n v).sem z1 = s.sem z1 := rfl
@[simp] theorem State.setShard_ctxAt (s : State) (c n : Nat) (v : Shard) (z1 : Nat) : (s.setShard c n v).ctxAt z1 = s.ctxAt z1 := rfl

/-! ### State.setPort -/

@[simp] theorem State.setPort_now (s : State) (p : Nat) (b : Port) : (s.setPort p b).now = s.now := rfl
@[simp] theorem State.setPort_regs (s : State) (p : Nat) (b : Port) : (s.setPort p b).regs = s.regs := rfl
@[simp] theorem State.setPort_quarries (s : State) (p : Nat) (b : Port) : (s.setPort p b).quarries = s.quarries := rfl
@[simp] theorem State.setPort_core (s : State) (p : Nat) (b : Port) : (s.setPort p b).core = s.core := rfl
@[simp] theorem State.setPort_mem (s : State) (p : Nat) (b : Port) : (s.setPort p b).mem = s.mem := rfl
@[simp] theorem State.setPort_ctx (s : State) (p : Nat) (b : Port) : (s.setPort p b).ctx = s.ctx := rfl
@[simp] theorem State.setPort_host (s : State) (p : Nat) (b : Port) : (s.setPort p b).host = s.host := rfl
@[simp] theorem State.setPort_err (s : State) (p : Nat) (b : Port) : (s.setPort p b).err = s.err := rfl
@[simp] theorem State.setPort_ws (s : State) (p : Nat) (b : Port) : (s.setPort p b).ws = s.ws := rfl
@[simp] theorem State.setPort_kv (s : State) (p : Nat) (b : Port) : (s.setPort p b).kv = s.kv := rfl
@[simp] theorem State.setPort_pwr (s : State) (p : Nat) (b : Port) : (s.setPort p b).pwr = s.pwr := rfl
@[simp] theorem State.setPort_coll (s : State) (p : Nat) (b : Port) : (s.setPort p b).coll = s.coll := rfl
@[simp] theorem State.setPort_fos (s : State) (p : Nat) (b : Port) : (s.setPort p b).fos = s.fos := rfl
@[simp] theorem State.setPort_fw (s : State) (p : Nat) (b : Port) : (s.setPort p b).fw = s.fw := rfl
@[simp] theorem State.setPort_blk (s : State) (p : Nat) (b : Port) : (s.setPort p b).blk = s.blk := rfl
@[simp] theorem State.setPort_pins (s : State) (p : Nat) (b : Port) : (s.setPort p b).pins = s.pins := rfl
@[simp] theorem State.setPort_freeCtr (s : State) (p : Nat) (b : Port) : (s.setPort p b).freeCtr = s.freeCtr := rfl
@[simp] theorem State.setPort_pending (s : State) (p : Nat) (b : Port) : (s.setPort p b).pending = s.pending := rfl
@[simp] theorem State.setPort_rd (s : State) (p : Nat) (b : Port) (o : Nat) : (s.setPort p b).rd o = s.rd o := rfl
@[simp] theorem State.setPort_fld (s : State) (p : Nat) (b : Port) (g : Fld) : (s.setPort p b).fld g = s.fld g := rfl
@[simp] theorem State.setPort_flag (s : State) (p : Nat) (b : Port) (g : Fld) : (s.setPort p b).flag g = s.flag g := rfl
@[simp] theorem State.setPort_quarry (s : State) (p : Nat) (b : Port) (z1 : Nat) : (s.setPort p b).quarry z1 = s.quarry z1 := rfl
@[simp] theorem State.setPort_stream (s : State) (p : Nat) (b : Port) (z1 z2 : Nat) : (s.setPort p b).stream z1 z2 = s.stream z1 z2 := rfl
@[simp] theorem State.setPort_sem (s : State) (p : Nat) (b : Port) (z1 : Nat) : (s.setPort p b).sem z1 = s.sem z1 := rfl
@[simp] theorem State.setPort_ctxAt (s : State) (p : Nat) (b : Port) (z1 : Nat) : (s.setPort p b).ctxAt z1 = s.ctxAt z1 := rfl

/-! ### State.setCmd -/

@[simp] theorem State.setCmd_now (s : State) (c : Cmd) : (s.setCmd c).now = s.now := rfl
@[simp] theorem State.setCmd_regs (s : State) (c : Cmd) : (s.setCmd c).regs = s.regs := rfl
@[simp] theorem State.setCmd_quarries (s : State) (c : Cmd) : (s.setCmd c).quarries = s.quarries := rfl
@[simp] theorem State.setCmd_core (s : State) (c : Cmd) : (s.setCmd c).core = s.core := rfl
@[simp] theorem State.setCmd_mem (s : State) (c : Cmd) : (s.setCmd c).mem = s.mem := rfl
@[simp] theorem State.setCmd_ctx (s : State) (c : Cmd) : (s.setCmd c).ctx = s.ctx := rfl
@[simp] theorem State.setCmd_err (s : State) (c : Cmd) : (s.setCmd c).err = s.err := rfl
@[simp] theorem State.setCmd_ws (s : State) (c : Cmd) : (s.setCmd c).ws = s.ws := rfl
@[simp] theorem State.setCmd_kv (s : State) (c : Cmd) : (s.setCmd c).kv = s.kv := rfl
@[simp] theorem State.setCmd_pwr (s : State) (c : Cmd) : (s.setCmd c).pwr = s.pwr := rfl
@[simp] theorem State.setCmd_vein (s : State) (c : Cmd) : (s.setCmd c).vein = s.vein := rfl
@[simp] theorem State.setCmd_coll (s : State) (c : Cmd) : (s.setCmd c).coll = s.coll := rfl
@[simp] theorem State.setCmd_fos (s : State) (c : Cmd) : (s.setCmd c).fos = s.fos := rfl
@[simp] theorem State.setCmd_fw (s : State) (c : Cmd) : (s.setCmd c).fw = s.fw := rfl
@[simp] theorem State.setCmd_blk (s : State) (c : Cmd) : (s.setCmd c).blk = s.blk := rfl
@[simp] theorem State.setCmd_pins (s : State) (c : Cmd) : (s.setCmd c).pins = s.pins := rfl
@[simp] theorem State.setCmd_freeCtr (s : State) (c : Cmd) : (s.setCmd c).freeCtr = s.freeCtr := rfl
@[simp] theorem State.setCmd_pending (s : State) (c : Cmd) : (s.setCmd c).pending = s.pending := rfl
@[simp] theorem State.setCmd_rd (s : State) (c : Cmd) (o : Nat) : (s.setCmd c).rd o = s.rd o := rfl
@[simp] theorem State.setCmd_fld (s : State) (c : Cmd) (g : Fld) : (s.setCmd c).fld g = s.fld g := rfl
@[simp] theorem State.setCmd_flag (s : State) (c : Cmd) (g : Fld) : (s.setCmd c).flag g = s.flag g := rfl
@[simp] theorem State.setCmd_quarry (s : State) (c : Cmd) (z1 : Nat) : (s.setCmd c).quarry z1 = s.quarry z1 := rfl
@[simp] theorem State.setCmd_stream (s : State) (c : Cmd) (z1 z2 : Nat) : (s.setCmd c).stream z1 z2 = s.stream z1 z2 := rfl
@[simp] theorem State.setCmd_sem (s : State) (c : Cmd) (z1 : Nat) : (s.setCmd c).sem z1 = s.sem z1 := rfl
@[simp] theorem State.setCmd_ctxAt (s : State) (c : Cmd) (z1 : Nat) : (s.setCmd c).ctxAt z1 = s.ctxAt z1 := rfl

/-! ### State.setSqTail -/

@[simp] theorem State.setSqTail_now (s : State) (r v : Nat) : (s.setSqTail r v).now = s.now := rfl
@[simp] theorem State.setSqTail_regs (s : State) (r v : Nat) : (s.setSqTail r v).regs = s.regs := rfl
@[simp] theorem State.setSqTail_quarries (s : State) (r v : Nat) : (s.setSqTail r v).quarries = s.quarries := rfl
@[simp] theorem State.setSqTail_core (s : State) (r v : Nat) : (s.setSqTail r v).core = s.core := rfl
@[simp] theorem State.setSqTail_mem (s : State) (r v : Nat) : (s.setSqTail r v).mem = s.mem := rfl
@[simp] theorem State.setSqTail_ctx (s : State) (r v : Nat) : (s.setSqTail r v).ctx = s.ctx := rfl
@[simp] theorem State.setSqTail_err (s : State) (r v : Nat) : (s.setSqTail r v).err = s.err := rfl
@[simp] theorem State.setSqTail_ws (s : State) (r v : Nat) : (s.setSqTail r v).ws = s.ws := rfl
@[simp] theorem State.setSqTail_kv (s : State) (r v : Nat) : (s.setSqTail r v).kv = s.kv := rfl
@[simp] theorem State.setSqTail_pwr (s : State) (r v : Nat) : (s.setSqTail r v).pwr = s.pwr := rfl
@[simp] theorem State.setSqTail_vein (s : State) (r v : Nat) : (s.setSqTail r v).vein = s.vein := rfl
@[simp] theorem State.setSqTail_coll (s : State) (r v : Nat) : (s.setSqTail r v).coll = s.coll := rfl
@[simp] theorem State.setSqTail_fos (s : State) (r v : Nat) : (s.setSqTail r v).fos = s.fos := rfl
@[simp] theorem State.setSqTail_fw (s : State) (r v : Nat) : (s.setSqTail r v).fw = s.fw := rfl
@[simp] theorem State.setSqTail_blk (s : State) (r v : Nat) : (s.setSqTail r v).blk = s.blk := rfl
@[simp] theorem State.setSqTail_pins (s : State) (r v : Nat) : (s.setSqTail r v).pins = s.pins := rfl
@[simp] theorem State.setSqTail_freeCtr (s : State) (r v : Nat) : (s.setSqTail r v).freeCtr = s.freeCtr := rfl
@[simp] theorem State.setSqTail_pending (s : State) (r v : Nat) : (s.setSqTail r v).pending = s.pending := rfl
@[simp] theorem State.setSqTail_rd (s : State) (r v : Nat) (o : Nat) : (s.setSqTail r v).rd o = s.rd o := rfl
@[simp] theorem State.setSqTail_fld (s : State) (r v : Nat) (g : Fld) : (s.setSqTail r v).fld g = s.fld g := rfl
@[simp] theorem State.setSqTail_flag (s : State) (r v : Nat) (g : Fld) : (s.setSqTail r v).flag g = s.flag g := rfl
@[simp] theorem State.setSqTail_quarry (s : State) (r v : Nat) (z1 : Nat) : (s.setSqTail r v).quarry z1 = s.quarry z1 := rfl
@[simp] theorem State.setSqTail_stream (s : State) (r v : Nat) (z1 z2 : Nat) : (s.setSqTail r v).stream z1 z2 = s.stream z1 z2 := rfl
@[simp] theorem State.setSqTail_sem (s : State) (r v : Nat) (z1 : Nat) : (s.setSqTail r v).sem z1 = s.sem z1 := rfl
@[simp] theorem State.setSqTail_ctxAt (s : State) (r v : Nat) (z1 : Nat) : (s.setSqTail r v).ctxAt z1 = s.ctxAt z1 := rfl

/-! ### State.setCqHead -/

@[simp] theorem State.setCqHead_now (s : State) (r v : Nat) : (s.setCqHead r v).now = s.now := rfl
@[simp] theorem State.setCqHead_regs (s : State) (r v : Nat) : (s.setCqHead r v).regs = s.regs := rfl
@[simp] theorem State.setCqHead_quarries (s : State) (r v : Nat) : (s.setCqHead r v).quarries = s.quarries := rfl
@[simp] theorem State.setCqHead_core (s : State) (r v : Nat) : (s.setCqHead r v).core = s.core := rfl
@[simp] theorem State.setCqHead_mem (s : State) (r v : Nat) : (s.setCqHead r v).mem = s.mem := rfl
@[simp] theorem State.setCqHead_ctx (s : State) (r v : Nat) : (s.setCqHead r v).ctx = s.ctx := rfl
@[simp] theorem State.setCqHead_err (s : State) (r v : Nat) : (s.setCqHead r v).err = s.err := rfl
@[simp] theorem State.setCqHead_ws (s : State) (r v : Nat) : (s.setCqHead r v).ws = s.ws := rfl
@[simp] theorem State.setCqHead_kv (s : State) (r v : Nat) : (s.setCqHead r v).kv = s.kv := rfl
@[simp] theorem State.setCqHead_pwr (s : State) (r v : Nat) : (s.setCqHead r v).pwr = s.pwr := rfl
@[simp] theorem State.setCqHead_vein (s : State) (r v : Nat) : (s.setCqHead r v).vein = s.vein := rfl
@[simp] theorem State.setCqHead_coll (s : State) (r v : Nat) : (s.setCqHead r v).coll = s.coll := rfl
@[simp] theorem State.setCqHead_fos (s : State) (r v : Nat) : (s.setCqHead r v).fos = s.fos := rfl
@[simp] theorem State.setCqHead_fw (s : State) (r v : Nat) : (s.setCqHead r v).fw = s.fw := rfl
@[simp] theorem State.setCqHead_blk (s : State) (r v : Nat) : (s.setCqHead r v).blk = s.blk := rfl
@[simp] theorem State.setCqHead_pins (s : State) (r v : Nat) : (s.setCqHead r v).pins = s.pins := rfl
@[simp] theorem State.setCqHead_freeCtr (s : State) (r v : Nat) : (s.setCqHead r v).freeCtr = s.freeCtr := rfl
@[simp] theorem State.setCqHead_pending (s : State) (r v : Nat) : (s.setCqHead r v).pending = s.pending := rfl
@[simp] theorem State.setCqHead_rd (s : State) (r v : Nat) (o : Nat) : (s.setCqHead r v).rd o = s.rd o := rfl
@[simp] theorem State.setCqHead_fld (s : State) (r v : Nat) (g : Fld) : (s.setCqHead r v).fld g = s.fld g := rfl
@[simp] theorem State.setCqHead_flag (s : State) (r v : Nat) (g : Fld) : (s.setCqHead r v).flag g = s.flag g := rfl
@[simp] theorem State.setCqHead_quarry (s : State) (r v : Nat) (z1 : Nat) : (s.setCqHead r v).quarry z1 = s.quarry z1 := rfl
@[simp] theorem State.setCqHead_stream (s : State) (r v : Nat) (z1 z2 : Nat) : (s.setCqHead r v).stream z1 z2 = s.stream z1 z2 := rfl
@[simp] theorem State.setCqHead_sem (s : State) (r v : Nat) (z1 : Nat) : (s.setCqHead r v).sem z1 = s.sem z1 := rfl
@[simp] theorem State.setCqHead_ctxAt (s : State) (r v : Nat) (z1 : Nat) : (s.setCqHead r v).ctxAt z1 = s.ctxAt z1 := rfl

/-! ### State.setHostByte -/

@[simp] theorem State.setHostByte_now (s : State) (a : Nat) (b : Byte) : (s.setHostByte a b).now = s.now := rfl
@[simp] theorem State.setHostByte_regs (s : State) (a : Nat) (b : Byte) : (s.setHostByte a b).regs = s.regs := rfl
@[simp] theorem State.setHostByte_quarries (s : State) (a : Nat) (b : Byte) : (s.setHostByte a b).quarries = s.quarries := rfl
@[simp] theorem State.setHostByte_core (s : State) (a : Nat) (b : Byte) : (s.setHostByte a b).core = s.core := rfl
@[simp] theorem State.setHostByte_ctx (s : State) (a : Nat) (b : Byte) : (s.setHostByte a b).ctx = s.ctx := rfl
@[simp] theorem State.setHostByte_host (s : State) (a : Nat) (b : Byte) : (s.setHostByte a b).host = s.host := rfl
@[simp] theorem State.setHostByte_err (s : State) (a : Nat) (b : Byte) : (s.setHostByte a b).err = s.err := rfl
@[simp] theorem State.setHostByte_ws (s : State) (a : Nat) (b : Byte) : (s.setHostByte a b).ws = s.ws := rfl
@[simp] theorem State.setHostByte_kv (s : State) (a : Nat) (b : Byte) : (s.setHostByte a b).kv = s.kv := rfl
@[simp] theorem State.setHostByte_pwr (s : State) (a : Nat) (b : Byte) : (s.setHostByte a b).pwr = s.pwr := rfl
@[simp] theorem State.setHostByte_vein (s : State) (a : Nat) (b : Byte) : (s.setHostByte a b).vein = s.vein := rfl
@[simp] theorem State.setHostByte_coll (s : State) (a : Nat) (b : Byte) : (s.setHostByte a b).coll = s.coll := rfl
@[simp] theorem State.setHostByte_fos (s : State) (a : Nat) (b : Byte) : (s.setHostByte a b).fos = s.fos := rfl
@[simp] theorem State.setHostByte_fw (s : State) (a : Nat) (b : Byte) : (s.setHostByte a b).fw = s.fw := rfl
@[simp] theorem State.setHostByte_blk (s : State) (a : Nat) (b : Byte) : (s.setHostByte a b).blk = s.blk := rfl
@[simp] theorem State.setHostByte_pins (s : State) (a : Nat) (b : Byte) : (s.setHostByte a b).pins = s.pins := rfl
@[simp] theorem State.setHostByte_freeCtr (s : State) (a : Nat) (b : Byte) : (s.setHostByte a b).freeCtr = s.freeCtr := rfl
@[simp] theorem State.setHostByte_pending (s : State) (a : Nat) (b : Byte) : (s.setHostByte a b).pending = s.pending := rfl
@[simp] theorem State.setHostByte_rd (s : State) (a : Nat) (b : Byte) (o : Nat) : (s.setHostByte a b).rd o = s.rd o := rfl
@[simp] theorem State.setHostByte_fld (s : State) (a : Nat) (b : Byte) (g : Fld) : (s.setHostByte a b).fld g = s.fld g := rfl
@[simp] theorem State.setHostByte_flag (s : State) (a : Nat) (b : Byte) (g : Fld) : (s.setHostByte a b).flag g = s.flag g := rfl
@[simp] theorem State.setHostByte_quarry (s : State) (a : Nat) (b : Byte) (z1 : Nat) : (s.setHostByte a b).quarry z1 = s.quarry z1 := rfl
@[simp] theorem State.setHostByte_stream (s : State) (a : Nat) (b : Byte) (z1 z2 : Nat) : (s.setHostByte a b).stream z1 z2 = s.stream z1 z2 := rfl
@[simp] theorem State.setHostByte_sem (s : State) (a : Nat) (b : Byte) (z1 : Nat) : (s.setHostByte a b).sem z1 = s.sem z1 := rfl
@[simp] theorem State.setHostByte_ctxAt (s : State) (a : Nat) (b : Byte) (z1 : Nat) : (s.setHostByte a b).ctxAt z1 = s.ctxAt z1 := rfl

/-! ### State.setPhysByte -/

@[simp] theorem State.setPhysByte_now (s : State) (pa : Nat) (b : Byte) : (s.setPhysByte pa b).now = s.now := rfl
@[simp] theorem State.setPhysByte_regs (s : State) (pa : Nat) (b : Byte) : (s.setPhysByte pa b).regs = s.regs := rfl
@[simp] theorem State.setPhysByte_quarries (s : State) (pa : Nat) (b : Byte) : (s.setPhysByte pa b).quarries = s.quarries := rfl
@[simp] theorem State.setPhysByte_core (s : State) (pa : Nat) (b : Byte) : (s.setPhysByte pa b).core = s.core := rfl
@[simp] theorem State.setPhysByte_ctx (s : State) (pa : Nat) (b : Byte) : (s.setPhysByte pa b).ctx = s.ctx := rfl
@[simp] theorem State.setPhysByte_host (s : State) (pa : Nat) (b : Byte) : (s.setPhysByte pa b).host = s.host := rfl
@[simp] theorem State.setPhysByte_err (s : State) (pa : Nat) (b : Byte) : (s.setPhysByte pa b).err = s.err := rfl
@[simp] theorem State.setPhysByte_ws (s : State) (pa : Nat) (b : Byte) : (s.setPhysByte pa b).ws = s.ws := rfl
@[simp] theorem State.setPhysByte_kv (s : State) (pa : Nat) (b : Byte) : (s.setPhysByte pa b).kv = s.kv := rfl
@[simp] theorem State.setPhysByte_pwr (s : State) (pa : Nat) (b : Byte) : (s.setPhysByte pa b).pwr = s.pwr := rfl
@[simp] theorem State.setPhysByte_vein (s : State) (pa : Nat) (b : Byte) : (s.setPhysByte pa b).vein = s.vein := rfl
@[simp] theorem State.setPhysByte_coll (s : State) (pa : Nat) (b : Byte) : (s.setPhysByte pa b).coll = s.coll := rfl
@[simp] theorem State.setPhysByte_fos (s : State) (pa : Nat) (b : Byte) : (s.setPhysByte pa b).fos = s.fos := rfl
@[simp] theorem State.setPhysByte_fw (s : State) (pa : Nat) (b : Byte) : (s.setPhysByte pa b).fw = s.fw := rfl
@[simp] theorem State.setPhysByte_blk (s : State) (pa : Nat) (b : Byte) : (s.setPhysByte pa b).blk = s.blk := rfl
@[simp] theorem State.setPhysByte_pins (s : State) (pa : Nat) (b : Byte) : (s.setPhysByte pa b).pins = s.pins := rfl
@[simp] theorem State.setPhysByte_freeCtr (s : State) (pa : Nat) (b : Byte) : (s.setPhysByte pa b).freeCtr = s.freeCtr := rfl
@[simp] theorem State.setPhysByte_pending (s : State) (pa : Nat) (b : Byte) : (s.setPhysByte pa b).pending = s.pending := rfl
@[simp] theorem State.setPhysByte_rd (s : State) (pa : Nat) (b : Byte) (o : Nat) : (s.setPhysByte pa b).rd o = s.rd o := rfl
@[simp] theorem State.setPhysByte_fld (s : State) (pa : Nat) (b : Byte) (g : Fld) : (s.setPhysByte pa b).fld g = s.fld g := rfl
@[simp] theorem State.setPhysByte_flag (s : State) (pa : Nat) (b : Byte) (g : Fld) : (s.setPhysByte pa b).flag g = s.flag g := rfl
@[simp] theorem State.setPhysByte_quarry (s : State) (pa : Nat) (b : Byte) (z1 : Nat) : (s.setPhysByte pa b).quarry z1 = s.quarry z1 := rfl
@[simp] theorem State.setPhysByte_stream (s : State) (pa : Nat) (b : Byte) (z1 z2 : Nat) : (s.setPhysByte pa b).stream z1 z2 = s.stream z1 z2 := rfl
@[simp] theorem State.setPhysByte_sem (s : State) (pa : Nat) (b : Byte) (z1 : Nat) : (s.setPhysByte pa b).sem z1 = s.sem z1 := rfl
@[simp] theorem State.setPhysByte_ctxAt (s : State) (pa : Nat) (b : Byte) (z1 : Nat) : (s.setPhysByte pa b).ctxAt z1 = s.ctxAt z1 := rfl

/-! ### State.setLsByte -/

@[simp] theorem State.setLsByte_now (s : State) (core off : Nat) (b : Byte) : (s.setLsByte core off b).now = s.now := rfl
@[simp] theorem State.setLsByte_regs (s : State) (core off : Nat) (b : Byte) : (s.setLsByte core off b).regs = s.regs := rfl
@[simp] theorem State.setLsByte_quarries (s : State) (core off : Nat) (b : Byte) : (s.setLsByte core off b).quarries = s.quarries := rfl
@[simp] theorem State.setLsByte_core (s : State) (core off : Nat) (b : Byte) : (s.setLsByte core off b).core = s.core := rfl
@[simp] theorem State.setLsByte_ctx (s : State) (core off : Nat) (b : Byte) : (s.setLsByte core off b).ctx = s.ctx := rfl
@[simp] theorem State.setLsByte_host (s : State) (core off : Nat) (b : Byte) : (s.setLsByte core off b).host = s.host := rfl
@[simp] theorem State.setLsByte_err (s : State) (core off : Nat) (b : Byte) : (s.setLsByte core off b).err = s.err := rfl
@[simp] theorem State.setLsByte_ws (s : State) (core off : Nat) (b : Byte) : (s.setLsByte core off b).ws = s.ws := rfl
@[simp] theorem State.setLsByte_kv (s : State) (core off : Nat) (b : Byte) : (s.setLsByte core off b).kv = s.kv := rfl
@[simp] theorem State.setLsByte_pwr (s : State) (core off : Nat) (b : Byte) : (s.setLsByte core off b).pwr = s.pwr := rfl
@[simp] theorem State.setLsByte_vein (s : State) (core off : Nat) (b : Byte) : (s.setLsByte core off b).vein = s.vein := rfl
@[simp] theorem State.setLsByte_coll (s : State) (core off : Nat) (b : Byte) : (s.setLsByte core off b).coll = s.coll := rfl
@[simp] theorem State.setLsByte_fos (s : State) (core off : Nat) (b : Byte) : (s.setLsByte core off b).fos = s.fos := rfl
@[simp] theorem State.setLsByte_fw (s : State) (core off : Nat) (b : Byte) : (s.setLsByte core off b).fw = s.fw := rfl
@[simp] theorem State.setLsByte_blk (s : State) (core off : Nat) (b : Byte) : (s.setLsByte core off b).blk = s.blk := rfl
@[simp] theorem State.setLsByte_pins (s : State) (core off : Nat) (b : Byte) : (s.setLsByte core off b).pins = s.pins := rfl
@[simp] theorem State.setLsByte_freeCtr (s : State) (core off : Nat) (b : Byte) : (s.setLsByte core off b).freeCtr = s.freeCtr := rfl
@[simp] theorem State.setLsByte_pending (s : State) (core off : Nat) (b : Byte) : (s.setLsByte core off b).pending = s.pending := rfl
@[simp] theorem State.setLsByte_rd (s : State) (core off : Nat) (b : Byte) (o : Nat) : (s.setLsByte core off b).rd o = s.rd o := rfl
@[simp] theorem State.setLsByte_fld (s : State) (core off : Nat) (b : Byte) (g : Fld) : (s.setLsByte core off b).fld g = s.fld g := rfl
@[simp] theorem State.setLsByte_flag (s : State) (core off : Nat) (b : Byte) (g : Fld) : (s.setLsByte core off b).flag g = s.flag g := rfl
@[simp] theorem State.setLsByte_quarry (s : State) (core off : Nat) (b : Byte) (z1 : Nat) : (s.setLsByte core off b).quarry z1 = s.quarry z1 := rfl
@[simp] theorem State.setLsByte_stream (s : State) (core off : Nat) (b : Byte) (z1 z2 : Nat) : (s.setLsByte core off b).stream z1 z2 = s.stream z1 z2 := rfl
@[simp] theorem State.setLsByte_sem (s : State) (core off : Nat) (b : Byte) (z1 : Nat) : (s.setLsByte core off b).sem z1 = s.sem z1 := rfl
@[simp] theorem State.setLsByte_ctxAt (s : State) (core off : Nat) (b : Byte) (z1 : Nat) : (s.setLsByte core off b).ctxAt z1 = s.ctxAt z1 := rfl

/-! ### State.setAcc -/

@[simp] theorem State.setAcc_now (s : State) (core slot i j : Nat) (v : BitVec 40) : (s.setAcc core slot i j v).now = s.now := rfl
@[simp] theorem State.setAcc_regs (s : State) (core slot i j : Nat) (v : BitVec 40) : (s.setAcc core slot i j v).regs = s.regs := rfl
@[simp] theorem State.setAcc_quarries (s : State) (core slot i j : Nat) (v : BitVec 40) : (s.setAcc core slot i j v).quarries = s.quarries := rfl
@[simp] theorem State.setAcc_core (s : State) (core slot i j : Nat) (v : BitVec 40) : (s.setAcc core slot i j v).core = s.core := rfl
@[simp] theorem State.setAcc_ctx (s : State) (core slot i j : Nat) (v : BitVec 40) : (s.setAcc core slot i j v).ctx = s.ctx := rfl
@[simp] theorem State.setAcc_host (s : State) (core slot i j : Nat) (v : BitVec 40) : (s.setAcc core slot i j v).host = s.host := rfl
@[simp] theorem State.setAcc_err (s : State) (core slot i j : Nat) (v : BitVec 40) : (s.setAcc core slot i j v).err = s.err := rfl
@[simp] theorem State.setAcc_ws (s : State) (core slot i j : Nat) (v : BitVec 40) : (s.setAcc core slot i j v).ws = s.ws := rfl
@[simp] theorem State.setAcc_kv (s : State) (core slot i j : Nat) (v : BitVec 40) : (s.setAcc core slot i j v).kv = s.kv := rfl
@[simp] theorem State.setAcc_pwr (s : State) (core slot i j : Nat) (v : BitVec 40) : (s.setAcc core slot i j v).pwr = s.pwr := rfl
@[simp] theorem State.setAcc_vein (s : State) (core slot i j : Nat) (v : BitVec 40) : (s.setAcc core slot i j v).vein = s.vein := rfl
@[simp] theorem State.setAcc_coll (s : State) (core slot i j : Nat) (v : BitVec 40) : (s.setAcc core slot i j v).coll = s.coll := rfl
@[simp] theorem State.setAcc_fos (s : State) (core slot i j : Nat) (v : BitVec 40) : (s.setAcc core slot i j v).fos = s.fos := rfl
@[simp] theorem State.setAcc_fw (s : State) (core slot i j : Nat) (v : BitVec 40) : (s.setAcc core slot i j v).fw = s.fw := rfl
@[simp] theorem State.setAcc_blk (s : State) (core slot i j : Nat) (v : BitVec 40) : (s.setAcc core slot i j v).blk = s.blk := rfl
@[simp] theorem State.setAcc_pins (s : State) (core slot i j : Nat) (v : BitVec 40) : (s.setAcc core slot i j v).pins = s.pins := rfl
@[simp] theorem State.setAcc_freeCtr (s : State) (core slot i j : Nat) (v : BitVec 40) : (s.setAcc core slot i j v).freeCtr = s.freeCtr := rfl
@[simp] theorem State.setAcc_pending (s : State) (core slot i j : Nat) (v : BitVec 40) : (s.setAcc core slot i j v).pending = s.pending := rfl
@[simp] theorem State.setAcc_rd (s : State) (core slot i j : Nat) (v : BitVec 40) (o : Nat) : (s.setAcc core slot i j v).rd o = s.rd o := rfl
@[simp] theorem State.setAcc_fld (s : State) (core slot i j : Nat) (v : BitVec 40) (g : Fld) : (s.setAcc core slot i j v).fld g = s.fld g := rfl
@[simp] theorem State.setAcc_flag (s : State) (core slot i j : Nat) (v : BitVec 40) (g : Fld) : (s.setAcc core slot i j v).flag g = s.flag g := rfl
@[simp] theorem State.setAcc_quarry (s : State) (core slot i j : Nat) (v : BitVec 40) (z1 : Nat) : (s.setAcc core slot i j v).quarry z1 = s.quarry z1 := rfl
@[simp] theorem State.setAcc_stream (s : State) (core slot i j : Nat) (v : BitVec 40) (z1 z2 : Nat) : (s.setAcc core slot i j v).stream z1 z2 = s.stream z1 z2 := rfl
@[simp] theorem State.setAcc_sem (s : State) (core slot i j : Nat) (v : BitVec 40) (z1 : Nat) : (s.setAcc core slot i j v).sem z1 = s.sem z1 := rfl
@[simp] theorem State.setAcc_ctxAt (s : State) (core slot i j : Nat) (v : BitVec 40) (z1 : Nat) : (s.setAcc core slot i j v).ctxAt z1 = s.ctxAt z1 := rfl

/-! ### State.setPoison -/

@[simp] theorem State.setPoison_now (s : State) (pa : Nat) (p : Bool) : (s.setPoison pa p).now = s.now := rfl
@[simp] theorem State.setPoison_regs (s : State) (pa : Nat) (p : Bool) : (s.setPoison pa p).regs = s.regs := rfl
@[simp] theorem State.setPoison_quarries (s : State) (pa : Nat) (p : Bool) : (s.setPoison pa p).quarries = s.quarries := rfl
@[simp] theorem State.setPoison_core (s : State) (pa : Nat) (p : Bool) : (s.setPoison pa p).core = s.core := rfl
@[simp] theorem State.setPoison_ctx (s : State) (pa : Nat) (p : Bool) : (s.setPoison pa p).ctx = s.ctx := rfl
@[simp] theorem State.setPoison_host (s : State) (pa : Nat) (p : Bool) : (s.setPoison pa p).host = s.host := rfl
@[simp] theorem State.setPoison_err (s : State) (pa : Nat) (p : Bool) : (s.setPoison pa p).err = s.err := rfl
@[simp] theorem State.setPoison_ws (s : State) (pa : Nat) (p : Bool) : (s.setPoison pa p).ws = s.ws := rfl
@[simp] theorem State.setPoison_kv (s : State) (pa : Nat) (p : Bool) : (s.setPoison pa p).kv = s.kv := rfl
@[simp] theorem State.setPoison_pwr (s : State) (pa : Nat) (p : Bool) : (s.setPoison pa p).pwr = s.pwr := rfl
@[simp] theorem State.setPoison_vein (s : State) (pa : Nat) (p : Bool) : (s.setPoison pa p).vein = s.vein := rfl
@[simp] theorem State.setPoison_coll (s : State) (pa : Nat) (p : Bool) : (s.setPoison pa p).coll = s.coll := rfl
@[simp] theorem State.setPoison_fos (s : State) (pa : Nat) (p : Bool) : (s.setPoison pa p).fos = s.fos := rfl
@[simp] theorem State.setPoison_fw (s : State) (pa : Nat) (p : Bool) : (s.setPoison pa p).fw = s.fw := rfl
@[simp] theorem State.setPoison_blk (s : State) (pa : Nat) (p : Bool) : (s.setPoison pa p).blk = s.blk := rfl
@[simp] theorem State.setPoison_pins (s : State) (pa : Nat) (p : Bool) : (s.setPoison pa p).pins = s.pins := rfl
@[simp] theorem State.setPoison_freeCtr (s : State) (pa : Nat) (p : Bool) : (s.setPoison pa p).freeCtr = s.freeCtr := rfl
@[simp] theorem State.setPoison_pending (s : State) (pa : Nat) (p : Bool) : (s.setPoison pa p).pending = s.pending := rfl
@[simp] theorem State.setPoison_rd (s : State) (pa : Nat) (p : Bool) (o : Nat) : (s.setPoison pa p).rd o = s.rd o := rfl
@[simp] theorem State.setPoison_fld (s : State) (pa : Nat) (p : Bool) (g : Fld) : (s.setPoison pa p).fld g = s.fld g := rfl
@[simp] theorem State.setPoison_flag (s : State) (pa : Nat) (p : Bool) (g : Fld) : (s.setPoison pa p).flag g = s.flag g := rfl
@[simp] theorem State.setPoison_quarry (s : State) (pa : Nat) (p : Bool) (z1 : Nat) : (s.setPoison pa p).quarry z1 = s.quarry z1 := rfl
@[simp] theorem State.setPoison_stream (s : State) (pa : Nat) (p : Bool) (z1 z2 : Nat) : (s.setPoison pa p).stream z1 z2 = s.stream z1 z2 := rfl
@[simp] theorem State.setPoison_sem (s : State) (pa : Nat) (p : Bool) (z1 : Nat) : (s.setPoison pa p).sem z1 = s.sem z1 := rfl
@[simp] theorem State.setPoison_ctxAt (s : State) (pa : Nat) (p : Bool) (z1 : Nat) : (s.setPoison pa p).ctxAt z1 = s.ctxAt z1 := rfl

/-! ### State.setLsPoison -/

@[simp] theorem State.setLsPoison_now (s : State) (core off : Nat) (p : Bool) : (s.setLsPoison core off p).now = s.now := rfl
@[simp] theorem State.setLsPoison_regs (s : State) (core off : Nat) (p : Bool) : (s.setLsPoison core off p).regs = s.regs := rfl
@[simp] theorem State.setLsPoison_quarries (s : State) (core off : Nat) (p : Bool) : (s.setLsPoison core off p).quarries = s.quarries := rfl
@[simp] theorem State.setLsPoison_core (s : State) (core off : Nat) (p : Bool) : (s.setLsPoison core off p).core = s.core := rfl
@[simp] theorem State.setLsPoison_ctx (s : State) (core off : Nat) (p : Bool) : (s.setLsPoison core off p).ctx = s.ctx := rfl
@[simp] theorem State.setLsPoison_host (s : State) (core off : Nat) (p : Bool) : (s.setLsPoison core off p).host = s.host := rfl
@[simp] theorem State.setLsPoison_err (s : State) (core off : Nat) (p : Bool) : (s.setLsPoison core off p).err = s.err := rfl
@[simp] theorem State.setLsPoison_ws (s : State) (core off : Nat) (p : Bool) : (s.setLsPoison core off p).ws = s.ws := rfl
@[simp] theorem State.setLsPoison_kv (s : State) (core off : Nat) (p : Bool) : (s.setLsPoison core off p).kv = s.kv := rfl
@[simp] theorem State.setLsPoison_pwr (s : State) (core off : Nat) (p : Bool) : (s.setLsPoison core off p).pwr = s.pwr := rfl
@[simp] theorem State.setLsPoison_vein (s : State) (core off : Nat) (p : Bool) : (s.setLsPoison core off p).vein = s.vein := rfl
@[simp] theorem State.setLsPoison_coll (s : State) (core off : Nat) (p : Bool) : (s.setLsPoison core off p).coll = s.coll := rfl
@[simp] theorem State.setLsPoison_fos (s : State) (core off : Nat) (p : Bool) : (s.setLsPoison core off p).fos = s.fos := rfl
@[simp] theorem State.setLsPoison_fw (s : State) (core off : Nat) (p : Bool) : (s.setLsPoison core off p).fw = s.fw := rfl
@[simp] theorem State.setLsPoison_blk (s : State) (core off : Nat) (p : Bool) : (s.setLsPoison core off p).blk = s.blk := rfl
@[simp] theorem State.setLsPoison_pins (s : State) (core off : Nat) (p : Bool) : (s.setLsPoison core off p).pins = s.pins := rfl
@[simp] theorem State.setLsPoison_freeCtr (s : State) (core off : Nat) (p : Bool) : (s.setLsPoison core off p).freeCtr = s.freeCtr := rfl
@[simp] theorem State.setLsPoison_pending (s : State) (core off : Nat) (p : Bool) : (s.setLsPoison core off p).pending = s.pending := rfl
@[simp] theorem State.setLsPoison_rd (s : State) (core off : Nat) (p : Bool) (o : Nat) : (s.setLsPoison core off p).rd o = s.rd o := rfl
@[simp] theorem State.setLsPoison_fld (s : State) (core off : Nat) (p : Bool) (g : Fld) : (s.setLsPoison core off p).fld g = s.fld g := rfl
@[simp] theorem State.setLsPoison_flag (s : State) (core off : Nat) (p : Bool) (g : Fld) : (s.setLsPoison core off p).flag g = s.flag g := rfl
@[simp] theorem State.setLsPoison_quarry (s : State) (core off : Nat) (p : Bool) (z1 : Nat) : (s.setLsPoison core off p).quarry z1 = s.quarry z1 := rfl
@[simp] theorem State.setLsPoison_stream (s : State) (core off : Nat) (p : Bool) (z1 z2 : Nat) : (s.setLsPoison core off p).stream z1 z2 = s.stream z1 z2 := rfl
@[simp] theorem State.setLsPoison_sem (s : State) (core off : Nat) (p : Bool) (z1 : Nat) : (s.setLsPoison core off p).sem z1 = s.sem z1 := rfl
@[simp] theorem State.setLsPoison_ctxAt (s : State) (core off : Nat) (p : Bool) (z1 : Nat) : (s.setLsPoison core off p).ctxAt z1 = s.ctxAt z1 := rfl

/-! ### State.setStatByte -/

@[simp] theorem State.setStatByte_now (s : State) (core off : Nat) (b : Byte) : (s.setStatByte core off b).now = s.now := rfl
@[simp] theorem State.setStatByte_regs (s : State) (core off : Nat) (b : Byte) : (s.setStatByte core off b).regs = s.regs := rfl
@[simp] theorem State.setStatByte_quarries (s : State) (core off : Nat) (b : Byte) : (s.setStatByte core off b).quarries = s.quarries := rfl
@[simp] theorem State.setStatByte_core (s : State) (core off : Nat) (b : Byte) : (s.setStatByte core off b).core = s.core := rfl
@[simp] theorem State.setStatByte_ctx (s : State) (core off : Nat) (b : Byte) : (s.setStatByte core off b).ctx = s.ctx := rfl
@[simp] theorem State.setStatByte_host (s : State) (core off : Nat) (b : Byte) : (s.setStatByte core off b).host = s.host := rfl
@[simp] theorem State.setStatByte_err (s : State) (core off : Nat) (b : Byte) : (s.setStatByte core off b).err = s.err := rfl
@[simp] theorem State.setStatByte_ws (s : State) (core off : Nat) (b : Byte) : (s.setStatByte core off b).ws = s.ws := rfl
@[simp] theorem State.setStatByte_kv (s : State) (core off : Nat) (b : Byte) : (s.setStatByte core off b).kv = s.kv := rfl
@[simp] theorem State.setStatByte_pwr (s : State) (core off : Nat) (b : Byte) : (s.setStatByte core off b).pwr = s.pwr := rfl
@[simp] theorem State.setStatByte_vein (s : State) (core off : Nat) (b : Byte) : (s.setStatByte core off b).vein = s.vein := rfl
@[simp] theorem State.setStatByte_coll (s : State) (core off : Nat) (b : Byte) : (s.setStatByte core off b).coll = s.coll := rfl
@[simp] theorem State.setStatByte_fos (s : State) (core off : Nat) (b : Byte) : (s.setStatByte core off b).fos = s.fos := rfl
@[simp] theorem State.setStatByte_fw (s : State) (core off : Nat) (b : Byte) : (s.setStatByte core off b).fw = s.fw := rfl
@[simp] theorem State.setStatByte_blk (s : State) (core off : Nat) (b : Byte) : (s.setStatByte core off b).blk = s.blk := rfl
@[simp] theorem State.setStatByte_pins (s : State) (core off : Nat) (b : Byte) : (s.setStatByte core off b).pins = s.pins := rfl
@[simp] theorem State.setStatByte_freeCtr (s : State) (core off : Nat) (b : Byte) : (s.setStatByte core off b).freeCtr = s.freeCtr := rfl
@[simp] theorem State.setStatByte_pending (s : State) (core off : Nat) (b : Byte) : (s.setStatByte core off b).pending = s.pending := rfl
@[simp] theorem State.setStatByte_rd (s : State) (core off : Nat) (b : Byte) (o : Nat) : (s.setStatByte core off b).rd o = s.rd o := rfl
@[simp] theorem State.setStatByte_fld (s : State) (core off : Nat) (b : Byte) (g : Fld) : (s.setStatByte core off b).fld g = s.fld g := rfl
@[simp] theorem State.setStatByte_flag (s : State) (core off : Nat) (b : Byte) (g : Fld) : (s.setStatByte core off b).flag g = s.flag g := rfl
@[simp] theorem State.setStatByte_quarry (s : State) (core off : Nat) (b : Byte) (z1 : Nat) : (s.setStatByte core off b).quarry z1 = s.quarry z1 := rfl
@[simp] theorem State.setStatByte_stream (s : State) (core off : Nat) (b : Byte) (z1 z2 : Nat) : (s.setStatByte core off b).stream z1 z2 = s.stream z1 z2 := rfl
@[simp] theorem State.setStatByte_sem (s : State) (core off : Nat) (b : Byte) (z1 : Nat) : (s.setStatByte core off b).sem z1 = s.sem z1 := rfl
@[simp] theorem State.setStatByte_ctxAt (s : State) (core off : Nat) (b : Byte) (z1 : Nat) : (s.setStatByte core off b).ctxAt z1 = s.ctxAt z1 := rfl

/-! ### State.fresh -/

@[simp] theorem State.fresh_now (s : State) (n : Nat) : (s.fresh n).2.now = s.now := rfl
@[simp] theorem State.fresh_regs (s : State) (n : Nat) : (s.fresh n).2.regs = s.regs := rfl
@[simp] theorem State.fresh_quarries (s : State) (n : Nat) : (s.fresh n).2.quarries = s.quarries := rfl
@[simp] theorem State.fresh_core (s : State) (n : Nat) : (s.fresh n).2.core = s.core := rfl
@[simp] theorem State.fresh_mem (s : State) (n : Nat) : (s.fresh n).2.mem = s.mem := rfl
@[simp] theorem State.fresh_ctx (s : State) (n : Nat) : (s.fresh n).2.ctx = s.ctx := rfl
@[simp] theorem State.fresh_host (s : State) (n : Nat) : (s.fresh n).2.host = s.host := rfl
@[simp] theorem State.fresh_err (s : State) (n : Nat) : (s.fresh n).2.err = s.err := rfl
@[simp] theorem State.fresh_ws (s : State) (n : Nat) : (s.fresh n).2.ws = s.ws := rfl
@[simp] theorem State.fresh_kv (s : State) (n : Nat) : (s.fresh n).2.kv = s.kv := rfl
@[simp] theorem State.fresh_pwr (s : State) (n : Nat) : (s.fresh n).2.pwr = s.pwr := rfl
@[simp] theorem State.fresh_vein (s : State) (n : Nat) : (s.fresh n).2.vein = s.vein := rfl
@[simp] theorem State.fresh_coll (s : State) (n : Nat) : (s.fresh n).2.coll = s.coll := rfl
@[simp] theorem State.fresh_fos (s : State) (n : Nat) : (s.fresh n).2.fos = s.fos := rfl
@[simp] theorem State.fresh_fw (s : State) (n : Nat) : (s.fresh n).2.fw = s.fw := rfl
@[simp] theorem State.fresh_blk (s : State) (n : Nat) : (s.fresh n).2.blk = s.blk := rfl
@[simp] theorem State.fresh_pins (s : State) (n : Nat) : (s.fresh n).2.pins = s.pins := rfl
@[simp] theorem State.fresh_pending (s : State) (n : Nat) : (s.fresh n).2.pending = s.pending := rfl
@[simp] theorem State.fresh_freeCtr (s : State) (n : Nat) : (s.fresh n).2.freeCtr = s.freeCtr + 1 := rfl

end Sys2Proof.Machine
end

