-- ==== Sys2Proof/Laws/Memory.lean ====
section
/-! SUPPORT. The memories: every operation on them keeps their canonical form (`Memory.wf`), a byte that is written reads back, and
every other byte reads as before. -/

namespace Sys2Proof.Machine

/-! ## The canonical form -/

/-- Memory at reset is in canonical form. -/
theorem Memory.wf_reset : Memory.wf State.reset.mem = true := by decide

/-- Every command keeps the memories in canonical form. -/
theorem exec_memory_wf {i : Instr} {s t : State} (h : exec i s = .next t) (hm : Memory.wf s.mem = true) : Memory.wf t.mem = true :=
  (exec_kept h).mem hm

theorem State.setPhysByte_wf {s : State} (pa : Nat) (b : Byte) (h : Memory.wf s.mem = true) :
    Memory.wf (s.setPhysByte pa b).mem = true := (State.setPhysByte_kept ..).mem h

theorem State.putPhys_wf {s : State} (pa : Nat) (l : List Byte) (h : Memory.wf s.mem = true) :
    Memory.wf (s.putPhys pa l).mem = true := (State.putPhys_kept ..).mem h

theorem State.setLsByte_wf {s : State} (core : Nat) (off : Nat) (b : Byte) (h : Memory.wf s.mem = true) :
    Memory.wf (s.setLsByte core off b).mem = true := (State.setLsByte_kept ..).mem h

theorem State.putLs_wf {s : State} (core off : Nat) (l : List Byte) (h : Memory.wf s.mem = true) :
    Memory.wf (s.putLs core off l).mem = true := (State.putLs_kept ..).mem h

theorem State.setAcc_wf {s : State} (core : Nat) (slot : Nat) (i : Nat) (j : Nat) (v : BitVec 40) (h : Memory.wf s.mem = true) :
    Memory.wf (s.setAcc core slot i j v).mem = true := (State.setAcc_kept ..).mem h

theorem State.setAccPoison_wf {s : State} (core : Nat) (slot : Nat) (i : Nat) (p : Bool) (h : Memory.wf s.mem = true) :
    Memory.wf (s.setAccPoison core slot i p).mem = true := (State.setAccPoison_kept ..).mem h

theorem State.setPoison_wf {s : State} (pa : Nat) (p : Bool) (h : Memory.wf s.mem = true) :
    Memory.wf (s.setPoison pa p).mem = true := (State.setPoison_kept ..).mem h

theorem State.setLsPoison_wf {s : State} (core : Nat) (off : Nat) (p : Bool) (h : Memory.wf s.mem = true) :
    Memory.wf (s.setLsPoison core off p).mem = true := (State.setLsPoison_kept ..).mem h

theorem State.setStatByte_wf {s : State} (core : Nat) (off : Nat) (b : Byte) (h : Memory.wf s.mem = true) :
    Memory.wf (s.setStatByte core off b).mem = true := (State.setStatByte_kept ..).mem h

theorem State.putStat_wf {s : State} (core : Nat) (k : Nat) (b : List Byte) (h : Memory.wf s.mem = true) :
    Memory.wf (s.putStat core k b).mem = true := (State.putStat_kept ..).mem h

theorem State.setStatBad_wf {s : State} (core : Nat) (k : Nat) (p : Bool) (h : Memory.wf s.mem = true) :
    Memory.wf (s.setStatBad core k p).mem = true := (State.setStatBad_kept ..).mem h

theorem State.setHostByte_wf {s : State} (a : Nat) (b : Byte) (h : Memory.wf s.mem = true) :
    Memory.wf (s.setHostByte a b).mem = true := (State.setHostByte_kept ..).mem h

theorem State.putHost_wf {s : State} (a : Nat) (l : List Byte) (h : Memory.wf s.mem = true) :
    Memory.wf (s.putHost a l).mem = true := (State.putHost_kept ..).mem h

theorem State.writeGran_wf {s : State} (pa : Nat) (off : Nat) (b : List Byte) (poisoned : Bool) (h : Memory.wf s.mem = true) :
    Memory.wf (s.writeGran pa off b poisoned).mem = true := (State.writeGran_kept ..).mem h

theorem State.zeroRange_wf {s : State} (pa n : Nat) (h : Memory.wf s.mem = true) :
    Memory.wf (s.zeroRange pa n).mem = true := (State.zeroRange_kept ..).mem h

theorem State.fossilField_wf {s : State} (pa v : Nat) (h : Memory.wf s.mem = true) :
    Memory.wf (s.fossilField pa v).mem = true := (State.fossilField_kept ..).mem h

theorem State.loseLocal_wf {s : State} (c : Nat) (h : Memory.wf s.mem = true) :
    Memory.wf (s.loseLocal c).mem = true := (State.loseLocal_kept ..).mem h

theorem State.loseSlots_wf {s : State} (core first n : Nat) (h : Memory.wf s.mem = true) :
    Memory.wf (s.loseSlots core first n).mem = true := (State.loseSlots_kept ..).mem h

theorem State.layoutWrite_wf {s : State} (value : Word) (h : Memory.wf s.mem = true) :
    Memory.wf (s.layoutWrite value).mem = true := (State.layoutWrite_kept ..).mem h

theorem State.anew_wf {s : State} (phase : Phase) (en good : Bool) (h : Memory.wf s.mem = true) :
    Memory.wf (s.anew phase en good).mem = true := (State.anew_kept ..).mem h

theorem State.advanceTo_wf {s : State} (t : Nat) (h : Memory.wf s.mem = true) :
    Memory.wf (s.advanceTo t).mem = true := (State.advanceTo_kept ..).mem h

/-! ## Read after write -/

theorem State.physByte_setPhysByte_same {s : State} (h : Memory.wf s.mem = true) (pa : Nat) (b : Byte) :
    (s.setPhysByte pa b).physByte pa = b := SMap.get_put_same (Memory.wf_iff.1 h).phys

theorem State.physByte_setPhysByte_ne (s : State) {pa a : Nat} (b : Byte) (h : s.cellKey a ≠ s.cellKey pa) :
    (s.setPhysByte pa b).physByte a = s.physByte a := SMap.get_put_of_ne h

theorem State.lsByte_setLsByte_same {s : State} (h : Memory.wf s.mem = true) (core off : Nat) (b : Byte) :
    (s.setLsByte core off b).lsByte core off = b := SMap.get_put_same (Memory.wf_iff.1 h).ls

theorem State.lsByte_setLsByte_ne (s : State) {core off core' off' : Nat} (b : Byte)
    (h : core' ≠ core ∨ off' % 2 ^ 21 ≠ off % 2 ^ 21) : (s.setLsByte core off b).lsByte core' off' = s.lsByte core' off' := by
  refine SMap.get_put_of_ne ?_
  have h1 := Nat.mod_lt off (Nat.two_pow_pos 21)
  have h2 := Nat.mod_lt off' (Nat.two_pow_pos 21)
  omega

theorem State.hostByte_setHostByte_same {s : State} (h : Memory.wf s.mem = true) (a : Nat) (b : Byte) :
    (s.setHostByte a b).hostByte a = b := SMap.get_put_same (Memory.wf_iff.1 h).host

theorem State.hostByte_setHostByte_ne (s : State) {a c : Nat} (b : Byte) (h : c % 2 ^ 64 ≠ a % 2 ^ 64) :
    (s.setHostByte a b).hostByte c = s.hostByte c := SMap.get_put_of_ne h

end Sys2Proof.Machine
end

