-- ==== Sys2Proof/Laws/Registers.lean ====
section
/-! SUPPORT. Registers and their fields read back what was written, and every other one reads as before. -/

namespace Sys2Proof.Machine

/-! ## Bit fields -/

theorem bits_lt (n lo w : Nat) : bits n lo w < 2 ^ w := Nat.mod_lt _ (Nat.two_pow_pos w)

theorem bits_eq_shift (n lo w : Nat) : bits n lo w = (n >>> lo) % 2 ^ w := by
  simp only [bits, Nat.shiftRight_eq_div_pow]

theorem bits_testBit (n lo w i : Nat) : (bits n lo w).testBit i = (decide (i < w) && n.testBit (lo + i)) := by
  simp only [bits_eq_shift, Nat.testBit_mod_two_pow, Nat.testBit_shiftRight]

/-- What lies below a field, the field, and what lies above it. -/
theorem putBits_eq (n lo w v : Nat) : putBits n lo w v = n % 2 ^ lo + 2 ^ lo * (v % 2 ^ w + 2 ^ w * (n / 2 ^ (lo + w))) := by
  have h1 : 2 ^ lo * (n / 2 ^ lo) + n % 2 ^ lo = n := Nat.div_add_mod _ _
  have h2 : 2 ^ w * (n / 2 ^ lo / 2 ^ w) + n / 2 ^ lo % 2 ^ w = n / 2 ^ lo := Nat.div_add_mod _ _
  rw [Nat.div_div_eq_div_mul, ← Nat.pow_add] at h2
  simp only [putBits, bits]
  generalize n / 2 ^ lo = d at *
  generalize n / 2 ^ (lo + w) = e at *
  generalize v % 2 ^ w = x at *
  have h3 : d % 2 ^ w * 2 ^ lo ≤ n := by
    rw [← h1, Nat.mul_comm]
    exact Nat.le_trans (Nat.mul_le_mul_left _ (Nat.mod_le _ _)) (Nat.le_add_right _ _)
  have h4 : n = d % 2 ^ w * 2 ^ lo + (n % 2 ^ lo + 2 ^ lo * (2 ^ w * e)) := by
    have h5 : 2 ^ lo * d = d % 2 ^ w * 2 ^ lo + 2 ^ lo * (2 ^ w * e) := by
      rw [Nat.mul_comm (d % 2 ^ w), ← Nat.mul_add, Nat.add_comm (d % 2 ^ w), h2]
    omega
  rw [Nat.mul_add, Nat.mul_comm (2 ^ lo) x]
  omega

theorem putBits_testBit (n lo w v i : Nat) :
    (putBits n lo w v).testBit i = if lo ≤ i ∧ i < lo + w then v.testBit (i - lo) else n.testBit i := by
  rw [putBits_eq, Nat.add_comm, Nat.testBit_two_pow_mul_add _ (Nat.mod_lt _ (Nat.two_pow_pos lo)), Nat.testBit_mod_two_pow]
  by_cases h : i < lo
  · simp [h, Nat.not_le.2 h]
  · rw [Nat.add_comm (v % 2 ^ w), Nat.testBit_two_pow_mul_add _ (Nat.mod_lt _ (Nat.two_pow_pos w)), Nat.testBit_mod_two_pow,
      Nat.testBit_div_two_pow]
    by_cases g : i - lo < w
    · simp [h, g, Nat.not_lt.1 h, show i < lo + w by omega]
    · simp [h, g, show ¬i < lo + w by omega, show i - lo - w + (lo + w) = i by omega]

theorem bits_mod (n lo w k : Nat) (h : lo + w ≤ k) : bits (n % 2 ^ k) lo w = bits n lo w := by
  apply Nat.eq_of_testBit_eq
  intro i
  rw [bits_testBit, bits_testBit, Nat.testBit_mod_two_pow]
  by_cases hi : i < w
  · simp [hi, show lo + i < k by omega]
  · simp [hi]

theorem bits_putBits_same (n lo w v : Nat) : bits (putBits n lo w v) lo w = v % 2 ^ w := by
  apply Nat.eq_of_testBit_eq
  intro i
  rw [bits_testBit, putBits_testBit, Nat.testBit_mod_two_pow]
  by_cases hi : i < w
  · simp [hi]
  · simp [hi]

theorem bits_putBits_of_disjoint (n lo w v lo' w' : Nat) (h : lo' + w' ≤ lo ∨ lo + w ≤ lo') :
    bits (putBits n lo w v) lo' w' = bits n lo' w' := by
  apply Nat.eq_of_testBit_eq
  intro i
  rw [bits_testBit, bits_testBit, putBits_testBit]
  by_cases hi : i < w'
  · rw [if_neg (by omega)]
  · simp [hi]

/-! ## Registers -/

theorem State.rd_wr_same {s : State} (h : SMap.wf Reg.resetWord s.regs = true) (off : Nat) (w : Word) : (s.wr off w).rd off = w :=
  SMap.get_put_same h

theorem State.rd_wr_ne (s : State) {off o : Nat} (w : Word) (h : o ≠ off) : (s.wr off w).rd o = s.rd o :=
  SMap.get_put_of_ne h

theorem State.wr_canonical {s : State} (h : SMap.wf Reg.resetWord s.regs = true) (off : Nat) (w : Word) :
    SMap.wf Reg.resetWord (s.wr off w).regs = true := SMap.wf_put h

theorem State.setFld_canonical {s : State} (h : SMap.wf Reg.resetWord s.regs = true) (f : Fld) (v : Nat) :
    SMap.wf Reg.resetWord (s.setFld f v).regs = true := SMap.wf_put h

theorem State.setFld_rd_ne (s : State) (f : Fld) (v : Nat) {o : Nat} (h : o ≠ f.reg) : (s.setFld f v).rd o = s.rd o :=
  State.rd_wr_ne _ _ h

/-- A field reads back what was written, as far as its width holds it. -/
theorem State.fld_setFld_same {s : State} (h : SMap.wf Reg.resetWord s.regs = true) (f : Fld) (v : Nat) (hf : f.lo + f.width ≤ 32) :
    (s.setFld f v).fld f = v % 2 ^ f.width := by
  rw [State.fld, State.setFld, State.rd_wr_same h, BitVec.toNat_ofNat, bits_mod _ _ _ _ hf, bits_putBits_same]

/-- A field of another register, or one that shares no bit, reads as before. -/
theorem State.fld_setFld_ne {s : State} (h : SMap.wf Reg.resetWord s.regs = true) (f g : Fld) (v : Nat) (hg : g.lo + g.width ≤ 32)
    (hd : g.reg ≠ f.reg ∨ g.lo + g.width ≤ f.lo ∨ f.lo + f.width ≤ g.lo) : (s.setFld f v).fld g = s.fld g := by
  by_cases hr : g.reg = f.reg
  · rw [State.fld, State.setFld, hr, State.rd_wr_same h, BitVec.toNat_ofNat, bits_mod _ _ _ _ hg,
      bits_putBits_of_disjoint _ _ _ _ _ _ (hd.resolve_left (fun e => e hr)), State.fld, hr]
  · rw [State.fld, State.setFld_rd_ne _ _ _ hr, State.fld]

end Sys2Proof.Machine
end

