-- ==== Sys2Proof/Laws/Time.lean ====
section
/-! SUPPORT. What the passing of time leaves alone: everything but the moment, the registers of power control, the clocks of the
slabs and the record of blocked quarries. -/

namespace Sys2Proof.Machine

/-- Only what time itself changes differs between `s` and `t`. -/
structure TimeOnly (s t : State) : Prop where
  quarries : t.quarries = s.quarries
  core : t.core = s.core
  mem : t.mem = s.mem
  ctx : t.ctx = s.ctx
  host : t.host = s.host
  err : t.err = s.err
  ws : t.ws = s.ws
  kv : t.kv = s.kv
  vein : t.vein = s.vein
  coll : t.coll = s.coll
  fos : t.fos = s.fos
  fw : t.fw = s.fw
  pins : t.pins = s.pins
  freeCtr : t.freeCtr = s.freeCtr
  pending : t.pending = s.pending
  rd : ∀ off, (off < Reg.pwr ∨ Reg.sec ≤ off) → t.rd off = s.rd off

theorem TimeOnly.refl (s : State) : TimeOnly s s :=
  ⟨rfl, rfl, rfl, rfl, rfl, rfl, rfl, rfl, rfl, rfl, rfl, rfl, rfl, rfl, rfl, fun _ _ => rfl⟩

theorem TimeOnly.trans {s t u : State} (h : TimeOnly s t) (g : TimeOnly t u) : TimeOnly s u :=
  ⟨g.quarries.trans h.quarries, g.core.trans h.core, g.mem.trans h.mem, g.ctx.trans h.ctx, g.host.trans h.host,
    g.err.trans h.err, g.ws.trans h.ws, g.kv.trans h.kv, g.vein.trans h.vein, g.coll.trans h.coll, g.fos.trans h.fos,
    g.fw.trans h.fw, g.pins.trans h.pins, g.freeCtr.trans h.freeCtr, g.pending.trans h.pending,
    fun o ho => (g.rd o ho).trans (h.rd o ho)⟩

theorem TimeOnly.setFld (s : State) (f : Fld) (v : Nat) (h : Reg.pwr ≤ f.reg ∧ f.reg < Reg.sec) : TimeOnly s (s.setFld f v) :=
  ⟨rfl, rfl, rfl, rfl, rfl, rfl, rfl, rfl, rfl, rfl, rfl, rfl, rfl, rfl, rfl,
    fun _ ho => State.setFld_rd_ne _ _ _ (by omega)⟩

theorem State.runSlab_timeOnly (s : State) (dt i : Nat) : TimeOnly s (s.runSlab dt i) :=
  ⟨rfl, rfl, rfl, rfl, rfl, rfl, rfl, rfl, rfl, rfl, rfl, rfl, rfl, rfl, rfl, fun _ _ => rfl⟩

theorem State.setNow_timeOnly (s : State) (t : Nat) : TimeOnly s { s with now := t } :=
  ⟨rfl, rfl, rfl, rfl, rfl, rfl, rfl, rfl, rfl, rfl, rfl, rfl, rfl, rfl, rfl, fun _ _ => rfl⟩

theorem State.runTo_timeOnly (s : State) (t : Nat) : TimeOnly s (s.runTo t) := by
  unfold State.runTo
  exact ((((State.runSlab_timeOnly s (t - s.now) 0).trans (State.runSlab_timeOnly _ (t - s.now) 1)).trans
    (State.runSlab_timeOnly _ (t - s.now) 2)).trans (State.runSlab_timeOnly _ (t - s.now) 3)).trans (State.setNow_timeOnly _ t)

@[simp] theorem State.runTo_now (s : State) (t : Nat) : (s.runTo t).now = t := rfl

theorem Fld.fMhz_pwr {i : Nat} (h : i < 4) : Reg.pwr ≤ (Fld.fMhz i).reg ∧ (Fld.fMhz i).reg < Reg.sec := by
  match i, h with
  | 0, _ => decide
  | 1, _ => decide
  | 2, _ => decide
  | 3, _ => decide

theorem State.setClocks_timeOnly (s : State) : TimeOnly s s.setClocks := by
  have h (i : Nat) (hi : i < 4) (t : State) : TimeOnly t (t.setFld (Fld.fMhz i) (s.clockOf i)) := TimeOnly.setFld _ _ _ (Fld.fMhz_pwr hi)
  refine TimeOnly.trans ?_ (TimeOnly.setFld _ _ _ (by decide))
  refine TimeOnly.trans ?_ (TimeOnly.setFld _ _ _ (by decide))
  refine TimeOnly.trans ?_ (TimeOnly.setFld _ _ _ (by decide))
  refine TimeOnly.trans ?_ (TimeOnly.setFld _ _ _ (by decide))
  exact (((h 0 (by decide) s).trans (h 1 (by decide) _)).trans (h 2 (by decide) _)).trans (h 3 (by decide) _)

theorem State.advanceN_timeOnly (s : State) (t n : Nat) : TimeOnly s (s.advanceN t n) ∧ (s.advanceN t n).now = t := by
  induction n generalizing s with
  | zero => exact ⟨State.runTo_timeOnly s t, rfl⟩
  | succ n ih =>
    unfold State.advanceN
    split
    · split
      · exact ⟨((State.runTo_timeOnly _ _).trans (State.setClocks_timeOnly _)).trans (ih _).1, (ih _).2⟩
      · exact ⟨State.runTo_timeOnly s t, rfl⟩
    · exact ⟨State.runTo_timeOnly s t, rfl⟩

theorem State.noteQuarry_timeOnly (s : State) (q : Nat) : TimeOnly s (s.noteQuarry q) :=
  ⟨rfl, rfl, rfl, rfl, rfl, rfl, rfl, rfl, rfl, rfl, rfl, rfl, rfl, rfl, rfl, fun _ _ => rfl⟩

theorem State.noteBlocked_timeOnly (s : State) : TimeOnly s s.noteBlocked := by
  unfold State.noteBlocked
  exact (((State.noteQuarry_timeOnly _ _).trans (State.noteQuarry_timeOnly _ _)).trans (State.noteQuarry_timeOnly _ _)).trans
    (State.noteQuarry_timeOnly _ _)

theorem State.advanceTo_timeOnly (s : State) (t : Nat) : TimeOnly s (s.advanceTo t) := by
  unfold State.advanceTo
  split
  · exact TimeOnly.refl s
  · exact (State.noteBlocked_timeOnly s).trans (State.advanceN_timeOnly _ _ _).1

/-- Time runs to the moment that is asked for, never back. -/
theorem State.advanceTo_now (s : State) (t : Nat) : (s.advanceTo t).now = max s.now t := by
  unfold State.advanceTo
  split
  · omega
  · rw [(State.advanceN_timeOnly _ _ _).2]
    omega

/-- At the present moment nothing passes. -/
theorem State.advanceTo_of_le {s : State} {t : Nat} (h : t ≤ s.now) : s.advanceTo t = s := if_pos h

end Sys2Proof.Machine
end

