-- ==== Sys2Proof/Tests/Slice0.lean ====
section
/-! SUPPORT. Tests: what the well-formedness checks refuse, the spec's worked examples on single operations, and for every statement
with hypotheses a state that meets them. -/

namespace Sys2Proof.Tests

open Sys2Proof.Machine

set_option Elab.async false

/-- At moment 0 no time passes, so `u` of a statement is the state itself. -/
theorem test_moment_zero (s : State) : s.advanceTo 0 = s := State.advanceTo_of_le (Nat.zero_le _)

/-- A state with fields set. -/
def flds (l : List (Fld × Nat)) (s : State) : State := l.foldl (fun s e => s.setFld e.1 e.2) s

/-- A state at a moment. -/
def atMoment (n : Nat) (s : State) : State := { s with now := n }

/-- Flint's service runs and nothing has been set up. -/
def served : State := { State.reset with pins := { State.reset.pins with phase := .running, perst := false } }

/-- The lock is set, so the host reaches the registers. -/
def locked : State := { served with regs := [(Reg.secLock, 1), (Reg.secBootStat, 2)] }

theorem bootStat_reset {w : Word} (hw : w.toNat % 64 ≠ 0) : Reg.resetWord Reg.secBootStat ≠ w := by
  rintro rfl
  have e : Reg.resetWord Reg.secBootStat
      = BitVec.ofNat 32 (Config.fusedMinSvn.toNat * 2 ^ 8 + (if Config.fusedOwner.isSome then 2 ^ 6 else 0)) := rfl
  rw [e, BitVec.toNat_ofNat] at hw
  split at hw <;> omega

theorem test_meets_sound : Sound State.reset ∧ Sound served ∧ Sound locked := by
  refine ⟨⟨rfl, by decide, fun _ _ => rfl⟩, ⟨rfl, by decide, fun _ _ => rfl⟩, ⟨?_, by decide, ?_⟩⟩
  · have h : Reg.resetWord Reg.secBootStat ≠ 2#32 := bootStat_reset (by decide)
    simp only [locked, SMap.wf, SMap.wfFrom, Bool.and_eq_true, decide_eq_true_eq, Bool.and_true]
    exact ⟨⟨by decide, by decide⟩, by decide, h.symm⟩
  · rintro o (rfl | rfl | rfl | rfl | rfl) <;> rfl

/-- A master of its domain that times its own ticks, in a stratum that began at moment 0. -/
def ticking (source role : Nat) (l : List (Fld × Nat)) (b : Quarry → Quarry) : State :=
  let s := flds ([(Fld.run, 1), (Fld.source, source), (Fld.role, role)] ++ l) locked
  s.setQuarry 0 (b { s.quarry 0 with opened := true, period := 100, minGap := 90 })

/-! ## Witnesses: registers and strata -/

theorem test_meets_idle : State.reset.pending = [] ∧ locked.pending = []
    ∧ (let u := locked.advanceTo 1
       (∀ p < 16, u.carries p = false) ∧ u.fos.epoch = none ∧ u.fos.fill = none ∧ u.fos.arriving = [] ∧ u.coll.held = []
        ∧ u.coll.xfers = [] ∧ u.err.screen = []) := by decide +kernel

theorem test_meets_reaches : Reaches State.reset State.reset.idle := .tail (.refl _) rfl

theorem test_meets_fields : Fld.run.lo + Fld.run.width ≤ 32 ∧ Fld.source.lo + Fld.source.width ≤ Fld.run.lo := by decide +kernel

theorem test_meets_access : (Reg.info Reg.glbStat).any (fun r => r.w1c != 0) = true ∧ (Reg.info Reg.strPeriod).any (fun r => r.rw != 0) = true
    ∧ (Reg.info Reg.memTlbInvLo).any (fun r => (BitVec.ofNat 32 r.wo).getLsbD 31) = true ∧ locked.admits .flint Reg.memTlbInvLo = true
    ∧ Reg.ctx ≤ Reg.memTlbInvLo ∧ locked.admits .host Reg.glbStat = true ∧ indexRegs.contains Reg.glbStat = false ∧ Reg.glbStat < Reg.str
    ∧ (Reg.info Reg.glbStat).any (fun r => !(BitVec.ofNat 32 r.wo).getLsbD 0) = true := by decide +kernel

theorem test_meets_register_writes : State.reset.admits .host Reg.glbStat = false ∧ Reg.info 0x40 = none ∧ locked.admits .host Reg.memLayout = true
    ∧ (Reg.info Reg.memLayout).any (fun r => r.rw + r.wo != 0 && r.w1c == 0) = true ∧ Reg.mem ≤ Reg.memLayout ∧ Reg.memLayout < Reg.err
    ∧ indexRegs.contains Reg.memLayout = false := by decide +kernel

theorem test_meets_tick : (0 : Nat) < 4 ∧ served.trainCtx = none ∧ served.fos.nextMap = none := by decide +kernel

/-- A master in its stratum, whose subtree is done one period after the tick; one whose subtree is not; one before its first tick. -/
def masterDone : State := atMoment 10000 (ticking 0 1 [(Fld.done 0, 1)] id)
def masterLate : State := atMoment 10000 (ticking 0 1 [] id)
def masterFirst : State := atMoment 10000 (ticking 0 1 [] fun b => { b with opened := false })

theorem test_meets_master_tick :
    (masterDone.generates 0 = true ∧ masterDone.subtreeDone 0 = true ∧ (masterDone.quarry 0).lastTick + 100 * (masterDone.quarry 0).period ≤ masterDone.now
      ∧ (masterDone.quarry 0).opened = true)
    ∧ (masterLate.generates 0 = true ∧ masterLate.subtreeDone 0 = false ∧ masterLate.fld Fld.role = 1
      ∧ (masterLate.quarry 0).lastTick + ((masterLate.quarry 0).stretchSent + 1) * masterLate.period 0 ≤ masterLate.now)
    ∧ ((atMoment 9999 masterDone).now < (masterDone.quarry 0).lastTick + 100 * (masterDone.quarry 0).period)
    ∧ (masterFirst.generates 0 = true ∧ (masterFirst.quarry 0).opened = false
      ∧ (masterFirst.quarry 0).runAt + 100 * (masterFirst.quarry 0).period ≤ masterFirst.now
      ∧ (atMoment 9999 masterFirst).now < (masterFirst.quarry 0).runAt + 100 * (masterFirst.quarry 0).period) := by decide +kernel

/-- A member whose ticks come from the pins, done at moment 9,000; the same in holdover. -/
def pinsDone : State := atMoment 9000 (ticking 1 0 [(Fld.done 0, 1)] fun b => { b with sentDone := true })
def pinsHeld : State := atMoment 20000 (ticking 1 0 [(Fld.done 0, 1), (Fld.holdover 0, 1)] id)

theorem test_meets_edges :
    (served.ticking = false)
    ∧ (pinsDone.ticking = true ∧ pinsDone.deaf = false ∧ pinsDone.fld Fld.source = 1 ∧ pinsDone.flag (Fld.holdover 0) = false
      ∧ (pinsDone.quarry 0).opened = true ∧ (pinsDone.quarry 0).lastTick + 100 * (pinsDone.quarry 0).minGap ≤ pinsDone.now
      ∧ pinsDone.flag (Fld.done 0) = true ∧ (atMoment 8999 pinsDone).now < (pinsDone.quarry 0).lastTick + 100 * (pinsDone.quarry 0).minGap)
    ∧ (pinsHeld.flag (Fld.holdover 0) = true ∧ pinsHeld.flag (Fld.done 0) = true
      ∧ (pinsHeld.quarry 0).lastTick + (if (pinsHeld.quarry 0).holdoverTicks = 0 then 2 else 1) * pinsHeld.period 0 ≤ pinsHeld.now
      ∧ (pinsHeld.setFld (Fld.done 0) 0).flag (Fld.holdover 0) = true ∧ (pinsHeld.setFld (Fld.done 0) 0).flag (Fld.done 0) = false) := by decide +kernel

/-- A member of domain 7 whose ticks come down port 3, with ports 3 and 4 up and port 4 below it. -/
def member : State := atMoment 9000 (ticking 2 0 [(Fld.upPort, 3), (Fld.domainId, 7), (Fld.downPorts, 16), (Fld.portState 3, psUp),
  (Fld.portState 4, psUp), (Fld.done 0, 1)] fun b => { b with count := 5, sentDone := true })

theorem test_meets_symbols :
    (member.hears 3 7 = true ∧ member.hears 3 8 = false ∧ member.flag (Fld.holdover 0) = false ∧ (member.quarry 0).opened = true
      ∧ (member.quarry 0).lastTick + 100 * (member.quarry 0).minGap ≤ member.now ∧ member.flag (Fld.done 0) = true
      ∧ (6 : BitVec 48) = (member.quarry 0).count + 1 ∧ (atMoment 8999 member).now < (member.quarry 0).lastTick + 100 * (member.quarry 0).minGap)
    ∧ (member.ticking = true ∧ member.carries 4 = true ∧ bit (member.fld Fld.downPorts) 4 = true ∧ member.fld Fld.domainId = 7
      ∧ (member.quarry 0).count = 5 ∧ (member.quarry 0).downDone.contains 4 = false ∧ bit (member.fld Fld.downPorts) 3 = false) := by decide +kernel

theorem test_meets_module_done : masterLate.ticking = true ∧ 0 < quarryCount masterLate.modeOf ∧ (masterLate.quarry 0).opened = true
    ∧ masterLate.flag (Fld.done 0) = false ∧ masterLate.coresDone 0 = true ∧ masterLate.transfersLanded 0 = true := by decide +kernel

theorem test_meets_overrun :
    let u := atMoment 50000 masterLate
    let u : State := { (u.setFld (Fld.resident 0) 1) with core := { u.core with dmaq := [{ core := 0, id := 0, stream := 0, ctx := 0, desc := 2 ^ 15 }] } }
    let b := u.quarry 0
    u.ticking = true ∧ 0 < quarryCount u.modeOf ∧ b.opened = true ∧ u.isDone 0 = false ∧ b.overrun = false
      ∧ b.lastTick + (1 + u.fld Fld.overrunLimit) * (100 * b.period) ≤ u.now ∧ u.err.flintDown = false ∧ u.policy 0x0601 = 0
      ∧ (atMoment 49999 masterLate).now < b.lastTick + (1 + u.fld Fld.overrunLimit) * (100 * b.period)
      ∧ u.fld Fld.role = 1 ∧ b.domOverrun = false
      ∧ (let v := u.overrunQuarry 0
         let w := (v.setQuarry 0 { v.quarry 0 with domOverrun := true }).report { code := 0x0602 }
         w.policy 0x0602 = 0 ∧ w.err.flintDown = false)
      ∧ (u.setFld (Fld.done 0) 1).isDone 0 = true := by decide +kernel

theorem test_meets_tick_loss :
    (let u := atMoment 20000 member
     u.ticking = true ∧ u.fld Fld.source = 2 ∧ (u.quarry 0).sentDone = true ∧ (u.quarry 0).opened = true ∧ u.tickless 0 = false
      ∧ (u.quarry 0).heardAt + 2 * u.period 0 ≤ u.now)
    ∧ (let u := atMoment 70000 pinsDone
       u.ticking = true ∧ u.fld Fld.source = 1 ∧ (u.quarry 0).sentDone = true ∧ (u.quarry 0).opened = true ∧ u.tickless 0 = false
        ∧ (u.quarry 0).lastTick + (u.fld Fld.overrunLimit + 3) * u.period 0 ≤ u.now ∧ u.deaf = false ∧ 0 + 2 * u.period 0 < u.now)
    ∧ (masterLate.quarry 0).sentDone = false := by decide +kernel

theorem test_meets_strata_registers :
    (locked.admits .flint Reg.strPeriod = true ∧ bits (0x005A0018 : Nat) 0 10 < 25 ∧ locked.admits .flint Reg.strCtrl = true
      ∧ locked.admits .host Reg.strCtrl = true ∧ locked.admits .host Reg.strPeriod = true ∧ locked.admits .host Reg.strDomain = true)
    ∧ (let v : Word := 0x005A0064#32 &&& 0x03FF03FF#32
       let locked := flds [(Fld.outEn, 1)] locked
       v = 0x005A0064#32 &&& 0x03FF03FF#32 ∧ strWordsOk (locked.rd Reg.strCtrl).toNat v.toNat (locked.rd Reg.strDomain).toNat = true
       ∧ strFrozenOk (locked.rd Reg.strCtrl).toNat (locked.rd Reg.strDomain).toNat (locked.rd Reg.strCtrl).toNat (locked.rd Reg.strDomain).toNat = true
       ∧ (locked.wr Reg.strPeriod v).budgetsOk = true ∧ locked.flag Fld.outEn = true)
    ∧ (0 < quarryCount locked.modeOf ∧ locked.admits .host Reg.str = true ∧ locked.admits .flint Reg.str = true ∧ locked.flag Fld.run = false
      ∧ masterLate.admits .flint Reg.str = true ∧ masterLate.flag Fld.run = true) := by decide +kernel

/-! ## Witnesses: cores, descriptors and tiles -/

/-- Context 0 runs on core 0 with shares of every memory; its tables map addresses below 1 GiB to the second GiB of slice 0. -/
def running (st : Stream) : State :=
  let s := flds [(Fld.mainSize 0, 2), (Fld.ctxState 0, csRunning), (Fld.resident 0, 1)] locked
  let s := (s.wr (Reg.ctxLocal 0) (BitVec.ofNat 32 (32 * 2 ^ 26 + 64 * 2 ^ 14))).wr (Reg.ctxCore 0) (BitVec.ofNat 32 (128 * 2 ^ 24 + 64 * 256))
  let s := (s.putPhys 0x10000 (leBytes 4 0x11001)).putPhys 0x11000 (leBytes 4 0x40000007)
  { s with
    core := { s.core with streams := [(3, st)], sems := [(0, { valid := true, value := 5 }), (1, { valid := true, owner := 1 })] }
    ctx := { s.ctx with ctxs := [(0, { ptRoot := 0x10000 })] } }

/-- A stream of one descriptor at address 0, which holds `d` there. -/
def program (st : Stream) (d : Nat) : State := (running { st with progLen := 1 }).putPhys 0x40000000 (leBytes 64 d)

/-- The head of stream 3 of core 0 is fetched, and its check answers `code`. -/
def headChecks (u : State) (code : Option Nat) : Bool :=
  match (fetchHead 0 (u.stream 0 3)) u with
  | (.ok b, v) => v.descCheck 0 0 b.1 == code
  | _ => false

theorem test_meets_descriptor_issue :
    (let u := program { state := .ready } 0x75
     u.mayIssue 0 3 = true ∧ (u.stream 0 3).inProgram = true ∧ headChecks u none = true)
    ∧ (let u := program { state := .ready } 0
       u.mayIssue 0 3 = true ∧ (u.stream 0 3).inProgram = true ∧ headChecks u (some 0x0201) = true)
    ∧ (let u := running { state := .ready }
       u.mayIssue 0 3 = true ∧ (u.stream 0 3).inProgram = false)
    ∧ (let u := running { state := .ready, progBase := 2 ^ 46, pc := 2 ^ 46, progLen := 1 }
       u.mayIssue 0 3 = true ∧ (u.stream 0 3).inProgram = true
        ∧ (match (fetchHead 0 (u.stream 0 3)) u with | (.error (.fault _ _), _) => true | _ => false) = true)
    ∧ (let u := program { state := .ready, buffer := [(0, 0x76)] } 0x75
       u.mayIssue 0 3 = true ∧ (u.stream 0 3).inProgram = true ∧ headChecks u none = true
        ∧ ((u.stream 0 3).buffer.find? fun e => e.1 == (u.stream 0 3).pc) = some (0, 0x76)) := by decide +kernel

/-- A descriptor that waits for semaphore 0, whose value is 5, to reach `v`; a stream whose head it is. -/
def waits (op v : Nat) : Nat := op + 2 ^ 14 + v * 2 ^ 64
def heads (d : Nat) : State := running { state := .ready, issued := true, head := d }

theorem test_meets_semaphores :
    (let s := heads (waits 0x71 5)
     (s.sem 0).valid = true ∧ semKey 0 (dWaitSem (waits 0x71 5)) = 0 ∧ dWaitEn (waits 0x71 5) = true ∧ s.waitMet 0 (waits 0x71 5) = true)
    ∧ (let s := running { state := .waiting, waitFor := .sem 0, head := waits 0x71 5 }
       (s.stream 0 3).state = .waiting ∧ (s.stream 0 3).waitFor = .sem 0 ∧ (s.sem 0).permits 0 = true ∧ s.waitMet 0 (s.stream 0 3).head = true)
    ∧ (let s := running { state := .waiting, waitFor := .sem 0, head := waits 0x71 6 }
       (s.stream 0 3).waitFor = .sem 0 ∧ (s.sem 0).permits 0 = true ∧ s.waitMet 0 (s.stream 0 3).head = false)
    ∧ (let s := running { state := .waiting, waitFor := .sem 1, head := waits 0x71 5 }
       (s.stream 0 3).waitFor = .sem 1 ∧ (s.sem 1).permits 0 = false ∧ (s.stream 0 3).waitFor ≠ .sem 0) := by decide +kernel

/-- The same with stream 2 before it, whose head asked for semaphore 0 first; both take from it. -/
def rivals (d : Nat) : State :=
  let u := heads (d + 2 ^ 12)
  { u with core := { u.core with
      streams := [(2, { state := .ready, issued := true, head := waits 0x71 5 + 2 ^ 12 }), (3, { u.stream 0 3 with readyAt := 7 })] } }

/-- A tile that Flint has placed on core 0. -/
def placedTile : Tile := { core := 0, engine := .matrix, stream := 64, ctx := 0, desc := 0x13, phase := .placed, home := some (1, 3) }
def withPlaced : State := { (heads 0) with core := { (heads 0).core with tiles := [placedTile] } }

theorem test_meets_picker :
    (let u := heads (waits 0x13 5)
     u.engineFree 0 .matrix = true ∧ u.withheld = false ∧ u.checkerNext 0 .matrix = none ∧ u.replayClaims .matrix = false
      ∧ u.placedNext 0 .matrix = none ∧ u.bestOf 0 .matrix = some 3
      ∧ dWaitEn (u.stream 0 3).head = true ∧ (u.sem (semKey 0 (dWaitSem (u.stream 0 3).head))).permits (u.stream 0 3).ctx = true
      ∧ u.waitMet 0 (u.stream 0 3).head = true ∧ u.outranked 0 3 = false)
    ∧ (let u := running { state := .ready, issued := true, head := waits 0x43 6, resume := some {} }
       u.engineFree 0 .attn = true ∧ u.withheld = false ∧ u.checkerNext 0 .attn = none ∧ u.replayClaims .attn = false
        ∧ u.placedNext 0 .attn = none ∧ u.bestOf 0 .attn = some 3 ∧ (u.stream 0 3).resume.isSome = true)
    ∧ (let u := rivals (waits 0x13 5)
       u.engineFree 0 .matrix = true ∧ u.withheld = false ∧ u.checkerNext 0 .matrix = none ∧ u.replayClaims .matrix = false
        ∧ u.placedNext 0 .matrix = none ∧ u.bestOf 0 .matrix = some 3 ∧ (u.stream 0 3).resume = none
        ∧ (u.sem (semKey 0 (dWaitSem (u.stream 0 3).head))).permits (u.stream 0 3).ctx = true
        ∧ u.waitMet 0 (u.stream 0 3).head = true ∧ u.outranked 0 3 = true)
    ∧ (withPlaced.engineFree 0 .matrix = true ∧ withPlaced.withheld = false ∧ withPlaced.checkerNext 0 .matrix = none
      ∧ withPlaced.replayClaims .matrix = false ∧ withPlaced.placedNext 0 .matrix = some placedTile)
    ∧ ((heads 0x13).startTile 0 3 .matrix).engineFree 0 .matrix = false
    ∧ ({ locked with pwr := { locked.pwr with withhold := true } } : State).withheld = true := by decide +kernel

theorem test_meets_queue :
    (let u := heads (waits 0x51 5)
     u.headReady 0 3 = true ∧ dClass (u.stream 0 3).head = 5 ∧ u.queueRoom 0 5 = true ∧ u.waitMet 0 (u.stream 0 3).head = true
      ∧ (u.sem (semKey 0 (dWaitSem (u.stream 0 3).head))).permits (u.stream 0 3).ctx = true ∧ u.outranked 0 3 = false)
    ∧ ((rivals (waits 0x51 5)).headReady 0 3 = true ∧ (rivals (waits 0x51 5)).queueRoom 0 5 = true ∧ (rivals (waits 0x51 5)).outranked 0 3 = true)
    ∧ dClass (heads 0x61 |>.stream 0 3).head = 6 ∧ dClass (heads 0x81 |>.stream 0 3).head = 8
    ∧ (let u := heads 0x61
       let full : State := { u with core := { u.core with hubq := List.replicate 16 { core := 0, id := 0, stream := 0, ctx := 0, desc := 0 } } }
       full.headReady 0 3 = true ∧ full.queueRoom 0 6 = false) := by decide +kernel

theorem test_meets_control :
    (∀ op ∈ [0x71, 0x72, 0x73, 0x74, 0x75, 0x76],
      (heads (waits op 5)).headReady 0 3 = true ∧ dOpcode ((heads (waits op 5)).stream 0 3).head = op
        ∧ (heads (waits op 5)).waitMet 0 (waits op 5) = true ∧ (heads (waits op 6)).waitMet 0 (waits op 6) = false
        ∧ (heads (waits op 5)).outranked 0 3 = false ∧ (rivals (waits op 5)).headReady 0 3 = true
        ∧ (rivals (waits op 5)).waitMet 0 ((rivals (waits op 5)).stream 0 3).head = true ∧ (rivals (waits op 5)).outranked 0 3 = true)
    ∧ loopCount 0 1 = 0 ∧ loopCount 0 2 ≠ 0
    ∧ branchCond 1 5 5 = true ∧ branchCond 1 4 5 = false ∧ ((heads 0x74).sem 1).permits 0 = false
    ∧ ((heads 0x76).setStream 0 3 { state := .ended }).allEnded 0 = true ∧ (heads 0x76).allEnded 0 = false
    ∧ ((heads 0x72).signals 0 0 0x72 (sigTargets 0x72)).2 = true
    ∧ ((heads (0x72 + 2 ^ 15 + 2 ^ 48)).signals 0 0 0 [(1, 1, false)]).2 = false := by decide +kernel

/-- A tile on the matrix array of core 0. -/
def tileOn (t : Tile) (s : State) : State := { s with core := { s.core with tiles := [t] } }
def tile (op body : Nat) (phase : TilePhase := .running) : Tile :=
  { core := 0, engine := .matrix, stream := 3, ctx := 0, desc := op + body, phase := phase }

theorem test_meets_tile_ends :
    (∀ p ∈ [TilePhase.worked, .stopping, .running, .recheck], (tileOn (tile 0x13 0 p) (heads 0)).tileOf 0 3 = some (tile 0x13 0 p))
    ∧ (tileOn { tile 0x13 0 .worked with checker := some 1 } (heads 0)).tileOf 0 3 = some { tile 0x13 0 .worked with checker := some 1 }
    ∧ ((heads 0).slab 0).guard < (tile 0x13 0).startGuard + 2000
    ∧ (let u := (heads 0).setSlab 0 { (heads 0).slab 0 with guard := 2000 }
       (tile 0x13 0).startGuard + 2000 ≤ (u.slab (0 / 40)).guard)
    ∧ (let u := atMoment 200 (tileOn (tile 0x13 0 .stopping) (heads 0))
       u.core.tiles = [tile 0x13 0 .stopping] ∧ (tile 0x13 0 .stopping).stopAt + 200 ≤ u.now ∧ u.openRec domContext 0 = none) := by decide +kernel

/-! ## Witnesses: engines, queues, the cache and memory -/

/-- A piece of work ends with the answer that satisfies `p`. -/
def worksTo {α : Type} (f : Exec α) (s : State) (p : α → Bool) : Bool :=
  match f s with
  | (.ok a, _) => p a
  | _ => false
def works {α : Type} (f : Exec α) (s : State) : Bool := worksTo f s fun _ => true

/-- The work of a tile that runs ends with its tally. -/
def begun (f : Tile → Exec Tally) (t : Tile) (s : State) : Bool := works (f t) ((tileOn t s).beginLog t)

/-- Local store of context 0 on core 0 from its base on: a 1.0 that the norms read as their parameter; a program of one
micro-operation `op` that writes output 0, and the records of its streams. -/
def withParam : State := (heads 0).putLs 0 ((heads 0).lsAt 0 0) (leBytes 4 0x3F800000)
def withProgram (op : Nat) : State :=
  (heads 0).putLs 0 ((heads 0).lsAt 0 0) (leBytes 8 (op * 2 ^ 56 + 8 * 2 ^ 52) ++ List.replicate 184 0 ++ leBytes 32 (2 ^ 64))

theorem test_meets_tiles_work :
    (∀ op ∈ [0x11, 0x12, 0x13, 0x15, 0x16, 0x17, 0x21, 0x31, 0x33, 0x38],
      (tileOn (tile op 0) (heads 0)).tileOf 0 3 = some (tile op 0) ∧ (tile op 0).phase = .running ∧ dOpcode (tile op 0).desc = op
        ∧ (tileOn (tile op 0) (heads 0)).coreFenced 0 = false)
    ∧ begun (matmulWork none) (tile 0x11 0) (heads 0) = true
    ∧ begun epilogueWork (tile 0x12 0) (heads 0) = true
    ∧ begun combineWork (tile 0x13 0) (heads 0) = true
    ∧ begun elementwiseWork (tile 0x15 0) (heads 0) = true
    ∧ begun spillWork (tile 0x16 0) (heads 0) = true
    ∧ begun fillSlotsWork (tile 0x17 0) (heads 0) = true := by decide +kernel

theorem test_meets_kernel_and_rows_work :
    begun kernelWork (tile 0x21 (2 ^ 198)) (withProgram 1) = true
    ∧ begun softmaxFwdWork (tile 0x31 0) (heads 0) = true ∧ begun softmaxBwdWork (tile 0x32 0) (heads 0) = true
    ∧ begun (normFwdWork 0x33) (tile 0x33 0) withParam = true ∧ begun (normBwdWork 0x34) (tile 0x34 0) withParam = true
    ∧ begun (normFwdWork 0x35) (tile 0x35 0) withParam = true ∧ begun (normBwdWork 0x36) (tile 0x36 0) withParam = true
    ∧ begun statsSpillWork (tile 0x37 0) (heads 0) = true ∧ begun statsFillWork (tile 0x38 0) (heads 0) = true := by decide +kernel

/-- Work that stops with a code, and work that cannot go on. -/
def faults {α : Type} (code : Nat) : Tile → Exec α := fun _ s => (.error (.fault code 0), s)
def stalls {α : Type} : Tile → Exec α := fun _ s => (.error .stall, s)

theorem test_meets_tiles_left_alone : (heads 0).tileOf 0 3 = none
    ∧ (let s := tileOn (tile 0x11 0) (heads 0)
       s.tileOf 0 3 = some (tile 0x11 0) ∧ s.coreFenced 0 = false
        ∧ (match (faults (α := Tally) 0x0212 (tile 0x11 0)) (s.beginLog (tile 0x11 0)) with | (.error (.fault 0x0212 _), _) => true | _ => false) = true
        ∧ (match (faults (α := Tally) 0x0210 (tile 0x11 0)) (s.beginLog (tile 0x11 0)) with | (.error (.fault 0x0210 _), _) => true | _ => false) = true
        ∧ (match (stalls (α := Tally) (tile 0x11 0)) (s.beginLog (tile 0x11 0)) with | (.error .stall, _) => true | _ => false) = true) := by decide +kernel

/-- A member of a REDUCE over cores 0 and 1, `n` members in all. -/
def member_ (core rank n : Nat) (tag : Nat := 0) : Tile :=
  { core := core, engine := .matrix, stream := 3, ctx := 0, desc := 0x14 + n * 2 ^ 128 + rank * 2 ^ 136 + tag * 2 ^ 160 + 2 ^ 184, round := 1 }

theorem test_meets_reduce :
    (reduceBody (member_ 0 0 2).desc).nextRound 5 0 = some 0 ∧ (reduceBody (member_ 0 0 1).desc).nextRound 5 0 = none
    ∧ (let s := { (heads 0) with core := { (heads 0).core with tiles := [member_ 0 0 2, member_ 1 1 2] } }
       let t := member_ 0 0 2
       let u := member_ 1 1 2
       s.tileOf 0 3 = some t ∧ t.phase = .running ∧ dOpcode t.desc = 0x14 ∧ s.coreFenced 0 = false ∧ t.round ≠ 0
        ∧ (reduceBody t.desc).sends (t.round - 1) = false ∧ (reduceBody t.desc).core ((reduceBody t.desc).rank + 2 ^ (t.round - 1)) = 1
        ∧ s.core.tiles.find? (fun x => x.core == 1 && x.phase == .running && dOpcode x.desc == 0x14 && x.round != 0) = some u
        ∧ (reduceBody t.desc).pull = (reduceBody u.desc).pull ∧ u.ctx = t.ctx ∧ (reduceBody u.desc).sends (u.round - 1) = true ∧ u.round = t.round
        ∧ works (pullWork t (reduceBody t.desc) u (reduceBody u.desc)) s = true
        ∧ (reduceBody t.desc).pull ≠ (reduceBody (member_ 1 1 2 7).desc).pull) := by decide +kernel

/-- An entry of the DMA queue of core 0. -/
def entry (d : Nat) (moved : Bool := false) : QEntry := { core := 0, id := 4, stream := 3, ctx := 0, desc := d, moved := moved }
def queued (q : QEntry) : State := { (heads 0) with core := { (heads 0).core with dmaq := [q] } }

/-- A COPY of one granule from an address that nothing maps. -/
def farCopy : Nat := 0x51 + 2 ^ 168 + 64 * 2 ^ 288 + 2 ^ 320 + 2 ^ 359

theorem test_meets_dma :
    (∀ op ∈ [0x51, 0x52, 0x53], (queued (entry op)).dmaEntry 0 4 = some (entry op) ∧ dOpcode (entry op).desc = op
      ∧ (queued (entry op)).coreFenced 0 = false)
    ∧ works (copyWork 0 0 (dmaBody 0x51)) (queued (entry 0x51)) = true ∧ works (transposeWork 0 0 (dmaBody 0x52)) (queued (entry 0x52)) = true
    ∧ works (fillWork 0 0 (dmaBody 0x53)) (queued (entry 0x53)) = true
    ∧ (match (copyWork 0 0 (dmaBody farCopy)) (queued (entry farCopy)) with
       | (.error (.fault code _), _) => code == 0x0101
       | _ => false) = true
    ∧ (queued (entry 0x51 true)).core.dmaq.find? (fun q => q.core == 0 && q.id == 4 && q.moved) = some (entry 0x51 true)
    ∧ (queued (entry 0x51)).core.dmaq.find? (fun q => q.core == 0 && q.id == 4 && q.moved) = none := by decide +kernel

/-- Slot 0 belongs to context 0, with its page records from virtual address 0x1000 on; the first of them is a page of 128 tokens. -/
def bound (status : Nat) : State :=
  let s := (heads 0).putPhys 0x40001000 ([0, 128] ++ List.replicate 10 0 ++ List.replicate 8 127)
  { s with kv := { s.kv with slots := [(0, { valid := true, recBase := 0x1000, status := status })] } }

/-- A stage of a tile that runs ends with the answer that satisfies `p`. -/
def staged (f : Tile → Exec Bool) (t : Tile) (s : State) (p : Bool → Bool) : Bool := worksTo (f t) ((tileOn t s).beginLog t) p

/-- An attention tile whose table has one entry, and where it has come. -/
def attended (op entry : Nat) : Tile := { tile op 0 with table := [1], at_ := { entry := entry } }

/-- An attention tile whose block header lies where nothing is mapped. -/
def farBlock : Tile := tile 0x43 (2 ^ 474 + 2 ^ 46 * 2 ^ 272)

theorem test_meets_pipe :
    staged appendStage (tile 0x4E 0) (bound 1) id = true ∧ ((bound 1).slot 0).status ≠ 0 ∧ (bound 1).slotOwned 0 0 = true
    ∧ staged demoteStage (tile 0x4F 0) (bound 1) id = true ∧ staged demoteStage (tile 0x4F (2 * 2 ^ 160)) (bound 0) not = true
    ∧ (∀ op ∈ [0x41, 0x42, 0x43], staged (attnStage op false) (tile op 0) (heads 0) not = true
      ∧ staged (attnStage op false) (attended op 1) (heads 0) id = true)
    ∧ staged bucketSortStage (tile 0x44 0) (heads 0) id = true ∧ staged seqDoneStage (tile 0x45 0) (heads 0) id = true
    ∧ (tile 0x4E 0).checker = none ∧ (heads 0).core.log = none ∧ (bound 1).core.log = none ∧ ((heads 0).slot 0).valid = false
    ∧ (match (attnStage 0x43 false farBlock) ((tileOn farBlock (heads 0)).beginLog farBlock) with
       | (.error (.fault code _), _) => code != 0x0212
       | _ => false) = true := by decide +kernel

/-! ## Witnesses: the paged cache and memory -/

/-- A fault of context 0 on subslot 0 of slot 0 waits; its pool has the frames at `pool`. -/
def treeless (pool : List (Nat × Nat)) : State :=
  let s := heads 0
  { s with
    kv := { s.kv with waits := [{ core := 0, stream := 3, ctx := 0, slot := 0, va := 2 ^ 47, expires := 0 }] }
    ctx := { s.ctx with ctxs := [(0, { ptRoot := 0x10000, kvPool := pool })] } }

/-- The tree has the tables of the subslot. -/
def faulted (pool : List (Nat × Nat)) : State :=
  (((treeless pool).putPhys 0x10800 (leBytes 4 0x13001)).putPhys 0x13000 (leBytes 4 0x14001)).putPhys 0x14000 (leBytes 4 0x15001)

/-- The budget of the fault has run out. -/
def lost (s : State) : State := { s with kv := { s.kv with waits := s.kv.waits.map fun w => { w with lost := true } } }

theorem test_meets_kv_service :
    (∀ u ∈ [faulted [], faulted [(0x50000000, 1)], treeless [(0x50000000, 4)], (faulted []).putPhys 0x15000 (leBytes 4 0x50000007)],
      (u.kv.waits.find? fun w => w.ctx == 0 && !w.lost && !u.err.flintDown) = u.kv.waits.head? ∧ u.kv.waits ≠ []
        ∧ u.protectedAt 0x15000 = false ∧ u.protectedAt 0x10800 = false)
    ∧ (((faulted []).putPhys 0x15000 (leBytes 4 0x50000007)).gap 0 (2 ^ 47)).isNone = true
    ∧ ((faulted [(0x50000000, 1)]).gap 0 (2 ^ 47)).any (fun g => g.1 == 0x15000 && g.2.isEmpty) = true
    ∧ (faulted []).freeFrames 0 = [] ∧ (faulted [(0x50000000, 1)]).freeFrames 0 = [0x50000000]
    ∧ ((treeless [(0x50000000, 4)]).gap 0 (2 ^ 47)).any (fun g => g.1 == 0x10800 && g.2.length == 3) = true
    ∧ (treeless [(0x50000000, 4)]).freeFrames 0 = [0x50000000, 0x50004000, 0x50008000, 0x5000C000]
    ∧ (lost (faulted [])).kv.waits.find? (fun w => w.slot == 0 && w.lost) = (lost (faulted [])).kv.waits.head?
    ∧ (∀ w ∈ (lost (faulted [])).kv.waits, w.ctx = 0 → w.lost = true) ∧ (∀ w ∈ (faulted []).kv.waits, w.slot = 0 → w.lost = false)
    ∧ (faulted []).err.flintDown = false
    ∧ (running { state := .waiting, waitFor := .kvVersion 0 0x1000 }).peekVersion 0 0 0x1000 = some 0
    ∧ (running { state := .waiting, waitFor := .kvVersion 0 (2 ^ 46) }).peekVersion 0 0 (2 ^ 46) = none := by decide +kernel

/-- A level D table and a leaf, in this order (R227, R258). -/
theorem test_frame_map_makes_table :
    (match execKvFrameMap 0 0 (((treeless [(0x50000000, 2)]).putPhys 0x10800 (leBytes 4 0x13001)).putPhys 0x13000 (leBytes 4 0x14001)) with
     | .next t => (match (t.walk none 0 (2 ^ 47)).1 with | .ok l => l.pa == 0x50004000 | .error _ => false)
     | _ => false) = true := by decide +kernel

def wrs (l : List (Nat × Nat)) (s : State) : State := l.foldl (fun s e => s.wr e.1 (BitVec.ofNat 32 e.2)) s

theorem test_meets_memory_service :
    (let u := flds [(Fld.scrubEn, 1), (Fld.scrubActive, 1)] locked
     u.flag Fld.scrubEn = true ∧ u.scrubbable 0x40000000 = true ∧ u.flag Fld.scrubActive = true
       ∧ u.now < u.mem.scrubStart + hours (u.fld Fld.scrubPeriod))
    ∧ (let u := atMoment (hours 2000) (flds [(Fld.scrubEn, 0)] locked)
       u.flag Fld.scrubEn = false ∧ u.periodsTo u.mem.scrubStart < u.periodsTo u.now)
    ∧ (let u : State := { locked with mem := { locked.mem with channelCe := List.replicate 65 (3, 0) } }
       64 < u.burstCount 3 ∧ SMap.get (fun _ => false) u.mem.bursting 3 = false ∧ u.policy 0x0113 = 0 ∧ locked.burstCount 3 ≤ 64)
    ∧ ({ locked with mem := { locked.mem with inval := some (2, 0, 0x4000) } } : State).mem.inval = some (2, 0, 0x4000) := by decide +kernel

theorem test_meets_memory_writes :
    locked.admits .host Reg.mem = true ∧ locked.admits .flint Reg.mem = true ∧ locked.flag Fld.invBusy = false
    ∧ bits 0x60000000 29 2 = 3 ∧ bits 0xA0000000 29 2 ≠ 3 ∧ bit 0xA0000000 31 = true
    ∧ (heads 0).anyCtx = true ∧ (heads 0).admits .flint Reg.mem = true ∧ 0x01000100#32 &&& 0x03FF03FF#32 ≠ (heads 0).rd Reg.memLayout
    ∧ locked.anyCtx = false ∧ layoutOk (0x01000100#32 &&& 0x03FF03FF#32).toNat = true
    ∧ 0x01000100#32 &&& 0x03FF03FF#32 ≠ locked.rd Reg.memLayout
    ∧ 633 < bits 0x02000200 0 10 + bits 0x02000200 16 10 := by decide +kernel

/-! ## Witnesses: Whetstone -/

/-- Geode of context 0, which its tables map from 1 GiB on; an op list that writes destination 8. -/
def geode (sh : Shard) : State :=
  let s := flds [(Fld.geodeSize 0, 64)] (heads 0)
  let s := s.putPhys 0x11008 (leBytes 8 0x100000000007)
  { s with
    ctx := { s.ctx with ctxs := [(0, { ptRoot := 0x10000, opLists := leBytes 8 (0x30 * 2 ^ 56 + 8 * 2 ^ 52) })] }
    ws := { s.ws with shards := [(0, sh)] } }

def wsq (q : QEntry) (s : State) : State := { s with core := { s.core with wsq := [q] } }

/-- A WS_UPDATE of no block whose records lie at the start of Geode. -/
def update (more : Nat) : Nat := 0x81 + 2 ^ 30 * 2 ^ 176 + 2 ^ 30 * 2 ^ 224 + more

theorem test_meets_updates :
    (∀ op ∈ [0x81, 0x82, 0x83], (wsq (entry op) (geode {})).wsEntry 0 4 op = some (entry op))
    ∧ (wsBody (update 0)).first = false ∧ works (wsAccept (entry (update 0)) (wsBody (update 0))) (geode { state := 2 }) = true
    ∧ (wsBody (update (2 ^ 337))).first = true
    ∧ works (wsAccept (entry (update (2 ^ 337))) (wsBody (update (2 ^ 337)))) (geode {}) = true
    ∧ (geode {}).ws.jobs.find? (fun j => j.id == 4) = none := by decide +kernel

theorem test_meets_jobs_and_shards :
    (let j : WsJob := { id := 4, core := 0, ctx := 0, shard := 0, outcome := 1, kappa := 0, scalars := 0, ran := true }
     let s := wsq (entry (update 0)) (geode { state := 2 })
     let s : State := { s with ws := { s.ws with jobs := [j] } }
     s.wsEntry 0 4 0x81 = some (entry (update 0)) ∧ s.ws.jobs.find? (fun j => j.id == 4) = some j
      ∧ s.ws.jobs.find? (fun j => j.id == 4 && j.ran) = some j)
    ∧ (let x := (geode { state := 1 }).shard 0 0
       x.state = 1 ∧ x.leases = 0 ∧ (geode { state := 1 }).ws.jobs.filter (fun j => j.ctx == 0 && j.shard == 0) = [])
    ∧ (let s := geode { state := 1, leases := 2 }
       let s := s.setQuarry 0 { s.quarry 0 with ticks := 2 }
       (s.shard 0 0).state = 1 ∧ 0 < (s.shard 0 0).leases ∧ (s.shard 0 0).drainAt + 2 ≤ s.ticksOf 0
        ∧ (s.setShard 0 0 { s.shard 0 0 with state := 0 }).ws.jobs.find? (fun j => j.ctx == 0 && j.shard == 0) = none) := by decide +kernel

theorem test_meets_leases :
    (entry 0x82).moved = false ∧ works (leaseMessages (entry 0x82) (leaseBody 0x82)) (wsq (entry 0x82) (geode {})) = true
    ∧ (let m : LeaseMsg := { id := 4, core := 0, entry := 1, ctx := 0, home := 0, shard := 0, mode := 0, version := 7, held := 0 }
       let s := wsq (entry 0x82) (geode {})
       let s : State := { s with ws := { s.ws with asked := [m] } }
       s.wsEntry 0 4 0x82 = some (entry 0x82) ∧ s.ws.asked.find? (fun m => m.id == 4 && m.entry == 1) = some m
        ∧ works (leaseWrite m lrHeld ((leaseBody 0x82).list.plus 16)) s = true ∧ s.ctxState 0 ≠ csFaulted ∧ s.leaseWaits (entry 0x82) 1 = false)
    ∧ (let d := 0x82 + 2 ^ 30 * 2 ^ 128 + 2 ^ 183
       ((geode {}).setFld (Fld.resident 0) 0).leaseWaits (entry d) 1 = true)
    ∧ (let d := 0x83 + 2 ^ 30 * 2 ^ 128
       works (hubWrite 0 (fieldAt d 16 0 48 + 4) (sealBytes ((geode {}).ctxAt 0).stepFlags ((geode {}).ctxAt 0).repeatBit) false (some 0x0207))
        (wsq (entry d) (geode {})) = true) := by decide +kernel

/-! ## Witnesses: links and collectives -/

/-- Port 0 in a state. -/
def port0 (st : Nat) (l : List (Fld × Nat)) (b : Port) : State := (flds ((Fld.portState 0, st) :: l) locked).setPort 0 b
def packet : Packet := { dst := 0, src := 1, job := 0, vc := 1, escape := false, type := 2, xfer := 0, offset := 0, body := 0, data := [] }

/-- The route to module 5 leads to port 0. -/
def routesTo (l : List (Fld × Nat)) : State :=
  let s := flds l locked
  { s with vein := { s.vein with routes := [(5, 0x80000000#32)] } }

theorem test_meets_links_receive :
    (port0 psUp [] {}).carries 0 = true ∧ (port0 psTraining [] {}).carries 0 = false
    ∧ packet.dst = (port0 psUp [] {}).moduleId ∧ packet.escape = false ∧ packet.symbol = false
    ∧ (routesTo [(Fld.portState 0, psUp)]).routeFor { packet with dst := 5 } = some 0 ∧ (port0 psUp [] {}).routeFor { packet with dst := 5 } = none
    ∧ (routesTo [(Fld.portState 0, psUp)]).carries 0 = true ∧ ({ packet with dst := 5 } : Packet).dst ≠ (routesTo []).moduleId
    ∧ ({ packet with dst := 5 } : Packet).dst ≠ dstNeighbour ∧ ({ packet with dst := 5 } : Packet).dst ≠ (port0 psUp [] {}).moduleId
    ∧ (flds [(Fld.jobValid 0, 1), (Fld.jobId 0, 9)] (heads 0)).jobCtx 9 = some 0
    ∧ (port0 psUp [] { rxNext := 7 }).port 0 = { rxNext := 7 } := by decide +kernel

def flit (num : Nat) : WireFlit := .data num 1 0 0

/-- A retry episode, with bad groups whose symbols stand by lane. -/
def episode (bad : List (List Nat)) : State :=
  port0 psUp [(Fld.episode 0, 1), (Fld.degradeEn 0, 1), (Fld.lanesOk 0, 0xF7)] { bad := bad }

theorem test_meets_link_moments :
    (let u := atMoment 100 (port0 psUp [] { owed := true })
     (u.port 0).owed = true ∧ (u.port 0).ctlAt + 100 ≤ u.now)
    ∧ (let w := (atMoment 400 (port0 psUp [] { replay := [flit 3] })).pump 0
       (w.port 0).replay = [flit 3] ∧ (flit 3).num = some 3 ∧ w.carries 0 = true ∧ (w.port 0).ackAt + 400 ≤ w.now)
    ∧ ((locked.pump 0).port 0).replay = []
    ∧ (let u := atMoment 1000000 (episode [])
       u.flag (Fld.episode 0) = true ∧ 100 * u.fld (Fld.retryBudget 0) < u.now - (u.port 0).epStart)
    ∧ (∀ bad ∈ [[], List.replicate 3 [0, 0, 0, 20, 0, 0, 0, 0]],
       let w := (episode bad).pump 0
       w.fld (Fld.portState 0) = psUp ∧ w.flag (Fld.episode 0) = true ∧ w.flag (Fld.degradeEn 0) = true
        ∧ w.fld (Fld.lanesOk 0) &&& otherHalf 3 = otherHalf 3)
    ∧ (let d := ((episode (List.replicate 3 [0, 0, 0, 20, 0, 0, 0, 0])).pump 0).port 0
       d.bad.length = 3 ∧ (d.bad.map fun l => (l.take 8).sum).sum < 2 * (d.bad.map fun l => l.getD (3 % 8) 0).sum)
    ∧ ((episode []).pump 0 |>.port 0).bad.length < 3 ∧ ((port0 psUp [] {}).pump 0).flag (Fld.episode 0) = false
    ∧ (port0 psDegrading [] {}).fld (Fld.portState 0) = psDegrading := by decide +kernel

theorem test_meets_link_training :
    (let u := port0 psTraining [(Fld.moduleValid, 1)] {}
     u.fld (Fld.portState 0) = psTraining ∧ u.flag Fld.moduleValid = true ∧ trainedState 0x7E (u.flag (Fld.degradeEn 0)) = none)
    ∧ ((atMoment 10000000 (port0 psTraining [] {})).port 0).trainAt + 10000000 ≤ 10000000
    ∧ (let w := (atMoment 100000000 (port0 psFailed [(Fld.portEnable 0, 1)] { failCode := 0x0303 })).pump 0
       w.fld (Fld.portState 0) = psFailed ∧ (w.port 0).failCode ≠ 0 ∧ w.fenceBit domPort 0 = false ∧ w.policy (w.port 0).failCode = 0
        ∧ w.flag (Fld.portEnable 0) = true ∧ w.err.flintDown = false ∧ (w.port 0).failedAt + 100000000 ≤ w.now)
    ∧ (let w := (port0 psDegraded [(Fld.portEnable 0, 1)] {}).pump 0
       w.fld (Fld.portState 0) = psDegraded ∧ w.fenceBit domPort 0 = false ∧ w.flag (Fld.portEnable 0) = true ∧ w.err.flintDown = false)
    ∧ (((port0 psDegraded [(Fld.portEnable 0, 1)] {}).setFence domPort 0).pump 0).fenceBit domPort 0 = true
    ∧ (let w := (port0 psFailed [(Fld.portEnable 0, 1)] { failCode := 0x0303 }).pump 0
       w.fld (Fld.portState 0) = psFailed ∧ w.now < (w.port 0).failedAt + 100000000) := by decide +kernel

theorem test_meets_pools :
    locked.admits .host Reg.vei = true ∧ locked.admits .flint Reg.vei = true
    ∧ (let u := wrs [(Reg.veiPoolIdx, 0x200)] locked
       poolIndex (u.rd Reg.veiPoolIdx).toNat = (0, poolHub) ∧ u.poolSum 0 poolHub + 64 ≤ 4096 ∧ bits 64 0 13 = 64 ∧ bits 63 0 13 = 63
        ∧ 4096 < bits 4097 0 13) := by decide +kernel

/-- Group 0 of context 0 has this module alone; a queue of the hub with one entry. -/
def grouped (q : QEntry) : State :=
  let s := geode {}
  { s with coll := { s.coll with groups := [(0, 2 ^ 7 + 2 ^ 16)] }, core := { s.core with hubq := [q] } }

theorem test_meets_collectives :
    (∀ op ∈ [0x61, 0x62, 0x63, 0x64], (grouped (entry op)).hubEntry 0 4 op = some (entry op))
    ∧ ((grouped (entry 0x61)).xfer 4).isSome = false
    ∧ works (collAccept (entry (0x61 + 2 ^ 30 * 2 ^ 224))) (grouped (entry (0x61 + 2 ^ 30 * 2 ^ 224))) = true
    ∧ works (collAccept (entry 0x62)) (grouped (entry 0x62)) = true
    ∧ (match (collAccept (entry 0x61)) (geode {}) with
       | (.error (.fault code _), _) => code == 0x0207
       | _ => false) = true
    ∧ (flds [(Fld.jobValid 0, 1), (Fld.jobId 0, 9)] (heads 0)).jobCtx 9 = some 0 ∧ (heads 0).jobCtx 9 = none
    ∧ (let x : Xfer := { id := 4, core := 0, stream := 3, ctx := 0, desc := 0x61, group := 0, op := 0, tag := 0, tickBound := false
                         ticks := 0, left := 0, dests := [] }
       ({ (heads 0) with coll := { (heads 0).coll with xfers := [x] } } : State).xfer 4 = some x ∧ x.left = 0) := by decide +kernel

/-- The layer header of an expert layer of group 0, with the directory valid for context 0. -/
def routed (op : Nat) : State :=
  let s := flds [(Fld.dirValid, 1), (Fld.dirCtx, 0)] (grouped (entry op))
  { s with coll := { s.coll with headers := [(0, 1)] } }

theorem test_meets_expert_transfers :
    works (collAccept (entry 0x63)) (routed 0x63) = true ∧ works (collAccept (entry 0x64)) (routed 0x64) = true := by decide +kernel

/-! ## Witnesses: jobs, rings and commands -/

/-- Contexts 0, resident, and 1, spilled, share Geode of a quarry; a stream of context 1 is Ready. -/
def sharing (swap : Option (Nat × Nat × Nat × Bool)) : State :=
  let s := flds [(Fld.ctxState 0, csRunning), (Fld.resident 0, 1), (Fld.ctxState 1, csRunning), (Fld.partnerValid 0, 1), (Fld.partnerValid 1, 1),
    (Fld.partner 0, 1)] locked
  let s : State := { s with core := { s.core with streams := [(3, { state := .ready, ctx := 1 })] } }
  s.setQuarry 0 { s.quarry 0 with swap := swap }

theorem test_meets_time_sharing :
    (let d : Donation := { waiter := 3, fromCtx := 1, toCtx := 0, level := 0, used := 15 }
     let u : State := { locked with ctx := { locked.ctx with donations := [d] } }
     u.ctx.donations.find? (fun d => d.waiter == 64 * 0 + 3 && decide (u.fld (Fld.donateStrata d.fromCtx) ≤ d.used)) = some d)
    ∧ (let u := atMoment 10000 (sharing none)
       let u : State := { u with blk := { u.blk with since := [(0, some 0)] } }
       SMap.get (fun _ => none) u.blk.since 0 = some 0 ∧ 0 + 100 * u.fld Fld.periodUs ≤ u.now ∧ 0 < quarryCount u.modeOf
        ∧ u.quarryBlocked 0 = true ∧ (u.incoming 0).isSome = true ∧ (SMap.get (fun _ => none) u.blk.told 0).isNone = true
        ∧ u.policy 0x0611 = 0 ∧ u.err.flintDown = false)
    ∧ (let u := sharing (some (1, 0, 0, false))
       (u.quarry 0).swap = some (1, 0, 0, false) ∧ u.landedAll 0 = true ∧ 0 ≤ (u.quarry 0).ticks)
    ∧ (let u := wsq (entry 0x81) (sharing (some (1, 0, 0, false)))
       (u.quarry 0).swap = some (1, 0, 0, false) ∧ u.landedAll 0 = false)
    ∧ ((sharing (some (1, 0, 0, true))).quarry 0).swap = some (1, 0, 0, true) := by decide +kernel

/-- SQ 0 and CQ 0 have 16 entries, at host addresses 0x1000 and 0x2000. -/
def ringed : State := wrs [(Reg.sqBaseLo 0, 0x1000), (Reg.cqBaseLo 0, 0x2000)]
  (flds [(Fld.sqEnable 0, 1), (Fld.sqLog2 0, 4), (Fld.cqEnable 0, 1), (Fld.cqLog2 0, 4)] locked)
def rung : State := { ringed with host := { ringed.host with sqTail := [(0, 1)] } }
def badHost (s : State) : State := { s with mem := { s.mem with hostBad := [(0, 0x10000, false)] } }

theorem test_meets_rings :
    ringed.hostUp = true ∧ ringed.flag (Fld.sqEnable 0) = true ∧ ringed.sqSize 0 = 16 ∧ ringed.flag (Fld.cqEnable 0) = true ∧ ringed.cqSize 0 = 16
    ∧ ringed.flag (Fld.sqEnable 1) = false ∧ ringed.flag (Fld.cqEnable 1) = false
    ∧ ((List.range 64).map fun i => (rung.host.nextSq + i) % 64).find? rung.sqReady = some 0
    ∧ rung.hostRefuses 0x1000 64 = false ∧ (badHost rung).hostRefuses 0x1000 64 = true ∧ rung.err.flintDown = false
    ∧ ((List.range 64).map fun i => (ringed.host.nextSq + i) % 64).find? ringed.sqReady = none := by decide +kernel

/-- A command that Flint has read. -/
def asked (raw : Nat) (s : State) : State := { s with host := { s.host with cmds := [{ id := 2, sq := 0, raw := raw }] } }
def cmd_ (raw : Nat) : Cmd := { id := 2, sq := 0, raw := raw }

/-- A create of context 1 in quarry 0, with a level A table in the GiB from 2 GiB of slice 0. -/
def createRaw (level : Nat) (root : Nat) : Nat :=
  0x01 + 2 ^ 8 + 2 ^ 15 + level * 2 ^ 152 + 2 * 2 ^ 160 + 1 * 2 ^ 176 + root * 2 ^ 320

theorem test_meets_commands :
    (asked 0x05 (heads 0)).cmd 2 = some (cmd_ 0x05)
    ∧ (∀ op ∈ [0x01, 0x02, 0x03, 0x04, 0x05, 0x06, 0x07, 0x08, 0x09, 0x0A, 0x0B, 0x0C, 0x0D], (asked op (heads 0)).cmdReady 2 op = some (cmd_ op)) := by
  decide +kernel

theorem test_meets_creates :
    ((asked 1 (heads 0)).startCmd (cmd_ 1)).ctxState 0 ≠ csFree
    ∧ (let q := cmd_ (createRaw 0 0)
       let v := (asked q.raw (heads 0)).startCmd q
       v.ctxState q.c = csFree ∧ v.createRange q = false)
    ∧ (let q := cmd_ (createRaw 1 0x80000000 - 2 * 2 ^ 160)
       let v := (asked q.raw (heads 0)).startCmd q
       v.ctxState q.c = csFree ∧ v.createRange q = true ∧ v.createConflict q = true)
    ∧ (let q := cmd_ (createRaw 1 0x80000000)
       let v := (asked q.raw (heads 0)).startCmd q
       v.ctxState q.c = csFree ∧ v.createRange q = true ∧ v.createConflict q = false ∧ v.createRoot q = true)
    ∧ (let q := cmd_ (createRaw 1 0)
       ((asked q.raw (heads 0)).startCmd q).createRange q = true ∧ ((asked q.raw (heads 0)).startCmd q).createConflict q = false ∧ ((asked q.raw (heads 0)).startCmd q).createRoot q = false) := by decide +kernel

/-- Context 0 is Loaded, and a JOB_START of it has been read. -/
def loadedCtx : State := asked 4 (flds [(Fld.ctxState 0, csLoaded)] (heads 0))

theorem test_meets_jobs :
    (asked 2 (heads 0)).ctxState 0 ≠ csFree ∧ (asked 2 (heads 0)).swapHolds 0 = false ∧ (asked 2 locked).ctxState 0 = csFree
    ∧ (flds [(Fld.swapping 0, 1)] (asked 2 (heads 0))).swapHolds 0 = true ∧ (flds [(Fld.swapping 0, 1)] (asked 2 (heads 0))).ctxState 0 ≠ csFree
    ∧ (asked 3 (heads 0)).ctxState 0 ≠ csCreated ∧ (asked 3 (heads 0)).ctxState 0 ≠ csEnded
    ∧ (asked 3 (flds [(Fld.ctxState 0, csCreated)] (heads 0))).ctxState 0 = csCreated ∧ (cmd_ (3 + 2 ^ 160)).at_ 20 0 16 = 1
    ∧ ((asked 4 (heads 0)).startCmd (cmd_ 4)).ctxState 0 ≠ csLoaded
    ∧ ((loadedCtx).startCmd (cmd_ 4)).ctxState 0 = csLoaded ∧ ((loadedCtx).startCmd (cmd_ 4)).flag Fld.partial_ = false
    ∧ (flds [(Fld.partial_, 1)] ((loadedCtx).startCmd (cmd_ 4))).flag Fld.partial_ = true := by decide +kernel

/-- A DMA of one granule between host address 0 and device address 0 of context 0. -/
def dmaRaw (op : Nat) : Nat := op + 2 ^ 15 + 64 * 2 ^ 192

theorem test_meets_moves :
    (let q := cmd_ (dmaRaw 5)
     let u := asked q.raw (heads 0)
     u.queueHead q = true ∧ (u.startCmd q).ctxState q.c ≠ csFree ∧ q.dmaRange = true ∧ (u.startCmd q).inputHeld q.c q.devAddr q.len = false
      ∧ works (Exec.each (List.range (q.len / 64)) (moveIn q)) (u.startCmd q) = true)
    ∧ (let q := cmd_ (dmaRaw 6)
       let u := asked q.raw (heads 0)
       u.queueHead q = true ∧ (u.startCmd q).ctxState q.c ≠ csFree ∧ q.dmaRange = true
        ∧ works (Exec.each (List.range (q.len / 64)) (moveOut q)) (u.startCmd q) = true) := by decide +kernel

theorem test_meets_queries :
    (let q := cmd_ (0x0A + 4 * 2 ^ 64 + 1024 * 2 ^ 192)
     let v := (asked q.raw (heads 0)).startCmd q
     ¬(q.at_ 8 0 8 = 4 ∧ 64 ≤ q.at_ 10 0 16) ∧ (v.queryResult q).length ≤ q.at_ 24 0 32
      ∧ v.hostAborts (q.at_ 16 0 64) (v.queryResult q).length = false)
    ∧ (let q := cmd_ (0x0B + 6 * 2 ^ 64)
       let v := (asked q.raw (heads 0)).startCmd q
       q.at_ 10 0 16 < fenceUnits (q.at_ 8 0 8) ∧ v.unitFenced (q.at_ 8 0 8) (q.at_ 10 0 16) = false)
    ∧ (let q := cmd_ (0x0C + 2 ^ 15 + 0x0A * 2 ^ 64 + 4 * 2 ^ 192)
       let u := asked q.raw (heads 0)
       let b := u.hostBytes (q.at_ 16 0 64) (q.at_ 24 0 32)
       q.at_ 8 0 16 ≠ 0x10 ∧ q.ctx.isSome = true ∧ u.ctxState q.c ≠ csFree ∧ q.at_ 24 0 32 ≤ policyMax
        ∧ policyLen (q.at_ 8 0 16) (q.at_ 24 0 32) [] = true ∧ u.hostRefuses (q.at_ 16 0 64) (q.at_ 24 0 32) = false
        ∧ policyLen (q.at_ 8 0 16) (q.at_ 24 0 32) b = true
        ∧ (match (u.startCmd q).applyPolicy (q.at_ 8 0 16) q.c b with
           | .ok _ => true
           | _ => false) = true)
    ∧ (let q := cmd_ (0x0D + 2 ^ 15 + 2 * 2 ^ 96)
       let v := (asked q.raw (heads 0)).startCmd q
       v.ctxState q.c ≠ csFree ∧ q.at_ 8 0 8 < 2 ∧ q.at_ 10 0 16 + q.at_ 12 0 16 ≤ 4096
        ∧ v.hostAborts (q.at_ 16 0 64) (v.telemetry q.c (q.at_ 8 0 8) (q.at_ 10 0 16) (q.at_ 12 0 16)).length = false)
    ∧ (let q := cmd_ (0x0D + 2 ^ 15 + 2 * 2 ^ 64 + 2 * 2 ^ 96)
       let v := (asked q.raw (flds [(Fld.dirValid, 1), (Fld.dirCtx, 0)] (heads 0))).startCmd q
       v.ctxState q.c ≠ csFree ∧ q.at_ 8 0 8 = 2 ∧ q.at_ 10 0 16 + q.at_ 12 0 16 ≤ 8192 ∧ v.flag Fld.dirValid = true ∧ v.fld Fld.dirCtx = q.c
        ∧ v.hostAborts (q.at_ 16 0 64) (v.telemetry q.c (q.at_ 8 0 8) (q.at_ 10 0 16) (q.at_ 12 0 16)).length = false) := by decide +kernel

/-- Context 0 holds a job with a layer table; the fossil set has one region, of one page at 2 MiB. -/
def training : State :=
  let s := flds [(Fld.fosSetCnt, 1), (Fld.moduleValid, 1)] (heads 0)
  let s := s.putPhys 0x40000000 (leBytes 16 (2 ^ 21 + 2 ^ 64))
  { s with ctx := { s.ctx with ctxs := [(0, { ptRoot := 0x10000, layerTable := List.replicate 16 0 })] } }
def epoch0 : Epoch := { ctx := 0, epoch := 7, toStore := true, storeLive := true, pages := [{ va := 2 ^ 21, pa := 0x40200000 }] }
def fossil (st : Nat) (e : Epoch) (s : State) : State := { (flds [(Fld.fosState, st)] s) with fos := { s.fos with epoch := some e } }

theorem test_meets_fossil_commands :
    (let q := cmd_ (7 + 2 ^ 15)
     let v := (asked q.raw training).startCmd q
     v.mayFossil q.c = true ∧ ((asked q.raw (heads 0)).startCmd q).mayFossil q.c = false
      ∧ worksTo (fosSet q.c) v (fun l => v.beginStatus q (some l) != 0) = true)
    ∧ (let q := cmd_ (7 + 2 ^ 15 + 2 ^ 23 * 2 ^ 128 + 1 * 2 ^ 208)
       let v := (asked q.raw training).startCmd q
       worksTo (fosSet q.c) v (fun l => v.beginStatus q (some l) == 0) = true)
    ∧ (let q := cmd_ (8 + 2 ^ 15 + 7 * 2 ^ 224)
       epoch0.epoch = q.at_ 28 0 32 ∧ epoch0.ctx = q.c ∧ epoch0.commit = none
        ∧ ((asked q.raw (fossil fosStreamed epoch0 training)).startCmd q).fld Fld.fosState = fosStreamed
        ∧ ((asked q.raw (fossil fosOpen epoch0 training)).startCmd q).fld Fld.fosState ≠ fosStreamed)
    ∧ training.fos.epoch = none ∧ ({ training with fos := { training.fos with abandoned := [7] } } : State).fos.abandoned.contains 7 = true ∧ training.fos.fill = none
    ∧ (let q := cmd_ (9 + 2 ^ 15 + 5 * 2 ^ 192)
       let v := (asked q.raw (flds [(Fld.ctxState 0, csLoaded), (Fld.portState 0, psUp)] training)).startCmd q
       let v : State := { v with vein := { v.vein with routes := [(5, 0x80000000#32)], pools := [(poolHub, 64)] } }
       v.ctxState q.c = csLoaded ∧ v.modeOf = 0 ∧ v.flag Fld.moduleValid = true ∧ (v.fosRoute (q.at_ 24 0 12)).isSome = true
        ∧ (({ v with vein := { v.vein with routes := [] } } : State).fosRoute (q.at_ 24 0 12)).isNone = true ∧ training.ctxState 0 ≠ csLoaded) := by decide +kernel

/-! ## Witnesses: completions, registers, records and checks -/

/-- A completion of CQ 0 waits. -/
def answered (s : State) : State := { s with host := { s.host with compls := [{ cq := 0, sq := 0, kind := 0, body := 5 }] } }

theorem test_meets_completions :
    (answered ringed).host.compls.find? (fun x => x.cq == 0) = some { cq := 0, sq := 0, kind := 0, body := 5 }
    ∧ ({ cq := 0, sq := 0, kind := 0, body := 5 } : Compl).slot = none
    ∧ (answered ringed).hostUp = true ∧ (answered ringed).flag (Fld.cqEnable 0) = true ∧ (answered ringed).cqFull 0 = false
    ∧ (answered ringed).hostAborts ((answered ringed).cqBase 0) 32 = false
    ∧ (badHost (answered ringed)).hostAborts ((answered ringed).cqBase 0) 32 = true
    ∧ (flds [(Fld.cqTail 0, 15)] ringed).cqFull 0 = true
    ∧ (let u : State := { (flds [(Fld.cqModCount 0, 2)] ringed) with host := { ringed.host with unsignalled := [(0, 2)] } }
       u.unsigned 0 ≠ 0 ∧ u.fld (Fld.cqModCount 0) ≤ u.unsigned 0)
    ∧ (let u : State := { (flds [(Fld.cqModCount 0, 2), (Fld.cqModUs 0, 1)] ringed) with host := { ringed.host with unsignalled := [(0, 1)] } }
       u.unsigned 0 < u.fld (Fld.cqModCount 0) ∧ u.now < u.oldestAt 0 + 100 * u.fld (Fld.cqModUs 0))
    ∧ (let c : Cmd := { id := 2, sq := 0, raw := 5, started := true, dmaDone := true }
       let u : State := { ringed with host := { ringed.host with cmds := [c] } }
       u.host.cmds.find? (fun c => c.dma && c.dmaDone && c.queue == 0 && !u.err.caught.contains c.id) = some c) := by decide +kernel

theorem test_meets_host_registers :
    locked.admits .host Reg.hif = true ∧ locked.admits .host Reg.hifStat = true ∧ locked.admits .host Reg.hifBar4 = true
    ∧ locked.flag Fld.bootLock = true ∧ locked.admits .host Reg.str = true ∧ locked.hostUp = true ∧ State.reset.hostUp = false
    ∧ locked.anyCtx = false ∧ works (bar4Write 0 [1, 2]) (flds [(Fld.bar4Enable, 1)] locked) = true := by decide +kernel

/-- Record 3 is open over a domain. -/
def recorded (r : ErrRec) (s : State) : State := { s with err := { s.err with recs := [(3, r)] } }
def domRec (d i : Nat) : ErrRec := { state := .opened, code := 0x0101, domain := d, index := i }

theorem test_meets_records :
    (let u := recorded (domRec domContext 0) (flds [(Fld.ctxState 0, csFaulted)] (heads 0))
     u.pins.phase = .running ∧ u.err.flintDown = false ∧ (u.errRec 3).state = .opened ∧ u.handled (u.errRec 3) = true
      ∧ (u.errRec 3).domain = domContext ∧ u.sameLife (u.errRec 3) = true)
    ∧ (let u := recorded (domRec domCore 7) locked
       u.handled (u.errRec 3) = true ∧ (u.errRec 3).domain ≠ domContext ∧ (u.errRec 4).state ≠ .opened)
    ∧ (let u := atMoment 5000000 locked
       u.hostUp = true ∧ u.err.flintDown = false ∧ u.err.lastAck + 5000000 ≤ u.now ∧ u.err.lastTrip = none)
    ∧ (let u : State := { (atMoment 5000000 locked) with err := { locked.err with lastTrip := some 0 } }
       u.err.lastTrip = some 0 ∧ u.now ≤ 0 + 1000000000)
    ∧ (let u : State := { (atMoment 5000000 locked) with err := { locked.err with lastTrip := some 0, flintDown := true } }
       u.err.flintDown = true ∧ u.err.lastTrip = some 0 ∧ 0 + 5000000 ≤ u.now ∧ u.err.caught = [] ∧ u.err.deferred = []) := by decide +kernel

def checked (op : Nat) (ran : Bool) (sig : Nat := 0) : Tile :=
  { tile op 0 .checking with checker := some 1, checkerRan := ran, sig := sig }
def rechecking : Tile := { tile 0x15 0 .recheck with core := 1, stream := 67 }

/-- A decode tile over the one page of slot 0, whose record has an odd version. -/
def onOddPage : Tile := { tile 0x43 (2 ^ 416 + 2 ^ 476) .checking with checker := some 1 }
def oddPage : State :=
  let s := (heads 0).putPhys 0x40001000 ([0, 128] ++ List.replicate 6 0 ++ [1] ++ List.replicate 3 0 ++ List.replicate 8 127)
  let s := s.putLs 0 (s.lsAt 0 0) (leBytes 32 (128 * 2 ^ 64))
  { s with kv := { s.kv with slots := [(0, { valid := true, decode := true, recBase := 0x1000 })] } }

/-- The next tile of core 1 is the checker's of tile `t`, whose execution ends as `p` says. -/
def checks (t : Tile) (s : State) (p : Except Stop Unit → Bool) : Bool :=
  let u := tileOn t s
  u.tileOf 0 3 == some t && t.checker == some 1 && t.phase == .checking && !t.checkerRan && !u.coreFenced 1
    && u.engineFree 1 .matrix && !u.withheld && (u.checkerNext 1 .matrix).any (fun u => u.core == 0 && u.stream == 3)
    && p ((u.checkerState t 1).execute t).1

theorem test_meets_checks :
    checks (checked 0x15 false) (heads 0) (fun r => match r with | .ok _ => true | _ => false) = true
    ∧ checks { farBlock with phase := .checking, checker := some 1 } (heads 0) (fun r => match r with | .error (.fault _ _) => true | _ => false) = true
    ∧ checks onOddPage oddPage (fun r => match r with | .error (.kvVersion _ _ _) => true | _ => false) = true
    ∧ (let u : State := { (heads 0) with core := { (heads 0).core with tiles := [checked 0x15 true, rechecking] } }
       u.tileOf 0 3 = some (checked 0x15 true) ∧ u.tileOf 1 (checkStream 0 3) = some rechecking ∧ rechecking.phase = .recheck) := by decide +kernel

/-- Entry 2 of the evidence log. -/
def evidence (l : List (Fld × Nat)) (u : EvidUse) : State :=
  let s := flds ([(Fld.reserveEn, 1)] ++ l) locked
  { s with err := { s.err with evid := [(2, { use_ := u, primary := 0, checker := 1, descriptor := 0x11, regions := some [⟨true, 64, 15, [1, 2]⟩] })] } }

theorem test_meets_replays :
    (let u := evidence [(Fld.replayBusy, 1)] .captured
     let x := (u.replaySig (u.evid 2)).getD 0
     u.flag Fld.replayBusy = true ∧ u.flag Fld.reserveEn = true ∧ u.err.flintDown = false ∧ (u.evid 2).use_ = .captured
      ∧ u.replayReady (u.evid 2) = true ∧ (tileOn (tile 0x11 0) u).replayReady (u.evid 2) = false
      ∧ (replayOutcome (u.evid 2) u.liveCores fun c => (x + [].getD c 0) % 2 ^ 64).1 = 2
      ∧ (replayOutcome (u.evid 2) u.liveCores fun c => (x + (List.range 160).getD c 0) % 2 ^ 64).1 = 3
      ∧ (replayOutcome (u.evid 2) u.liveCores fun c => (x + [0, 6].getD c 0) % 2 ^ 64).1 = 1)
    ∧ (evidence [] .captured).flag Fld.replayBusy = false ∧ (evidence [] .captured).flag Fld.evidEnable = false
    ∧ (let u := evidence [(Fld.evidEnable, 1)] .replayed
       u.flag Fld.evidEnable = true ∧ u.err.flintDown = false ∧ u.replayOver (u.evid 2) = true
        ∧ (u.evidBytes (u.evid 2)).2.hostAborts u.evidBase (u.evidBytes (u.evid 2)).1.length = false) := by decide +kernel

/-- A screening vector at host address 0: a soft maximum over zeros in local store, which its one region holds. -/
def screening (d : Nat) : State :=
  let s := ((locked.putHost 32 (leBytes 64 d)).putHost 140 [1]).putHost 256 (leBytes 16 (15 * 2 ^ 48 + 512 * 2 ^ 64))
  { s with err := { s.err with screen := [(0, [])] } }

theorem test_meets_screens :
    locked.admits .flint Reg.errScreenCtrl = true ∧ locked.admits .host Reg.errCtrl = true
    ∧ bits 0x101 0 9 = 257 ∧ bits 0x20 0 9 = 32 ∧ bit 0x20 31 = false ∧ bits 0x80000304 8 2 = 3 ∧ bits 0x80000104 8 2 ≠ 3
    ∧ bits 0x80000104 0 4 = 4 ∧ bit 0x80000104 31 = true ∧ locked.anyCtx = false
    ∧ ((heads 0).setFld Fld.screenCount 4).anyCtx = true ∧ (heads 0).admits .flint Reg.errScreenCtrl = true
    ∧ bits 0x80000004 0 9 = 4 ∧ bit 0x80000004 31 = true ∧ (locked.setFld Fld.screenCount 4).anyCtx = false
    ∧ (screening 0x31).err.screen = [(0, [])] ∧ (screening 0x31).pins.phase = .running
    ∧ ((screening 0x31).setFld Fld.screenBusy 0).hostAborts 0 8392704 = false
    ∧ ((badHost (screening 0x31)).setFld Fld.screenBusy 0).hostAborts 0 8392704 = true
    ∧ (let w := (screening 0x31).setFld Fld.screenBusy 0
       (w.replaySig (w.vector 0)).isSome = true) := by decide +kernel

/-! ## Witnesses: fossil epochs, boot and firmware -/

def paged (st : Nat) : Epoch := { epoch0 with pages := [{ va := 2 ^ 21, pa := 0x40200000, state := st }] }

/-- All pages of the epoch and its header have left. -/
def left (commit : Option Nat) : Epoch := { paged 2 with headerSent := true, commit := commit }

theorem test_meets_epochs :
    (fossil fosNone epoch0 training).fld Fld.fosState ≠ fosOpen
    ∧ (let u := fossil fosOpen epoch0 training
       let w := u.endStreaming
       u.fos.epoch = some epoch0 ∧ u.fld Fld.fosState = fosOpen ∧ epoch0.pageAt 0x40200040 = some { va := 2 ^ 21, pa := 0x40200000 }
        ∧ (u.bounceFrame epoch0 (u.bounceSlice 0x40200000)).isSome = true ∧ w.fos.epoch = some epoch0 ∧ w.storeReady epoch0 = true
        ∧ epoch0.pages[0]? = some { va := 2 ^ 21, pa := 0x40200000 } ∧ epoch0.mayStream { va := 2 ^ 21, pa := 0x40200000 } = true)
    ∧ (let w := (fossil fosOpen (paged 2) training).endStreaming
       w.fos.epoch = some (paged 2) ∧ w.storeReady (paged 2) = true ∧ (paged 2).headerSent = false
        ∧ (paged 2).pages.all (fun (p : FosPage) => p.state == 2) = true)
    ∧ (∀ c ∈ [none, some 2],
       let z := (fossil fosOpen (left c) training).endStreaming.pumpAll
       z.fos.epoch = some (left c) ∧ z.fld Fld.fosState = fosOpen ∧ (left c).headerSent = true ∧ (left c).buddyLive = false)
    ∧ (badHost (fossil fosOpen (left none) training)).hostAborts (left none).store (((left none).pages.length + 1) * fosPage) = true := by
  decide +kernel

/-- The module is the buddy of module 5: half a reserve of 8 GiB for each of two images. -/
def buddy (l : List (Fld × Nat)) : State := flds ([(Fld.buddyEn, 1), (Fld.buddySender, 5), (Fld.buddyGib, 8)] ++ l) locked

theorem test_meets_buddies :
    (let u := buddy []
     u.flag Fld.buddyEn = true ∧ u.fld Fld.buddySender = 5 ∧ u.flag Fld.buddyFilling = false ∧ 3 + 1 ≤ u.halfPages
      ∧ u.fld Fld.buddySender ≠ 6 ∧ u.halfPages < 20000 + 1)
    ∧ ({ epoch0 with asked := true, toBuddy := true, buddyLive := true } : Epoch).asked = true
    ∧ ({ (buddy []) with fos := { (buddy []).fos with landing := some (5, 7, 3) } } : State).fos.landing = some (5, 7, 3)
    ∧ ((buddy []).fosRoute 5).isNone = true
    ∧ (let u := buddy [(Fld.buddyValid, 1), (Fld.buddyEpoch, 7)]
       u.flag Fld.buddyValid = true ∧ u.fld Fld.buddyEpoch = 7 ∧ u.fld Fld.buddySender = 5 ∧ u.fld Fld.buddySender ≠ 6 ∧ u.fld Fld.buddyEpoch ≠ 8)
    ∧ (buddy []).flag Fld.buddyValid = false ∧ ({ epoch0 with toBuddy := true, buddyLive := true } : Epoch).buddyLive = true := by decide +kernel

theorem test_meets_fills :
    (let u := flds [(Fld.moduleValid, 1), (Fld.portState 0, psUp)] (buddy [])
     let u : State := { u with
       vein := { u.vein with routes := [(5, 0x80000000#32)], pools := [(poolHub, 64)] }
       fos := { u.fos with fill := some { cmd := 2, ctx := 0, buddy := 5, epoch := 7, asked := true } } }
     u.fos.fill = some { cmd := 2, ctx := 0, buddy := 5, epoch := 7, asked := true } ∧ (u.fosRoute 5).isNone = false
      ∧ (({ u with vein := { u.vein with routes := [] } } : State).fosRoute 5).isNone = true
      ∧ ({ cmd := 2, ctx := 0, buddy := 5, epoch := 7 } : Fill).asked = false ∧ ({ cmd := 2, ctx := 0, buddy := 5, epoch := 7 } : Fill).header = false)
    ∧ Reg.fos ≤ Reg.fosSetCnt ∧ Reg.fosSetCnt < Reg.pwr ∧ locked.admits .host Reg.fosSetCnt = true
    ∧ locked.fosRefuses Reg.fosSetCnt 5000 = true ∧ locked.fosRefuses Reg.fosSetCnt 5 = false := by decide +kernel

/-- Boot code runs; the register of the boot state is written out, since its reset word is the fuses'. -/
def booting : State := { State.reset with
  pins := { State.reset.pins with phase := .boot, perst := false }
  regs := [(Reg.secBootStat, 1)]
  fw := { State.reset.fw with enrollKey := some 77, debugImage := true } }

theorem test_meets_boot :
    State.reset.pins.phase = .reset ∧ State.reset.pins.pwrGood = true ∧ State.reset.deaf = false ∧ locked.pins.phase ≠ .reset
    ∧ booting.bootCode = true ∧ booting.fw.enrollKey = some 77 ∧ booting.fw.debugImage = true ∧ bit (1#32).toNat 0 = true ∧ locked.bootCode = false
    ∧ booting.flag Fld.fallback = false ∧ ({ booting with regs := [(Reg.secBootStat, 9)] } : State).flag Fld.fallback = true := by decide +kernel

theorem test_meets_boot_sound : Sound booting ∧ Sound { booting with regs := [(Reg.secBootStat, 9)] } := by
  have h (w : Word) (hw : w.toNat % 64 ≠ 0) : SMap.wf Reg.resetWord [(Reg.secBootStat, w)] = true := by
    simp only [SMap.wf, SMap.wfFrom, Bool.and_eq_true, decide_eq_true_eq, Bool.and_true]
    exact ⟨by decide, (bootStat_reset hw).symm⟩
  refine ⟨⟨h 1 (by decide), by decide, ?_⟩, ⟨h 9 (by decide), by decide, ?_⟩⟩ <;> rintro o (rfl | rfl | rfl | rfl | rfl) <;> rfl

/-- SEC_BOOT_STAT is a word. -/
def bootStat (w : Nat) : State := { locked with regs := [(Reg.secLock, 1), (Reg.secBootStat, BitVec.ofNat 32 w)] }

/-- An update from host memory, whose image is a header that gives a body of no bytes. -/
def updating (aborted : Bool) : State := { locked with fw := { locked.fw with update := some (0, 4096), updAborted := aborted } }

theorem test_meets_firmware :
    locked.servesUpdate = true ∧ locked.fld Fld.updStatus ≠ 1 ∧ (bootStat 0x12).flag Fld.trial = true ∧ locked.flag Fld.trial = false
    ∧ (updating false).fw.update = some (0, 4096) ∧ (updating false).fw.updAborted = false ∧ (updating true).fw.updAborted = true
    ∧ (updating false).hostRefuses 0 4096 = false ∧ 4096 = 4096 + Header.bodyLen (((updating false).hostBytes 0 4096).take 4096)
    ∧ 5000 ≠ 4096 + Header.bodyLen (((updating false).hostBytes 0 5000).take 4096)
    ∧ locked.fld Fld.bootState = 2 ∧ locked.up = true ∧ locked.fld Fld.attStatus ≠ 1 ∧ locked.flag Fld.debugOpened = false
    ∧ (bootStat 0x22).flag Fld.debugOpened = true ∧ locked.hostAborts 0 384 = false := by decide +kernel

/-! ## Witnesses: sideband -/

def phased (p : Phase) : State := { locked with pins := { locked.pins with phase := p } }

theorem test_meets_jtag :
    locked.jtagOn = true ∧ State.reset.flag Fld.bootLock = false ∧ State.reset.jtagOn = true ∧ locked.flag Fld.bootLock = true
    ∧ locked.anyCtx = false ∧ (heads 0).anyCtx = true ∧ (heads 0).flag Fld.bootLock = true
    ∧ (flds [(Fld.debugOpen, 1)] booting).flag Fld.debugOpen = true ∧ (flds [(Fld.debugOpen, 1)] booting).flag Fld.bootLock = false := by decide +kernel

theorem test_meets_power :
    (let u := atMoment 10000000 (phased .unpowered)
     u.pins.phase = .unpowered ∧ u.deaf = false ∧ u.pwr.lowSince + 10000000 ≤ u.now)
    ∧ (phased .powerUp).pins.phase = .powerUp ∧ (phased .powerUp).pwr.lockout = false
    ∧ ({ locked with pwr := { locked.pwr with lockout := true } } : State).pwr.lockout = true
    ∧ locked.pins.pwrEn = true ∧ locked.deaf = false ∧ locked.pins.phase ≠ .unpowered ∧ locked.pins.phase ≠ .powerUp := by decide +kernel

theorem test_meets_power_limits :
    locked.up = true ∧ (locked.setFld Fld.inputMv 60000).flag Fld.inputRange = false ∧ ceilingW 48000 = 2200 ∧ ceilingW 40000 = 2000
    ∧ (let v := (((locked.setFld Fld.inputMv 48000).setFld Fld.inputCa 50).setFld Fld.avg1ms 2300).setFld Fld.avgWin 2000
       (([0, 1, 2, 3] : List Nat).all fun i => v.permitted i == 950) = false)
    ∧ (let u := atMoment 5000 (flds [(Fld.capEn, 1), (Fld.capW, 1000), (Fld.avgWin, 2000)] locked)
       u.pwr.capAt + 5000 ≤ u.now ∧ u.flag Fld.capEn = true ∧ u.fld Fld.capW < u.fld Fld.avgWin) := by decide +kernel

theorem test_meets_clocks :
    ({ locked with pwr := { locked.pwr with throttleAt := some 0 } } : State).pwr.throttleAt.isSome = true
    ∧ (locked.slab 0).drooped = false ∧ (locked.slab 0).droopRamp = none
    ∧ ((locked.setSlab 0 { locked.slab 0 with drooped := true }).slab 0).drooped = true := by decide +kernel

/-- The thermal limits are 110 °C, 100 °C and 90 °C; in `hot` unit 0 is in an excursion. -/
def limited : State := { locked with regs := [(Reg.pwrThermLim, 0x6E645A), (Reg.secLock, 1), (Reg.secBootStat, 2)] }
def hot : State := { limited with pwr := { limited.pwr with hot := [(0, true)] } }

theorem test_meets_thermal :
    (let v := limited.sense 0 120
     v.fld Fld.throttleC < 120 ∧ v.isHot 0 = false)
    ∧ (let v := hot.sense 0 120
       v.isHot 0 = true ∧ v.fld Fld.throttleC < 120 + 2 ∧ v.hotDue 0 = false)
    ∧ (let v := (atMoment 10000 hot).sense 0 120
       v.isHot 0 = true ∧ v.fld Fld.throttleC < 120 + 2 ∧ v.hotDue 0 = true)
    ∧ (let v := hot.sense 0 20
       v.isHot 0 = true ∧ 20 + 2 ≤ v.fld Fld.throttleC)
    ∧ limited.fld Fld.tripC < 130 ∧ 20 ≤ limited.fld Fld.tripC ∧ locked.flag Fld.throttleIn = false
    ∧ (flds [(Fld.throttleIn, 1)] locked).flag Fld.throttleIn = true
    ∧ (let u : State := { (atMoment 100000000 locked) with pwr := { locked.pwr with throttleAt := some 0 } }
       u.pwr.throttleAt = some 0 ∧ u.pwr.throttleTold = false ∧ 0 + 100000000 ≤ u.now) := by decide +kernel

theorem test_meets_droop_and_wear :
    (((locked.slab 0).droopAt.filter fun t => decide (locked.now < t + 100000)) ++ [locked.now]).length ≤ locked.fld Fld.stormPerMs
    ∧ (let b : Slab := { droopAt := List.replicate 100 0 }
       (locked.setSlab 0 b).fld Fld.stormPerMs
        < ((((locked.setSlab 0 b).slab 0).droopAt.filter fun t => decide (locked.now < t + 100000)) ++ [locked.now]).length)
    ∧ ((locked.setSlab 0 { drooped := true }).slab 0).drooped = true ∧ locked.pins.phase = .running ∧ locked.planDue = true
    ∧ (let u : State := { (atMoment 8640000000000 locked) with pwr := { locked.pwr with wearAt := some 0 } }
       u.planDueAt.isSome = true ∧ u.flag Fld.wearPlanDue = false)
    ∧ ({ locked with pwr := { locked.pwr with wearAt := some 0 } } : State).planDue = false := by decide +kernel

theorem test_meets_smbus :
    locked.answers false = true ∧ locked.answers true = true ∧ (phased .boot).answers false = false ∧ locked.pwr.readAt = none
    ∧ ({ locked with pwr := { locked.pwr with readAt := some 0 } } : State).pwr.readAt = some 0 := by decide +kernel

theorem test_meets_host_events :
    booting.pins.phase = .boot ∧ booting.flag Fld.bootLock = false ∧ locked.hostUp = true ∧ locked.flag Fld.bootLock = true
    ∧ State.reset.pins.phase = .reset ∧ locked.pins.phase = .running ∧ locked.err.flintDown = false := by decide +kernel

theorem test_meets_channels :
    ((locked.place 0x40000000).subChannel).isSome = true ∧ (locked.place 0x40000000).subChannel = (locked.place 0x40000000).subChannel := by decide +kernel

theorem test_meets_formats :
    0x3F80 < 2 ^ Fmt.bf16.width ∧ (Fmt.bf16.decode 0x3F80).isNan = false ∧ (0 : Int) < 4 := by decide +kernel

/-! ## Well-formedness: each check refuses -/

/-- One term for each space, with the first number that the space does not have. -/
theorem test_wf_spaces : ([.descriptorIssue 0 160 0, .descriptorIssue 0 0 64, .tileFinish 0 0 30784, .matmul 0 30784 none, .tickSymbolReceived 0 0 ⟨4096, 0⟩ 0 false, .masterTickIssue 0 4, .linkDown 0 16,
    .doneSymbolReceived 0 0 4096 0, .channelBurst 0 512, .droop 0 4, .sqDisable 0 64, .doorbellSqTail 0 0 65536, .kvFrameMap 0 8,
    .hostDmaDone 0 4, .laneDegrade 0 0 ⟨8, false⟩, .commitMarkerReceived 0 4096 0, .endMarkerReceived 0 4096 0 0 0, .patrolScrub 0 (2 ^ 48) false,
    .leaseHeld 0 0 4096, .thermalTrip 0 37 0, .pwrGoodRise 0 16 0 0, .pwrGoodRise 0 0 8 0, .pwrGoodRise 0 0 0 64,
    .leaseMessage 0 0 0 0 0 (2 ^ 32) 0, .recordClose 0 64, .evidenceReady 0 8, .kvFull 0 128, .setEndpointId 0 256,
    .strConfigWrite 0 .host (2 ^ 26) 0, .bar4Access 0 false (2 ^ 36) [] 0, .semaphoreWake 0 (2 ^ 16 + 4096)] : List Instr).all
    (fun i => !i.wf && i.shaped) = true := by decide +kernel

/-- One term for each check of a message, a list or a code. -/
theorem test_wf_shapes : ([.leaseMessage 0 0 0 0 3 0 0, .leaseReply 0 0 0 0 6, .flitGroupReceived 0 0 0 0 ⟨[], [.idle]⟩,
    .flitGroupReceived 0 0 0 0 ⟨[], [.idle, .idle, .idle, .idle, .data 4096 0 0 0]⟩,
    .flitGroupReceived 0 0 0 0 ⟨(List.replicate 9 0), [.idle, .idle, .idle, .idle, .idle]⟩,
    .flitGroupReceived 0 0 0 0 ⟨[], [.idle, .idle, .idle, .idle, .header 0 (2 ^ 32) 0 packet]⟩, .packetReceived 0 0 { packet with vc := 4 },
    .linkControlReceived 0 0 { ack := 0, nak := false, expected := 0, pools := [], escape := 0 }, .linkUp 0 0 0 256,
    .bar4Access 0 true 0 [1] 2, .bar4Access 0 true 0 [256] 1, .bar4Access 0 false 0 [1] 1, .signatureCompare 0 0 0 (2 ^ 64), .patternReplay 0 0 [],
    .screenStart 0 .host 0 [[2 ^ 64]], .buddyImagePage 0 0 0 [], .fillPageReceived 0 0 0 [], .refclkLost 0 99, .wearPlan 0 [] [] [] [],
    .regWrite 0 .host 0 3 0] : List Instr).all
    (fun i => !i.shaped && (i.operands.all fun o => decide (o.2 < o.1.size))) = true := by decide +kernel

/-- Terms that are well formed, at the last number of each space. -/
theorem test_wf_accepts : ([.descriptorIssue 0 159 63, .tileFinish 0 159 30783, .matmul 159 30783 (some { pass := 0, row := 32, col := 0, value := 1 }), .linkDown 0 15, .thermalTrip 0 36 0, .refclkLost 0 156,
    .regWrite 0 .host (2 ^ 26 - 4) 4 0, .leaseReply 0 0 0 0 5, .semaphoreWake 0 (2 ^ 16 + 4095),
    .flitGroupReceived 0 0 0 0 ⟨(List.replicate 8 0), [.idle, .idle, .idle, .idle, .idle]⟩, .packetReceived 0 0 packet, .bar4Access 0 true 0 [255] 1] : List Instr).all
    Instr.wf = true := by decide +kernel

/-! ## Worked examples of the spec -/

/-- Chapter Numerics, worked example: the elements of the block, scaled by 16, in E4M3 (nearest-even). -/
theorem test_example_e4m3 : ([(0x43BE0000, 0x7C, 0), (0xBE480000, 0xA4, 0), (0x3B000000, 0x01, 0), (0x3A000000, 0x00, fUnderflow)] : List (Nat × Nat × BitVec 6)).all (fun t =>
      let r := Fmt.e4m3.convert .nearest (Fmt.f32.decode t.1)
      Fmt.e4m3.encode r.1 == t.2.1 && r.2 == t.2.2) = true := by decide +kernel

/-- The same example with stochastic rounding: 380 goes up from draw 8,192 on, the tie from 32,768, and 2⁻¹¹ from 49,152. -/
theorem test_example_stochastic : ([(0x43BE0000, 8191, 0x7B), (0x43BE0000, 8192, 0x7C), (0xBE480000, 32767, 0xA4), (0xBE480000, 32768, 0xA5),
    (0x3A000000, 49151, 0x00), (0x3A000000, 49152, 0x01)] : List (Nat × Nat × Nat)).all (fun t =>
      Fmt.e4m3.encode (Fmt.e4m3.convert (.stoch t.2.1) (Fmt.f32.decode t.1)).1 == t.2.2) = true := by decide +kernel

/-- Chapter Vector Engine, worked example: the words of its three micro-operations. -/
theorem test_example_microops :
    (microOp 0x0108900000000000).op = 0x01 ∧ (microOp 0x0380C00041800000).op = 0x03 ∧ (microOp 0x0380C00041800000).imm = 0x41800000
    ∧ (microOp 0x0790000000000000).op = 0x07 := by decide +kernel

/-- Chapter Backward Pass, worked example: κ = min(1, 1.0 ÷ √4.0) = 0.5. -/
theorem test_example_clip :
    Fmt.f32.encode (clipFactor { wsBody (2 ^ 349) with clip := true } (Fmt.f32.decode 0x40800000) (Fmt.f32.decode 0x3F800000)) = 0x3F000000 := by
  decide +kernel

/-- Chapter Pins and Package, worked example: the straps of module 45. -/
theorem test_example_straps : strapsWord (5, 5, 45) = 0x552D#32 := by decide

/-- Chapter Errors, worked example: core 117 checks core 37 in Whole mode when the stratum counter mod 3 is 1. -/
theorem test_example_checker : locked.checkerOf 37 1 = some 117 := by decide +kernel

/-- Chapter Cores, worked example of the picker: at 3.77 µs the heads of streams 9, 4 and 2 are ready since 1.15, 2.40 and 3.77 µs, and
stream 9 is taken. -/
theorem test_example_picker :
    (let ready (n : Nat) : Stream := { state := .ready, issued := true, head := 0x11, readyAt := n }
     let s := running {}
     let s : State := { s with core := { s.core with streams := [(2, ready 377), (4, ready 240), (9, ready 115)] } }
     (atMoment 377 s).bestOf 0 .matrix = some 9) := by decide +kernel

/-- A head is ready from the moment at which its wait comes to be met: semaphore 0 goes from 5 to 6 at 2.40 µs. -/
theorem test_ready_time : ((((atMoment 240 (heads (waits 0x11 6))).semAdd 0 1).1.rewaitAll 0).stream 0 3).readyAt = 240 := by decide +kernel

/-- Chapter Collectives, worked example: the directory entry of expert 17. -/
theorem test_example_expert :
    let e := 0x0008028201912004
    entHome e = 4 ∧ entSlot e = 2 ∧ entSecValid e = true ∧ entSec e = 25 ∧ entSecSlot e = 2 ∧ entCap e = 40 ∧ entSecCap e = 8 := by decide +kernel

/-- Chapter Registers, worked example: GLB_IDENT, and the host's write of STR_PERIOD, which is ignored and recorded in GLB_STAT. -/
theorem test_example_registers :
    locked.rd Reg.glbIdent = 0x2560A100#32
    ∧ (match exec (.strConfigWrite 0 .host 0x200004 0xC8) locked with
       | .next t => t.rd Reg.glbStat == 1#32 && t.rd 0x200004 == locked.rd 0x200004
       | _ => false) = true := by decide +kernel

/-! ## Steps -/

/-- A step takes the front command, and the rest waits. -/
theorem test_step_front :
    (match step { locked with pending := [.watchdogAck 5, .planNow 7] } with
     | .next t => t.pending == [.planNow 7] && t.now == 5 && t.err.lastAck == 5
     | _ => false) = true := by decide +kernel

/-- With no command waiting, 10 ns pass. -/
theorem test_step_idle : (match step locked with | .next t => t.now == 1 | _ => false) = true := by decide +kernel

/-! ## Known answers of the functions that the spec takes from elsewhere -/

/-- Philox-4×32-10 with key and counter 0 (the published known answer). -/
theorem test_philox : philox 0 0 { c0 := 0, c1 := 0, c2 := 0, c3 := 0 } = 0x9b00dbd8bc57ac4ce169c58d6627e8d5 := by decide +kernel

/-- CRC-32 and CRC-64/ECMA-182 of "123456789" (the published check values). -/
theorem test_crc : crc32 [0x31, 0x32, 0x33, 0x34, 0x35, 0x36, 0x37, 0x38, 0x39] = 0xCBF43926
    ∧ crc64 [0x31, 0x32, 0x33, 0x34, 0x35, 0x36, 0x37, 0x38, 0x39] = 0x6C40DF5F0B497347 := by decide +kernel

/-- SHA-512 of "abc": the first eight bytes of the example of FIPS 180-4. -/
theorem test_sha512 : (sha512 [0x61, 0x62, 0x63]).take 8 = [0xdd, 0xaf, 0x35, 0xa1, 0x93, 0x61, 0x7a, 0xba] := by decide +kernel

end Sys2Proof.Tests
end

namespace Sys2Proof.Machine

/-! ## Byte order (R6) -/

theorem leBytes_length (k n : Nat) : (leBytes k n).length = k := by
  induction k generalizing n with
  | zero => rfl
  | succ k ih => rw [leBytes, List.length_cons, ih]

theorem leNat_leBytes (k n : Nat) : leNat (leBytes k n) = n % 256 ^ k := by
  induction k generalizing n with
  | zero => simp [leBytes, leNat, Nat.mod_one]
  | succ k ih =>
    have hp : 256 ^ (k + 1) = 256 * 256 ^ k := Nat.pow_succ'
    rw [leBytes, leNat, ih, BitVec.toNat_ofNat, hp]
    exact Nat.mod_mul.symm

/-- Eight bits are all that a byte holds of a number. -/
theorem ofNat_bits_byte (n lo : Nat) : BitVec.ofNat 8 (bits n lo 8) = BitVec.ofNat 8 (n / 2 ^ lo) :=
  BitVec.eq_of_toNat_eq (by simp [bits])

theorem leBytes_getD (k n i : Nat) (h : i < k) : (leBytes k n).getD i 0 = BitVec.ofNat 8 (bits n (8 * i) 8) := by
  induction k generalizing n i with
  | zero => omega
  | succ k ih =>
    rw [leBytes]
    cases i with
    | zero => rw [List.getD_cons_zero, ofNat_bits_byte, Nat.mul_zero, Nat.pow_zero, Nat.div_one]
    | succ i =>
      have hd : n / 256 / 2 ^ (8 * i) = n / 2 ^ (8 * (i + 1)) := by
        rw [Nat.div_div_eq_div_mul, Nat.mul_add, Nat.add_comm, Nat.pow_add]
      rw [List.getD_cons_succ, ih _ _ (by omega), ofNat_bits_byte, ofNat_bits_byte, hd]

/-- Settles O30: each fact by induction on the number of bytes, which takes the lowest byte off. -/
theorem littleEndian : Obligations.LittleEndian := fun k n =>
  ⟨leBytes_length k n, leNat_leBytes k n, fun i hi => leBytes_getD k n i hi⟩

/-! ## What every step keeps (R2, R572) -/

/-- The queue of commands is no part of what `Sound` speaks of. -/
theorem sound_withPending {s : State} (h : Sound s) (r : List Instr) : Sound { s with pending := r } := ⟨h.regs, h.mem, h.ident⟩

theorem step_of_pending_nil {s : State} (h : s.pending = []) : step s = .next s.idle := by rw [step, h, stepOn]

theorem step_of_pending_cons {s : State} {c : Instr} {r : List Instr} (h : s.pending = c :: r) :
    step s = exec c { s with pending := r } := by rw [step, h, stepOn]

theorem step_keeps_sound {s t : State} (hs : Sound s) (h : step s = .next t) : Sound t := by
  cases hp : s.pending with
  | nil =>
    rw [step_of_pending_nil hp] at h
    exact (next_kept h (State.idle_kept s)).sound hs
  | cons c r =>
    rw [step_of_pending_cons hp] at h
    exact (exec_kept h).sound (sound_withPending hs r)

theorem rd_glbIdent_of_sound {s : State} (h : Sound s) : s.rd Reg.glbIdent = 0x2560A100 := h.ident _ (.inl rfl)

/-- The fields part and revision of GLB_IDENT (R2). -/
theorem glbIdent_fields_of_sound {s : State} (h : Sound s) :
    bits (s.rd Reg.glbIdent).toNat 16 16 = 0x2560 ∧ bits (s.rd Reg.glbIdent).toNat 8 8 = 0xA1 := by
  rw [rd_glbIdent_of_sound h]
  decide

/-- Settles O5: an idle step and every command keep `Sound`, and a sound state has the identification. -/
theorem soundKept : Obligations.SoundKept := fun _ hs _ h =>
  have ht := step_keeps_sound hs h
  ⟨ht, glbIdent_fields_of_sound ht⟩

/-- Settles O7: the identification registers of a sound state hold their reset words. -/
theorem identificationReported : Obligations.IdentificationReported := fun _ h => glbIdent_fields_of_sound h

/-! ## What reset leaves (R569, R578) -/

/-- No register has been written, so each holds its reset word. -/
theorem State.rd_reset (off : Nat) : State.reset.rd off = Reg.resetWord off := SMap.get_nil _ off

theorem sound_reset : Sound State.reset := ⟨rfl, Memory.wf_reset, fun off _ => State.rd_reset off⟩

/-- Nothing has been lost before the first write, so an unlisted cell reads 0 (log entry 2). -/
theorem cellDefault_zero (kind k : Nat) : cellDefault 0 kind k = 0 := if_pos rfl

theorem MemSt.physDefault_zero {m : MemSt} (hm : m.mainEpoch = 0) (hs : m.sramEpoch = 0) (k : Nat) : m.physDefault k = 0 := by
  rw [MemSt.physDefault, hm, hs, cellDefault_zero, cellDefault_zero, ite_self]
  rfl

theorem State.physByte_reset (a : Nat) : State.reset.physByte a = 0 :=
  (SMap.get_nil _ _).trans (MemSt.physDefault_zero rfl rfl _)

theorem State.stream_reset (c n : Nat) : State.reset.stream c n = {} := SMap.get_nil _ _

theorem State.anyCtx_reset : State.reset.anyCtx = false := by decide

/-- Settles O4: every register holds its reset word, and the maps of reset list nothing. -/
theorem resetState : Obligations.ResetState :=
  ⟨sound_reset, rd_glbIdent_of_sound sound_reset, by decide, by decide, by decide, by decide, by decide, by decide,
    fun c n => congrArg Stream.state (State.stream_reset c n), State.anyCtx_reset, by decide, rfl, rfl, rfl, State.physByte_reset⟩

/-! ## Registers and access codes (R7, R8) -/

/-- Settles O8: the canonical form of the register file makes a stored word, and so a stored field, read back. -/
theorem registerReadsBack : Obligations.RegisterReadsBack :=
  ⟨fun s off w hs => ⟨State.rd_wr_same hs.regs off w, fun _ ho => State.rd_wr_ne s w ho, State.wr_mem s off w, State.wr_core s off w⟩,
    fun _ f g v hs hf hg => ⟨State.fld_setFld_same hs.regs f v hf, State.fld_setFld_ne hs.regs f g v hg⟩⟩

theorem State.rd_plainWrite_same {s : State} (h : SMap.wf Reg.resetWord s.regs = true) {off : Nat} {r : RegInfo}
    (hr : Reg.info off = some r) (v : Word) :
    (s.plainWrite off v).rd off
      = ((s.rd off &&& ~~~BitVec.ofNat 32 r.rw) ||| (v &&& BitVec.ofNat 32 r.rw)) &&& ~~~(v &&& BitVec.ofNat 32 r.w1c) := by
  simp only [State.plainWrite, hr]
  exact State.rd_wr_same h _ _

/-- The access code of one bit `old` that is written with `v`: W1C goes before RW, and any other bit stands. -/
theorem writeBit_eq : ∀ old v rw w1c : Bool,
    ((old && !rw || v && rw) && !(v && w1c)) = if w1c && v then false else if rw then v else old := by decide

theorem getLsbD_maskedWrite (old v rw w1c : Word) {i : Nat} (hi : i < 32) :
    (((old &&& ~~~rw) ||| (v &&& rw)) &&& ~~~(v &&& w1c)).getLsbD i =
      if w1c.getLsbD i && v.getLsbD i then false else if rw.getLsbD i then v.getLsbD i else old.getLsbD i := by
  simp only [BitVec.getLsbD_and, BitVec.getLsbD_or, BitVec.getLsbD_not, hi, decide_true, Bool.true_and]
  exact writeBit_eq _ _ _ _

/-- Outside the tick block a party that is admitted reads the entry that the register names, its WO bits as 0. -/
theorem State.regRead_of_admits {s : State} {p : Party} {off : Nat} {r : RegInfo} (hr : Reg.info off = some r)
    (ha : s.admits p off = true) (hs : ¬(Reg.str ≤ off ∧ off < Reg.ctx)) :
    s.regRead p off = s.indexedRead p off &&& ~~~BitVec.ofNat 32 r.wo := by
  simp only [State.regRead, hr, ha, if_neg hs, Bool.true_eq_false, if_false]

/-- A register that is neither an index nor a data register reads as it stands. -/
theorem State.indexedRead_plain (s : State) (p : Party) {off : Nat} (hx : indexRegs.contains off = false) (h1 : off ≠ Reg.veiRouteData)
    (h2 : off ≠ Reg.veiPoolData) (h3 : off ≠ Reg.colGroupLo) (h4 : off ≠ Reg.colGroupHi) : s.indexedRead p off = s.rd off := by
  simp only [State.indexedRead, hx, h1, h2, h3, h4, Bool.false_eq_true, if_false]

/-- Settles O9: a write and a read are masks of the register's word, taken bit by bit. -/
theorem accessCodes : Obligations.AccessCodes := by
  constructor
  · intro s off v r i hs hr hi
    rw [State.rd_plainWrite_same hs.regs hr, getLsbD_maskedWrite _ _ _ _ hi]
  · intro s p off r i hr ha ht
    rw [State.regRead_of_admits hr ha ht, BitVec.getLsbD_and, BitVec.getLsbD_not]
    constructor
    · intro hw
      rw [hw, Bool.not_true, Bool.and_false, Bool.and_false]
    · intro hx h1 h2 h3 h4 hw
      rw [State.indexedRead_plain s p hx h1 h2 h3 h4, hw, Bool.not_false, Bool.and_true]
      by_cases hi : i < 32
      · rw [decide_eq_true hi, Bool.and_true]
      · rw [BitVec.getLsbD_of_ge _ _ (Nat.le_of_not_lt hi), Bool.false_and]

end Sys2Proof.Machine

namespace Sys2Proof.Machine

/-! ## An idle step (log entry 1) -/

/-- A fold whose steps all leave the start alone. -/
theorem foldl_eq_of_fixed {α β : Type} {f : α → β → α} {a : α} {l : List β} (h : ∀ b ∈ l, f a b = a) : l.foldl f a = a := by
  induction l with
  | nil => rfl
  | cons b r ih => rw [List.foldl_cons, h b List.mem_cons_self, ih fun c hc => h c (List.mem_cons_of_mem _ hc)]

theorem State.pump_of_not_carries {s : State} {p : Nat} (h : s.carries p = false) : s.pump p = s :=
  if_neg (Bool.not_eq_true _ ▸ h)

theorem State.pumpAll_of_quiet {s : State} (h : ∀ p < 16, s.carries p = false) : s.pumpAll = s :=
  foldl_eq_of_fixed fun p hp => State.pump_of_not_carries (h p (List.mem_range.1 hp))

theorem State.endStreaming_of_no_epoch {s : State} (h : s.fos.epoch = none) : s.endStreaming = s := by
  rw [State.endStreaming, h]
  rfl

theorem State.askFill_of_no_fill {s : State} (h : s.fos.fill = none) : s.askFill = s := by
  rw [State.askFill, h]

theorem State.landWaiting_of_nil {s : State} (h : s.fos.arriving = []) : s.landWaiting = s := by
  rw [State.landWaiting, h, List.foldl_nil]

theorem State.collNext_of_nil {s : State} (hh : s.coll.held = []) (hx : s.coll.xfers = []) : s.collNext = none := by
  rw [State.collNext, hh, hx]
  rfl

theorem State.collSweep_of_nil {s : State} (hh : s.coll.held = []) (hx : s.coll.xfers = []) : s.collSweep = s := by
  rw [State.collSweep, State.collRun, State.collNext_of_nil hh hx]

theorem State.screenNext_of_nil {s : State} (h : s.err.screen = []) : s.screenNext = s := by
  rw [State.screenNext, h]
  rfl

/-- Settles O2: with nothing to send, to stream, to land or to screen, each part of an idle step leaves the state as time left it;
and what time leaves alone is `TimeOnly`. -/
theorem idleTime : Obligations.IdleTime := by
  constructor
  · intro s hp
    refine ⟨step_of_pending_nil hp, fun hc he hf ha hh hx hs => ?_⟩
    rw [State.idle, State.pumpAll_of_quiet hc, State.endStreaming_of_no_epoch he, State.askFill_of_no_fill hf,
      State.landWaiting_of_nil ha, State.collSweep_of_nil hh hx, State.screenNext_of_nil hs]
  · intro s t u
    have h : TimeOnly s u := State.advanceTo_timeOnly s t
    exact ⟨State.advanceTo_now s t, h.quarries, h.core, h.mem, h.ctx, h.host, h.err, h.ws, h.kv, h.vein, h.coll, h.fos, h.fw,
      h.pins, h.freeCtr, h.pending, h.rd⟩

/-! ## What sending changes (R348 to R352, R500) -/

/-- `t` is `s` but for the ports and the registers. -/
def SendsOnly (s t : State) : Prop := ∃ r v, t = { s with regs := r, vein := v }

theorem SendsOnly.refl (s : State) : SendsOnly s s := ⟨s.regs, s.vein, rfl⟩

theorem SendsOnly.trans {s t u : State} (h : SendsOnly s t) (g : SendsOnly t u) : SendsOnly s u := by
  obtain ⟨_, _, rfl⟩ := h
  obtain ⟨r, v, rfl⟩ := g
  exact ⟨r, v, rfl⟩

theorem SendsOnly.quarries {s t : State} (h : SendsOnly s t) : t.quarries = s.quarries := by
  obtain ⟨_, _, rfl⟩ := h
  rfl

theorem SendsOnly.ite {s t u : State} {c : Prop} [Decidable c] (h : SendsOnly s t) (g : SendsOnly s u) :
    SendsOnly s (if c then t else u) := by
  split
  · exact h
  · exact g

theorem SendsOnly.fold {β : Type} {f : State → β → State} (hf : ∀ t x, SendsOnly t (f t x)) (l : List β) (s : State) :
    SendsOnly s (l.foldl f s) := by
  induction l generalizing s with
  | nil => exact SendsOnly.refl s
  | cons x r ih => exact (hf s x).trans (ih _)

theorem State.setPort_sendsOnly (s : State) (p : Nat) (b : Port) : SendsOnly s (s.setPort p b) := ⟨_, _, rfl⟩

theorem State.emit_sendsOnly (s : State) (p : Nat) (f : WireFlit) : SendsOnly s (s.emit p f).2 := State.setPort_sendsOnly ..

theorem State.freeFlit_sendsOnly (s : State) (o : OutPkt) : SendsOnly s (s.freeFlit o) := by
  unfold State.freeFlit
  split
  · exact SendsOnly.ite (State.setPort_sendsOnly ..) (State.setPort_sendsOnly ..)
  · exact SendsOnly.refl s

theorem State.startPacket_sendsOnly (s : State) (p : Nat) (o : OutPkt) : SendsOnly s (s.startPacket p o).2 :=
  ((State.freeFlit_sendsOnly s o).trans (State.setPort_sendsOnly ..)).trans (State.emit_sendsOnly ..)

theorem State.sendData_sendsOnly (s : State) (p : Nat) (o : OutPkt) (d : Nat × Nat) (rest : List (Nat × Nat)) :
    SendsOnly s (s.sendData p o d rest).2 :=
  ((State.freeFlit_sendsOnly s o).trans (State.setPort_sendsOnly ..)).trans (State.emit_sendsOnly ..)

theorem State.channelFlit_sendsOnly {s : State} {p vc : Nat} {r : WireFlit × State} (h : s.channelFlit p vc = some r) :
    SendsOnly s r.2 := by
  unfold State.channelFlit at h
  split at h
  · split at h
    · exact Option.some.inj h ▸ State.sendData_sendsOnly ..
    · cases h
  · obtain ⟨o, -, rfl⟩ := Option.map_eq_some_iff.1 h
    exact State.startPacket_sendsOnly ..

theorem State.turnFlit_sendsOnly {s : State} {p : Nat} {r : WireFlit × State} (h : s.turnFlit p = some r) : SendsOnly s r.2 := by
  obtain ⟨i, -, hi⟩ := List.exists_of_findSome?_eq_some h
  obtain ⟨q, hq, rfl⟩ := Option.map_eq_some_iff.1 hi
  exact (State.channelFlit_sendsOnly hq).trans (State.setPort_sendsOnly ..)

theorem State.nextFlit_sendsOnly {s : State} {p : Nat} {r : WireFlit × State} (h : s.nextFlit p = some r) : SendsOnly s r.2 := by
  unfold State.nextFlit at h
  dsimp only at h
  split at h
  · exact Option.some.inj h ▸ State.setPort_sendsOnly ..
  · exact Option.some.inj h ▸ State.setPort_sendsOnly ..
  · split at h
    · cases h
    · split at h
      · exact Option.some.inj h ▸ State.startPacket_sendsOnly ..
      · cases hc : s.channelFlit p 3 with
        | some q =>
          rw [hc] at h
          exact Option.some.inj h ▸ State.channelFlit_sendsOnly hc
        | none =>
          rw [hc] at h
          exact State.turnFlit_sendsOnly h

theorem State.slots_sendsOnly (s : State) (p n : Nat) : SendsOnly s (s.slots p n).2 := by
  induction n generalizing s with
  | zero => exact SendsOnly.refl s
  | succ n ih =>
    unfold State.slots
    split
    · exact (State.nextFlit_sendsOnly ‹_›).trans (ih _)
    · exact ih s

theorem State.sendGroup_sendsOnly (s : State) (p : Nat) : SendsOnly s (s.sendGroup p) := by
  have hp (n : Nat) : SendsOnly s (s.setPort p { s.port p with groups := n }) := State.setPort_sendsOnly ..
  unfold State.sendGroup
  dsimp only
  split
  · exact (hp _).trans ⟨_, _, rfl⟩
  · exact ((hp _).trans (State.slots_sendsOnly ..)).trans ⟨_, _, rfl⟩

theorem State.sendGroups_sendsOnly (s : State) (p n : Nat) : SendsOnly s (s.sendGroups p n) := by
  induction n generalizing s with
  | zero => exact SendsOnly.refl s
  | succ n ih => exact SendsOnly.ite ((State.sendGroup_sendsOnly s p).trans (ih _)) (SendsOnly.refl s)

theorem State.endFillRead_sendsOnly (s : State) : SendsOnly s s.endFillRead := SendsOnly.ite ⟨_, _, rfl⟩ (SendsOnly.refl s)

theorem State.pump_sendsOnly (s : State) (p : Nat) : SendsOnly s (s.pump p) :=
  SendsOnly.ite (((State.sendGroups_sendsOnly s p _).trans (State.setPort_sendsOnly ..)).trans (State.endFillRead_sendsOnly _))
    (SendsOnly.refl s)

theorem State.send_sendsOnly (s : State) (p : Nat) (k : Packet) : SendsOnly s (s.send p k) :=
  SendsOnly.ite ((State.pump_sendsOnly s p).trans (State.setPort_sendsOnly ..)) (SendsOnly.refl s)

theorem State.sendDown_sendsOnly (s : State) (m : Packet) : SendsOnly s (s.sendDown m) :=
  SendsOnly.fold (fun t p => State.send_sendsOnly t p m) _ s

/-- A symbol that goes down the tree leaves the tick state alone. -/
theorem State.sendDown_quarry (s : State) (m : Packet) (q : Nat) : (s.sendDown m).quarry q = s.quarry q := by
  rw [State.quarry, (State.sendDown_sendsOnly s m).quarries, State.quarry]

/-! ## The stretch of a stratum (R39, R49) -/

theorem State.fld_lt (s : State) (f : Fld) : s.fld f < 2 ^ f.width := bits_lt _ _ _

/-- A field of another register reads as before. -/
theorem State.setFld_fld_of_reg_ne (s : State) {f g : Fld} (v : Nat) (h : g.reg ≠ f.reg) : (s.setFld f v).fld g = s.fld g := by
  rw [State.fld, State.setFld_rd_ne s f v h, State.fld]

/-- A counter field advances by `k` and saturates. -/
theorem State.fld_bump_same {s : State} (h : SMap.wf Reg.resetWord s.regs = true) (f : Fld) (k : Nat) (hf : f.lo + f.width ≤ 32) :
    (s.bump f k).fld f = min (s.fld f + k) (2 ^ f.width - 1) := by
  have hp : 0 < 2 ^ f.width := Nat.two_pow_pos _
  rw [State.bump, State.fld_setFld_same h f _ hf, Nat.mod_eq_of_lt (by omega)]

theorem Fld.stretch_reg_ne (q : Nat) : (Fld.stretchMax q).reg ≠ (Fld.stretchCnt q).reg := by
  simp only [Fld.stretchMax, Fld.stretchCnt, Reg.strStretchMax, Reg.strStretchCnt]
  omega

/-- STR_STRETCH_CNT after a stratum whose stretch is `d`. -/
def State.countStretch (s : State) (q d : Nat) : State := if us 1 < d then s.bump (Fld.stretchCnt q) else s

/-- STR_STRETCH_MAX after a stratum whose stretch is `d`. -/
def State.raiseStretchMax (s : State) (q d : Nat) : State :=
  if s.fld (Fld.stretchMax q) < d then s.setFld (Fld.stretchMax q) (min d (2 ^ 32 - 1)) else s

theorem State.noteStretch_eq (s : State) (q : Nat) :
    s.noteStretch q = (s.countStretch q (s.now - ((s.quarry q).lastTick + 100 * (s.quarry q).period))).raiseStretchMax q
      (s.now - ((s.quarry q).lastTick + 100 * (s.quarry q).period)) := rfl

theorem State.fld_stretchCnt_countStretch {s : State} (h : SMap.wf Reg.resetWord s.regs = true) (q d : Nat) :
    (s.countStretch q d).fld (Fld.stretchCnt q)
      = if 100 < d then min (s.fld (Fld.stretchCnt q) + 1) (2 ^ 32 - 1) else s.fld (Fld.stretchCnt q) := by
  have hb : (s.bump (Fld.stretchCnt q)).fld (Fld.stretchCnt q) = min (s.fld (Fld.stretchCnt q) + 1) (2 ^ 32 - 1) :=
    State.fld_bump_same h (Fld.stretchCnt q) 1 (Nat.le_refl 32)
  rw [State.countStretch, apply_ite (fun t : State => t.fld (Fld.stretchCnt q)), hb]
  rfl

theorem State.fld_stretchMax_countStretch (s : State) (q d : Nat) :
    (s.countStretch q d).fld (Fld.stretchMax q) = s.fld (Fld.stretchMax q) := by
  unfold State.countStretch
  split
  · exact State.setFld_fld_of_reg_ne s _ (Fld.stretch_reg_ne q)
  · rfl

theorem State.fld_stretchCnt_raiseStretchMax (s : State) (q d : Nat) :
    (s.raiseStretchMax q d).fld (Fld.stretchCnt q) = s.fld (Fld.stretchCnt q) := by
  unfold State.raiseStretchMax
  split
  · exact State.setFld_fld_of_reg_ne s _ (Fld.stretch_reg_ne q).symm
  · rfl

theorem State.fld_stretchMax_raiseStretchMax {s : State} (h : SMap.wf Reg.resetWord s.regs = true) (q d : Nat) :
    (s.raiseStretchMax q d).fld (Fld.stretchMax q) = max (s.fld (Fld.stretchMax q)) (min d (2 ^ 32 - 1)) := by
  have hlt : s.fld (Fld.stretchMax q) < 2 ^ 32 := State.fld_lt s _
  unfold State.raiseStretchMax
  split
  · have hs : (s.setFld (Fld.stretchMax q) (min d (2 ^ 32 - 1))).fld (Fld.stretchMax q) = min d (2 ^ 32 - 1) % 2 ^ 32 :=
      State.fld_setFld_same h _ _ (Nat.le_refl 32)
    omega
  · omega

/-! ## Operations on the registers alone -/

/-- `t` is `s` but for the registers, whose canonical form stands. -/
def RegsOnly (s t : State) : Prop :=
  ∃ r, t = { s with regs := r } ∧ (SMap.wf Reg.resetWord s.regs = true → SMap.wf Reg.resetWord r = true)

theorem RegsOnly.refl (s : State) : RegsOnly s s := ⟨s.regs, rfl, id⟩

theorem RegsOnly.setFld {s t : State} (h : RegsOnly s t) (f : Fld) (v : Nat) : RegsOnly s (t.setFld f v) := by
  obtain ⟨r, rfl, hr⟩ := h
  exact ⟨_, rfl, fun hs => SMap.wf_put (hr hs)⟩

theorem RegsOnly.ite {s t u : State} {c : Prop} [Decidable c] (h : RegsOnly s t) (g : RegsOnly s u) : RegsOnly s (if c then t else u) := by
  split
  · exact h
  · exact g

theorem RegsOnly.canonical {s t : State} (h : RegsOnly s t) (hs : SMap.wf Reg.resetWord s.regs = true) :
    SMap.wf Reg.resetWord t.regs = true := by
  obtain ⟨r, rfl, hr⟩ := h
  exact hr hs

theorem RegsOnly.quarry {s t : State} (h : RegsOnly s t) (q : Nat) : t.quarry q = s.quarry q := by
  obtain ⟨r, rfl, -⟩ := h
  rfl

theorem State.countStretch_regsOnly (s : State) (q d : Nat) : RegsOnly s (s.countStretch q d) :=
  RegsOnly.ite ((RegsOnly.refl s).setFld _ _) (RegsOnly.refl s)

theorem State.noteStretch_regsOnly (s : State) (q : Nat) : RegsOnly s (s.noteStretch q) :=
  have h := State.countStretch_regsOnly s q _
  RegsOnly.ite (h.setFld _ _) h

/-- Settles O12: the counter and the maximum are registers of their own, so the two updates do not meet. -/
theorem stretchMeasured : Obligations.StretchMeasured := by
  intro s q hs _ d t
  have ht : t = (s.countStretch q d).raiseStretchMax q d := State.noteStretch_eq s q
  have hc := (State.countStretch_regsOnly s q d).canonical hs.regs
  obtain ⟨r, hr, -⟩ := State.noteStretch_regsOnly s q
  refine ⟨?_, ?_, ?_⟩
  · rw [ht, State.fld_stretchCnt_raiseStretchMax, State.fld_stretchCnt_countStretch hs.regs]
  · rw [ht, State.fld_stretchMax_raiseStretchMax hc, State.fld_stretchMax_countStretch]
  · rw [show t = _ from hr]
    exact ⟨rfl, rfl, rfl⟩

/-! ## An accepted tick, stage by stage (R23, R36, R39, R40) -/

/-- A tick ends the stratum before it: its stretch, and late_src. -/
def State.endStratum (s : State) (q : Nat) : State :=
  let t := if (s.quarry q).opened then s.noteStretch q else s
  match (s.quarry q).lastDone with
  | some w => if (s.quarry q).opened then t.setFld (Fld.lateSrc q) w else t
  | none => t

/-- The tick state of a quarry in a stratum that a tick opens. -/
def Quarry.opening (b : Quarry) (count : BitVec 48) (now period minGap : Nat) : Quarry :=
  { b with
    count := count, ticks := b.ticks + 1, opened := true, lastTick := now, period := period, minGap := minGap
    heardAt := now, downDone := [], lastDone := none, sentDone := false, overrun := false, domOverrun := false
    faultDone := false, stretchSent := 0 }

/-- A tick opens the next stratum: the counter, a fresh done condition, STRATUM_OUT±, and the checks of the stratum. -/
def State.openStratum (s : State) (q : Nat) (count : BitVec 48) (external : Bool) : State :=
  let t := (s.setQuarry q ((s.quarry q).opening count s.now (s.fld Fld.periodUs) (s.fld Fld.minGap))).setFld (Fld.done q) 0
  let t := if external then { t with pins := { t.pins with stratumOut := false } } else t
  { t with err := { t.err with level := t.fld Fld.assayLevel, sampleLog2 := t.fld Fld.sampleLog2 } }

theorem State.endStratum_regsOnly (s : State) (q : Nat) : RegsOnly s (s.endStratum q) := by
  have h : RegsOnly s (if (s.quarry q).opened then s.noteStretch q else s) :=
    RegsOnly.ite (State.noteStretch_regsOnly s q) (RegsOnly.refl s)
  unfold State.endStratum
  dsimp only
  cases (s.quarry q).lastDone with
  | none => exact h
  | some w => exact RegsOnly.ite (h.setFld _ _) h

theorem State.acceptTick_eq (s : State) (q : Nat) (count : BitVec 48) (external release : Bool) :
    s.acceptTick q count external release =
      (let t := (((((s.endStratum q).openStratum q count external).tickBudgets q).loseWaits q).stepBoundary q).dirTick q
       if release then t.releasePlan q else t) := by
  have hb := congrArg Quarry.ticks ((State.endStratum_regsOnly s q).quarry q)
  unfold State.openStratum Quarry.opening
  rw [hb]
  rfl

/-- With no training context and no new mapping of the input window a tick is no step boundary (R482, R495). -/
theorem State.stepBoundary_of_none {s : State} (ht : s.trainCtx = none) (hm : s.fos.nextMap = none) (q : Nat) : s.stepBoundary q = s := by
  have he : s.enterMap = s := by rw [State.enterMap, hm]
  unfold State.stepBoundary
  split
  · rfl
  · dsimp only
    rw [he, ht]

/-- A directory that comes into force changes the directory and COL_STAT alone (R381). -/
theorem State.dirTick_only (s : State) (q : Nat) :
    ∃ r c, s.dirTick q = { s with regs := r, coll := c } ∧ ∀ o ≠ Reg.colStat, (s.dirTick q).rd o = s.rd o := by
  unfold State.dirTick
  split
  · split
    · refine ⟨_, _, rfl, fun o ho => ?_⟩
      rw [State.setFld_rd_ne _ Fld.dirCtx _ ho, State.setFld_rd_ne _ Fld.dirValid _ ho]
      rfl
    · exact ⟨_, _, rfl, fun _ _ => rfl⟩
  · exact ⟨_, _, rfl, fun _ _ => rfl⟩

/-- A wait whose budget has ended, whatever it was before. -/
def KvWait.ended (w : KvWait) : KvWait := { w with lost := true }

/-- What an accepted tick counts touches the waits' losses, the budgets and the directory alone. -/
theorem State.tickCounts_only (s : State) (q : Nat) :
    ∃ r x c w, ((s.tickBudgets q).loseWaits q).dirTick q
        = { s with regs := r, ctx := x, coll := c, kv := { s.kv with waits := w } }
      ∧ w.map KvWait.ended = s.kv.waits.map KvWait.ended
      ∧ ∀ o ≠ Reg.colStat, (((s.tickBudgets q).loseWaits q).dirTick q).rd o = s.rd o := by
  obtain ⟨r, c, h, hr⟩ := State.dirTick_only ((s.tickBudgets q).loseWaits q) q
  refine ⟨r, _, c, _, h, ?_, hr⟩
  exact List.map_map

/-- A tick ends one stratum and opens the next. -/
def State.newStratum (s : State) (q : Nat) (count : BitVec 48) (external : Bool) : State :=
  (s.endStratum q).openStratum q count external

/-- The tick opens the stratum of its quarry, in any map: an opened stratum is no default. -/
theorem State.openStratum_quarry (s : State) (q : Nat) (count : BitVec 48) (external : Bool) :
    (s.openStratum q count external).quarry q = (s.quarry q).opening count s.now (s.fld Fld.periodUs) (s.fld Fld.minGap) := by
  have hne : (s.quarry q).opening count s.now (s.fld Fld.periodUs) (s.fld Fld.minGap) ≠ {} :=
    fun h => Bool.noConfusion (congrArg Quarry.opened h)
  cases external
  · exact SMap.get_put_of_ne_default hne
  · exact SMap.get_put_of_ne_default hne

theorem State.newStratum_quarry (s : State) (q : Nat) (count : BitVec 48) (external : Bool) :
    ∃ period minGap, (s.newStratum q count external).quarry q = (s.quarry q).opening count s.now period minGap := by
  obtain ⟨r, hr, -⟩ := State.endStratum_regsOnly s q
  rw [State.newStratum, hr]
  exact ⟨_, _, State.openStratum_quarry _ q count external⟩

theorem State.newStratum_quarry_ne (s : State) {p q : Nat} (h : p ≠ q) (count : BitVec 48) (external : Bool) :
    (s.newStratum q count external).quarry p = s.quarry p := by
  rw [← (State.endStratum_regsOnly s q).quarry p]
  cases external
  · exact SMap.get_put_of_ne h
  · exact SMap.get_put_of_ne h

theorem State.newStratum_done {s : State} (h : SMap.wf Reg.resetWord s.regs = true) (q : Nat) (count : BitVec 48) (external : Bool) :
    (s.newStratum q count external).fld (Fld.done q) = 0 := by
  have hd : ∀ b, (((s.endStratum q).setQuarry q b).setFld (Fld.done q) 0).fld (Fld.done q) = 0 := fun b =>
    State.fld_setFld_same (s := (s.endStratum q).setQuarry q b) ((State.endStratum_regsOnly s q).canonical h) (Fld.done q) 0
      (by decide : 0 + 1 ≤ 32)
  cases external
  · exact hd _
  · exact hd _

theorem State.openStratum_only (s : State) (q : Nat) (count : BitVec 48) (external : Bool) :
    ∃ r y e, s.openStratum q count external
      = { s with regs := r, quarries := y, err := e, pins := { s.pins with stratumOut := s.pins.stratumOut && !external } } := by
  cases external
  · simp only [Bool.not_false, Bool.and_true]
    exact ⟨_, _, _, rfl⟩
  · simp only [Bool.not_true, Bool.and_false]
    exact ⟨_, _, _, rfl⟩

theorem State.newStratum_only (s : State) (q : Nat) (count : BitVec 48) (external : Bool) :
    ∃ r y e, s.newStratum q count external
      = { s with regs := r, quarries := y, err := e, pins := { s.pins with stratumOut := s.pins.stratumOut && !external } } := by
  obtain ⟨r, hr, -⟩ := State.endStratum_regsOnly s q
  rw [State.newStratum, hr]
  exact State.openStratum_only _ q count external

theorem Fld.done_reg_ne_colStat {q : Nat} (h : q < 4) : (Fld.done q).reg ≠ Reg.colStat := by
  simp only [Fld.done, Reg.strStat, Reg.colStat]
  omega

/-- An accepted tick without a release is a new stratum, but for what it counts. -/
theorem State.acceptTick_unreleased {s : State} (ht : s.trainCtx = none) (hm : s.fos.nextMap = none) (q : Nat) (count : BitVec 48)
    (external : Bool) :
    s.acceptTick q count external false = (((s.newStratum q count external).tickBudgets q).loseWaits q).dirTick q := by
  obtain ⟨r, y, e, hn⟩ := State.newStratum_only s q count external
  have hf : (((s.newStratum q count external).tickBudgets q).loseWaits q).fos = s.fos := by
    show (s.newStratum q count external).fos = s.fos
    rw [hn]
  have hb := State.stepBoundary_of_none ((congrArg FosSt.train hf).trans ht) ((congrArg FosSt.nextMap hf).trans hm) q
  rw [State.newStratum] at hb
  rw [State.acceptTick_eq, hb]
  rfl

/-- Settles O11: the tick ends one stratum and opens the next; what it counts touches the waits' losses, the budgets and the
directory alone. -/
theorem tickAccepted : Obligations.TickAccepted := by
  intro s q count external hs hq htrain hmap t
  obtain ⟨period, minGap, hopened⟩ := State.newStratum_quarry s q count external
  obtain ⟨r, x, c, w, hu, hw, hrd⟩ := State.tickCounts_only (s.newStratum q count external) q
  have ht : t = _ := State.acceptTick_unreleased htrain hmap q count external
  have hquarry : ∀ p, t.quarry p = (s.newStratum q count external).quarry p := fun p => by rw [ht, hu]; rfl
  have hdone : t.fld (Fld.done q) = 0 := by
    rw [← State.newStratum_done hs.regs q count external, State.fld, State.fld, ht, hrd _ (Fld.done_reg_ne_colStat hq)]
  obtain ⟨r', y, e, hn⟩ := State.newStratum_only s q count external
  rw [hn] at hw
  rw [hu, hn] at ht
  have hnew := (hquarry q).trans hopened
  refine ⟨congrArg Quarry.count hnew, congrArg Quarry.ticks hnew, congrArg Quarry.lastTick hnew, by rw [State.flag, hdone]; rfl,
    by rw [ht], fun p hp => (hquarry p).trans (State.newStratum_quarry_ne s hp count external), ?_⟩
  rw [ht]
  exact ⟨rfl, rfl, rfl, rfl, rfl, rfl, hw, rfl, rfl, rfl⟩

/-! ## Ticks that the module times itself (R32, R34, R46) -/

theorem exec_masterTickIssue_of_due {s : State} {at_ q : Nat} (hg : (s.advanceTo at_).generates q = true)
    (hd : (s.advanceTo at_).tickDue q = true) :
    exec (.masterTickIssue at_ q) s
      = .next (((s.advanceTo at_).masterSymbol q false).acceptTick q (((s.advanceTo at_).quarry q).count + 1) false true) :=
  congrArg Host.Outcome.next (if_pos ⟨hg, hd⟩)

theorem exec_masterTickIssue_of_not_due {s : State} {at_ q : Nat} (hd : (s.advanceTo at_).tickDue q = false) :
    exec (.masterTickIssue at_ q) s = .next (s.advanceTo at_) :=
  congrArg Host.Outcome.next (if_neg fun h => Bool.false_ne_true (hd.symm.trans h.2))

theorem State.tickDue_of_opened {s : State} {q : Nat} (h : (s.quarry q).opened = true) :
    s.tickDue q = (s.subtreeDone q && decide ((s.quarry q).lastTick + 100 * (s.quarry q).period ≤ s.now)) := if_pos h

theorem State.tickDue_of_not_opened {s : State} {q : Nat} (h : (s.quarry q).opened = false) :
    s.tickDue q = decide ((s.quarry q).runAt + 100 * (s.quarry q).period ≤ s.now) := if_neg (Bool.eq_false_iff.1 h)

/-- Settles O13: each command acts at its moment and leaves the state as time left it before. -/
theorem ticksIssued : Obligations.TicksIssued := by
  refine ⟨fun s at_ q hg => ⟨fun ho hd hn => ?_, fun ho hn => ?_, fun ho hn => ?_, fun ho hd => ?_, fun ho hn => ?_⟩,
    fun s at_ ht hh hd hn => congrArg Host.Outcome.next (if_pos ⟨ht, hh, hd, hn⟩),
    fun s at_ hg hr ho hd hn => congrArg Host.Outcome.next (if_pos ⟨hg, hr, ho, hd, hn⟩),
    fun s at_ port master domain count => ⟨fun hh => congrArg Host.Outcome.next (if_pos hh),
      fun hh => congrArg Host.Outcome.next (if_neg (Bool.eq_false_iff.1 hh))⟩⟩
  · exact exec_masterTickIssue_of_due hg (by rw [State.tickDue_of_opened ho, hd, Bool.true_and]; exact decide_eq_true hn)
  · exact exec_masterTickIssue_of_due hg (by rw [State.tickDue_of_not_opened ho]; exact decide_eq_true hn)
  · exact exec_masterTickIssue_of_not_due
      (by rw [State.tickDue_of_opened ho, decide_eq_false (Nat.not_le_of_lt hn), Bool.and_false])
  · exact exec_masterTickIssue_of_not_due (by rw [State.tickDue_of_opened ho, hd, Bool.false_and])
  · exact exec_masterTickIssue_of_not_due (by rw [State.tickDue_of_not_opened ho]; exact decide_eq_false (Nat.not_le_of_lt hn))

/-! ## External ticks by their cases (R33, R44 to R46) -/

section ExternalTick

variable {s : State} {carried : Option (BitVec 48)} {abort : Option Nat} {fwd : State → State}

theorem State.externalTick_holdover_not_done (hh : s.flag (Fld.holdover 0) = true) (hd : s.flag (Fld.done 0) = false) :
    s.externalTick carried abort fwd = s.bump (Fld.premature 0) := by
  rw [State.externalTick, if_pos hh, hd]
  rfl

theorem State.externalTick_holdover_done (hh : s.flag (Fld.holdover 0) = true) (hd : s.flag (Fld.done 0) = true) :
    s.externalTick carried abort fwd
      = (((fwd s).setFld (Fld.holdover 0) 0).acceptTick 0 (carried.getD (s.nextCount 0)) true abort.isNone).abortBy abort := by
  rw [State.externalTick, if_pos hh, hd]
  rfl

theorem State.externalTick_early (hh : s.flag (Fld.holdover 0) = false) (ho : (s.quarry 0).opened = true)
    (he : s.now < (s.quarry 0).lastTick + 100 * (s.quarry 0).minGap) :
    s.externalTick carried abort fwd = s.bump (Fld.earlyEdges 0) := by
  rw [State.externalTick, if_neg (Bool.eq_false_iff.1 hh)]
  exact if_pos ⟨ho, he⟩

/-- A tick that is not early and carries the next count, if it carries one, and that finds the module done or is an abort tick, is
accepted and nothing else. -/
theorem State.externalTick_in_sequence (hh : s.flag (Fld.holdover 0) = false)
    (he : (s.quarry 0).lastTick + 100 * (s.quarry 0).minGap ≤ s.now) (hd : s.flag (Fld.done 0) = true ∨ abort.isSome = true)
    (hf : (fwd s).quarry 0 = s.quarry 0) (hc : ∀ n, carried = some n → n = (s.quarry 0).count + 1) :
    s.externalTick carried abort fwd
      = (((fwd s).setFld (Fld.hold 0) 0).acceptTick 0 ((s.quarry 0).count + 1) true abort.isNone).abortBy abort := by
  have hp : ((s.quarry 0).opened && !s.flag (Fld.done 0) && abort.isNone && !(fwd s).flag (Fld.hold 0)) = false := by
    obtain hd | ha := hd
    · rw [hd, Bool.not_true, Bool.and_false, Bool.false_and, Bool.false_and]
    · rw [Option.isNone_eq_false_iff.2 ha, Bool.and_false, Bool.false_and]
  have hn : (fwd s).nextCount 0 = (s.quarry 0).count + 1 := by rw [State.nextCount, hf]
  rw [State.externalTick, if_neg (Bool.eq_false_iff.1 hh), if_neg fun h => Nat.not_lt_of_le he h.2]
  dsimp only
  rw [hp, hn, Bool.not_false, Bool.and_true, if_neg Bool.false_ne_true, if_neg Bool.false_ne_true]
  cases carried with
  | none => rfl
  | some n =>
    obtain rfl := hc n rfl
    exact if_neg (Bool.eq_false_iff.1 (bne_self_eq_false ((s.quarry 0).count + 1)))

end ExternalTick

theorem exec_stratumInEdge_of_ignored {s : State} {at_ : Nat}
    (h : (s.advanceTo at_).ticking = false ∨ (s.advanceTo at_).deaf = true ∨ (s.advanceTo at_).fld Fld.source ≠ 1) :
    exec (.stratumInEdge at_) s = .next (s.advanceTo at_) := by
  refine congrArg Host.Outcome.next (if_neg fun ⟨ht, hd, hs⟩ => ?_)
  obtain h | h | h := h
  · exact Bool.false_ne_true (h.symm.trans ht)
  · exact Bool.false_ne_true (hd.symm.trans h)
  · exact h hs

theorem exec_stratumInEdge_of_active {s : State} {at_ : Nat} (ht : (s.advanceTo at_).ticking = true)
    (hd : (s.advanceTo at_).deaf = false) (hs : (s.advanceTo at_).fld Fld.source = 1) {t : State}
    (h : (s.advanceTo at_).externalTick none none
      (fun t => t.sendDown (tickSym t.moduleId (t.fld Fld.domainId) (t.nextCount 0) false)) = t) :
    exec (.stratumInEdge at_) s = .next t :=
  congrArg Host.Outcome.next ((if_pos ⟨ht, hd, hs⟩).trans h)

theorem exec_tickSymbolReceived_of_heard {s : State} {at_ port master domain : Nat} {count : BitVec 48} {abort : Bool}
    (hh : (s.advanceTo at_).hears port domain = true) {t : State}
    (h : (s.advanceTo at_).externalTick (some count) (if abort then some master else none)
      (fun t => t.sendDown (tickSym master domain count abort)) = t) :
    exec (.tickSymbolReceived at_ port ⟨master, domain⟩ count abort) s = .next t :=
  congrArg Host.Outcome.next ((if_pos hh).trans h)

/-- Settles O14: each clause is one case of `externalTick`; the symbol that goes down the tree (R33, log entry 16) leaves the tick
state alone, so the count that it carries is still the next one. -/
theorem ticksReceived : Obligations.TicksReceived := by
  refine ⟨fun s at_ => ⟨exec_stratumInEdge_of_ignored, fun ht hd hs => ⟨fun hh hn => ?_, fun hh ho he => ?_, fun hh ho he hn => ?_,
    fun hh hn => ?_⟩⟩, fun s at_ port master domain count => ⟨fun abort hn => ?_, fun hl hh => ⟨fun ho he abort => ?_,
    fun ho he hn hc => ?_, fun ho he hc => ?_⟩⟩⟩
  · exact exec_stratumInEdge_of_active ht hd hs (State.externalTick_holdover_not_done hh hn)
  · exact exec_stratumInEdge_of_active ht hd hs (State.externalTick_early hh ho he)
  · exact exec_stratumInEdge_of_active ht hd hs
      (State.externalTick_in_sequence hh he (.inl hn) (State.sendDown_quarry _ _ 0) fun _ h => nomatch h)
  · exact exec_stratumInEdge_of_active ht hd hs (State.externalTick_holdover_done hh hn)
  · exact congrArg Host.Outcome.next (if_neg (Bool.eq_false_iff.1 hn))
  · exact exec_tickSymbolReceived_of_heard hl (State.externalTick_early hh ho he)
  · subst hc
    exact exec_tickSymbolReceived_of_heard hl
      (State.externalTick_in_sequence hh he (.inl hn) (State.sendDown_quarry _ _ 0) fun _ h => (Option.some.inj h).symm)
  · subst hc
    exact exec_tickSymbolReceived_of_heard hl
      (State.externalTick_in_sequence hh he (.inr rfl) (State.sendDown_quarry _ _ 0) fun _ h => (Option.some.inj h).symm)

/-! ## Done (R26, R31) -/

/-- Settles O15: a done symbol counts where every condition of R31 holds; the module is done where R26 says so. -/
theorem doneReported : Obligations.DoneReported := by
  refine ⟨fun s at_ port domain count => ⟨fun ht hp hb hl hd hc ho hn =>
    congrArg Host.Outcome.next (if_pos ⟨ht, hp, hb, hl, hd, hc, ho, hn⟩), fun h => ?_⟩, fun s at_ q ht hq ho hd hc hl => ?_⟩
  · refine congrArg Host.Outcome.next (if_neg fun ⟨_, _, hb, _, hd, hc, _⟩ => ?_)
    obtain h | h | h := h
    · exact Bool.false_ne_true (h.symm.trans hb)
    · exact h hd
    · exact h hc
  · have hn : (s.advanceTo at_).doneNow q = true := by rw [State.doneNow, hc, hl, Bool.and_true, Bool.or_true]
    exact congrArg Host.Outcome.next (if_pos ⟨ht, hq, ho, hd, hn⟩)

/-! ## Overruns (R41, R43) -/

theorem State.overrunAt_eq (s : State) (q : Nat) :
    s.overrunAt q = (s.quarry q).lastTick + (1 + s.fld Fld.overrunLimit) * (100 * (s.quarry q).period) := rfl

/-- Before the overrun point, or done, a quarry raises nothing. -/
theorem State.overrunQuarry_of_not_late {s : State} {q : Nat} (h : s.now < s.overrunAt q ∨ s.isDone q = true) : s.overrunQuarry q = s := by
  refine if_neg fun ⟨_, hd, _, hn⟩ => ?_
  obtain h | h := h
  · exact Nat.not_lt_of_le hn h
  · exact Bool.false_ne_true (hd.symm.trans h)

/-- Under the default policy a late quarry raises STRATUM_OVERRUN and counts as done. -/
theorem State.overrunQuarry_of_late {s : State} {q : Nat} (ho : (s.quarry q).opened = true) (hd : s.isDone q = false)
    (hr : (s.quarry q).overrun = false) (hn : s.overrunAt q ≤ s.now) (hf : s.err.flintDown = false) (hp : s.policy 0x0601 = 0) :
    s.overrunQuarry q =
      (let t := s.setQuarry q { s.quarry q with overrun := true }
       let v := t.tickEvent q 0x0601 true (t.lateContexts q)
       v.setQuarry q { v.quarry q with faultDone := true }) := by
  rw [State.overrunQuarry, if_pos ⟨ho, hd, hr, hn⟩, hp, hf]
  rfl

theorem exec_stratumOverrun_of_not_late {s : State} {at_ q : Nat}
    (h : (s.advanceTo at_).now < (s.advanceTo at_).overrunAt q ∨ (s.advanceTo at_).isDone q = true) :
    exec (.stratumOverrun at_ q) s = .next (s.advanceTo at_) := by
  refine congrArg Host.Outcome.next ?_
  show (if _ then (s.advanceTo at_).overrunQuarry q else s.advanceTo at_) = _
  rw [State.overrunQuarry_of_not_late h, ite_self]

/-- At the overrun point a master that is not subtree done issues an abort tick at once, under the default policy. -/
theorem exec_domainOverrun_of_late {s : State} {at_ : Nat} (ht : (s.advanceTo at_).ticking = true)
    (hr : (s.advanceTo at_).fld Fld.role = 1) (ho : ((s.advanceTo at_).quarry 0).opened = true)
    (hd : (s.advanceTo at_).isDone 0 = false ∨ (s.advanceTo at_).downsDone 0 = false)
    (hx : ((s.advanceTo at_).quarry 0).domOverrun = false) (hn : (s.advanceTo at_).overrunAt 0 ≤ (s.advanceTo at_).now) {w : State}
    (hw : (((s.advanceTo at_).overrunQuarry 0).setQuarry 0
      { ((s.advanceTo at_).overrunQuarry 0).quarry 0 with domOverrun := true }).report { code := 0x0602 } = w)
    (hp : w.policy 0x0602 = 0) (hf : w.err.flintDown = false) : exec (.domainOverrun at_) s = .next w.abortTick := by
  subst hw
  refine congrArg Host.Outcome.next ((if_pos ⟨ht, hr, ho, Bool.and_eq_false_iff.2 hd, hx, hn⟩).trans ?_)
  exact (if_neg (by rw [hp]; decide)).trans (if_neg (Bool.eq_false_iff.1 hf))

theorem exec_domainOverrun_of_early {s : State} {at_ : Nat} (h : (s.advanceTo at_).now < (s.advanceTo at_).overrunAt 0) :
    exec (.domainOverrun at_) s = .next (s.advanceTo at_) :=
  congrArg Host.Outcome.next (if_neg fun ⟨_, _, _, _, _, hn⟩ => Nat.not_lt_of_le hn h)

/-! ## Missing ticks (R45, R46) -/

theorem exec_tickLost_of_missing {s : State} {at_ : Nat} (ht : (s.advanceTo at_).ticking = true)
    (hs : (s.advanceTo at_).fld Fld.source = 1 ∨ (s.advanceTo at_).fld Fld.source = 2)
    (hd : ((s.advanceTo at_).quarry 0).sentDone = true) (ho : ((s.advanceTo at_).quarry 0).opened = true)
    (hl : (s.advanceTo at_).tickless 0 = false) (hn : (s.advanceTo at_).missingAt ≤ (s.advanceTo at_).now) :
    exec (.tickLost at_) s = .next ((s.advanceTo at_).loseTick 0x0603) :=
  congrArg Host.Outcome.next (if_pos ⟨ht, hs, hd, ho, hl, hn⟩)

theorem State.missingAt_vein {s : State} (h : s.fld Fld.source = 2) : s.missingAt = (s.quarry 0).heardAt + 2 * s.period 0 := if_pos h

theorem State.missingAt_pins {s : State} (h : s.fld Fld.source = 1) :
    s.missingAt = (s.quarry 0).lastTick + (s.fld Fld.overrunLimit + 3) * s.period 0 := if_neg (by rw [h]; decide)

/-- Settles O16: each event is raised from its moment on and not before, with the contexts, the abort tick and the operand of
log entries 11, 13, 15 and 22. -/
theorem lateStrata : Obligations.LateStrata := by
  refine ⟨fun s at_ q => ⟨fun ht hq ho hd hr hn hf hp => ?_, exec_stratumOverrun_of_not_late, fun h0 ht hr ho hd hx hn hp hf => ?_,
    fun h0 hn => ?_⟩, fun s at_ since => ⟨fun ht hs hd ho hl hn => ?_, fun ht hs hd ho hl hn => ?_, fun hd => ?_,
    fun ht hd hs hl hn => congrArg Host.Outcome.next (if_pos ⟨ht, hd, hs, hl, hn⟩)⟩⟩
  · exact congrArg Host.Outcome.next ((if_pos ⟨ht, hq⟩).trans (State.overrunQuarry_of_late ho hd hr hn hf hp))
  · subst h0
    refine exec_domainOverrun_of_late ht hr ho hd hx hn ?_ hp hf
    cases hi : (s.advanceTo at_).isDone 0 with
    | true => rw [State.overrunQuarry_of_not_late (.inr hi)]; rfl
    | false => rfl
  · subst h0
    exact exec_domainOverrun_of_early hn
  · exact exec_tickLost_of_missing ht (.inr hs) hd ho hl (Nat.le_trans (Nat.le_of_eq (State.missingAt_vein hs)) hn)
  · exact exec_tickLost_of_missing ht (.inl hs) hd ho hl (Nat.le_trans (Nat.le_of_eq (State.missingAt_pins hs)) hn)
  · exact congrArg Host.Outcome.next (if_neg fun ⟨_, _, h, _⟩ => Bool.false_ne_true (hd.symm.trans h))

/-! ## The set-up words of the tick logic (R29) -/

/-- A field that a mask keeps whole. -/
theorem bits_and_of_mask {v m : Word} {lo w : Nat} (h : bits m.toNat lo w = 2 ^ w - 1) : bits (v &&& m).toNat lo w = bits v.toNat lo w := by
  apply Nat.eq_of_testBit_eq
  intro i
  have hm := congrArg (fun n => n.testBit i) h
  simp only [bits_testBit, Nat.testBit_two_pow_sub_one] at hm
  rw [bits_testBit, bits_testBit, BitVec.toNat_and, Nat.testBit_and]
  by_cases hi : i < w
  · rw [decide_eq_true hi, Bool.true_and] at hm
    rw [hm, Bool.and_true]
  · rw [decide_eq_false hi, Bool.false_and, Bool.false_and]

/-- Set-up words in range: overrun_limit, the period and the minimum gap. -/
theorem strWordsOk_ranges {ctrl period domain : Nat} (h : strWordsOk ctrl period domain = true) :
    bits ctrl 9 4 ≠ 0 ∧ 25 ≤ bits period 0 10 ∧ bits period 0 10 ≤ 1000 ∧ 1 ≤ bits period 16 10 ∧ bits period 16 10 ≤ 999
      ∧ bits period 16 10 < bits period 0 10 := by
  simp only [strWordsOk, Bool.and_eq_true, decide_eq_true_eq] at h
  omega

/-- What a write of STR_PERIOD by Flint does. -/
theorem State.strWrite_period (s : State) (value : Word) :
    s.strWrite Reg.strPeriod value =
      (let v := value &&& 0x03FF03FF#32
       if strWordsOk (s.rd Reg.strCtrl).toNat v.toNat (s.rd Reg.strDomain).toNat = true
           ∧ strFrozenOk (s.rd Reg.strCtrl).toNat (s.rd Reg.strDomain).toNat (s.rd Reg.strCtrl).toNat (s.rd Reg.strDomain).toNat = true then
         if (s.wr Reg.strPeriod v).budgetsOk = false then s else ((s.wr Reg.strPeriod v).runChange (s.flag Fld.run)).driveOut
       else s.setFld (Fld.strCfgReject 0) 1) := rfl

/-- What a write of STR_CTRL by Flint does. -/
theorem State.strWrite_ctrl (s : State) (value : Word) :
    s.strWrite Reg.strCtrl value =
      (let v := value &&& 0x1FFF#32
       if strWordsOk v.toNat (s.rd Reg.strPeriod).toNat (s.rd Reg.strDomain).toNat = true
           ∧ strFrozenOk (s.rd Reg.strCtrl).toNat (s.rd Reg.strDomain).toNat v.toNat (s.rd Reg.strDomain).toNat = true then
         if (s.wr Reg.strCtrl v).budgetsOk = false then s else ((s.wr Reg.strCtrl v).runChange (s.flag Fld.run)).driveOut
       else s.setFld (Fld.strCfgReject 0) 1) := rfl

theorem State.strWrite_period_out_of_range {s : State} {value : Word}
    (h : bits value.toNat 0 10 < 25 ∨ 1000 < bits value.toNat 0 10 ∨ bits value.toNat 16 10 = 0 ∨ 999 < bits value.toNat 16 10
      ∨ bits value.toNat 0 10 ≤ bits value.toNat 16 10) : s.strWrite Reg.strPeriod value = s.setFld (Fld.strCfgReject 0) 1 := by
  rw [State.strWrite_period]
  refine if_neg fun ⟨hw, _⟩ => ?_
  have hr := strWordsOk_ranges hw
  rw [bits_and_of_mask (by decide), bits_and_of_mask (by decide)] at hr
  omega

theorem State.strWrite_ctrl_no_limit {s : State} {value : Word} (h : bits value.toNat 9 4 = 0) :
    s.strWrite Reg.strCtrl value = s.setFld (Fld.strCfgReject 0) 1 := by
  rw [State.strWrite_ctrl]
  refine if_neg fun ⟨hw, _⟩ => (strWordsOk_ranges hw).1 ?_
  rw [bits_and_of_mask (by decide), h]

theorem State.runChange_of_eq {s : State} {was : Bool} (h : was = s.flag Fld.run) : s.runChange was = s := if_pos h

/-- A period that fits is stored; run, and so the tick logic, is as before. -/
theorem State.strWrite_period_ok {s : State} {value : Word}
    (hw : strWordsOk (s.rd Reg.strCtrl).toNat (value &&& 0x03FF03FF#32).toNat (s.rd Reg.strDomain).toNat = true)
    (hf : strFrozenOk (s.rd Reg.strCtrl).toNat (s.rd Reg.strDomain).toNat (s.rd Reg.strCtrl).toNat (s.rd Reg.strDomain).toNat = true)
    (hb : (s.wr Reg.strPeriod (value &&& 0x03FF03FF#32)).budgetsOk = true) :
    s.strWrite Reg.strPeriod value = (s.wr Reg.strPeriod (value &&& 0x03FF03FF#32)).driveOut := by
  have hrun : s.flag Fld.run = (s.wr Reg.strPeriod (value &&& 0x03FF03FF#32)).flag Fld.run := by
    rw [State.flag, State.flag, State.fld, State.fld, State.rd_wr_ne s _ (by decide)]
  rw [State.strWrite_period]
  dsimp only
  rw [if_pos ⟨hw, hf⟩, hb, if_neg (by decide), State.runChange_of_eq hrun]

theorem exec_strConfigWrite_flint {s : State} {at_ off : Nat} {value : Word}
    (ho : off = Reg.strCtrl ∨ off = Reg.strPeriod ∨ off = Reg.strDomain) (ha : (s.advanceTo at_).admits .flint off = true) :
    exec (.strConfigWrite at_ .flint off value) s = .next ((s.advanceTo at_).strWrite off value) :=
  congrArg Host.Outcome.next (if_pos ⟨ho, ha⟩)

theorem exec_strConfigWrite_host {s : State} {at_ off : Nat} {value : Word}
    (ho : off = Reg.strCtrl ∨ off = Reg.strPeriod ∨ off = Reg.strDomain) (ha : (s.advanceTo at_).admits .host off = true) :
    exec (.strConfigWrite at_ .host off value) s = .next ((s.advanceTo at_).setFld Fld.hostWrReject 1) :=
  congrArg Host.Outcome.next (if_pos ⟨ho, ha⟩)

/-! ## The stratum counter (R48) -/

theorem ofNat_high_half (n : BitVec 48) : BitVec.ofNat 16 (n.toNat / 2 ^ 32) = n.extractLsb' 32 16 :=
  BitVec.eq_of_toNat_eq (by rw [BitVec.toNat_ofNat, BitVec.extractLsb'_toNat, Nat.shiftRight_eq_div_pow])

/-- Halves put together. -/
theorem toNat_append_halves (h : BitVec 16) (l : Word) : (h.append l).toNat = h.toNat * 2 ^ 32 + l.toNat := by
  show (h ++ l).toNat = _
  rw [BitVec.toNat_append, ← Nat.shiftLeft_add_eq_or_of_lt l.isLt, Nat.shiftLeft_eq]

theorem ofNat_replace_high (n : BitVec 48) (v : Word) :
    BitVec.ofNat 48 (n.toNat % 2 ^ 32 + v.toNat % 2 ^ 16 * 2 ^ 32) = (v.setWidth 16).append (n.setWidth 32) := by
  apply BitVec.eq_of_toNat_eq
  rw [toNat_append_halves, BitVec.toNat_ofNat, BitVec.toNat_setWidth, BitVec.toNat_setWidth]
  omega

theorem ofNat_replace_low (n : BitVec 48) (v : Word) :
    BitVec.ofNat 48 (n.toNat / 2 ^ 32 * 2 ^ 32 + v.toNat) = (n.extractLsb' 32 16).append v := by
  apply BitVec.eq_of_toNat_eq
  rw [toNat_append_halves, BitVec.toNat_ofNat, BitVec.extractLsb'_toNat, Nat.shiftRight_eq_div_pow]
  omega

/-- A quarry with the latch of a party filled from its counter. -/
def Quarry.latch (b : Quarry) (party : Party) : Quarry :=
  match party with
  | .host => { b with latchHost := b.count.extractLsb' 32 16 }
  | .flint => { b with latchFlint := b.count.extractLsb' 32 16 }

theorem exec_strCountLoRead_of_admits {s : State} {party : Party} {q : Nat} (hq : q < quarryCount s.modeOf)
    (ha : s.admits party Reg.str = true) :
    exec (.strCountLoRead party q) s
      = .next { s.setQuarry q ((s.quarry q).latch party) with host := { s.host with readData := (s.quarry q).count.toNat % 2 ^ 32 } } := by
  refine congrArg Host.Outcome.next ?_
  have ht : s.hasTickRegs q = true := decide_eq_true hq
  rw [strCountLoRead, if_neg (by rw [ha]; decide), if_pos ht]
  dsimp only
  rw [ofNat_high_half]
  cases party
  · rfl
  · rfl

theorem exec_strCountWrite_flint {s : State} {q : Nat} (hq : q < quarryCount s.modeOf) (ha : s.admits .flint Reg.str = true) (hi : Bool)
    (v : Word) :
    exec (.strCountWrite .flint q hi v) s = .next (if s.flag Fld.run then s else s.setQuarry q { s.quarry q with
      count := if hi then (v.setWidth 16).append ((s.quarry q).count.setWidth 32) else ((s.quarry q).count.extractLsb' 32 16).append v }) := by
  refine congrArg Host.Outcome.next ((if_pos ⟨decide_eq_true hq, ha⟩).trans ?_)
  cases hi
  · rw [← ofNat_replace_low]
    rfl
  · rw [← ofNat_replace_high]
    rfl

/-- Settles O17: a write of the set-up is one case of `strWrite`, whose refusal quarry 0 tells (log entry 163); the counter is put
together from its halves. -/
theorem strataRegisters : Obligations.StrataRegisters := by
  refine ⟨fun s at_ value => ⟨fun ha h => ?_, fun off ho ha => exec_strConfigWrite_host ho ha, fun ha h => ?_,
    fun v hv ha hw hf hb => ?_⟩, fun s q hq => ⟨fun ha => ?_, fun ha => ?_, fun ha hi v hr => ?_, fun ha hi v hr => ?_⟩⟩
  · rw [exec_strConfigWrite_flint (.inr (.inl rfl)) ha, State.strWrite_period_out_of_range h]
  · rw [exec_strConfigWrite_flint (.inl rfl) ha, State.strWrite_ctrl_no_limit h]
  · subst hv
    rw [exec_strConfigWrite_flint (.inr (.inl rfl)) ha, State.strWrite_period_ok hw hf hb]
  · exact ⟨_, exec_strCountLoRead_of_admits hq ha, rfl, rfl, rfl, rfl, rfl⟩
  · exact ⟨_, exec_strCountLoRead_of_admits hq ha, rfl, rfl, rfl, rfl, rfl⟩
  · rw [exec_strCountWrite_flint hq ha, hr]
    rfl
  · rw [exec_strCountWrite_flint hq ha, hr]
    rfl

end Sys2Proof.Machine

namespace Sys2Proof.Machine

/-! ## Loop counters (R66) -/

theorem loopCount_zero (trips : BitVec 32) : loopCount 0 trips = trips - 1 := if_pos rfl

theorem loopCount_of_ne_zero {c : BitVec 32} (h : c ≠ 0) (trips : BitVec 32) : loopCount c trips = c - 1 := if_neg h

theorem sub_ofNat_eq_zero_iff {n : BitVec 32} {k : Nat} (h : k ≤ n.toNat) : n - BitVec.ofNat 32 k = 0 ↔ k = n.toNat := by
  have hn := n.isLt
  have hk : (BitVec.ofNat 32 k).toNat = k := by
    rw [BitVec.toNat_ofNat, Nat.mod_eq_of_lt (by omega)]
  have hs : (n - BitVec.ofNat 32 k).toNat = n.toNat - k := by
    rw [BitVec.toNat_sub_of_le (BitVec.le_def.2 (by rw [hk]; exact h)), hk]
  have h0 : (0 : BitVec 32).toNat = 0 := rfl
  rw [← BitVec.toNat_inj, hs, h0]
  omega

/-- Before its last trip a counter that began at 0 is not 0, so each further trip takes one from it. -/
theorem repeat_loopCount (trips : BitVec 32) (k : Nat) (h : k < trips.toNat) :
    Nat.repeat (fun c => loopCount c trips) (k + 1) 0 = trips - BitVec.ofNat 32 (k + 1) := by
  induction k with
  | zero => exact loopCount_zero trips
  | succ k ih =>
    have hne : trips - BitVec.ofNat 32 (k + 1) ≠ 0 := fun e => Nat.ne_of_lt h ((sub_ofNat_eq_zero_iff (Nat.le_of_lt h)).1 e)
    rw [Nat.repeat, ih (Nat.lt_of_succ_lt h), loopCount_of_ne_zero hne]
    bv_omega

/-- Settles O18: the counter after k trips is trips − k, which is 0 at the last trip alone (R63, R66). -/
theorem loopRunsTrips : Obligations.LoopRunsTrips := by
  intro trips _ k h1 hk
  obtain ⟨j, rfl⟩ := Nat.exists_eq_add_of_le' h1
  rw [repeat_loopCount trips j hk]
  exact ⟨rfl, sub_ofNat_eq_zero_iff hk⟩

end Sys2Proof.Machine

namespace Sys2Proof.Machine

/-! ## Byte memories (R52, R187, R208) -/

/-- Bytes stored one after the other from an address on. -/
def storeFrom (set : State → Nat → Byte → State) : State → Nat → List Byte → State
  | s, _, [] => s
  | s, a, b :: r => storeFrom set (set s a b) (a + 1) r

/-- What each store in the range leaves alone, all of them do. -/
theorem storeFrom_frame {α : Type} {set : State → Nat → Byte → State} {f : State → α} {l : List Byte} {s : State} {a : Nat}
    (h : ∀ t x b, a ≤ x → x < a + l.length → f (set t x b) = f t) : f (storeFrom set s a l) = f s := by
  induction l generalizing s a with
  | nil => rfl
  | cons b r ih =>
    rw [List.length_cons] at h
    rw [storeFrom, ih fun t x c h1 h2 => h t x c (by omega) (by omega), h s a b (by omega) (by omega)]

/-- A memory of `n` bytes in the state: a byte reads back and leaves every other one alone, and the memories stay in canonical
form. -/
structure ByteMemory (get : State → Nat → Byte) (set : State → Nat → Byte → State) (n : Nat) : Prop where
  same : ∀ s a b, Memory.wf s.mem = true → get (set s a b) a = b
  other : ∀ s a c b, a < n → c < n → c ≠ a → get (set s a b) c = get s c
  wf : ∀ s a b, Memory.wf s.mem = true → Memory.wf (set s a b).mem = true

section
variable {get : State → Nat → Byte} {set : State → Nat → Byte → State} {n : Nat} {l : List Byte} {s : State} {a : Nat}

theorem ByteMemory.get_storeFrom_of_outside (hm : ByteMemory get set n) (ha : a + l.length ≤ n) {c : Nat} (hc : c < n)
    (h : c < a ∨ a + l.length ≤ c) : get (storeFrom set s a l) c = get s c :=
  storeFrom_frame (f := fun t => get t c) fun t x b h1 h2 => hm.other t x c b (by omega) hc (by omega)

theorem ByteMemory.wf_storeFrom (hm : ByteMemory get set n) (hs : Memory.wf s.mem = true) :
    Memory.wf (storeFrom set s a l).mem = true := by
  induction l generalizing s a with
  | nil => exact hs
  | cons b r ih => exact ih (hm.wf s a b hs)

theorem ByteMemory.get_storeFrom (hm : ByteMemory get set n) (hs : Memory.wf s.mem = true) (ha : a + l.length ≤ n) {i : Nat}
    (hi : i < l.length) : get (storeFrom set s a l) (a + i) = l.getD i 0 := by
  induction l generalizing s a i with
  | nil => exact absurd hi (Nat.not_lt_zero i)
  | cons b r ih =>
    rw [List.length_cons] at ha hi
    rw [storeFrom]
    cases i with
    | zero =>
      rw [hm.get_storeFrom_of_outside (by omega) (by omega) (by omega), Nat.add_zero, hm.same s a b hs]
      rfl
    | succ i =>
      have e : a + (i + 1) = a + 1 + i := by omega
      rw [e]
      exact ih (hm.wf s a b hs) (by omega) (by omega)

theorem ByteMemory.map_storeFrom (hm : ByteMemory get set n) (hs : Memory.wf s.mem = true) (ha : a + l.length ≤ n) :
    ((List.range l.length).map fun i => get (storeFrom set s a l) (a + i)) = l := by
  refine List.ext_getElem (by simp) fun i h1 h2 => ?_
  rw [List.getElem_map, List.getElem_range, hm.get_storeFrom hs ha h2, List.getD_eq_getElem?_getD,
    List.getElem?_eq_getElem h2, Option.getD_some]

end

theorem State.putPhys_eq (s : State) (a : Nat) (l : List Byte) : s.putPhys a l = storeFrom State.setPhysByte s a l := by
  induction l generalizing s a with
  | nil => rfl
  | cons b r ih => exact ih ..

theorem State.putLs_eq (s : State) (core a : Nat) (l : List Byte) :
    s.putLs core a l = storeFrom (fun t => t.setLsByte core) s a l := by
  induction l generalizing s a with
  | nil => rfl
  | cons b r ih => exact ih ..

theorem State.putHost_eq (s : State) (a : Nat) (l : List Byte) : s.putHost a l = storeFrom State.setHostByte s a l := by
  induction l generalizing s a with
  | nil => rfl
  | cons b r ih => exact ih ..

theorem foldl_setStatByte_eq (s : State) (core k j : Nat) (l : List Byte) :
    (List.zip (List.range' j l.length) l).foldl (fun t (e : Nat × Byte) => t.setStatByte core (16 * k + e.1) e.2) s
      = storeFrom (fun t => t.setStatByte core) s (16 * k + j) l := by
  induction l generalizing s j with
  | nil => rfl
  | cons b r ih => exact ih _ (j + 1)

theorem State.putStat_eq (s : State) (core k : Nat) {l : List Byte} (hl : l.length = 16) :
    s.putStat core k l = storeFrom (fun t => t.setStatByte core) s (16 * k) l := by
  rw [← Nat.add_zero (16 * k), ← foldl_setStatByte_eq, hl, ← List.range_eq_range']
  rfl

/-- No two addresses share a cell: those of the firmware areas are kept apart from every other one, and each in its slice
(R208, R212). -/
theorem State.cellKey_inj (s : State) {a b : Nat} (ha : a < 2 ^ 52) (hb : b < 2 ^ 52) (h : s.cellKey a = s.cellKey b) : a = b := by
  unfold State.cellKey State.firmwareOff gib sliceSpan at h
  split at h <;> split at h <;> omega

theorem physMemory : ByteMemory State.physByte State.setPhysByte (2 ^ 52) where
  same _ a b hs := State.physByte_setPhysByte_same hs a b
  other s _ _ b ha hc h := State.physByte_setPhysByte_ne s b fun e => h (s.cellKey_inj hc ha e)
  wf _ a b hs := State.setPhysByte_wf a b hs

theorem localStore (core : Nat) : ByteMemory (fun s => s.lsByte core) (fun s => s.setLsByte core) (2 ^ 21) where
  same _ a b hs := State.lsByte_setLsByte_same hs core a b
  other s a c b ha hc h := State.lsByte_setLsByte_ne s b (.inr (by omega))
  wf _ a b hs := State.setLsByte_wf core a b hs

theorem hostMemory : ByteMemory State.hostByte State.setHostByte (2 ^ 64) where
  same _ a b hs := State.hostByte_setHostByte_same hs a b
  other s a c b ha hc h := State.hostByte_setHostByte_ne s b (by omega)
  wf _ a b hs := State.setHostByte_wf a b hs

theorem State.statByte_setStatByte_ne (s : State) {core off core' off' : Nat} (b : Byte)
    (h : core' ≠ core ∨ off' % 2 ^ 18 ≠ off % 2 ^ 18) : (s.setStatByte core off b).statByte core' off' = s.statByte core' off' := by
  refine SMap.get_put_of_ne ?_
  have h1 := Nat.mod_lt off (Nat.two_pow_pos 18)
  have h2 := Nat.mod_lt off' (Nat.two_pow_pos 18)
  omega

theorem statMemory (core : Nat) : ByteMemory (fun s => s.statByte core) (fun s => s.setStatByte core) (2 ^ 18) where
  same _ _ _ hs := SMap.get_put_same (Memory.wf_iff.1 hs).stat
  other s a c b ha hc h := State.statByte_setStatByte_ne s b (.inr (by omega))
  wf _ a b hs := State.setStatByte_wf core a b hs

theorem State.acc_setAcc_same {s : State} (h : Memory.wf s.mem = true) (core slot i j : Nat) (v : BitVec 40) :
    (s.setAcc core slot i j v).acc core slot i j = v := SMap.get_put_same (Memory.wf_iff.1 h).acc

theorem State.acc_setAcc_ne (s : State) {core slot i j c k a b : Nat} (v : BitVec 40) (hs : slot < 128) (hi : i < 32) (hj : j < 32)
    (hk : k < 128) (ha : a < 32) (hb : b < 32) (h : c ≠ core ∨ k ≠ slot ∨ a ≠ i ∨ b ≠ j) :
    (s.setAcc core slot i j v).acc c k a b = s.acc c k a b :=
  SMap.get_put_of_ne (by omega)

theorem State.physBytes_putPhys {s : State} (h : Memory.wf s.mem = true) {a : Nat} {l : List Byte} (ha : a + l.length ≤ 2 ^ 52) :
    (s.putPhys a l).physBytes a l.length = l := by
  rw [State.putPhys_eq]
  exact physMemory.map_storeFrom h ha

theorem State.hostBytes_putHost {s : State} (h : Memory.wf s.mem = true) {a : Nat} {l : List Byte} (ha : a + l.length ≤ 2 ^ 64) :
    (s.putHost a l).hostBytes a l.length = l := by
  rw [State.putHost_eq]
  exact hostMemory.map_storeFrom h ha

theorem State.statBytes_putStat {s : State} (h : Memory.wf s.mem = true) (core : Nat) {k : Nat} (hk : k < 16384) {l : List Byte}
    (hl : l.length = 16) : (s.putStat core k l).statBytes core k = l := by
  have hr := (statMemory core).map_storeFrom (a := 16 * k) (l := l) h (by omega)
  rw [hl] at hr
  rw [State.putStat_eq _ _ _ hl]
  exact hr

theorem State.lsByte_putLs_ne (s : State) {l : List Byte} {core a c b : Nat} (ha : a + l.length ≤ 2 ^ 21) (hb : b < 2 ^ 21)
    (h : c ≠ core ∨ b < a ∨ a + l.length ≤ b) : (s.putLs core a l).lsByte c b = s.lsByte c b := by
  rw [State.putLs_eq]
  exact storeFrom_frame (f := fun t => t.lsByte c b) fun t x v h1 h2 => State.lsByte_setLsByte_ne t v (by omega)

theorem State.statBytes_putStat_ne (s : State) {l : List Byte} {core k c n : Nat} (hl : l.length = 16) (hk : k < 16384)
    (hn : n < 16384) (h : c ≠ core ∨ n ≠ k) : (s.putStat core k l).statBytes c n = s.statBytes c n := by
  rw [State.putStat_eq _ _ _ hl]
  refine storeFrom_frame (f := fun t => t.statBytes c n) fun t x v h1 h2 => List.map_congr_left fun i hi => ?_
  have hi := List.mem_range.1 hi
  exact State.statByte_setStatByte_ne t v (by omega)

theorem State.putPhys_frame (s : State) (a : Nat) (l : List Byte) :
    (s.putPhys a l).regs = s.regs ∧ (s.putPhys a l).core = s.core ∧ (s.putPhys a l).mem.host = s.mem.host := by
  rw [State.putPhys_eq]
  exact ⟨storeFrom_frame (f := State.regs) fun _ _ _ _ _ => rfl, storeFrom_frame (f := State.core) fun _ _ _ _ _ => rfl,
    storeFrom_frame (f := fun t => t.mem.host) fun _ _ _ _ _ => rfl⟩

theorem State.putLs_frame (s : State) (core a : Nat) (l : List Byte) :
    (s.putLs core a l).regs = s.regs ∧ (s.putLs core a l).core = s.core := by
  rw [State.putLs_eq]
  exact ⟨storeFrom_frame (f := State.regs) fun _ _ _ _ _ => rfl, storeFrom_frame (f := State.core) fun _ _ _ _ _ => rfl⟩

theorem State.putHost_frame (s : State) (a : Nat) (l : List Byte) :
    (s.putHost a l).regs = s.regs ∧ (s.putHost a l).core = s.core := by
  rw [State.putHost_eq]
  exact ⟨storeFrom_frame (f := State.regs) fun _ _ _ _ _ => rfl, storeFrom_frame (f := State.core) fun _ _ _ _ _ => rfl⟩

theorem State.putStat_frame (s : State) (core k : Nat) {l : List Byte} (hl : l.length = 16) :
    (s.putStat core k l).mem = { s.mem with stat := (s.putStat core k l).mem.stat } ∧ (s.putStat core k l).regs = s.regs
      ∧ (s.putStat core k l).core = s.core := by
  rw [State.putStat_eq _ _ _ hl]
  refine ⟨?_, storeFrom_frame (f := State.regs) fun _ _ _ _ _ => rfl, storeFrom_frame (f := State.core) fun _ _ _ _ _ => rfl⟩
  have h := storeFrom_frame (set := fun t => t.setStatByte core) (f := fun t => { t.mem with stat := [] }) (s := s) (a := 16 * k)
    (l := l) fun _ _ _ _ _ => rfl
  exact congrArg (fun m : MemSt => { m with stat := (storeFrom (fun t => t.setStatByte core) s (16 * k) l).mem.stat }) h

/-- Settles O29: each memory is a `ByteMemory`, or a map of accumulators whose keys do not meet. -/
theorem memoriesReadBack : Obligations.MemoriesReadBack := by
  refine ⟨fun s l a hs ha => ?_, ⟨fun s l core a hs ha => ?_, fun s l a hs ha => ?_⟩,
    fun s core slot i j v hs hslot hi hj => ?_, fun s core k l hs hk hl => ?_⟩
  · refine ⟨State.physBytes_putPhys hs.mem ha, fun b hb h => ?_, State.putPhys_wf a l hs.mem, s.putPhys_frame a l⟩
    rw [State.putPhys_eq]
    exact physMemory.get_storeFrom_of_outside ha hb h
  · refine ⟨fun i hi => ?_, fun c b hb h => s.lsByte_putLs_ne ha hb h, State.putLs_wf core a l hs.mem, s.putLs_frame core a l⟩
    rw [State.putLs_eq]
    exact (localStore core).get_storeFrom hs.mem ha hi
  · refine ⟨State.hostBytes_putHost hs.mem ha, fun b hb h => ?_, State.putHost_wf a l hs.mem, s.putHost_frame a l⟩
    rw [State.putHost_eq]
    exact hostMemory.get_storeFrom_of_outside ha hb h
  · exact ⟨State.acc_setAcc_same hs.mem core slot i j v, fun c k a b hk ha hb h => s.acc_setAcc_ne v hslot hi hj hk ha hb h,
      State.setAcc_wf core slot i j v hs.mem, rfl, rfl, rfl⟩
  · exact ⟨State.statBytes_putStat hs.mem core hk hl, fun c n hn h => s.statBytes_putStat_ne hl hk hn h,
      State.putStat_wf core k l hs.mem, s.putStat_frame core k hl⟩

end Sys2Proof.Machine

namespace Sys2Proof.Machine

/-! ## Semaphores and streams read back (R53, R67) -/

theorem State.sem_setSem_same (s : State) (k : Nat) {v : Sem} (h : v.valid = true) : (s.setSem k v).sem k = v :=
  SMap.get_put_of_ne_default fun e => Bool.noConfusion (h.symm.trans (congrArg Sem.valid e))

theorem State.sem_setSem_ne (s : State) {k j : Nat} (v : Sem) (h : j ≠ k) : (s.setSem k v).sem j = s.sem j := SMap.get_put_of_ne h

theorem State.stream_setStream_same (s : State) (c n : Nat) {v : Stream} (h : v.state ≠ .unbound) :
    (s.setStream c n v).stream c n = v := SMap.get_put_of_ne_default fun e => h (congrArg Stream.state e)

theorem State.stream_setStream_ne (s : State) {c n c' n' : Nat} (v : Stream) (h : 64 * c' + n' ≠ 64 * c + n) :
    (s.setStream c n v).stream c' n' = s.stream c' n' := SMap.get_put_of_ne h

theorem State.mapStreams_only (s : State) (f : Nat → Stream → Stream) :
    ∃ m, s.mapStreams f = { s with core := { s.core with streams := m } } := by
  unfold State.mapStreams
  generalize s.core.streams.keys = l
  induction l generalizing s with
  | nil => exact ⟨s.core.streams, rfl⟩
  | cons k r ih => exact ih (s.setStream (k / 64) (k % 64) _)

/-- What a change of all streams keeps of a bound stream holds of it afterwards. -/
theorem State.mapStreams_stream {P : Stream → Prop} {f : Nat → Stream → Stream} (hb : ∀ v, P v → v.state ≠ .unbound)
    (hf : ∀ k v, P v → P (f k v)) {s : State} {c n : Nat} (h : P (s.stream c n)) : P ((s.mapStreams f).stream c n) := by
  unfold State.mapStreams
  generalize s.core.streams.keys = l
  induction l generalizing s with
  | nil => exact h
  | cons k r ih =>
    refine ih (s := s.setStream (k / 64) (k % 64) _) ?_
    by_cases hk : 64 * c + n = 64 * (k / 64) + k % 64
    · have hs (t : State) : t.stream c n = t.stream (k / 64) (k % 64) := congrArg (SMap.get (fun _ => ({} : Stream)) t.core.streams) hk
      rw [hs] at h ⊢
      rw [State.stream_setStream_same _ _ _ (hb _ (hf k _ h))]
      exact hf k _ h
    · rw [State.stream_setStream_ne _ _ hk]
      exact h

/-- Sensing changes of a bound stream only whether its wait is met and since when it is ready. -/
theorem State.senseWaits_stream (s : State) (key : Nat) {c n : Nat} (h : (s.stream c n).state ≠ .unbound) :
    ∃ m r, (s.senseWaits key).stream c n = { s.stream c n with met := m, readyAt := r } := by
  refine State.mapStreams_stream (P := fun v => ∃ m r, v = { s.stream c n with met := m, readyAt := r }) ?_ ?_ ⟨_, _, rfl⟩
  · rintro _ ⟨_, _, rfl⟩
    exact h
  · rintro k _ ⟨m, r, rfl⟩
    dsimp only
    split
    · exact ⟨_, _, rfl⟩
    · exact ⟨_, _, rfl⟩

theorem State.senseWaits_sem (s : State) (key k : Nat) : (s.senseWaits key).sem k = s.sem k := by
  obtain ⟨m, h⟩ := s.mapStreams_only _
  rw [State.senseWaits, h]
  rfl

/-! ## Waits and signals (R70, R71) -/

/-- A new value of a valid semaphore reads back, and no other semaphore changes. -/
theorem State.setSem_value {s : State} {k : Nat} (h : (s.sem k).valid = true) (v : BitVec 32) :
    ((s.setSem k { s.sem k with value := v }).sem k).value = v
      ∧ ∀ j, j ≠ k → (s.setSem k { s.sem k with value := v }).sem j = s.sem j :=
  ⟨congrArg Sem.value (State.sem_setSem_same s k (v := { s.sem k with value := v }) h), fun _ hj => State.sem_setSem_ne s _ hj⟩

theorem State.semSet_value {s : State} {k v : Nat} (h : (s.sem k).valid = true) (hv : v < 2 ^ 32) :
    ((s.semSet k v).sem k).value.toNat = v ∧ ∀ j, j ≠ k → (s.semSet k v).sem j = s.sem j := by
  obtain ⟨hk, hj⟩ := State.setSem_value h (BitVec.ofNat 32 v)
  refine ⟨?_, hj⟩
  rw [State.semSet, hk, BitVec.toNat_ofNat, Nat.mod_eq_of_lt hv]

theorem State.semAdd_value {s : State} {k : Nat} (h : (s.sem k).valid = true) (v : Nat) :
    ((s.semAdd k v).1.sem k).value.toNat = min ((s.sem k).value.toNat + v) (2 ^ 32 - 1)
      ∧ (s.semAdd k v).2 = decide (2 ^ 32 ≤ (s.sem k).value.toNat + v) ∧ ∀ j, j ≠ k → (s.semAdd k v).1.sem j = s.sem j := by
  unfold State.semAdd
  dsimp only
  split
  case isTrue hn =>
    obtain ⟨hk, hj⟩ := State.semSet_value h hn
    exact ⟨hk.trans (by omega), (decide_eq_false (by omega)).symm, hj⟩
  case isFalse hn =>
    obtain ⟨hk, hj⟩ := State.semSet_value h (v := 2 ^ 32 - 1) (by omega)
    exact ⟨hk.trans (by omega), (decide_eq_true (by omega)).symm, hj⟩

theorem Sem.permits_of_valid {m : Sem} (h : m.valid = true) (c : Nat) : m.permits c = (m.owner == c || m.share.getLsbD c) := by
  rw [Sem.permits, h, Bool.true_and]

theorem dWaitVal_lt (d : Nat) : dWaitVal d < 2 ^ 16 := bits_lt _ _ _

theorem State.waitMet_iff {s : State} {core d : Nat} (h : dWaitEn d = true) :
    s.waitMet core d = true ↔ dWaitVal d ≤ (s.sem (semKey core (dWaitSem d))).value.toNat := by
  rw [State.waitMet, h]
  exact decide_eq_true_iff

theorem State.takeWait_of_consume (s : State) (core : Nat) {d : Nat} (he : dWaitEn d = true) (hc : dConsume d = true) :
    s.takeWait core d = (s.setSem (semKey core (dWaitSem d)) { s.sem (semKey core (dWaitSem d)) with
      value := (s.sem (semKey core (dWaitSem d))).value - BitVec.ofNat 32 (dWaitVal d) }).senseWaits (semKey core (dWaitSem d)) :=
  if_pos (by rw [he, hc]; rfl)

theorem State.takeWait_of_keep (s : State) (core : Nat) {d : Nat} (h : (dWaitEn d && dConsume d) = false) : s.takeWait core d = s :=
  if_neg (by rw [h]; exact Bool.false_ne_true)

theorem State.takeWait_sem {s : State} {core d k : Nat} (hv : (s.sem k).valid = true) (hk : semKey core (dWaitSem d) = k)
    (he : dWaitEn d = true) (hm : dWaitVal d ≤ (s.sem k).value.toNat) :
    ((s.takeWait core d).sem k).value.toNat = (s.sem k).value.toNat - (if dConsume d then dWaitVal d else 0)
      ∧ ∀ j, j ≠ k → (s.takeWait core d).sem j = s.sem j := by
  cases hc : dConsume d with
  | false =>
    rw [State.takeWait_of_keep s core (by rw [hc, Bool.and_false])]
    exact ⟨rfl, fun _ _ => rfl⟩
  | true =>
    obtain ⟨hs, hj⟩ := State.setSem_value hv ((s.sem k).value - BitVec.ofNat 32 (dWaitVal d))
    have hw : (BitVec.ofNat 32 (dWaitVal d)).toNat = dWaitVal d := by
      have := dWaitVal_lt d
      rw [BitVec.toNat_ofNat, Nat.mod_eq_of_lt (by omega)]
    rw [State.takeWait_of_consume s core he hc, hk, State.senseWaits_sem, hs, if_pos rfl, BitVec.toNat_sub_of_le (by bv_omega), hw]
    exact ⟨rfl, fun j h => (State.senseWaits_sem ..).trans (hj j h)⟩

/-! ## Waking (R68, R70) -/

theorem State.rewait_eq (s : State) (k core : Nat) {n : Nat} (hn : n < 64) :
    s.rewait k (64 * core + n) = if (s.stream core n).state = .waiting ∧ (s.stream core n).waitFor = .sem k then
      if (s.sem k).permits (s.stream core n).ctx = false then s.ctxError (s.stream core n).ctx core 0x0204 (s.stream core n).head
      else if s.waitMet core (s.stream core n).head then s.wake core n else s
    else s := by
  have hc : (64 * core + n) / 64 = core := by omega
  have hr : (64 * core + n) % 64 = n := by omega
  rw [State.rewait, hc, hr]

theorem State.wake_ready (s : State) (core n : Nat) : ((s.wake core n).stream core n).state = .ready :=
  congrArg Stream.state (State.stream_setStream_same s core n (v := { s.stream core n with
    state := .ready, waitFor := .nothing, readyAt := s.now, met := true, donationSpent := false }) nofun)

/-- Settles O19: a valid semaphore reads back what is put into it, and a waiting stream that looks again meets one case of
`rewait`. -/
theorem semaphores : Obligations.Semaphores := by
  refine ⟨fun s k v hv => ⟨State.semAdd_value hv v, State.semSet_value hv, fun core d hk he hm => ?_, Sem.permits_of_valid hv⟩,
    fun s at_ k => ⟨rfl, rfl⟩, fun s k core n hn => ?_⟩
  · have hle := (State.waitMet_iff he).1 hm
    rw [hk] at hle
    obtain ⟨h1, h2⟩ := State.takeWait_sem hv hk he hle
    exact ⟨h1, hle, h2⟩
  · dsimp only
    rw [State.rewait_eq s k core hn]
    refine ⟨fun hs hw hp hm => ⟨?_, s.wake_ready core n⟩, fun hs hw hp hm => ?_, fun hs hw hp => ?_, fun hw => ?_⟩
    · rw [if_pos ⟨hs, hw⟩, if_neg (by rw [hp]; decide), if_pos hm]
    · rw [if_pos ⟨hs, hw⟩, if_neg (by rw [hp]; decide), if_neg (by rw [hm]; decide)]
    · rw [if_pos ⟨hs, hw⟩, if_pos hp]
    · rw [if_neg fun h => hw h.2]

end Sys2Proof.Machine

namespace Sys2Proof.Machine

/-! ## Computations of a unit: what they answer -/

/-- Whatever the computation answers, from whatever state, satisfies `P`. -/
def Answers {α : Type} (m : Exec α) (P : α → Prop) : Prop := ∀ s a t, m s = (.ok a, t) → P a

theorem Answers.of_pure {α : Type} {P : α → Prop} {a : α} (h : P a) : Answers (pure a : Exec α) P := by
  rintro s b t ⟨⟩
  exact h

theorem Exec.bind_eq_ok {α β : Type} {m : Exec α} {f : α → Exec β} {s t : State} {b : β} (h : (m >>= f) s = (.ok b, t)) :
    ∃ a u, m s = (.ok a, u) ∧ f a u = (.ok b, t) := by
  change ExceptT.bindCont f (m s).1 (m s).2 = _ at h
  match hm : m s with
  | (.ok a, u) =>
    rw [hm] at h
    exact ⟨a, u, rfl, h⟩
  | (.error e, u) =>
    rw [hm] at h
    cases h

theorem Answers.bind {α β : Type} {m : Exec α} {f : α → Exec β} {P : α → Prop} {Q : β → Prop} (h : Answers m P)
    (hf : ∀ a, P a → Answers (f a) Q) : Answers (m >>= f) Q := by
  intro s b t e
  obtain ⟨a, u, ha, hb⟩ := Exec.bind_eq_ok e
  exact hf a (h s a u ha) u b t hb

theorem answers_true {α : Type} (m : Exec α) : Answers m fun _ => True := fun _ _ _ _ => trivial

theorem Answers.cons_length {α : Type} {m : Exec (List α)} {k : Nat} (h : Answers m fun l => l.length ≤ k) (a : α) :
    Answers (do pure (a :: (← m))) fun l => l.length ≤ k + 1 :=
  h.bind fun _ hl => Answers.of_pure (Nat.succ_le_succ hl)

/-! ## Issue (R52, R54, R64) -/

theorem prefetch_length (core c : Nat) (st : Stream) (k pc : Nat) : Answers (prefetch core c st k pc) fun l => l.length ≤ k := by
  induction k generalizing pc with
  | zero => exact Answers.of_pure (Nat.le_refl 0)
  | succ k ih =>
    unfold prefetch
    split
    · split
      · exact (ih _).cons_length _
      · intro s l t e
        dsimp only at e
        split at e
        · exact (ih (pc + 64)).cons_length _ _ _ _ e
        · cases e
          exact Nat.zero_le _
    · exact Answers.of_pure (Nat.zero_le _)

/-- The descriptor that stands in the buffer at a program counter of the program is the first one prefetched from there. -/
theorem prefetch_of_buffered (core c : Nat) {st : Stream} {pc : Nat} (hp : st.progBase ≤ pc ∧ pc < st.progBase + 64 * st.progLen)
    {e : Nat × Nat} (he : (st.buffer.find? fun e => e.1 == pc) = some e) (k : Nat) :
    prefetch core c st (k + 1) pc = (do pure (e :: (← prefetch core c st k (pc + 64)))) := by
  rw [prefetch, if_pos (by rw [decide_eq_true hp.1, decide_eq_true hp.2]; rfl), he]

theorem Stream.inProgram_iff {st : Stream} : st.inProgram = true ↔ st.progBase ≤ st.pc ∧ st.pc < st.progBase + 64 * st.progLen := by
  rw [Stream.inProgram, Bool.and_eq_true, decide_eq_true_iff, decide_eq_true_iff]

theorem fetchHead_of_buffered (core : Nat) {st : Stream} {e : Nat × Nat} (he : (st.buffer.find? fun e => e.1 == st.pc) = some e) :
    fetchHead core st = (do pure (e.2, ← prefetch core st.ctx st 4 st.pc)) := by rw [fetchHead, he]

theorem fetchHead_of_not_buffered (core : Nat) {st : Stream} (he : (st.buffer.find? fun e => e.1 == st.pc) = none) :
    fetchHead core st = (do
      let r ← readCopy core st.ctx ⟨true, st.pc⟩ 64
      let rest ← prefetch core st.ctx st 3 (st.pc + 64)
      pure (leNat r.1, (st.pc, leNat r.1) :: rest)) := by rw [fetchHead, he]

/-- The head that is fetched stands in the buffer of at most four descriptors, and is the one that stood there before. -/
theorem fetchHead_answers (core : Nat) {st : Stream} (hp : st.inProgram = true) : Answers (fetchHead core st) fun r =>
    (st.pc, r.1) ∈ r.2 ∧ r.2.length ≤ 4 ∧ ∀ x, (st.buffer.find? fun e => e.1 == st.pc) = some x → r.1 = x.2 := by
  cases he : st.buffer.find? fun e => e.1 == st.pc with
  | some e =>
    have hpc : e.1 = st.pc := eq_of_beq (List.find?_some (p := fun e : Nat × Nat => e.1 == st.pc) he)
    rw [fetchHead_of_buffered core he, prefetch_of_buffered core st.ctx (Stream.inProgram_iff.1 hp) he 3]
    refine Answers.bind (P := fun l => (st.pc, e.2) ∈ l ∧ l.length ≤ 4)
      ((prefetch_length core st.ctx st 3 (st.pc + 64)).bind fun l hl => Answers.of_pure ?_) fun l hl => Answers.of_pure ?_
    · exact ⟨hpc ▸ List.mem_cons_self, Nat.succ_le_succ hl⟩
    · exact ⟨hl.1, hl.2, fun x hx => congrArg Prod.snd (Option.some.inj hx)⟩
  | none =>
    rw [fetchHead_of_not_buffered core he]
    refine (answers_true _).bind fun r _ => (prefetch_length core st.ctx st 3 (st.pc + 64)).bind fun l hl => Answers.of_pure ?_
    exact ⟨List.mem_cons_self, Nat.succ_le_succ hl, nofun⟩

section
variable {s : State} {at_ core n : Nat}

theorem exec_descriptorIssue_of_outside (hi : (s.advanceTo at_).mayIssue core n = true)
    (hp : ((s.advanceTo at_).stream core n).inProgram = false) :
    exec (.descriptorIssue at_ core n) s
      = .next ((s.advanceTo at_).ctxError ((s.advanceTo at_).stream core n).ctx core 0x0206 0) := by
  refine congrArg Host.Outcome.next ?_
  rw [descriptorIssue, if_pos hi, if_pos hp]

theorem exec_descriptorIssue_of_checked (hi : (s.advanceTo at_).mayIssue core n = true)
    (hp : ((s.advanceTo at_).stream core n).inProgram = true) {d : Nat} {buffer : List (Nat × Nat)} {v : State}
    (hf : (fetchHead core ((s.advanceTo at_).stream core n)) (s.advanceTo at_) = (.ok (d, buffer), v))
    (hc : v.descCheck core ((s.advanceTo at_).stream core n).ctx d = none) :
    exec (.descriptorIssue at_ core n) s = .next (v.setStream core n { (s.advanceTo at_).stream core n with
      issued := true, head := d, buffer := buffer, met := v.waitMet core d }) := by
  refine congrArg Host.Outcome.next ?_
  rw [descriptorIssue, if_pos hi, if_neg (by rw [hp]; decide), hf]
  dsimp only
  rw [hc]

theorem exec_descriptorIssue_of_rejected (hi : (s.advanceTo at_).mayIssue core n = true)
    (hp : ((s.advanceTo at_).stream core n).inProgram = true) {d : Nat} {buffer : List (Nat × Nat)} {v : State}
    (hf : (fetchHead core ((s.advanceTo at_).stream core n)) (s.advanceTo at_) = (.ok (d, buffer), v)) {code : Nat}
    (hc : v.descCheck core ((s.advanceTo at_).stream core n).ctx d = some code) :
    exec (.descriptorIssue at_ core n) s = .next (v.ctxError ((s.advanceTo at_).stream core n).ctx core code d) := by
  refine congrArg Host.Outcome.next ?_
  rw [descriptorIssue, if_pos hi, if_neg (by rw [hp]; decide), hf]
  dsimp only
  rw [hc]

theorem exec_descriptorIssue_of_fault (hi : (s.advanceTo at_).mayIssue core n = true)
    (hp : ((s.advanceTo at_).stream core n).inProgram = true) {code phys : Nat} {v : State}
    (hf : (fetchHead core ((s.advanceTo at_).stream core n)) (s.advanceTo at_) = (.error (.fault code phys), v)) :
    exec (.descriptorIssue at_ core n) s
      = .next (v.raiseCtx { code := code, core := some core, phys := phys } ((s.advanceTo at_).stream core n).ctx) := by
  refine congrArg Host.Outcome.next ?_
  rw [descriptorIssue, if_pos hi, if_neg (by rw [hp]; decide), hf]

/-! ## Queues (R70, R74) -/

theorem State.headReady_ready (h : s.headReady core n = true) : (s.stream core n).state = .ready := by
  simp only [State.headReady, Bool.and_eq_true, beq_iff_eq] at h
  exact h.1.1.1.1

theorem not_forbidden {waits permits : Bool} (h : waits = true → permits = true) : ¬(waits && !permits) = true := by
  cases waits with
  | false => exact Bool.false_ne_true
  | true => rw [h rfl]; decide

/-- What admission does with a head that is ready for a queue. -/
theorem exec_queueAdmission_of_ready (hr : (s.advanceTo at_).headReady core n = true)
    (hc : dClass ((s.advanceTo at_).stream core n).head = 5 ∨ dClass ((s.advanceTo at_).stream core n).head = 6
      ∨ dClass ((s.advanceTo at_).stream core n).head = 8) :
    let u := s.advanceTo at_
    let st := u.stream core n
    exec (.queueAdmission at_ core n) s = .next (if u.queueRoom core (dClass st.head) = false then
        u.setStream core n { st with state := .waiting, waitFor := .queue }
      else if dWaitEn st.head && !(u.sem (semKey core (dWaitSem st.head))).permits st.ctx then u.ctxError st.ctx core 0x0204 st.head
      else if u.waitMet core st.head then
        if u.outranked core n then u else ((u.takeWait core st.head).enqueue core n).goOn core n
      else u.waitOn core n (semKey core (dWaitSem st.head))) := by
  refine congrArg Host.Outcome.next ?_
  have hw : ¬(((s.advanceTo at_).stream core n).state = .waiting ∧ ((s.advanceTo at_).stream core n).waitFor = .queue
      ∧ (s.advanceTo at_).queueRoom core (dClass ((s.advanceTo at_).stream core n).head) = true) := by
    rw [State.headReady_ready hr]
    exact fun h => nomatch h.1
  have hq : [5, 6, 8].contains (dClass ((s.advanceTo at_).stream core n).head) = true := by
    rcases hc with h | h | h <;> rw [h] <;> rfl
  rw [queueAdmission]
  simp only [if_neg hw]
  exact if_pos ⟨hr, hq⟩

end

theorem State.takeWait_only (s : State) (core d : Nat) :
    ∃ m k, s.takeWait core d = { s with core := { s.core with streams := m, sems := k } } := by
  unfold State.takeWait
  split
  · obtain ⟨m, h⟩ := (s.setSem (semKey core (dWaitSem d)) { s.sem (semKey core (dWaitSem d)) with
      value := (s.sem (semKey core (dWaitSem d))).value - BitVec.ofNat 32 (dWaitVal d) }).mapStreams_only _
    exact ⟨m, _, h⟩
  · exact ⟨_, _, rfl⟩

theorem State.takeWait_stream (s : State) (core d : Nat) {c n : Nat} (h : (s.stream c n).state ≠ .unbound) :
    ∃ m r, (s.takeWait core d).stream c n = { s.stream c n with met := m, readyAt := r } := by
  unfold State.takeWait
  split
  · exact State.senseWaits_stream (s.setSem _ _) _ h
  · exact ⟨_, _, rfl⟩

/-- The entry that the head of a stream becomes in its queue. -/
def State.queueEntry (s : State) (core n : Nat) : QEntry :=
  { core := core, id := s.core.nextId, stream := n, ctx := (s.stream core n).ctx, desc := (s.stream core n).head
    ticks := s.ticksOf (s.stream core n).ctx, startCount := s.countOf (s.stream core n).ctx }

theorem State.enqueue_dmaq {s : State} {core n : Nat} (h : dClass (s.stream core n).head = 5) :
    (s.enqueue core n).core.dmaq = s.core.dmaq ++ [s.queueEntry core n] := by
  rw [State.enqueue, h]
  rfl

theorem State.enqueue_hubq {s : State} {core n : Nat} (h : dClass (s.stream core n).head = 6) :
    (s.enqueue core n).core.hubq = s.core.hubq ++ [s.queueEntry core n] := by
  rw [State.enqueue, h]
  rfl

theorem State.enqueue_wsq {s : State} {core n : Nat} (h : dClass (s.stream core n).head = 8) :
    (s.enqueue core n).core.wsq = s.core.wsq ++ [s.queueEntry core n] := by
  rw [State.enqueue, h]
  rfl

/-- An admitted head stands at the back of the queue of its class: taking its wait has moved no entry and changed nothing that the
entry holds. -/
theorem State.admitted_at_back {s : State} {core n : Nat} (hb : (s.stream core n).state ≠ .unbound) :
    let st := s.stream core n
    let v := s.takeWait core st.head
    let q : QEntry := { core := core, id := v.core.nextId, stream := n, ctx := st.ctx, desc := st.head
                        ticks := v.ticksOf st.ctx, startCount := v.countOf st.ctx }
    let w := (v.enqueue core n).goOn core n
    (dClass st.head = 5 → w.core.dmaq = s.core.dmaq ++ [q]) ∧ (dClass st.head = 6 → w.core.hubq = s.core.hubq ++ [q])
      ∧ (dClass st.head = 8 → w.core.wsq = s.core.wsq ++ [q]) := by
  intro st v q w
  obtain ⟨m, r, hst⟩ := s.takeWait_stream core st.head hb
  obtain ⟨x, y, hv⟩ := s.takeWait_only core st.head
  have hd : (v.stream core n).head = st.head := by rw [hst]
  have hq : v.queueEntry core n = q := by rw [State.queueEntry, hst]
  have hs : v.core.dmaq = s.core.dmaq ∧ v.core.hubq = s.core.hubq ∧ v.core.wsq = s.core.wsq := by
    simp only [v, hv, and_self]
  obtain ⟨h5, h6, h8⟩ := hs
  refine ⟨fun h => ?_, fun h => ?_, fun h => ?_⟩
  · exact (State.enqueue_dmaq (hd ▸ h)).trans (by rw [hq, h5])
  · exact (State.enqueue_hubq (hd ▸ h)).trans (by rw [hq, h6])
  · exact (State.enqueue_wsq (hd ▸ h)).trans (by rw [hq, h8])

/-- Settles O20: a fetched head stands in the buffer (log entry 165), and a ready head is admitted by the cases of R70 and R74. -/
theorem descriptorsAdmitted : Obligations.DescriptorsAdmitted := by
  refine ⟨fun s at_ core n hi => ⟨exec_descriptorIssue_of_outside hi, fun hp =>
    ⟨fun d buffer v hf => ⟨exec_descriptorIssue_of_checked hi hp hf, fun code => exec_descriptorIssue_of_rejected hi hp hf⟩,
      fun code phys v hf => exec_descriptorIssue_of_fault hi hp hf, fun d buffer v hf => fetchHead_answers core hp _ _ _ hf⟩⟩,
    fun s at_ core n hr hc => ?_⟩
  have hb : ((s.advanceTo at_).stream core n).state ≠ .unbound := State.headReady_ready hr ▸ nofun
  rw [exec_queueAdmission_of_ready hr hc]
  refine ⟨fun hq => ?_, fun hq hp hm => ?_⟩
  · rw [if_pos hq]
  · rw [if_neg (by rw [hq]; decide), if_neg (not_forbidden hp), if_pos hm]
    exact ⟨fun ho => by rw [if_pos ho], fun ho => ⟨by rw [if_neg (by rw [ho]; decide)], State.admitted_at_back hb⟩⟩

/-! ## The picker (R70, R73) -/

theorem State.bestOf_candidate {s : State} {core : Nat} {e : Engine} {n : Nat} (h : s.bestOf core e = some n) :
    s.candidate core e n = true := by
  refine List.foldlRecOn (motive := fun best => ∀ b, best = some b → s.candidate core e b = true) _ _ ?_
    (fun best hb a _ b he => ?_) n h
  · intro b hb
    cases hb
  split at he
  case isFalse => exact hb b he
  case isTrue ha =>
    split at he
    case h_2 => exact Option.some.inj he ▸ ha
    case h_1 c hc =>
      split at he
      · exact Option.some.inj he ▸ ha
      · exact hb b he

/-- A head that the picker may start: it goes on at its resume point, or its wait is met and it is served first (R70, R274). -/
theorem State.pickFrom_of_startable {s : State} {core : Nat} {e : Engine} {n : Nat} (hb : s.bestOf core e = some n)
    (h : (s.stream core n).resume.isSome = true ∨ ((dWaitEn (s.stream core n).head = true →
        (s.sem (semKey core (dWaitSem (s.stream core n).head))).permits (s.stream core n).ctx = true)
      ∧ s.waitMet core (s.stream core n).head = true ∧ s.outranked core n = false)) (k : Nat) :
    s.pickFrom core e (k + 1) = s.startTile core n e := by
  rw [State.pickFrom, hb]
  dsimp only
  by_cases hr : (s.stream core n).resume.isSome = true
  · rw [if_pos hr]
  · obtain ⟨hp, hm, ho⟩ := h.resolve_left hr
    rw [if_neg hr, if_neg (not_forbidden hp), if_pos hm, if_neg (by rw [ho]; decide)]

theorem State.pickFrom_of_outranked {s : State} {core : Nat} {e : Engine} {n : Nat} (hb : s.bestOf core e = some n)
    (hr : (s.stream core n).resume = none) (hp : dWaitEn (s.stream core n).head = true →
      (s.sem (semKey core (dWaitSem (s.stream core n).head))).permits (s.stream core n).ctx = true)
    (hm : s.waitMet core (s.stream core n).head = true) (ho : s.outranked core n = true) (k : Nat) :
    s.pickFrom core e (k + 1) = s := by
  rw [State.pickFrom, hb]
  dsimp only
  rw [hr, if_neg (by decide), if_neg (not_forbidden hp), if_pos hm, if_pos ho]

theorem State.takeOrdinal_frame (s : State) (core d : Nat) :
    (s.takeOrdinal core d).2.core.streams = s.core.streams ∧ (s.takeOrdinal core d).2.now = s.now := by
  unfold State.takeOrdinal
  split
  · exact ⟨rfl, rfl⟩
  · exact ⟨rfl, rfl⟩

theorem State.assaySelect_frame (s : State) (core c d : Nat) (count : BitVec 48) :
    (s.assaySelect core c d count).1.core.streams = s.core.streams ∧ (s.assaySelect core c d count).1.now = s.now := by
  unfold State.assaySelect
  split
  · exact ⟨rfl, rfl⟩
  split
  · split
    · exact ⟨rfl, rfl⟩
    · exact ⟨rfl, rfl⟩
  dsimp only
  by_cases h1 : s.err.level = 1
  · rw [if_pos h1]
    split
    · split
      · exact ⟨rfl, rfl⟩
      · exact ⟨rfl, rfl⟩
    · exact ⟨rfl, rfl⟩
  · rw [if_neg h1]
    split
    · split
      · exact ⟨rfl, rfl⟩
      · exact ⟨rfl, rfl⟩
    · exact ⟨rfl, rfl⟩

/-- The tile that begins runs from now on, for the stream and descriptor it was given; no stream changes. -/
theorem State.beginTile_holds (s : State) (t : Tile) : (s.beginTile t).core.streams = s.core.streams
    ∧ ∃ x, x ∈ (s.beginTile t).core.tiles ∧ x.core = t.core ∧ x.engine = t.engine ∧ x.stream = t.stream ∧ x.ctx = t.ctx
      ∧ x.desc = t.desc ∧ x.phase = .running ∧ x.startAt = s.now := by
  obtain ⟨hos, hon⟩ := s.takeOrdinal_frame t.core t.desc
  obtain ⟨has, han⟩ := (s.takeOrdinal t.core t.desc).2.assaySelect_frame t.core t.ctx t.desc
    ((s.takeOrdinal t.core t.desc).2.countOf t.ctx)
  exact ⟨has.trans hos, _, List.mem_append_right _ (List.mem_singleton.2 rfl), rfl, rfl, rfl, rfl, rfl, rfl, han.trans hon⟩

theorem State.startTile_holds (s : State) (core n : Nat) (e : Engine) : ((s.startTile core n e).stream core n).state = .busy
    ∧ ∃ t, t ∈ (s.startTile core n e).core.tiles ∧ t.core = core ∧ t.engine = e ∧ t.stream = n ∧ t.ctx = (s.stream core n).ctx
      ∧ t.desc = (s.stream core n).head ∧ t.phase = .running ∧ t.startAt = s.now := by
  unfold State.startTile
  extract_lets st v _ w
  obtain ⟨hs, ht⟩ := w.beginTile_holds { core := core, engine := e, stream := n, ctx := st.ctx, desc := st.head
                                         at_ := st.resume.getD {}, tally := (st.resume.getD {}).tally }
  have hb : (w.stream core n).state = .busy := congrArg Stream.state (State.stream_setStream_same v core n
    (v := { v.stream core n with state := .busy, resume := none }) nofun)
  have hw : w.now = s.now := by
    obtain ⟨x, y, h⟩ := s.takeWait_only core st.head
    change (if st.resume.isSome = true then s else s.takeWait core st.head).now = s.now
    rw [h]
    split <;> rfl
  rw [hw] at ht
  exact ⟨(congrArg (fun m : SMap Stream => (SMap.get (fun _ => {}) m (64 * core + n)).state) hs).trans hb, ht⟩

section
variable {s : State} {at_ core : Nat} {e : Engine}

theorem exec_tilePick_of_free (hf : (s.advanceTo at_).engineFree core e = true) (hw : (s.advanceTo at_).withheld = false)
    (hc : (s.advanceTo at_).checkerNext core e = none) (hr : (s.advanceTo at_).replayClaims e = false)
    (hp : (s.advanceTo at_).placedNext core e = none) :
    exec (.tilePick at_ core e) s = .next ((s.advanceTo at_).pickFrom core e 64) := by
  refine congrArg Host.Outcome.next ((if_pos ⟨hf, hw, hc, hr⟩).trans ?_)
  rw [hp]

theorem exec_tilePick_of_placed (hf : (s.advanceTo at_).engineFree core e = true) (hw : (s.advanceTo at_).withheld = false)
    (hc : (s.advanceTo at_).checkerNext core e = none) (hr : (s.advanceTo at_).replayClaims e = false) {t : Tile}
    (hp : (s.advanceTo at_).placedNext core e = some t) :
    exec (.tilePick at_ core e) s = .next (((s.advanceTo at_).dropTile t.core t.stream).beginTile t) := by
  refine congrArg Host.Outcome.next ((if_pos ⟨hf, hw, hc, hr⟩).trans ?_)
  rw [hp]
  rfl

theorem exec_tilePick_of_held (h : (s.advanceTo at_).engineFree core e = false ∨ (s.advanceTo at_).withheld = true) :
    exec (.tilePick at_ core e) s = .next (s.advanceTo at_) := by
  refine congrArg Host.Outcome.next (if_neg fun ⟨hf, hw, _⟩ => ?_)
  rcases h with h | h
  · exact Bool.false_ne_true (h.symm.trans hf)
  · exact Bool.false_ne_true (hw.symm.trans h)

end

/-- Settles O21: the picker starts the best candidate, which goes on at its resume point without a second wait (log entry 31), or a
tile that Flint has placed (log entry 164). -/
theorem pickerTakesBest : Obligations.PickerTakesBest := by
  refine fun s at_ core e n => ⟨fun hf hw hc hr => ⟨fun hp hb => ?_, fun t => exec_tilePick_of_placed hf hw hc hr⟩,
    fun h => exec_tilePick_of_held (.inl h), fun h => exec_tilePick_of_held (.inr h), State.bestOf_candidate⟩
  rw [exec_tilePick_of_free hf hw hc hr hp]
  exact ⟨fun h => ⟨congrArg _ (State.pickFrom_of_startable hb h 63), State.startTile_holds ..⟩,
    fun hn hs hm ho => congrArg _ (State.pickFrom_of_outranked hb hn hs hm ho 63)⟩

/-! ## The end of a tile (R76, R82, R466) -/

section
variable {s : State} {at_ core n : Nat} {t : Tile} (ht : (s.advanceTo at_).tileOf core n = some t)
include ht

theorem exec_tileFinish_unchecked (hp : t.phase = .worked) (hc : t.checker = none) :
    exec (.tileFinish at_ core n) s = .next ((s.advanceTo at_).finishTile t) := by
  refine congrArg Host.Outcome.next ?_
  rw [tileFinish, ht]
  dsimp only
  rw [hp, hc]
  rfl

theorem exec_tileFinish_checked (hp : t.phase = .worked) (hc : t.checker ≠ none) :
    let u := s.advanceTo at_
    exec (.tileFinish at_ core n) s = .next ((u.setTile { t with phase := .checking, stopAt := u.now, long := u.longTile t }).setStream
      t.owner.1 t.owner.2 { u.stream t.owner.1 t.owner.2 with waitFor := .checker }) := by
  refine congrArg Host.Outcome.next ?_
  rw [tileFinish, ht]
  dsimp only
  rw [hp]
  exact if_pos (Option.isSome_iff_ne_none.2 hc)

theorem exec_tileFinish_stopping (hp : t.phase = .stopping) :
    exec (.tileFinish at_ core n) s = .next ((s.advanceTo at_).dropTile core n) := by
  refine congrArg Host.Outcome.next ?_
  rw [tileFinish, ht]
  dsimp only
  rw [hp]

theorem exec_tileGuard_expired (hp : t.phase = .running ∨ t.phase = .worked ∨ t.phase = .recheck)
    (hg : t.startGuard + us 20 ≤ ((s.advanceTo at_).slab (core / 40)).guard) :
    exec (.tileGuard at_ core n) s = .next (((s.advanceTo at_).setTile
      { t with phase := .stopping, stopAt := (s.advanceTo at_).now }).ctxError t.ctx core 0x0203 t.desc) := by
  refine congrArg Host.Outcome.next ?_
  rw [tileGuard, ht]
  exact if_pos ⟨hp, hg⟩

theorem exec_tileGuard_in_time (hg : ((s.advanceTo at_).slab (core / 40)).guard < t.startGuard + us 20) :
    exec (.tileGuard at_ core n) s = .next (s.advanceTo at_) := by
  refine congrArg Host.Outcome.next ?_
  rw [tileGuard, ht]
  exact if_neg fun h => Nat.not_le.2 hg h.2

end

theorem exec_coreHang_of_stuck {s : State} {at_ core : Nat} {t : Tile} (hl : (s.advanceTo at_).core.tiles = [t])
    (hc : t.core = core) (hp : t.phase = .stopping) (hs : t.stopAt + us 2 ≤ (s.advanceTo at_).now)
    (ho : (s.advanceTo at_).openRec domContext t.ctx = none) :
    exec (.coreHang at_ core) s = .next ((s.advanceTo at_).raise
      { code := 0x0208, domain := domCore, index := core, ctx := some t.ctx, core := some core
        tileId := BitVec.ofNat 32 (dTileId t.desc), layerTag := BitVec.ofNat 16 (dLayerTag t.desc) }) := by
  refine congrArg Host.Outcome.next ?_
  have hf : ((s.advanceTo at_).core.tiles.find? fun t =>
      t.core == core && t.phase == .stopping && decide (t.stopAt + us 2 ≤ (s.advanceTo at_).now)) = some t := by
    rw [hl]
    exact List.find?_cons_of_pos (by simp [hc, hp, hs])
  rw [coreHang, hf]
  dsimp only
  rw [ho]

/-- Settles O23: each clause is one case of its command, for the tile that is in flight. -/
theorem tileEnds : Obligations.TileEnds := fun _ _ _ _ _ ht =>
  ⟨exec_tileFinish_unchecked ht, exec_tileFinish_stopping ht, exec_tileFinish_checked ht, exec_tileGuard_expired ht,
    exec_tileGuard_in_time ht, exec_coreHang_of_stuck⟩

end Sys2Proof.Machine

namespace Sys2Proof.Machine

/-! ## The work of a tile (R82, R118, R470, R485) -/

section
variable {s v : State} {core n op : Nat} {t : Tile} {work : Tile → Exec Tally} {stage : Tile → Exec Bool}

theorem State.runTile_of_idle (h : ∀ t, ¬s.atWork core n op t) (clean : Tile → Exec Tally) :
    s.runTile core n op work clean = s := by
  cases ht : s.tileOf core n with
  | none => rw [State.runTile, ht]
  | some t =>
    rw [State.runTile, ht]
    exact if_neg fun hw => h t ⟨ht, hw⟩

theorem State.pipeRun_of_idle (h : ∀ t, ¬s.atWork core n op t) (clean : Tile → Exec Bool) (k : Nat) :
    State.pipeRun op core n stage clean k s = s := by
  cases k with
  | zero => rfl
  | succ k =>
    cases ht : s.tileOf core n with
    | none => rw [State.pipeRun, ht]
    | some t =>
      rw [State.pipeRun, ht]
      exact if_neg fun hw => h t ⟨ht, hw⟩

theorem State.runTile_of_done (h : s.atWork core n op t) {y : Tally} (hw : (work t) (s.beginLog t) = (.ok y, v))
    (clean : Tile → Exec Tally) : s.runTile core n op work clean = v.workDone core n t y := by
  obtain ⟨ht, hr⟩ := h
  rw [State.runTile, ht]
  dsimp only
  rw [if_pos hr, hw]
  rfl

theorem State.runTile_of_stall (h : s.atWork core n op t) (hw : (work t) (s.beginLog t) = (.error .stall, v))
    (clean : Tile → Exec Tally) : s.runTile core n op work clean = s := by
  obtain ⟨ht, hr⟩ := h
  rw [State.runTile, ht]
  dsimp only
  rw [if_pos hr, hw]

theorem State.pipeRun_of_stall (h : s.atWork core n op t) (hw : (stage t) (s.beginLog t) = (.error .stall, v))
    (clean : Tile → Exec Bool) (k : Nat) : State.pipeRun op core n stage clean k s = s := by
  cases k with
  | zero => rfl
  | succ k =>
    obtain ⟨ht, hr⟩ := h
    rw [State.pipeRun, ht]
    dsimp only
    rw [if_pos hr, hw]

/-- The code 0x0212 is MATRIX_CHECKSUM, the one fault of a tile that is captured (R118, R470). -/
theorem State.runTile_of_fault (h : s.atWork core n op t) {code phys : Nat}
    (hw : (work t) (s.beginLog t) = (.error (.fault code phys), v)) (clean : Tile → Exec Tally) :
    let w := ((v.endLog t).1.setTile { t with phase := .stopping, stopAt := v.now }).raiseCtx
      { code := code, core := some core, phys := phys, tileId := BitVec.ofNat 32 (dTileId t.desc)
        layerTag := BitVec.ofNat 16 (dLayerTag t.desc) } t.ctx
    s.runTile core n op work clean = if code = 0x0212
      then w.capture t 0 0xFFFF 0 0 ((clean t) s.logged).2.accesses ((work t) s.logged).2.accesses else w := by
  obtain ⟨ht, hr⟩ := h
  rw [State.runTile, ht]
  dsimp only
  rw [if_pos hr, hw]

/-- The premise `hi` is how each command of an engine is defined: it runs the work of its operation. -/
theorem exec_of_work_done {i : Instr} {clean : Tile → Exec Tally} (hi : exec i s = .next (s.runTile core n op work clean))
    {y : Tally} (h : s.atWork core n op t) (hw : (work t) (s.beginLog t) = (.ok y, v)) : exec i s = .next (v.workDone core n t y) := by
  rw [hi, State.runTile_of_done h hw]

end

theorem State.not_atWork {s : State} {core n op : Nat}
    (h : ∀ t, s.tileOf core n = some t → t.phase ≠ .running ∨ dOpcode t.desc ≠ op ∨ s.coreFenced core = true) (t : Tile) :
    ¬s.atWork core n op t := by
  rintro ⟨ht, hp, ho, hf⟩
  rcases h t ht with h | h | h
  · exact h hp
  · exact h ho
  · rw [hf] at h
    exact Bool.false_ne_true h

/-- Settles O24: each command of an engine runs the work of its operation, and `runTile` and `pipeRun` have one lemma for each way
that work goes. -/
theorem tilesWork : Obligations.TilesWork := by
  refine ⟨fun s v core n t y => ?array, fun s v core n t y => ?vectorAndRows,
    fun s core n op work clean stage cleanStage stages => ⟨?idle, ?stopped⟩⟩
  case array =>
    exact ⟨fun _ => exec_of_work_done rfl, exec_of_work_done rfl, exec_of_work_done rfl, exec_of_work_done rfl,
      exec_of_work_done rfl, exec_of_work_done rfl⟩
  case vectorAndRows =>
    exact ⟨exec_of_work_done rfl, exec_of_work_done rfl, exec_of_work_done rfl, exec_of_work_done rfl, exec_of_work_done rfl,
      exec_of_work_done rfl, exec_of_work_done rfl, exec_of_work_done rfl, exec_of_work_done rfl⟩
  case idle =>
    intro h
    exact ⟨State.runTile_of_idle (State.not_atWork h) clean, State.pipeRun_of_idle (State.not_atWork h) cleanStage stages⟩
  case stopped =>
    intro t v h
    exact ⟨fun _ _ hw => State.runTile_of_fault h hw clean, fun hw => State.runTile_of_stall h hw clean,
      fun hw => State.pipeRun_of_stall h hw cleanStage stages⟩

/-! ## REDUCE (R111 to R113) -/

theorem State.reduceTo_of_round {t : Tile} {r k : Nat} (h : (reduceBody t.desc).nextRound 5 r = some k) (s : State) :
    s.reduceTo t r = s.setTile { t with round := k + 1 } := by
  rw [State.reduceTo, h]

theorem State.reduceTo_of_no_round {t : Tile} {r : Nat} (h : (reduceBody t.desc).nextRound 5 r = none) (s : State) :
    s.reduceTo t r = s.setTile { t with phase := .worked } := by
  rw [State.reduceTo, h]

/-- A receiver of the round that names its partner's core passes the first guard of `reducePull`. -/
theorem not_bystander {b : ReduceBody} {round sender : Nat} (hr : round ≠ 0) (hb : b.sends (round - 1) = false)
    (hc : b.core (b.rank + 2 ^ (round - 1)) = sender) :
    ¬(round = 0 ∨ b.sends (round - 1) = true ∨ b.core (b.rank + 2 ^ (round - 1)) ≠ sender) := by
  rintro (h | h | h)
  · exact hr h
  · exact Bool.false_ne_true (hb.symm.trans h)
  · exact h hc

section
variable {s : State} {core n : Nat} {t : Tile} (h : s.atWork core n 0x14 t)
include h

theorem State.reduceTile_of_atWork : s.reduceTile core n = some t := by
  obtain ⟨ht, hp, ho, hf⟩ := h
  rw [State.reduceTile, ht, Option.filter_some, hp, ho, hf]
  rfl

theorem exec_reduce_begins (hr : t.round = 0) : exec (.reduce core n) s = .next (s.reduceTo t 0) := by
  refine congrArg Host.Outcome.next ?_
  rw [reduceStart, State.reduceTile_of_atWork h]
  exact if_pos hr

theorem exec_reduce_begun (hr : t.round ≠ 0) : exec (.reduce core n) s = .next s := by
  refine congrArg Host.Outcome.next ?_
  rw [reduceStart, State.reduceTile_of_atWork h]
  exact if_neg hr

section
variable (hr : t.round ≠ 0) {sender : Nat} {u : Tile} (hb : (reduceBody t.desc).sends (t.round - 1) = false)
  (hc : (reduceBody t.desc).core ((reduceBody t.desc).rank + 2 ^ (t.round - 1)) = sender)
  (hu : s.core.tiles.find? (fun x => x.core == sender && x.phase == .running && dOpcode x.desc == 0x14 && x.round != 0) = some u)
include hr hb hc hu

/-- R113: the header and the context are compared before anything is pulled. -/
theorem exec_reducePull_of_mismatch (hd : (reduceBody t.desc).pull ≠ (reduceBody u.desc).pull ∨ u.ctx ≠ t.ctx) :
    exec (.reducePull core n sender) s = .next ((s.stopReduce u).stopReduce t) := by
  refine congrArg Host.Outcome.next ?_
  rw [reducePull, State.reduceTile_of_atWork h]
  dsimp only
  rw [if_neg (not_bystander hr hb hc), hu]
  exact if_pos hd

theorem exec_reducePull_of_taken (hp : (reduceBody t.desc).pull = (reduceBody u.desc).pull) (hx : u.ctx = t.ctx)
    (hs : (reduceBody u.desc).sends (u.round - 1) = true) (hn : u.round = t.round) {v : State}
    (hw : (pullWork t (reduceBody t.desc) u (reduceBody u.desc)) s = (.ok (), v)) :
    exec (.reducePull core n sender) s
      = .next ((v.setTile { u with phase := .worked }).reduceTo ((v.tileOf core n).getD t) (t.round - 1 + 1)) := by
  refine congrArg Host.Outcome.next ?_
  have hsame : ¬((reduceBody t.desc).pull ≠ (reduceBody u.desc).pull ∨ u.ctx ≠ t.ctx) :=
    fun h => h.elim (fun hne => hne hp) fun hne => hne hx
  have hsends : ¬((reduceBody u.desc).sends (u.round - 1) = false ∨ u.round ≠ t.round) :=
    fun h => h.elim (fun hf => Bool.false_ne_true (hf.symm.trans hs)) fun hne => hne hn
  rw [reducePull, State.reduceTile_of_atWork h]
  dsimp only
  rw [if_neg (not_bystander hr hb hc), hu]
  dsimp only
  rw [if_neg hsame, if_neg hsends, hw]

end
end

/-- Settles O25: REDUCE enters its first round or has none, and a receiver's pull either meets another header or context, which
stops both tiles (log entry 54), or takes the sender's slots. -/
theorem reduceRounds : Obligations.ReduceRounds := by
  refine fun s core n t h => ⟨fun hr k hk => ?_, fun hr hk => ?_, exec_reduce_begun h, fun hr sender u hb hc hu =>
    ⟨exec_reducePull_of_mismatch h hr hb hc hu, fun hp hx hs hn v => exec_reducePull_of_taken h hr hb hc hu hp hx hs hn⟩⟩
  · rw [exec_reduce_begins h hr, State.reduceTo_of_round hk]
  · rw [exec_reduce_begins h hr, State.reduceTo_of_no_round hk]

end Sys2Proof.Machine

namespace Sys2Proof.Machine

/-! ## Truth as a bit -/

@[simp] theorem b2n_true : b2n true = 1 := rfl
@[simp] theorem b2n_false : b2n false = 0 := rfl

theorem b2n_le_one (b : Bool) : b2n b ≤ 1 := by cases b <;> decide

/-! ## Rounding to a multiple of a power of two (R140) -/

theorem roundAt_of_le (r : Rnd) {u e : Int} (h : u ≤ e) (m : Nat) : roundAt r u m e = (m, e) := if_pos h

theorem roundAt_of_lt (r : Rnd) {u e : Int} (h : e < u) (m : Nat) :
    roundAt r u m e = (m / 2 ^ (u - e).toNat + b2n (roundUp r m (2 ^ (u - e).toNat)), u) := if_neg (Int.not_le.2 h)

/-- The nearest multiple `q × d` of `d` to `m`, the even one of two: the remainder against half of `d` decides. -/
theorem div_add_roundUp_nearest {m d q : Nat} (hd : 0 < d) (hq : q = m / d + b2n (roundUp .nearest m d)) :
    2 * (q * d) ≤ 2 * m + d ∧ 2 * m ≤ 2 * (q * d) + d ∧ (2 * (q * d) = 2 * m + d ∨ 2 * m = 2 * (q * d) + d → q % 2 = 0) := by
  have hm : m / d * d + m % d = m := Nat.div_add_mod' m d
  have hr : m % d < d := Nat.mod_lt m hd
  by_cases hup : roundUp .nearest m d = true
  · have hq1 : q = m / d + 1 := by rw [hq, hup, b2n_true]
    have hqd : q * d = m / d * d + d := by rw [hq1, Nat.succ_mul]
    simp only [roundUp, Bool.or_eq_true, Bool.and_eq_true, decide_eq_true_eq, beq_iff_eq] at hup
    omega
  · have hq0 : q = m / d := by rw [hq, Bool.eq_false_iff.2 hup, b2n_false, Nat.add_zero]
    simp only [roundUp, Bool.or_eq_true, Bool.and_eq_true, decide_eq_true_eq, beq_iff_eq] at hup
    rw [← hq0] at hm hup
    omega

/-- The draw `k` is added to the fraction's first 16 bits; an exact value has no fraction to add it to. -/
theorem div_add_roundUp_stoch (m d k : Nat) : m / d + b2n (roundUp (.stoch k) m d)
    = if m % d = 0 then m / d else if 65536 ≤ m % d * 65536 / d + k then m / d + 1 else m / d := by
  by_cases hz : m % d = 0
  · simp [roundUp, hz]
  · have hne : (m % d != 0) = true := bne_iff_ne.2 hz
    by_cases hc : 65536 ≤ m % d * 65536 / d + k <;> simp only [roundUp, hne, hz, hc, decide_true, decide_false, Bool.and_true,
      Bool.and_false, b2n_true, b2n_false, if_true, if_false, Nat.add_zero]

/-! ## Values that a format holds (R134 to R136) -/

@[simp] theorem scaleTo_self (m : Nat) (e : Int) : scaleTo m e e = m := by simp [scaleTo]

@[simp] theorem scaleTo_zero (e u : Int) : scaleTo 0 e u = 0 := by simp [scaleTo]

/-- The exponent of the unit that `Fmt.round` rounds a magnitude to. -/
def Fmt.unit (f : Fmt) (m : Nat) (e : Int) : Int := if f.int then 0 else Max.max ((Nat.log2 m : Int) + e - f.frac) f.emin

theorem Fmt.round_of_ne_zero (f : Fmt) (r : Rnd) {m : Nat} (hm : m ≠ 0) (e : Int) : f.round r m e = roundAt r (f.unit m e) m e :=
  if_neg hm

/-- Nothing of the value lies below the format's unit, and it is no larger than the format's max finite value. -/
structure Fmt.Fits (f : Fmt) (s : Bool) (m : Nat) (e : Int) : Prop where
  unit_le : f.unit m e ≤ e
  exponent_le : e ≤ f.maxE
  le_max : m ≤ (if f.int && s then 128 else f.maxM) * 2 ^ (f.maxE - e).toNat

theorem Fmt.Fits.exceeds {f : Fmt} {s : Bool} {m : Nat} {e : Int} (h : f.Fits s m e) : f.exceeds s m e = false := by
  have hle := h.le_max
  simp only [Fmt.exceeds, Int.min_eq_left h.exponent_le, scaleTo_self, decide_eq_false_iff_not, Nat.not_lt]
  rwa [scaleTo, if_pos h.exponent_le]

theorem Fmt.convert_zero (f : Fmt) (r : Rnd) (s : Bool) (e : Int) : f.convert r (.fin s 0 e) = (.fin (s && !f.int) 0 0, 0) := rfl

theorem Fmt.Fits.convert {f : Fmt} {s : Bool} {m : Nat} {e : Int} (h : f.Fits s m e) (hm : m ≠ 0) (r : Rnd) :
    f.convert r (.fin s m e) = (.fin s m e, 0) := by
  have hr : f.round r m e = (m, e) := by rw [Fmt.round_of_ne_zero f r hm, roundAt_of_le r h.unit_le]
  simp only [Fmt.convert, hr, if_neg hm, h.exceeds, Bool.false_eq_true, if_false]

theorem Fmt.encode_zero (f : Fmt) (s : Bool) (e : Int) :
    f.encode (.fin s 0 e) = if f.int then 0 else b2n s * 2 ^ (f.width - 1) := by
  by_cases hi : f.int = true <;> simp [Fmt.encode, hi]

/-- `w` is the encoding of `v`, and stays so when `v` is converted into the format, which raises no flag. -/
def Fmt.RoundTrips (f : Fmt) (v : Num) (w : Nat) : Prop :=
  f.encode v = w ∧ ∀ r : Rnd, (f.convert r v).2 = 0 ∧ f.encode (f.convert r v).1 = w

theorem Fmt.Fits.roundTrips {f : Fmt} {s : Bool} {m w : Nat} {e : Int} (h : f.Fits s m e) (hw : f.encode (.fin s m e) = w) :
    f.RoundTrips (.fin s m e) w := by
  refine ⟨hw, fun r => ?_⟩
  by_cases hm : m = 0
  · subst hm
    rw [Fmt.encode_zero] at hw
    rw [Fmt.convert_zero]
    refine ⟨rfl, ?_⟩
    rw [Fmt.encode_zero, ← hw]
    by_cases hi : f.int = true <;> simp [hi]
  · rw [h.convert hm]
    exact ⟨rfl, hw⟩

/-! ## Floating-point formats (R127) -/

/-- The bits of a format that are neither its sign nor its fraction. -/
def Fmt.expBits (f : Fmt) : Nat := f.width - 1 - f.frac

/-- Sign, exponent and fraction fill the width, and the max finite value is that of the largest pattern which is neither ±∞ nor
NaN. -/
structure Fmt.IsFloat (f : Fmt) : Prop where
  notInt : f.int = false
  frac_pos : 0 < f.frac
  room : f.frac + 3 ≤ f.width
  maxM_eq : f.maxM + b2n (f.nan && !f.inf) + 1 = 2 ^ (f.frac + 1)
  maxE_eq : f.maxE + 2 + b2n f.inf = f.emin + (2 ^ f.expBits : Nat)

/-- The pattern with sign `s`, exponent field `x` and fraction `m`. -/
def Fmt.pattern (f : Fmt) (s : Bool) (x m : Nat) : Nat := b2n s * 2 ^ (f.width - 1) + (x * 2 ^ f.frac + m)

/-- The exponent field of a pattern, which is all ones in ±∞ and NaN. -/
def Fmt.expField (f : Fmt) (w : Nat) : Nat := bits w f.frac f.expBits

namespace Fmt.IsFloat

variable {f : Fmt} (h : f.IsFloat)
include h

theorem two_pow_width : 2 ^ (f.width - 1) = 2 ^ f.expBits * 2 ^ f.frac := by
  have := h.room
  rw [← Nat.pow_add, Fmt.expBits, show f.width - 1 - f.frac + f.frac = f.width - 1 by omega]

/-- A pattern is made of its three fields. -/
theorem pattern_fields {w : Nat} (hw : w < 2 ^ f.width) :
    f.pattern (bit w (f.width - 1)) (f.expField w) (bits w 0 f.frac) = w := by
  have hroom := h.room
  have hlow : w % 2 ^ (f.width - 1) / 2 ^ f.frac = f.expField w := by
    rw [h.two_pow_width, Nat.mul_comm, Nat.mod_mul_right_div_self]; rfl
  have hfrac : w % 2 ^ (f.width - 1) % 2 ^ f.frac = bits w 0 f.frac := by
    rw [h.two_pow_width, Nat.mod_mul_left_mod, bits, Nat.pow_zero, Nat.div_one]
  have hsign : b2n (bit w (f.width - 1)) = w / 2 ^ (f.width - 1) := by
    have hlt : w / 2 ^ (f.width - 1) < 2 := by
      rwa [Nat.div_lt_iff_lt_mul (Nat.two_pow_pos _), ← Nat.pow_succ', Nat.succ_eq_add_one, Nat.sub_add_cancel (by omega)]
    rcases Nat.lt_succ_iff_lt_or_eq.1 hlt with h0 | h1
    · simp [bit, Nat.lt_one_iff.1 h0]
    · simp [bit, h1]
  rw [Fmt.pattern, hsign, ← hlow, ← hfrac, Nat.div_add_mod', Nat.div_add_mod']

theorem two_pow_frac_le_maxM : 2 ^ f.frac ≤ f.maxM := by
  have hM := h.maxM_eq
  have hpos : 2 ^ 1 ≤ 2 ^ f.frac := Nat.pow_le_pow_right (by decide) h.frac_pos
  have hb := b2n_le_one (f.nan && !f.inf)
  rw [Nat.pow_succ] at hM
  omega

theorem four_le_two_pow_expBits : 4 ≤ 2 ^ f.expBits :=
  have hexp : 2 ≤ f.expBits := by have := h.room; rw [Fmt.expBits]; omega
  Nat.pow_le_pow_right Nat.two_pos hexp

theorem emin_le_maxE : f.emin ≤ f.maxE := by
  have hE := h.maxE_eq
  have h4 := h.four_le_two_pow_expBits
  have hb := b2n_le_one f.inf
  omega

theorem unit_eq (m : Nat) (e : Int) : f.unit m e = Max.max ((Nat.log2 m : Int) + e - f.frac) f.emin := by
  rw [Fmt.unit, h.notInt]; rfl

theorem unit_subnormal {m : Nat} (hm : m < 2 ^ f.frac) : f.unit m f.emin = f.emin := by
  rw [h.unit_eq]
  by_cases h0 : m = 0
  · subst h0
    rw [Nat.log2_zero]
    omega
  · have := (Nat.log2_lt h0).2 hm
    omega

theorem unit_normal {m : Nat} (hm : m < 2 ^ f.frac) {e : Int} (he : f.emin ≤ e) : f.unit (2 ^ f.frac + m) e = e := by
  have hlog : Nat.log2 (2 ^ f.frac + m) = f.frac := by
    rw [Nat.log2_eq_iff (by have := Nat.two_pow_pos f.frac; omega), Nat.pow_succ]; omega
  rw [h.unit_eq, hlog]
  omega

/-- The encoding of a value is its multiple of the unit, laid over the exponent that the unit stands for. -/
theorem encode_fin {m : Nat} (hm : m ≠ 0) (s : Bool) {e : Int} (hu : f.unit m e = e) :
    f.encode (.fin s m e)
      = b2n s * 2 ^ (f.width - 1) + (if m < 2 ^ f.frac then m else (e - f.emin + 1).toNat * 2 ^ f.frac + (m - 2 ^ f.frac)) := by
  rw [h.unit_eq] at hu
  simp only [Fmt.encode, h.notInt, hm, hu, scaleTo_self, Bool.false_eq_true, if_false]

theorem encode_inf (s : Bool) : f.encode (.inf s) = f.pattern s (2 ^ f.expBits - 1) 0 := by
  rw [Fmt.encode, Fmt.pattern, h.two_pow_width, Nat.sub_one_mul, Nat.add_zero]

theorem roundTrips_inf (hi : f.inf = true) (s : Bool) : f.RoundTrips (.inf s) (f.pattern s (2 ^ f.expBits - 1) 0) := by
  have hc : ∀ r, f.convert r (.inf s) = (.inf s, 0) := fun r => by simp [Fmt.convert, h.notInt, hi]
  refine ⟨h.encode_inf s, fun r => ?_⟩
  rw [hc]
  exact ⟨rfl, h.encode_inf s⟩

theorem roundTrips_subnormal (s : Bool) {m : Nat} (hm : m < 2 ^ f.frac) : f.RoundTrips (.fin s m f.emin) (f.pattern s 0 m) := by
  have hu := h.unit_subnormal hm
  refine Fmt.Fits.roundTrips ⟨Int.le_of_eq hu, h.emin_le_maxE, ?_⟩ ?_
  · rw [h.notInt]
    exact Nat.le_trans (Nat.le_trans (Nat.le_of_lt hm) h.two_pow_frac_le_maxM) (Nat.le_mul_of_pos_right _ (Nat.two_pow_pos _))
  · by_cases h0 : m = 0
    · simp [h0, Fmt.encode_zero, h.notInt, Fmt.pattern]
    · simp [h.encode_fin h0 s hu, hm, Fmt.pattern]

/-- A normal value below the top exponent has room to spare; at the top exponent its significand decides. -/
theorem roundTrips_normal (s : Bool) {x m : Nat} (hm : m < 2 ^ f.frac) (hx : 0 < x) (hE : (x : Int) - 1 + f.emin ≤ f.maxE)
    (hM : (x : Int) - 1 + f.emin = f.maxE → 2 ^ f.frac + m ≤ f.maxM) :
    f.RoundTrips (.fin s (2 ^ f.frac + m) ((x : Int) - 1 + f.emin)) (f.pattern s x m) := by
  have hu : f.unit (2 ^ f.frac + m) ((x : Int) - 1 + f.emin) = (x : Int) - 1 + f.emin := h.unit_normal hm (by omega)
  have hpos := Nat.two_pow_pos f.frac
  refine Fmt.Fits.roundTrips ⟨Int.le_of_eq hu, hE, ?_⟩ ?_
  · rw [h.notInt]
    rcases Int.lt_or_eq_of_le hE with hlt | heq
    · calc 2 ^ f.frac + m ≤ f.maxM * 2 := by have := h.two_pow_frac_le_maxM; omega
        _ ≤ _ := Nat.mul_le_mul_left _ (Nat.le_self_pow (by omega) 2)
    · exact Nat.le_trans (hM heq) (Nat.le_mul_of_pos_right _ (Nat.two_pow_pos _))
  · rw [h.encode_fin (by omega) s hu, if_neg (by omega), Fmt.pattern]
    rw [show ((x : Int) - 1 + f.emin - f.emin + 1).toNat = x by omega, Nat.add_sub_cancel_left]

/-- A pattern that is neither ±∞ nor NaN is no larger than the max finite value. -/
theorem finite_le_max {x m : Nat} (hx : x < 2 ^ f.expBits) (hm : m < 2 ^ f.frac) (hinf : f.inf = true → x ≠ 2 ^ f.expBits - 1)
    (hnan : (f.nan && !f.inf) = true → x = 2 ^ f.expBits - 1 → m ≠ 2 ^ f.frac - 1) :
    (x : Int) - 1 + f.emin ≤ f.maxE ∧ ((x : Int) - 1 + f.emin = f.maxE → 2 ^ f.frac + m ≤ f.maxM) := by
  have hE := h.maxE_eq
  have hM := h.maxM_eq
  rw [Nat.pow_succ] at hM
  by_cases hi : f.inf = true
  · have hlt := hinf hi
    rw [hi, b2n_true] at hE
    rw [hi, Bool.not_true, Bool.and_false, b2n_false] at hM
    omega
  · rw [Bool.eq_false_iff.2 hi, b2n_false] at hE
    by_cases hn : (f.nan && !f.inf) = true
    · have hne := hnan hn
      rw [hn, b2n_true] at hM
      omega
    · rw [Bool.eq_false_iff.2 hn, b2n_false] at hM
      omega

/-- What the fields of a pattern make of it (R127, R128). -/
theorem decode_eq (w : Nat) : f.decode w =
    if f.inf && f.expField w == 2 ^ f.expBits - 1 then (if bits w 0 f.frac = 0 then .inf (bit w (f.width - 1)) else .nan)
    else if f.nan && !f.inf && f.expField w == 2 ^ f.expBits - 1 && bits w 0 f.frac == 2 ^ f.frac - 1 then .nan
    else if f.expField w = 0 then .fin (bit w (f.width - 1)) (bits w 0 f.frac) f.emin
    else .fin (bit w (f.width - 1)) (2 ^ f.frac + bits w 0 f.frac) ((f.expField w : Int) - 1 + f.emin) := by
  rw [Fmt.decode, h.notInt]; rfl

theorem roundTrips {w : Nat} (hw : w < 2 ^ f.width) (hn : (f.decode w).isNan = false) : f.RoundTrips (f.decode w) w := by
  have hfields := h.pattern_fields hw
  have hx : f.expField w < 2 ^ f.expBits := bits_lt _ _ _
  have hm : bits w 0 f.frac < 2 ^ f.frac := bits_lt _ _ _
  rw [h.decode_eq] at hn ⊢
  generalize bit w (f.width - 1) = s at hn hfields ⊢
  generalize f.expField w = x at hn hx hfields ⊢
  generalize bits w 0 f.frac = m at hn hm hfields ⊢
  subst hfields
  revert hn
  split
  case isTrue htop =>
    simp only [Bool.and_eq_true, beq_iff_eq] at htop
    obtain ⟨hinf, rfl⟩ := htop
    split
    case isTrue h0 =>
      subst h0
      exact fun _ => h.roundTrips_inf hinf s
    case isFalse => exact nofun
  case isFalse htop =>
    split
    case isTrue => exact nofun
    case isFalse hnan =>
      split
      case isTrue h0 =>
        subst h0
        exact fun _ => h.roundTrips_subnormal s hm
      case isFalse h0 =>
        simp only [Bool.and_eq_true, beq_iff_eq, not_and] at htop hnan
        obtain ⟨hle, hlast⟩ := h.finite_le_max hx hm htop fun hn hx' => hnan ⟨Bool.and_eq_true_iff.1 hn, hx'⟩
        exact fun _ => h.roundTrips_normal s hm (Nat.pos_of_ne_zero h0) hle hlast

end Fmt.IsFloat

theorem Fmt.isFloat_iff (f : Fmt) : f.IsFloat ↔ f.int = false ∧ 0 < f.frac ∧ f.frac + 3 ≤ f.width
    ∧ f.maxM + b2n (f.nan && !f.inf) + 1 = 2 ^ (f.frac + 1) ∧ f.maxE + 2 + b2n f.inf = f.emin + (2 ^ f.expBits : Nat) :=
  ⟨fun ⟨hi, hf, hr, hM, hE⟩ => ⟨hi, hf, hr, hM, hE⟩, fun ⟨hi, hf, hr, hM, hE⟩ => ⟨hi, hf, hr, hM, hE⟩⟩

/-- The table of R127, but for INT8. -/
theorem Fmt.isFloat_of_mem {f : Fmt} (hf : f ∈ [Fmt.bf16, Fmt.f16, Fmt.e4m3, Fmt.e5m2, Fmt.ofCode 4, Fmt.ofCode 5, Fmt.e3m2,
    Fmt.e2m3, Fmt.e2m1, Fmt.f32, Fmt.a40]) : f.IsFloat := by
  rw [Fmt.isFloat_iff]
  revert f
  decide

/-! ## INT8 (R127) -/

/-- A zero of integers has the sign that its value shows. -/
theorem ofUnits_false (i u : Int) : ofUnits false i u = .fin (decide (i < 0)) i.natAbs (if i = 0 then 0 else u) := by
  unfold ofUnits
  split
  case isTrue h => subst h; rfl
  case isFalse => rfl

theorem Fmt.int8_decode (w : Nat) : Fmt.int8.decode w = .fin (decide (signed 8 w < 0)) (signed 8 w).natAbs 0 := by
  rw [Fmt.decode, if_pos (show Fmt.int8.int = true from rfl), ofUnits_false, ite_self]

theorem Fmt.int8_encode_integer (i : Int) : Fmt.int8.encode (.fin (decide (i < 0)) i.natAbs 0) = (i % 256).toNat := by
  have habs : (if decide (i < 0) = true then -(i.natAbs : Int) else i.natAbs) = i := by
    simp only [decide_eq_true_eq]
    split <;> omega
  rw [Fmt.encode, if_pos (show Fmt.int8.int = true from rfl), scaleTo_self, habs]

theorem signed_eight_bounds (w : Nat) : -128 ≤ signed 8 w ∧ signed 8 w ≤ 127 := by
  unfold signed
  split <;> omega

theorem signed_eight_emod {w : Nat} (hw : w < 256) : (signed 8 w % 256).toNat = w := by
  unfold signed
  split <;> omega

theorem Fmt.int8_fits {i : Int} (hlo : -128 ≤ i) (hhi : i ≤ 127) : Fmt.int8.Fits (decide (i < 0)) i.natAbs 0 := by
  refine ⟨Int.le_refl _, Int.le_refl _, ?_⟩
  change i.natAbs ≤ (if (true && decide (i < 0)) = true then 128 else 127) * 1
  simp only [Bool.true_and, decide_eq_true_eq]
  split <;> omega

theorem Fmt.int8_roundTrips {w : Nat} (hw : w < 256) : Fmt.int8.RoundTrips (Fmt.int8.decode w) w := by
  obtain ⟨hlo, hhi⟩ := signed_eight_bounds w
  rw [Fmt.int8_decode]
  exact (Fmt.int8_fits hlo hhi).roundTrips ((Fmt.int8_encode_integer _).trans (signed_eight_emod hw))

/-- Settles O60: a pattern is laid out by its format's fields and its value fits the format, so that no rounding mode has anything
to drop; the roundings of a magnitude differ in what they make of the remainder. -/
theorem numberFormats : Obligations.NumberFormats := by
  refine ⟨fun f hf w hw hn => ?_, fun m e u heu => ⟨⟨_, roundAt_of_lt .nearest heu m, ?_⟩, roundAt_of_lt .zero heu m, fun r _ => ?_⟩⟩
  · by_cases hi : f = .int8
    · subst hi
      exact Fmt.int8_roundTrips hw
    · refine (Fmt.isFloat_of_mem ?_).roundTrips hw hn
      simpa [hi] using hf
  · exact div_add_roundUp_nearest (Nat.two_pow_pos _) rfl
  · rw [roundAt_of_lt _ heu, div_add_roundUp_stoch]

end Sys2Proof.Machine

namespace Sys2Proof.Machine

/-! ## The physical map (R208) -/

/-- The address at which a place stands. -/
def Place.addr : Place → Option Nat
  | .slice n o => some (n * sliceSpan + o)
  | .window o => some (globalBase + o)
  | .bank c o => some (geodeBase + c * 2 ^ 26 + o)
  | .unmapped => none

/-- A place in a slice lies in the mapped part of one of the four slices, with `g` GiB per slice in the window. -/
def Place.Fits (g : Nat) : Place → Prop
  | .slice n o => n < 4 ∧ o < (640 - g) * gib
  | _ => True

theorem State.place_eq (s : State) (pa : Nat) :
    s.place pa = if pa < 4 * sliceSpan then
        if pa % sliceSpan < (640 - s.fld Fld.globalGib) * gib then .slice (pa / sliceSpan) (pa % sliceSpan) else .unmapped
      else if globalBase ≤ pa ∧ pa < globalBase + 4 * s.fld Fld.globalGib * gib then .window (pa - globalBase)
      else if geodeBase ≤ pa ∧ pa < geodeBase + 160 * 2 ^ 26 then
        .bank ((pa - geodeBase) / 2 ^ 26) ((pa - geodeBase) % 2 ^ 26)
      else .unmapped := rfl

theorem State.place_fits (s : State) (pa : Nat) : (s.place pa).Fits (s.fld Fld.globalGib) := by
  rw [State.place_eq]
  split
  case isTrue hs =>
    split
    case isTrue ho => exact ⟨(Nat.div_lt_iff_lt_mul (by decide)).2 hs, ho⟩
    case isFalse => trivial
  case isFalse =>
    split
    · trivial
    · split <;> trivial

/-- The map sends no two addresses to one place. -/
theorem State.addr_place {s : State} {pa : Nat} (h : s.place pa ≠ .unmapped) : (s.place pa).addr = some pa := by
  revert h
  rw [State.place_eq]
  split
  · split
    · exact fun _ => congrArg some (Nat.div_add_mod' pa sliceSpan)
    · exact fun h => absurd rfl h
  · split
    case isTrue hw => exact fun _ => congrArg some (Nat.add_sub_cancel' hw.1)
    case isFalse =>
      split
      case isTrue hb =>
        refine fun _ => congrArg some ?_
        rw [Nat.add_assoc, Nat.div_add_mod', Nat.add_sub_cancel' hb.1]
      case isFalse => exact fun h => absurd rfl h

/-- Above the slices and the window, however large MEM_LAYOUT makes it, stand the 160 banks of 64 MiB. -/
theorem State.place_bank (s : State) {c o : Nat} (hc : c < 160) (ho : o < 0x04000000) :
    s.place (0x100000000000 + c * 0x04000000 + o) = .bank c o := by
  have hg : s.fld Fld.globalGib < 1024 := s.fld_lt Fld.globalGib
  rw [State.place_eq, if_neg (by unfold sliceSpan; omega), if_neg (by unfold globalBase gib; omega),
    if_pos (by unfold geodeBase; omega), Nat.add_assoc, geodeBase, Nat.add_sub_cancel_left]
  congr 1
  · omega
  · omega

/-! ## The two interleaves (R209, R210) -/

/-- An offset is put together from its 11 low bits, the `w` bits above them and the rest. -/
theorem offset_eq_parts (o w : Nat) : o = (o / 2 ^ (11 + w) * 2 ^ w + bits o 11 w) * 2 ^ 11 + bits o 0 11 := by
  rw [bits, bits, Nat.pow_zero, Nat.div_one, Nat.pow_add, ← Nat.div_div_eq_div_mul, Nat.div_add_mod', Nat.div_add_mod']

/-- The fold is undone by folding once more (a fact of core Lean alone, which is all that a module of the package imports). -/
theorem eq_of_xor_eq_xor {x y z : Nat} (h : x ^^^ z = y ^^^ z) : x = y := by
  have hz : x ^^^ z ^^^ z = y ^^^ z ^^^ z := congrArg (· ^^^ z) h
  rwa [Nat.xor_assoc, Nat.xor_assoc, Nat.xor_self, Nat.xor_zero, Nat.xor_zero] at hz

/-- A field of `w` bits from bit 11 on that is folded with the `w` bits above it comes back from what lies above the fold. -/
theorem interleave_injective {w o p : Nat} (hch : bits o 11 w ^^^ bits o (11 + w) w = bits p 11 w ^^^ bits p (11 + w) w)
    (hoff : o / 2 ^ (11 + w) * 2 ^ 11 + bits o 0 11 = p / 2 ^ (11 + w) * 2 ^ 11 + bits p 0 11) : o = p := by
  have ho := bits_lt o 0 11
  have hp := bits_lt p 0 11
  have hhigh : o / 2 ^ (11 + w) = p / 2 ^ (11 + w) := by omega
  have hlow : bits o 0 11 = bits p 0 11 := by omega
  have hfold : bits o (11 + w) w = bits p (11 + w) w := by rw [bits, bits, hhigh]
  rw [hfold] at hch
  rw [offset_eq_parts o w, offset_eq_parts p w, hhigh, hlow, eq_of_xor_eq_xor hch]

theorem foldedChannel_lt (o lo lo' w : Nat) : bits o lo w ^^^ bits o lo' w < 2 ^ w :=
  Nat.xor_lt_two_pow (bits_lt ..) (bits_lt ..)

theorem Place.subChannel_slice (n o : Nat) :
    (Place.slice n o).subChannel = some (2 * (128 * n + (bits o 11 7 ^^^ bits o 18 7)) + bits o 6 1) := rfl

theorem Place.subChannel_window (o : Nat) :
    (Place.window o).subChannel = some (2 * (bits o 11 9 ^^^ bits o 20 9) + bits o 6 1) := rfl

theorem Place.slice_inj_of_subChannel_chanOff {g n m o p : Nat} (hsub : (Place.slice n o).subChannel = (Place.slice m p).subChannel)
    (hoff : (Place.slice n o).chanOff g = (Place.slice m p).chanOff g) : Place.slice n o = Place.slice m p := by
  rw [Place.subChannel_slice, Place.subChannel_slice, Option.some.injEq] at hsub
  have hbo := bits_lt o 6 1
  have hbp := bits_lt p 6 1
  have hco := foldedChannel_lt o 11 18 7
  have hcp := foldedChannel_lt p 11 18 7
  have hn : n = m := by omega
  have hch : bits o 11 7 ^^^ bits o 18 7 = bits p 11 7 ^^^ bits p 18 7 := by omega
  rw [hn, interleave_injective hch (Option.some.inj hoff)]

theorem Place.window_inj_of_subChannel_chanOff {g o p : Nat} (hsub : (Place.window o).subChannel = (Place.window p).subChannel)
    (hoff : (Place.window o).chanOff g = (Place.window p).chanOff g) : Place.window o = Place.window p := by
  rw [Place.subChannel_window, Place.subChannel_window, Option.some.injEq] at hsub
  have hbo := bits_lt o 6 1
  have hbp := bits_lt p 6 1
  have hch : bits o 11 9 ^^^ bits o 20 9 = bits p 11 9 ^^^ bits p 20 9 := by omega
  rw [interleave_injective hch (Nat.add_left_cancel (Option.some.inj hoff))]

/-- The window begins in each channel above all that the slices take of it. -/
theorem Place.chanOff_slice_ne_window {g n o : Nat} (h : (Place.slice n o).Fits g) (p : Nat) :
    (Place.slice n o).chanOff g ≠ (Place.window p).chanOff g := by
  intro hoff
  have heq : o / 2 ^ 18 * 2 ^ 11 + bits o 0 11 = (640 - g) * 2 ^ 23 + (p / 2 ^ 20 * 2 ^ 11 + bits p 0 11) := Option.some.inj hoff
  have ho : o < (640 - g) * 2 ^ 30 := h.2
  have hlow := bits_lt o 0 11
  omega

/-- A sub-channel and an offset in its channel stand for one place of main memory. -/
theorem Place.eq_of_subChannel_chanOff {g : Nat} {p q : Place} (hp : p.Fits g) (hq : q.Fits g) (hm : p.subChannel.isSome = true)
    (hsub : p.subChannel = q.subChannel) (hoff : p.chanOff g = q.chanOff g) : p = q := by
  cases p with
  | slice n o =>
    cases q with
    | slice m r => exact Place.slice_inj_of_subChannel_chanOff hsub hoff
    | window r => exact absurd hoff (Place.chanOff_slice_ne_window hp r)
    | bank | unmapped => cases hsub
  | window o =>
    cases q with
    | slice m r => exact absurd hoff.symm (Place.chanOff_slice_ne_window hq o)
    | window r => exact Place.window_inj_of_subChannel_chanOff hsub hoff
    | bank | unmapped => cases hsub
  | bank | unmapped => cases hm

theorem Place.subChannel_lt {g k : Nat} {p : Place} (hp : p.Fits g) (h : p.subChannel = some k) : k < 1024 := by
  cases p with
  | slice n o =>
    rw [Place.subChannel_slice, Option.some.injEq] at h
    have hn := hp.1
    have hb := bits_lt o 6 1
    have hc := foldedChannel_lt o 11 18 7
    omega
  | window o =>
    rw [Place.subChannel_window, Option.some.injEq] at h
    have hb := bits_lt o 6 1
    have hc := foldedChannel_lt o 11 20 9
    omega
  | bank | unmapped => cases h

/-- Settles O59: sub-channel and channel offset give back the place, and the place its address. -/
theorem channelsDoNotAlias : Obligations.ChannelsDoNotAlias := by
  refine ⟨fun s a b hm hsub hoff => ?_, fun s a k => Place.subChannel_lt (s.place_fits a), fun s c o => s.place_bank⟩
  have heq := Place.eq_of_subChannel_chanOff (s.place_fits a) (s.place_fits b) hm hsub hoff
  have ha : s.place a ≠ .unmapped := fun h => by
    rw [h] at hm
    cases hm
  have hab := State.addr_place ha
  rw [heq, State.addr_place (heq ▸ ha)] at hab
  exact (Option.some.inj hab).symm

/-! ## The DMA queue (R234, R236, R237) -/

section
variable {s v : State} {core op : Nat} {q : QEntry} {work : Nat → Nat → DmaBody → Exec Unit}

theorem State.runDma_of_moved (h : s.atDma core op q) (hw : (work core q.ctx (dmaBody q.desc)) s = (.ok (), v)) :
    s.runDma core q.id op work = v.dmaMoved q := by
  obtain ⟨he, hr⟩ := h
  rw [State.runDma, he]
  dsimp only
  rw [if_pos hr, hw]
  rfl

theorem State.runDma_of_fault (h : s.atDma core op q) {code phys : Nat}
    (hw : (work core q.ctx (dmaBody q.desc)) s = (.error (.fault code phys), v)) :
    s.runDma core q.id op work = ({ v with core := { v.core with dmaq := v.core.dmaq.filter fun x => x.id != q.id } } : State).raiseCtx
      { code := code, core := some core, phys := phys, tileId := BitVec.ofNat 32 (dTileId q.desc)
        layerTag := BitVec.ofNat 16 (dLayerTag q.desc) } q.ctx := by
  obtain ⟨he, hr⟩ := h
  rw [State.runDma, he]
  dsimp only
  rw [if_pos hr, hw]

end

section
variable {s : State} {at_ core id : Nat}

theorem exec_dmaLanded_of_moved {q : QEntry}
    (h : (s.advanceTo at_).core.dmaq.find? (fun q => q.core == core && q.id == id && q.moved) = some q) :
    let u := s.advanceTo at_
    exec (.dmaLanded at_ core id) s = .next
      (({ u with core := { u.core with dmaq := u.core.dmaq.filter fun x => x.id != id } } : State).signalHeader q.ctx core q.desc) := by
  refine congrArg Host.Outcome.next ?_
  rw [dmaLanded, h]

theorem exec_dmaLanded_of_not_moved
    (h : (s.advanceTo at_).core.dmaq.find? (fun q => q.core == core && q.id == id && q.moved) = none) :
    exec (.dmaLanded at_ core id) s = .next (s.advanceTo at_) := by
  refine congrArg Host.Outcome.next ?_
  rw [dmaLanded, h]

end

/-- Settles O26: the three commands run one entry of the queue with the work of their operation, and DMA_LANDED finds an entry that
has moved or none. -/
theorem dmaMoves : Obligations.DmaMoves := by
  refine ⟨fun s v core q => ⟨fun h hw => ?copy, fun h hw => ?transpose, fun h hw => ?fill, fun h code phys hw => ?fault⟩,
    fun s at_ core id q => ⟨exec_dmaLanded_of_moved, exec_dmaLanded_of_not_moved⟩⟩
  case copy => exact congrArg Host.Outcome.next (State.runDma_of_moved h hw)
  case transpose => exact congrArg Host.Outcome.next (State.runDma_of_moved h hw)
  case fill => exact congrArg Host.Outcome.next (State.runDma_of_moved h hw)
  case fault => exact congrArg Host.Outcome.next (State.runDma_of_fault h hw)

/-! ## Scrub and bursts (R223, R224, R588) -/

section
variable {s : State} {at_ : Nat}

/-- A read inside a pass of the scrub. -/
theorem exec_patrolScrub_in_pass {pa : Nat} (he : (s.advanceTo at_).flag Fld.scrubEn = true)
    (hp : (s.advanceTo at_).scrubbable pa = true) (ha : (s.advanceTo at_).flag Fld.scrubActive = true)
    (hn : (s.advanceTo at_).now < (s.advanceTo at_).mem.scrubStart + hours ((s.advanceTo at_).fld Fld.scrubPeriod)) (last : Bool) :
    let v := (s.advanceTo at_).readCheck pa fun _ => true
    exec (.patrolScrub at_ pa last) s = .next (if last then v.setFld Fld.scrubActive 0 else v) := by
  refine congrArg Host.Outcome.next ((if_pos ⟨he, hp⟩).trans ?_)
  have hpass : ¬((s.advanceTo at_).flag Fld.scrubActive = false
      ∨ (s.advanceTo at_).mem.scrubStart + hours ((s.advanceTo at_).fld Fld.scrubPeriod) ≤ (s.advanceTo at_).now) := by
    rintro (h | h)
    · exact Bool.false_ne_true (h.symm.trans ha)
    · exact Nat.not_lt_of_le h hn
  rw [if_neg hpass]

theorem exec_patrolScrub_of_off (he : (s.advanceTo at_).flag Fld.scrubEn = false) (pa : Nat) (last : Bool) :
    exec (.patrolScrub at_ pa last) s = .next (s.advanceTo at_) :=
  congrArg Host.Outcome.next (if_neg fun h => Bool.false_ne_true (he.symm.trans h.1))

theorem exec_frameCountRestart_of_due (he : (s.advanceTo at_).flag Fld.scrubEn = false)
    (hd : (s.advanceTo at_).periodsTo (s.advanceTo at_).mem.scrubStart < (s.advanceTo at_).periodsTo (s.advanceTo at_).now) :
    let u := s.advanceTo at_
    exec (.frameCountRestart at_) s = .next { u with mem := { u.mem with frameCe := [], scrubStart := u.now } } :=
  congrArg Host.Outcome.next (if_pos ⟨he, hd⟩)

theorem exec_frameCountRestart_of_on (he : (s.advanceTo at_).flag Fld.scrubEn = true) :
    exec (.frameCountRestart at_) s = .next (s.advanceTo at_) :=
  congrArg Host.Outcome.next (if_neg fun h => Bool.false_ne_true (h.1.symm.trans he))

/-- A burst that has not been reported yet, under the default policy. -/
theorem exec_channelBurst_of_burst {ch : Nat} (hc : 64 < (s.advanceTo at_).burstCount ch)
    (hb : SMap.get (fun _ => false) (s.advanceTo at_).mem.bursting ch = false) (hch : ch < 512)
    (hp : (s.advanceTo at_).policy 0x0113 = 0) :
    let u := s.advanceTo at_
    let v := ({ u with mem := { u.mem with bursting := SMap.put (fun _ => false) u.mem.bursting ch true } } : State).report
      { code := 0x0113, index := ch }
    exec (.channelBurst at_ ch) s = .next { v with mem := { v.mem with retraining := v.mem.retraining ++ [(ch, v.now)] } } := by
  refine congrArg Host.Outcome.next ((if_pos ⟨hc, hb, hch⟩).trans ?_)
  have h6 : (s.advanceTo at_).policy 0x0113 ≠ 6 := by
    rw [hp]
    decide
  exact (if_neg h6).trans (if_pos hp)

theorem exec_channelBurst_of_few {ch : Nat} (hc : (s.advanceTo at_).burstCount ch ≤ 64) :
    exec (.channelBurst at_ ch) s = .next (s.advanceTo at_) :=
  congrArg Host.Outcome.next (if_neg fun h => Nat.not_lt_of_le hc h.1)

end

/-! ## Invalidation (R231) -/

section
variable {s : State} {value : Word}

theorem exec_tlbInvalidate_host (ha : s.admits .host Reg.mem = true) :
    exec (.tlbInvalidate .host value) s = .next (s.setFld Fld.hostWrReject 1) :=
  congrArg Host.Outcome.next (if_neg fun h => Bool.false_ne_true (h.symm.trans ha))

theorem exec_tlbInvalidate_flint (ha : s.admits .flint Reg.mem = true) :
    exec (.tlbInvalidate .flint value) s = .next (s.invalidateWrite value.toNat) :=
  congrArg Host.Outcome.next (if_neg fun h => Bool.false_ne_true (h.symm.trans ha))

theorem State.invalidateWrite_of_go {v : Nat} (hs : bits v 29 2 ≠ 3) (hg : bit v 31 = true) (hb : s.flag Fld.invBusy = false) :
    let t := s.setFld Fld.invBusy 1
    s.invalidateWrite v = { t with mem := { t.mem with
      inval := some (bits v 29 2, bits v 26 3, bits v 0 2 * 2 ^ 46 + (s.rd Reg.memTlbInvLo).toNat * 2 ^ 14) } } :=
  (if_neg hs).trans (if_pos ⟨hg, hb⟩)

theorem exec_invalidateDone_of_some {at_ : Nat} {v : Nat × Nat × Nat} (h : (s.advanceTo at_).mem.inval = some v) :
    let u := s.advanceTo at_
    exec (.invalidateDone at_) s = .next
      (({ u with mem := { u.mem with tlb := u.mem.tlb.filter fun e => !invalidates v e, inval := none } } : State).setFld
        Fld.invBusy 0) := by
  refine congrArg Host.Outcome.next ?_
  rw [invalidateDone]
  dsimp only
  rw [h]

/-! ## Layout (R214) -/

theorem exec_memLayoutWrite_host (ha : s.admits .host Reg.mem = true) :
    exec (.memLayoutWrite .host value) s = .next (s.setFld Fld.hostWrReject 1) :=
  congrArg Host.Outcome.next (if_neg fun h => Bool.false_ne_true (h.symm.trans ha))

theorem exec_memLayoutWrite_flint (ha : s.admits .flint Reg.mem = true) :
    exec (.memLayoutWrite .flint value) s = .next (s.layoutWrite value) :=
  congrArg Host.Outcome.next (if_neg fun h => Bool.false_ne_true (h.symm.trans ha))

/-- The sum of the two fields is judged as written: the mask keeps both whole. -/
theorem layoutOk_masked_of_over (h : 633 < bits value.toNat 0 10 + bits value.toNat 16 10) :
    layoutOk (value &&& 0x03FF03FF#32).toNat = false := by
  rw [layoutOk, bits_and_of_mask (by decide), bits_and_of_mask (by decide), decide_eq_false (Nat.not_le_of_lt h), Bool.and_false]

theorem State.flag_setFld_zero (h : SMap.wf Reg.resetWord s.regs = true) {f : Fld} (hf : f.lo + f.width ≤ 32) :
    (s.setFld f 0).flag f = false := by
  rw [State.flag, State.fld_setFld_same h f 0 hf, Nat.zero_mod]
  rfl

variable (hc : value &&& 0x03FF03FF#32 ≠ s.rd Reg.memLayout)
include hc

theorem State.layoutWrite_of_rejected (h : s.anyCtx = true ∨ layoutOk (value &&& 0x03FF03FF#32).toNat = false) :
    s.layoutWrite value = s.setFld Fld.memCfgReject 1 :=
  (if_neg hc).trans (if_pos h)

/-- An accepted layout is stored, ends the buddy image and begins another epoch of main memory; no other memory changes. -/
theorem State.layoutWrite_of_accepted (ha : s.anyCtx = false) (hl : layoutOk (value &&& 0x03FF03FF#32).toNat = true) :
    ∃ m : MemSt, s.layoutWrite value = ({ s.wr Reg.memLayout (value &&& 0x03FF03FF#32) with mem := m } : State).setFld Fld.buddyValid 0
      ∧ m.mainEpoch = s.mem.mainEpoch + 1 ∧ m.ls = s.mem.ls ∧ m.host = s.mem.host := by
  have hok : ¬(s.anyCtx = true ∨ layoutOk (value &&& 0x03FF03FF#32).toNat = false) := by
    rw [ha, hl]
    decide
  exact ⟨_, (if_neg hc).trans (if_neg hok), rfl, rfl, rfl⟩

end

/-- Settles O31: each clause is one case of its command. -/
theorem memoryService : Obligations.MemoryService := by
  refine ⟨fun s at_ pa ch => ⟨fun he hp ha hn => ?scrub, fun he => exec_patrolScrub_of_off he pa, exec_frameCountRestart_of_due,
    exec_frameCountRestart_of_on, exec_channelBurst_of_burst, exec_channelBurst_of_few⟩,
    fun s value => ⟨fun ha => ⟨exec_tlbInvalidate_host ha, exec_memLayoutWrite_host ha⟩, fun ha => ?flint⟩,
    fun s at_ v => exec_invalidateDone_of_some⟩
  case scrub => exact ⟨exec_patrolScrub_in_pass he hp ha hn true, exec_patrolScrub_in_pass he hp ha hn false⟩
  case flint =>
    rw [exec_tlbInvalidate_flint ha, exec_memLayoutWrite_flint ha]
    refine ⟨fun h => ?_, fun hs hg hb => ?_, fun h hc => ?_, fun h hc => ?_, fun h hl hc hs => ?_⟩
    · exact congrArg Host.Outcome.next (if_pos h)
    · exact congrArg Host.Outcome.next (State.invalidateWrite_of_go hs hg hb)
    · exact congrArg Host.Outcome.next (State.layoutWrite_of_rejected hc (.inl h))
    · exact congrArg Host.Outcome.next (State.layoutWrite_of_rejected hc (.inr (layoutOk_masked_of_over h)))
    · obtain ⟨m, hw, hmain, hls, hhost⟩ := State.layoutWrite_of_accepted hc h hl
      refine ⟨_, congrArg Host.Outcome.next hw, ?_, ?_, hmain, hls, hhost⟩
      · exact (State.setFld_rd_ne _ _ _ (by decide)).trans (State.rd_wr_same hs.regs _ _)
      · exact State.flag_setFld_zero (State.wr_canonical hs.regs _ _) (by decide)

end Sys2Proof.Machine

namespace Sys2Proof.Machine

/-! ## How Flint serves one fault (R258, R259, log entry 30) -/

section
variable {s : State} {c q va e : Nat} {rest : List Level}

theorem State.serveFault_of_mapped (h : s.gap c va = none) : s.serveFault c q va = some s := by
  rw [State.serveFault, h]

theorem State.serveFault_of_stuck (h : s.gap c va = some (e, rest))
    (hn : (s.freeFrames c).length ≤ rest.length ∨ s.protectedAt e = true) : s.serveFault c q va = none := by
  rw [State.serveFault, h]
  exact if_pos hn

/-- The frames suffice for the missing tables and the leaf, and no epoch protects the entry. -/
theorem State.serveFault_of_frames {frames : List Nat} (h : s.gap c va = some (e, rest)) (hfree : s.freeFrames c = frames)
    (hf : rest.length < frames.length) (hp : s.protectedAt e = false) :
    s.serveFault c q va = some (s.mapDown c q va e rest frames) := by
  rw [State.serveFault, h]
  dsimp only
  rw [hfree, hp]
  refine if_neg fun hn => ?_
  rcases hn with hn | hn
  · exact Nat.not_le_of_lt hf hn
  · exact Bool.false_ne_true hn

end

/-! ## The frame map (R258 to R260) -/

section
variable {s : State} {at_ ctx : Nat}

/-- No fault of the context is left that has not been lost. -/
theorem exec_kvFrameMap_of_none_waits (h : ∀ w ∈ (s.advanceTo at_).kv.waits, w.ctx = ctx → w.lost = true) :
    exec (.kvFrameMap at_ ctx) s = .next (s.advanceTo at_) := by
  have hnone : ((s.advanceTo at_).kv.waits.find? fun w => w.ctx == ctx && !w.lost && !(s.advanceTo at_).err.flintDown) = none :=
    List.find?_eq_none.mpr fun w hw => by
      by_cases hc : w.ctx = ctx
      · simp [h w hw hc]
      · simp [hc]
  refine congrArg Host.Outcome.next ?_
  rw [kvFrameMap, hnone]

variable {w : KvWait}
  (hw : ((s.advanceTo at_).kv.waits.find? fun w => w.ctx == ctx && !w.lost && !(s.advanceTo at_).err.flintDown) = some w)
include hw

theorem exec_kvFrameMap_of_served {t : State} (h : (s.advanceTo at_).serveFault ctx w.slot w.va = some t) :
    exec (.kvFrameMap at_ ctx) s = .next (t.kvWake fun x => x.ctx == ctx && x.va == w.va && !x.lost) := by
  refine congrArg Host.Outcome.next ?_
  rw [kvFrameMap, hw]
  dsimp only
  rw [h]

theorem exec_kvFrameMap_of_unserved (h : (s.advanceTo at_).serveFault ctx w.slot w.va = none) :
    exec (.kvFrameMap at_ ctx) s = .next (s.advanceTo at_) := by
  refine congrArg Host.Outcome.next ?_
  rw [kvFrameMap, hw]
  dsimp only
  rw [h]

end

/-! ## Lost faults, releases and replays (R254, R260, R265) -/

section
variable {s : State} {at_ : Nat}

theorem exec_kvFull_of_lost {slot : Nat} {w : KvWait}
    (hw : ((s.advanceTo at_).kv.waits.find? fun w => w.slot == slot && w.lost) = some w) :
    exec (.kvFull at_ slot) s = .next ((s.advanceTo at_).failPage w.ctx w.core slot 0x0501 (bits w.va 16 24)) := by
  refine congrArg Host.Outcome.next ?_
  rw [kvFull, hw]

theorem exec_kvFull_of_none_lost {slot : Nat} (h : ∀ w ∈ (s.advanceTo at_).kv.waits, w.slot = slot → w.lost = false) :
    exec (.kvFull at_ slot) s = .next (s.advanceTo at_) := by
  have hnone : ((s.advanceTo at_).kv.waits.find? fun w => w.slot == slot && w.lost) = none :=
    List.find?_eq_none.mpr fun w hw => by
      by_cases hq : w.slot = slot
      · simp [h w hw hq]
      · simp [hq]
  refine congrArg Host.Outcome.next ?_
  rw [kvFull, hnone]

theorem exec_kvSubslotRelease_of_up (h : (s.advanceTo at_).err.flintDown = false) :
    let u := s.advanceTo at_
    exec (.kvSubslotRelease at_) s = .next
      (u.kv.posted.foldl (fun s (p : Nat × Nat) => s.releaseSubslot p.1 p.2) { u with kv := { u.kv with posted := [] } }) :=
  congrArg Host.Outcome.next (if_neg fun hd => Bool.false_ne_true (h.symm.trans hd))

variable {core n odd va : Nat} (hs : ((s.advanceTo at_).stream core n).state = .waiting)
  (hf : ((s.advanceTo at_).stream core n).waitFor = .kvVersion odd va)
include hs hf

theorem exec_kvVersionReplay_of_version {v : Nat}
    (hv : (s.advanceTo at_).peekVersion core ((s.advanceTo at_).stream core n).ctx va = some v) :
    exec (.kvVersionReplay at_ core n) s = .next (if v % 2 = 0 then (s.advanceTo at_).wake core n else s.advanceTo at_) := by
  refine congrArg Host.Outcome.next ?_
  rw [kvVersionReplay, hs, hf]
  dsimp only
  rw [hv]

theorem exec_kvVersionReplay_of_unreadable
    (hv : (s.advanceTo at_).peekVersion core ((s.advanceTo at_).stream core n).ctx va = none) :
    exec (.kvVersionReplay at_ core n) s = .next ((s.advanceTo at_).wake core n) := by
  refine congrArg Host.Outcome.next ?_
  rw [kvVersionReplay, hs, hf]
  dsimp only
  rw [hv]

end

/-- Settles O28: each clause is one case of its command. What the frame map does is what serving the fault answers: nothing to map,
frames that do not suffice, or a leaf after the tables that are missing (log entry 30). -/
theorem kvService : Obligations.KvService := by
  refine fun s at_ ctx slot core n => ⟨fun w hw => ⟨fun hg => ?mapped, fun e rest hg => ⟨fun hn => ?stuck,
      fun hp pa frames hfree => ⟨fun hr => ?leaf, fun l more hr hlen => ?table⟩⟩⟩, fun w hw => exec_kvFull_of_lost hw,
    exec_kvFrameMap_of_none_waits, exec_kvFull_of_none_lost, exec_kvSubslotRelease_of_up,
    fun odd va hs hf => ⟨fun v hv => exec_kvVersionReplay_of_version hs hf hv, exec_kvVersionReplay_of_unreadable hs hf⟩⟩
  case mapped => exact exec_kvFrameMap_of_served hw (State.serveFault_of_mapped hg)
  case stuck => exact exec_kvFrameMap_of_unserved hw (State.serveFault_of_stuck hg hn)
  case leaf =>
    subst hr
    exact exec_kvFrameMap_of_served hw (State.serveFault_of_frames hg hfree (Nat.succ_pos _) hp)
  case table =>
    subst hr
    exact exec_kvFrameMap_of_served hw (State.serveFault_of_frames hg hfree (Nat.succ_lt_succ hlen) hp)

end Sys2Proof.Machine

namespace Sys2Proof.Machine

/-! ## The table of lease answers (R325, R326) -/

section
variable {x : Shard} {bwd mode version held : Nat}

/-- The shard can be leased: it is valid and stable, at the version asked for, and its count has room. -/
theorem leaseAnswer_take_of_leasable (h : x.valid = true ∧ x.state = 0 ∧ x.version.toNat = version ∧ x.leases < 65535) :
    leaseAnswer x bwd 0 version held = (lrHeld, { x with leases := x.leases + 1 }) := by
  obtain ⟨hvalid, hstate, hversion, hroom⟩ := h
  simp [leaseAnswer, hvalid, hstate, hversion, hroom]

theorem leaseAnswer_take_of_not_leasable (h : ¬(x.valid = true ∧ x.state = 0 ∧ x.version.toNat = version ∧ x.leases < 65535)) :
    ∃ r, leaseAnswer x bwd 0 version held = (r, x) ∧ (r = lrRefused ∨ r = lrFull) := by
  by_cases hno : x.valid = false ∨ x.state ≠ 0 ∨ x.version.toNat ≠ version
  · exact ⟨lrRefused, (if_pos rfl).trans (if_pos hno), .inl rfl⟩
  · have hfull : ¬x.leases < 65535 := fun hroom => h (by simpa [hroom] using hno)
    exact ⟨lrFull, (if_pos rfl).trans ((if_neg hno).trans (if_neg hfull)), .inr rfl⟩

theorem leaseAnswer_of_forbidden : leaseAnswer x 1 2 version held = (lrRange, x) := rfl

theorem leaseAnswer_of_stale (hl : x.leases ≠ 0) (hv : version ≠ held) :
    leaseAnswer x bwd 1 version held = (lrStale, { x with leases := x.leases - 1 }) := by
  simp [leaseAnswer, hl, hv]

/-- A count of 0 stays 0: the subtraction of naturals ends there. -/
theorem leaseAnswer_of_released (hm : mode ≠ 0) (hr : ¬(mode = 2 ∧ bwd = 1)) (hs : ¬(mode = 1 ∧ x.leases ≠ 0 ∧ version ≠ held)) :
    leaseAnswer x bwd mode version held = (lrReleased, { x with leases := x.leases - 1 }) := by
  refine (if_neg hm).trans ((if_neg hr).trans ?_)
  by_cases hl : x.leases = 0
  · have hsame : x = { x with leases := x.leases - 1 } := by
      rw [hl, Nat.zero_sub, ← hl]
    exact (if_pos hl).trans (congrArg (Prod.mk lrReleased) hsame)
  · exact (if_neg hl).trans (if_neg fun h => hs ⟨h.1, hl, h.2⟩)

end

/-- Settles O33: a lease is held or not, a return is forbidden, stale or released; each of the five answers decides every clause. -/
theorem leaseAnswers : Obligations.LeaseAnswers := by
  intro x bwd mode version held
  by_cases hm : mode = 0
  · subst hm
    by_cases hh : x.valid = true ∧ x.state = 0 ∧ x.version.toNat = version ∧ x.leases < 65535
    · rw [leaseAnswer_take_of_leasable hh]
      simp [lrHeld, lrRange, lrStale, hh]
    · obtain ⟨r, h, hr⟩ := leaseAnswer_take_of_not_leasable (bwd := bwd) (held := held) hh
      have hout : r ≠ lrHeld ∧ r ≠ lrRange ∧ r ≠ lrStale := by
        rcases hr with rfl | rfl <;> decide
      rw [h]
      simp only [hh]
      simp [hout]
  · by_cases hr : mode = 2 ∧ bwd = 1
    · obtain ⟨rfl, rfl⟩ := hr
      rw [leaseAnswer_of_forbidden]
      simp [lrRange, lrStale]
    · by_cases hs : mode = 1 ∧ x.leases ≠ 0 ∧ version ≠ held
      · obtain ⟨rfl, hl, hv⟩ := hs
        rw [leaseAnswer_of_stale hl hv]
        simp [lrRange, lrStale, hl, hv]
      · rw [leaseAnswer_of_released hm hr hs]
        simp only [hm, hr, hs]
        simp [lrRange, lrStale, lrReleased]

/-! ## Updates of a shard (R311, R315) -/

section
variable {s v : State} {core : Nat} {q : QEntry} {j : WsJob}

theorem exec_wsUpdate_of_job (hq : s.wsEntry core q.id 0x81 = some q) (hj : s.ws.jobs.find? (fun j => j.id == q.id) = some j) :
    exec (.wsUpdate core q.id) s = .next (s.wsGo q j) := by
  refine congrArg Host.Outcome.next ?_
  rw [wsUpdate, hq]
  dsimp only
  rw [hj]

/-- The hub accepts the descriptor: the shard takes the format of its parameters (log entry 42), the first one of an update begins the
draining, and the blocks are treated at once where the shard is updating already (log entry 66). -/
theorem exec_wsUpdate_of_accepted (hq : s.wsEntry core q.id 0x81 = some q)
    (hj : s.ws.jobs.find? (fun j => j.id == q.id) = none) (ha : (wsAccept q (wsBody q.desc)) s = (.ok j, v)) :
    let b := wsBody q.desc
    let x := { v.shard q.ctx b.shard with pFmt := some (BitVec.ofNat 1 (b2n b.f16)) }
    let w := (if b.first then
        (v.setShard q.ctx b.shard { x with state := 1, drainAt := v.ticksOf q.ctx }).setFld Fld.fosUpdated 1
      else v.setShard q.ctx b.shard x).drain q.ctx b.shard
    exec (.wsUpdate core q.id) s = .next (({ w with ws := { w.ws with jobs := w.ws.jobs ++ [j] } } : State).wsGo q j) := by
  refine congrArg Host.Outcome.next ?_
  rw [wsUpdate, hq]
  dsimp only
  rw [hj, ha]

end

section
variable {s : State} {at_ core : Nat} {q : QEntry} {j : WsJob}

/-- The descriptor has left the queue, and its update the updates in flight. -/
theorem exec_wsUpdateWriteback_of_ran (hq : (s.advanceTo at_).wsEntry core q.id 0x81 = some q)
    (hj : (s.advanceTo at_).ws.jobs.find? (fun j => j.id == q.id && j.ran) = some j) :
    let u := s.advanceTo at_
    let w : State := { u with
      core := { u.core with wsq := u.core.wsq.filter fun x => x.id != q.id }
      ws := { u.ws with jobs := u.ws.jobs.filter fun x => x.id != q.id } }
    exec (.wsUpdateWriteback at_ core q.id) s = .next
      (((w.addNorms j (dLayerTag q.desc)).afterUpdate j (wsBody q.desc).last (dLayerTag q.desc)).finishEntry q j.tally) := by
  refine congrArg Host.Outcome.next ?_
  rw [wsUpdateWriteback, hq, hj]

end

/-! ## Draining (R315, R327) -/

section
variable {s : State} {at_ ctx n : Nat}

@[simp] theorem State.setShard_jobs (x : Shard) : (s.setShard ctx n x).ws.jobs = s.ws.jobs := rfl

theorem State.drain_of_unleased (hs : (s.shard ctx n).state = 1) (hl : (s.shard ctx n).leases = 0) :
    s.drain ctx n = s.setShard ctx n { s.shard ctx n with state := 2 } :=
  if_pos ⟨hs, hl⟩

theorem exec_shardDrainComplete_of_unleased (hs : ((s.advanceTo at_).shard ctx n).state = 1)
    (hl : ((s.advanceTo at_).shard ctx n).leases = 0)
    (hj : (s.advanceTo at_).ws.jobs.filter (fun j => j.ctx == ctx && j.shard == n) = []) :
    let u := s.advanceTo at_
    exec (.shardDrainComplete at_ ctx n) s = .next (u.setShard ctx n { u.shard ctx n with state := 2 }) := by
  refine congrArg Host.Outcome.next ((if_pos ⟨hs, hl⟩).trans ?_)
  rw [State.drain_of_unleased hs hl, State.setShard_jobs, hj, List.foldl_nil]

theorem exec_shardDrainComplete_of_not_draining (hs : ((s.advanceTo at_).shard ctx n).state ≠ 1) :
    exec (.shardDrainComplete at_ ctx n) s = .next (s.advanceTo at_) :=
  congrArg Host.Outcome.next (if_neg fun h => hs h.1)

/-- No update of the shard is in flight, so that the fault names the context alone. -/
theorem exec_leaseHeld_of_due (hs : ((s.advanceTo at_).shard ctx n).state = 1) (hl : 0 < ((s.advanceTo at_).shard ctx n).leases)
    (hd : ((s.advanceTo at_).shard ctx n).drainAt + 2 ≤ (s.advanceTo at_).ticksOf ctx)
    (hj : (s.advanceTo at_).ws.jobs.find? (fun j => j.ctx == ctx && j.shard == n) = none) :
    let u := s.advanceTo at_
    exec (.leaseHeld at_ ctx n) s
      = .next ((u.setShard ctx n { u.shard ctx n with state := 0 }).raiseCtx { code := 0x0253 } ctx) := by
  refine congrArg Host.Outcome.next ((if_pos ⟨hs, hl, hd⟩).trans ?_)
  rw [State.setShard_jobs, hj]

theorem exec_leaseHeld_of_unleased (hl : ((s.advanceTo at_).shard ctx n).leases = 0) :
    exec (.leaseHeld at_ ctx n) s = .next (s.advanceTo at_) :=
  congrArg Host.Outcome.next (if_neg fun h => Nat.ne_of_gt h.2.1 hl)

end

/-! ## Leases and their replies (R324 to R328, R402) -/

section
variable {s v : State} {at_ core : Nat} {q : QEntry}

theorem exec_wsLease_of_sent {l : List LeaseMsg} (hq : s.wsEntry core q.id 0x82 = some q) (hm : q.moved = false)
    (hl : (leaseMessages q (leaseBody q.desc)) s = (.ok l, v)) :
    let w : State := { v with
      ws := { v.ws with asked := v.ws.asked ++ l }
      core := { v.core with wsq := v.core.wsq.map (fun (x : QEntry) => if x.id = q.id then { x with moved := true } else x) } }
    exec (.wsLease core q.id) s = .next
      ((l.foldl (fun s m => s.leaseSend m.ctx m.home (leaseWord false m.shard m.mode m.version m.held 0)) w).leaseDone q) := by
  refine congrArg Host.Outcome.next ?_
  rw [wsLease, hq]
  dsimp only
  rw [if_neg fun h => Bool.false_ne_true (hm.symm.trans h), hl]

/-- A lease (mode 0) is never a stray return, so that the shard takes the answer's count. -/
theorem exec_leaseMessage_take (ctx g n version held : Nat) :
    let u := s.advanceTo at_
    let r := leaseAnswer (u.shard ctx n) ((u.ctxAt ctx).bwdMode (u.shard ctx n).layer) 0 version held
    let w := u.setShard ctx n r.2
    let x : LeaseOut := { gatherer := g, shard := n, result := r.1 }
    exec (.leaseMessage at_ ctx g n 0 version held) s
      = .next (({ w with ws := { w.ws with replies := w.ws.replies ++ [x] } } : State).leaseSend ctx g
        (leaseWord true n 0 0 0 r.1)) := by
  refine congrArg Host.Outcome.next ?_
  rw [leaseMessage]
  dsimp only
  rw [if_neg fun h => h.1 rfl]

variable {entry : Nat} {m : LeaseMsg} (hq : (s.advanceTo at_).wsEntry core q.id 0x82 = some q)
  (hm : (s.advanceTo at_).ws.asked.find? (fun m => m.id == q.id && m.entry == entry) = some m)
include hq hm

theorem exec_leaseReply_range :
    exec (.leaseReply at_ core q.id entry lrRange) s = .next ((s.advanceTo at_).wsFault q 0x0207 0) := by
  refine congrArg Host.Outcome.next ?_
  rw [leaseReply, hq, hm]
  exact if_pos rfl

theorem exec_leaseReply_of_waits {result : Nat} (hr : result ≠ lrRange) (hw : (s.advanceTo at_).leaseWaits q entry = true) :
    exec (.leaseReply at_ core q.id entry result) s = .next (s.advanceTo at_) := by
  refine congrArg Host.Outcome.next ?_
  rw [leaseReply, hq, hm]
  exact (if_neg hr).trans (if_pos hw)

/-- A lease that is held is written to its entry, and the descriptor ends if it was the last. -/
theorem exec_leaseReply_held (hw : (s.advanceTo at_).leaseWaits q entry = false)
    (hv : (leaseWrite m lrHeld ((leaseBody q.desc).list.plus (16 * entry))) (s.advanceTo at_) = (.ok (), v))
    (hf : v.ctxState q.ctx ≠ csFaulted) :
    exec (.leaseReply at_ core q.id entry lrHeld) s = .next
      (({ v with ws := { v.ws with asked := v.ws.asked.filter fun x => !(x.id == q.id && x.entry == entry) } } : State).leaseDone
        q) := by
  refine congrArg Host.Outcome.next ?_
  rw [leaseReply, hq, hm]
  dsimp only
  rw [if_neg (by decide : lrHeld ≠ lrRange), if_neg fun h => Bool.false_ne_true (hw.symm.trans h), hv]
  dsimp only
  rw [if_neg (by decide : lrHeld ≠ lrFull), if_neg (by decide : ¬(lrHeld = lrRefused ∨ lrHeld = lrStale))]
  exact if_neg hf

end

/-! ## Seals (R310) -/

theorem exec_wsSeal_of_written {s v : State} {core : Nat} {q : QEntry} (hq : s.wsEntry core q.id 0x83 = some q)
    (hv : (hubWrite q.ctx (fieldAt q.desc 16 0 48 + 4) (sealBytes (s.ctxAt q.ctx).stepFlags (s.ctxAt q.ctx).repeatBit) false
      (some 0x0207)) s = (.ok (), v)) :
    let w := v.setCtx q.ctx { v.ctxAt q.ctx with stepFlags := 0, repeatBit := false, sealed_ := true }
    exec (.wsSeal core q.id) s = .next
      (({ w with core := { w.core with wsq := w.core.wsq.filter fun y => y.id != q.id } } : State).signalHeader q.ctx core
        q.desc) := by
  refine congrArg Host.Outcome.next ?_
  rw [wsSeal, hq]
  dsimp only
  rw [hv]

/-- Settles O32: each clause is one case of its command; an accepted update falls into two by whether it is the first of its shard. -/
theorem whetstoneRuns : Obligations.WhetstoneRuns := by
  refine ⟨⟨fun s v core q j hq => ⟨exec_wsUpdate_of_job hq, fun hj ha hf => ?next, fun hj ha hf => ?first⟩,
      fun s at_ core q j => exec_wsUpdateWriteback_of_ran,
      fun s at_ ctx n => ⟨exec_shardDrainComplete_of_unleased, exec_shardDrainComplete_of_not_draining, exec_leaseHeld_of_due,
        exec_leaseHeld_of_unleased⟩⟩,
    fun s v core q l => exec_wsLease_of_sent, fun s at_ ctx g n version held => exec_leaseMessage_take ctx g n version held,
    fun s at_ core entry q m hq hm => ⟨exec_leaseReply_range hq hm, exec_leaseReply_of_waits hq hm (by decide),
      fun v => exec_leaseReply_held hq hm⟩,
    fun s v core q => exec_wsSeal_of_written⟩
  case next =>
    have h := exec_wsUpdate_of_accepted hq hj ha
    dsimp only at h
    rwa [if_neg fun ht => Bool.false_ne_true (hf.symm.trans ht)] at h
  case first =>
    have h := exec_wsUpdate_of_accepted hq hj ha
    dsimp only at h
    rwa [if_pos hf] at h

end Sys2Proof.Machine

namespace Sys2Proof.Machine

/-! ## The number that a discarding port expects (R351, R352) -/

/-- What the receiver of a port has to know of the flit to come: whether it discards until then, and the flit's number. -/
def Port.rx (b : Port) : Bool × Nat := (b.discard, b.rxNext)

theorem Port.rx_ite {a b : Port} {x : Bool × Nat} {c : Prop} [Decidable c] (ha : a.rx = x) (hb : b.rx = x) :
    (if c then a else b).rx = x := by
  split
  · exact ha
  · exact hb

/-- Every port that discards in `s` discards in `t`, until the same number. A port that discards is no default of the map of ports, so
that it reads back in any map. -/
structure DiscardsOn (s t : State) : Prop where
  rx : ∀ p, (s.port p).discard = true → (t.port p).rx = (s.port p).rx

theorem DiscardsOn.of_ports {s t : State} (h : t.vein.ports = s.vein.ports) : DiscardsOn s t :=
  ⟨fun p _ => congrArg (fun m => Port.rx (SMap.get (fun _ => {}) m p)) h⟩

theorem DiscardsOn.refl (s : State) : DiscardsOn s s := DiscardsOn.of_ports rfl

theorem DiscardsOn.trans {s t u : State} (h : DiscardsOn s t) (g : DiscardsOn t u) : DiscardsOn s u :=
  ⟨fun p hp => (g.rx p ((congrArg Prod.fst (h.rx p hp)).trans hp)).trans (h.rx p hp)⟩

theorem DiscardsOn.ite {s t u : State} {c : Prop} [Decidable c] (h : DiscardsOn s t) (g : DiscardsOn s u) :
    DiscardsOn s (if c then t else u) := by
  split
  · exact h
  · exact g

theorem State.port_setPort_of_discard (s : State) (p : Nat) {b : Port} (h : b.discard = true) : (s.setPort p b).port p = b :=
  SMap.get_put_of_ne_default fun hb => Bool.noConfusion (h.symm.trans (congrArg Port.discard hb))

theorem State.port_setPort_ne (s : State) {p i : Nat} (h : i ≠ p) (b : Port) : (s.setPort p b).port i = s.port i :=
  SMap.get_put_of_ne h

/-- A port that is replaced by one with the same receiver. -/
theorem State.setPort_discardsOn {s : State} {p : Nat} {b : Port} (h : b.rx = (s.port p).rx) : DiscardsOn s (s.setPort p b) := by
  refine ⟨fun i hi => ?_⟩
  by_cases hip : i = p
  · subst hip
    rw [State.port_setPort_of_discard s i ((congrArg Prod.fst h).trans hi), h]
  · rw [State.port_setPort_ne s hip]

theorem State.emit_discardsOn (s : State) (p : Nat) (f : WireFlit) : DiscardsOn s (s.emit p f).2 := State.setPort_discardsOn rfl

theorem State.freeFlit_discardsOn (s : State) (o : OutPkt) : DiscardsOn s (s.freeFlit o) := by
  unfold State.freeFlit
  split
  · exact DiscardsOn.ite (State.setPort_discardsOn rfl) (State.setPort_discardsOn rfl)
  · exact DiscardsOn.refl s

theorem State.startPacket_discardsOn (s : State) (p : Nat) (o : OutPkt) : DiscardsOn s (s.startPacket p o).2 := by
  refine ((State.freeFlit_discardsOn s o).trans (State.setPort_discardsOn ?_)).trans (State.emit_discardsOn ..)
  exact Port.rx_ite (Port.rx_ite rfl (Port.rx_ite rfl rfl)) (Port.rx_ite rfl (Port.rx_ite rfl rfl))

theorem State.sendData_discardsOn (s : State) (p : Nat) (o : OutPkt) (d : Nat × Nat) (rest : List (Nat × Nat)) :
    DiscardsOn s (s.sendData p o d rest).2 := by
  refine ((State.freeFlit_discardsOn s o).trans (State.setPort_discardsOn ?_)).trans (State.emit_discardsOn ..)
  rfl

theorem State.channelFlit_discardsOn {s : State} {p vc : Nat} {r : WireFlit × State} (h : s.channelFlit p vc = some r) :
    DiscardsOn s r.2 := by
  unfold State.channelFlit at h
  split at h
  · split at h
    · exact Option.some.inj h ▸ State.sendData_discardsOn ..
    · cases h
  · obtain ⟨o, -, rfl⟩ := Option.map_eq_some_iff.1 h
    exact State.startPacket_discardsOn ..

theorem State.turnFlit_discardsOn {s : State} {p : Nat} {r : WireFlit × State} (h : s.turnFlit p = some r) : DiscardsOn s r.2 := by
  obtain ⟨i, -, hi⟩ := List.exists_of_findSome?_eq_some h
  obtain ⟨q, hq, rfl⟩ := Option.map_eq_some_iff.1 hi
  exact (State.channelFlit_discardsOn hq).trans (State.setPort_discardsOn rfl)

theorem State.nextFlit_discardsOn {s : State} {p : Nat} {r : WireFlit × State} (h : s.nextFlit p = some r) : DiscardsOn s r.2 := by
  unfold State.nextFlit at h
  dsimp only at h
  split at h
  · exact Option.some.inj h ▸ State.setPort_discardsOn rfl
  · exact Option.some.inj h ▸ State.setPort_discardsOn rfl
  · split at h
    · cases h
    · split at h
      · exact Option.some.inj h ▸ State.startPacket_discardsOn ..
      · cases hc : s.channelFlit p 3 with
        | some q =>
          rw [hc] at h
          exact Option.some.inj h ▸ State.channelFlit_discardsOn hc
        | none =>
          rw [hc] at h
          exact State.turnFlit_discardsOn h

theorem State.slots_discardsOn (s : State) (p n : Nat) : DiscardsOn s (s.slots p n).2 := by
  induction n generalizing s with
  | zero => exact DiscardsOn.refl s
  | succ n ih =>
    unfold State.slots
    split
    · exact (State.nextFlit_discardsOn ‹_›).trans (ih _)
    · exact ih s

theorem State.sendGroup_discardsOn (s : State) (p : Nat) : DiscardsOn s (s.sendGroup p) := by
  have hp (n : Nat) : DiscardsOn s (s.setPort p { s.port p with groups := n }) := State.setPort_discardsOn rfl
  unfold State.sendGroup
  dsimp only
  split
  · exact (hp _).trans (DiscardsOn.of_ports rfl)
  · exact ((hp _).trans (State.slots_discardsOn ..)).trans (DiscardsOn.of_ports rfl)

theorem State.sendGroups_discardsOn (s : State) (p n : Nat) : DiscardsOn s (s.sendGroups p n) := by
  induction n generalizing s with
  | zero => exact DiscardsOn.refl s
  | succ n ih => exact DiscardsOn.ite ((State.sendGroup_discardsOn s p).trans (ih _)) (DiscardsOn.refl s)

theorem State.endFillRead_discardsOn (s : State) : DiscardsOn s s.endFillRead :=
  DiscardsOn.ite (DiscardsOn.of_ports rfl) (DiscardsOn.refl s)

theorem State.pump_discardsOn (s : State) (p : Nat) : DiscardsOn s (s.pump p) := by
  refine DiscardsOn.ite (((State.sendGroups_discardsOn s p _).trans (State.setPort_discardsOn ?_)).trans
    (State.endFillRead_discardsOn _)) (DiscardsOn.refl s)
  rfl

theorem State.sendControl_discardsOn (s : State) (p : Nat) (nak : Bool) : DiscardsOn s (s.sendControl p nak) :=
  DiscardsOn.ite ((State.pump_discardsOn s p).trans (State.setPort_discardsOn rfl)) (DiscardsOn.refl s)

theorem State.sendControl_sendsOnly (s : State) (p : Nat) (nak : Bool) : SendsOnly s (s.sendControl p nak) :=
  SendsOnly.ite ((State.pump_sendsOnly s p).trans (State.setPort_sendsOnly ..)) (SendsOnly.refl s)

theorem SendsOnly.coll {s t : State} (h : SendsOnly s t) : t.coll = s.coll := by
  obtain ⟨_, _, rfl⟩ := h
  rfl

theorem SendsOnly.mem {s t : State} (h : SendsOnly s t) : t.mem = s.mem := by
  obtain ⟨_, _, rfl⟩ := h
  rfl

theorem State.askReplay_sendsOnly (s : State) (p : Nat) : SendsOnly s (s.askReplay p) :=
  (State.setPort_sendsOnly ..).trans (State.sendControl_sendsOnly ..)

/-- The replay is asked from the number that the port expected before. -/
theorem State.askReplay_rxNext (s : State) (p : Nat) : ((s.askReplay p).port p).rxNext = (s.port p).rxNext := by
  have hp := State.port_setPort_of_discard s p (b := { s.port p with discard := true }) rfl
  have h := (State.sendControl_discardsOn (s.setPort p { s.port p with discard := true }) p true).rx p (congrArg Port.discard hp)
  rw [hp] at h
  exact congrArg Prod.snd h

/-! ## Flits by their numbers (R343, R351, R352) -/

section
variable {s : State} {p num : Nat} {take : State → State}

theorem State.numbered_of_in_order (h : num = (s.port p).rxNext) (hd : (s.port p).discard = false) :
    s.numbered p num true take = take (s.setPort p
      { s.port p with rxNext := ((s.port p).rxNext + 1) % 4096, discard := false, owed := true }) :=
  (if_neg (not_not_intro h)).trans ((if_neg nofun).trans (congrArg take (if_neg (Bool.eq_false_iff.mp hd))))

/-- The first flit of a replay is acknowledged at once. -/
theorem State.numbered_of_replayed (h : num = (s.port p).rxNext) (hd : (s.port p).discard = true) :
    s.numbered p num true take = take ((s.setPort p
      { s.port p with rxNext := ((s.port p).rxNext + 1) % 4096, discard := false, owed := true }).sendControl p false) :=
  (if_neg (not_not_intro h)).trans ((if_neg nofun).trans (congrArg take (if_pos hd)))

theorem State.numbered_of_failed (h : num = (s.port p).rxNext) : s.numbered p num false take = s.askReplay p :=
  (if_neg (not_not_intro h)).trans (if_pos rfl)

theorem State.numbered_of_out_of_order (h : num ≠ (s.port p).rxNext) (ok : Bool) :
    s.numbered p num ok take = if (s.port p).discard then s else s.askReplay p := if_pos h

end

/-! ## Packets that arrive (R343, R346, R348) -/

section
variable {s : State} {port : Nat} {k : Packet}

theorem State.forMe_iff : s.forMe k = true ↔ k.dst = dstNeighbour ∨ k.dst = s.moduleId := by
  rw [State.forMe, Bool.or_eq_true, beq_iff_eq, beq_iff_eq]

theorem State.receivePacket_of_forMe (h : k.dst = dstNeighbour ∨ k.dst = s.moduleId) : s.receivePacket port k = s.deliver port k :=
  if_pos (State.forMe_iff.mpr h)

theorem State.receivePacket_of_transit (hn : k.dst ≠ dstNeighbour) (hm : k.dst ≠ s.moduleId) :
    s.receivePacket port k = (s.forward port 0 k).2 :=
  if_neg fun h => (State.forMe_iff.mp h).elim hn hm

/-- A transit packet that goes on keeps the buffer that it came in until it leaves (log entry 72). -/
theorem State.forward_of_routed {p more : Nat} (hk : k.symbol = false) (h : s.routeFor { k with escape := false } = some p) :
    (s.forward port more k).2 = s.enterPort p
      { pkt := { k with escape := false }, pool := s.poolOf { k with escape := false }, src := some (port, s.poolIn k), more := more } := by
  rw [State.forward, h, hk]
  rfl

theorem State.forward_of_unrouted {more : Nat} (hk : k.symbol = false) (h : s.routeFor { k with escape := false } = none) :
    (s.forward port more k).2 = (s.freePool port (s.poolIn k) (1 + k.data.length)).dropPacket k := by
  rw [State.forward, h, hk]
  rfl

end

section
variable {s : State} {at_ port : Nat} {k : Packet} {c0 c1 : Nat} {lanes : List Nat} {flits : List WireFlit} {c : LinkControl}

theorem exec_flitGroupReceived_of_good (h : (s.advanceTo at_).carries port = true) (h0 : c0 ≤ 12) (h1 : c1 ≤ 12) :
    exec (.flitGroupReceived at_ port c0 c1 ⟨lanes, flits⟩) s
      = .next ((flits.take 5).foldl (fun t f => t.wireFlit port f) ((s.advanceTo at_).goodGroup port)).collSweep :=
  congrArg Host.Outcome.next ((if_pos h).trans (if_pos ⟨h0, h1⟩))

theorem exec_flitGroupReceived_of_bad (h : (s.advanceTo at_).carries port = true) (hc : 12 < c0 ∨ 12 < c1) :
    exec (.flitGroupReceived at_ port c0 c1 ⟨lanes, flits⟩) s = .next ((s.advanceTo at_).badGroup port lanes) :=
  congrArg Host.Outcome.next ((if_pos h).trans (if_neg fun ⟨h0, h1⟩ => hc.elim (Nat.not_lt.mpr h0) (Nat.not_lt.mpr h1)))

theorem exec_packetReceived_of_carries (h : (s.advanceTo at_).carries port = true) :
    exec (.packetReceived at_ port k) s = .next ((s.advanceTo at_).receivePacket port k).collSweep :=
  congrArg Host.Outcome.next (if_pos h)

theorem State.portControl_of_not_carries (h : s.carries port = false) : s.portControl port c = s := if_neg (Bool.eq_false_iff.mp h)

theorem exec_linkControlReceived_of_not_carries (h : (s.advanceTo at_).carries port = false) :
    exec (.linkControlReceived at_ port c) s = .next (s.advanceTo at_).collSweep :=
  congrArg (fun t : State => Host.Outcome.next t.collSweep) (State.portControl_of_not_carries h)

theorem State.routeFail_of_job {dst job ctx : Nat} (hj : job ≠ 0) (hc : s.jobCtx job = some ctx) :
    s.routeFail dst job = s.linkFailed fun x => x.ctx == ctx && x.dests.contains dst := by
  rw [State.routeFail, if_neg hj, hc]

end

/-- Settles O34: each clause is one case of its command or of a flit's number; while a port discards, sending changes neither that
nor the number that it expects. -/
theorem linksReceive : Obligations.LinksReceive := by
  refine ⟨fun s at_ port => ⟨fun hc => ⟨fun c0 c1 lanes flits => exec_flitGroupReceived_of_good hc,
      fun c0 c1 lanes flits => exec_flitGroupReceived_of_bad hc, fun k hk => ?delivered,
      fun k hn hm hk => ⟨fun p hp => ?routed, fun hp => ?unrouted⟩⟩,
    fun hc => ⟨fun c0 c1 lanes flits => ?deafGroup, fun k => ?deafPacket, fun c => exec_linkControlReceived_of_not_carries hc⟩,
    fun c => rfl, fun dst job c hj hc => ?routeFail⟩,
    fun s p num take => ⟨State.numbered_of_in_order, State.numbered_of_replayed, fun crc nData k => rfl, fun h hd ok => ?asks,
      fun h hd ok => ?ignores, State.numbered_of_failed, State.askReplay_rxNext s p, (State.askReplay_sendsOnly s p).coll,
      (State.askReplay_sendsOnly s p).mem⟩⟩
  case delivered => rw [exec_packetReceived_of_carries hc, State.receivePacket_of_forMe hk]
  case routed =>
    rw [exec_packetReceived_of_carries hc, State.receivePacket_of_transit hn hm, State.forward_of_routed hk hp]
    rfl
  case unrouted =>
    rw [exec_packetReceived_of_carries hc, State.receivePacket_of_transit hn hm, State.forward_of_unrouted hk hp]
    rfl
  case deafGroup => exact congrArg Host.Outcome.next (if_neg (Bool.eq_false_iff.mp hc))
  case deafPacket => exact congrArg Host.Outcome.next (if_neg (Bool.eq_false_iff.mp hc))
  case routeFail => exact congrArg (fun t : State => Host.Outcome.next t.collSweep) (State.routeFail_of_job hj hc)
  case asks => rw [State.numbered_of_out_of_order h, if_neg (Bool.eq_false_iff.mp hd)]
  case ignores => rw [State.numbered_of_out_of_order h, if_pos hd]

end Sys2Proof.Machine

namespace Sys2Proof.Machine

/-! ## Acks that are owed or missing (R351, R352) -/

section
variable {s : State} {at_ port : Nat}

theorem exec_linkControlDue_of_due (ho : ((s.advanceTo at_).port port).owed = true)
    (hn : ((s.advanceTo at_).port port).ctlAt + 100 ≤ (s.advanceTo at_).now) :
    exec (.linkControlDue at_ port) s = .next ((s.advanceTo at_).sendControl port false) :=
  congrArg Host.Outcome.next (if_pos ⟨ho, hn⟩)

theorem exec_linkControlDue_of_not_due
    (h : ((s.advanceTo at_).port port).owed = false ∨ (s.advanceTo at_).now < ((s.advanceTo at_).port port).ctlAt + 100) :
    exec (.linkControlDue at_ port) s = .next (s.advanceTo at_) :=
  congrArg Host.Outcome.next (if_neg fun ⟨ho, hn⟩ => h.elim (Bool.eq_false_iff.mp · ho) (Nat.not_lt.mpr hn))

theorem exec_ackTimeout_of_due {f : WireFlit} {r : List WireFlit} {n : Nat}
    (hr : (((s.advanceTo at_).pump port).port port).replay = f :: r) (hf : f.num = some n)
    (hc : ((s.advanceTo at_).pump port).carries port = true)
    (hn : (((s.advanceTo at_).pump port).port port).ackAt + 400 ≤ ((s.advanceTo at_).pump port).now) :
    exec (.ackTimeout at_ port) s = .next (((s.advanceTo at_).pump port).startReplay port n) := by
  refine congrArg Host.Outcome.next ?_
  rw [ackTimeout, hr]
  dsimp only
  rw [hf]
  exact if_pos ⟨hc, hn⟩

theorem exec_ackTimeout_of_not_due (h : (((s.advanceTo at_).pump port).port port).replay = []
      ∨ ((s.advanceTo at_).pump port).now < (((s.advanceTo at_).pump port).port port).ackAt + 400) :
    exec (.ackTimeout at_ port) s = .next ((s.advanceTo at_).pump port) := by
  refine congrArg Host.Outcome.next ?_
  rw [ackTimeout]
  cases hr : (((s.advanceTo at_).pump port).port port).replay with
  | nil => rfl
  | cons f r => exact if_neg fun ⟨_, hn⟩ => h.elim (fun he => List.cons_ne_nil f r (hr.symm.trans he)) (Nat.not_lt.mpr hn)

end

/-! ## Loss and degradation (R353, R356, R357) -/

/-- The lane carried more than half of the bad symbols of three bad groups in a row. -/
theorem Port.laneBad_iff (b : Port) (lane : Nat) :
    b.laneBad lane = true ↔ b.bad.length = 3
      ∧ (b.bad.map fun l => (l.take 8).sum).sum < 2 * (b.bad.map fun l => l.getD (lane % 8) 0).sum := by
  simp only [Port.laneBad, List.sum_eq_foldl, List.foldl_map, Bool.and_eq_true, beq_iff_eq, decide_eq_true_eq]

section
variable {s : State} {at_ port : Nat}

theorem exec_linkFailed_of_over_budget (he : (s.advanceTo at_).flag (Fld.episode port) = true)
    (hb : 100 * (s.advanceTo at_).fld (Fld.retryBudget port) < (s.advanceTo at_).now - ((s.advanceTo at_).port port).epStart) :
    exec (.linkFailed at_ port) s = .next ((s.advanceTo at_).loseLink port 0x0303) :=
  congrArg Host.Outcome.next (if_pos ⟨he, hb⟩)

theorem exec_linkFailed_of_within_budget
    (hb : (s.advanceTo at_).now - ((s.advanceTo at_).port port).epStart ≤ 100 * (s.advanceTo at_).fld (Fld.retryBudget port)) :
    exec (.linkFailed at_ port) s = .next (s.advanceTo at_) :=
  congrArg Host.Outcome.next (if_neg fun h => Nat.not_lt.mpr hb h.2)

theorem exec_linkDegraded_of_degrading (h : (s.advanceTo at_).fld (Fld.portState port) = psDegrading) :
    let u := s.advanceTo at_
    let v := (u.setFld (Fld.portState port) psDegraded).setFld (Fld.lanesOk port) (otherHalf (u.port port).lostLane)
    exec (.linkDegraded at_ port) s = .next ((v.runs port).report { code := 0x0304, index := port }).collSweep :=
  congrArg Host.Outcome.next (if_pos h)

theorem exec_linkDown_of_up (h : (s.advanceTo at_).fld (Fld.portState port) ∈ [psUp, psDegrading, psDegraded]) :
    exec (.linkDown at_ port) s = .next ((s.advanceTo at_).loseLink port 0x0302) :=
  congrArg Host.Outcome.next (if_pos (List.contains_iff_mem.mpr h))

variable {lane : Nat} {lost : Bool}

/-- The sign of the lane is one, and the half that does not hold it is whole. -/
theorem exec_laneDegrade_of_sign (hu : ((s.advanceTo at_).pump port).fld (Fld.portState port) = psUp)
    (he : ((s.advanceTo at_).pump port).flag (Fld.episode port) = true)
    (hd : ((s.advanceTo at_).pump port).flag (Fld.degradeEn port) = true)
    (ho : ((s.advanceTo at_).pump port).fld (Fld.lanesOk port) &&& otherHalf lane = otherHalf lane)
    (hs : lost = true ∨ (((s.advanceTo at_).pump port).port port).laneBad lane = true) :
    let w := (s.advanceTo at_).pump port
    exec (.laneDegrade at_ port ⟨lane, lost⟩) s
      = .next ((w.setPort port { w.port port with lostLane := lane % 8 }).setFld (Fld.portState port) psDegrading) :=
  congrArg Host.Outcome.next (if_pos ⟨hu, he, hd, hs, ho⟩)

theorem exec_laneDegrade_of_no_sign (hl : lost = false) (hb : (((s.advanceTo at_).pump port).port port).bad.length < 3) :
    exec (.laneDegrade at_ port ⟨lane, lost⟩) s = .next ((s.advanceTo at_).pump port) :=
  congrArg Host.Outcome.next (if_neg fun ⟨_, _, _, hs, _⟩ => hs.elim (Bool.eq_false_iff.mp hl)
    fun hbad => Nat.ne_of_lt hb ((Port.laneBad_iff _ lane).mp hbad).1)

theorem exec_laneDegrade_of_no_episode (he : ((s.advanceTo at_).pump port).flag (Fld.episode port) = false) :
    exec (.laneDegrade at_ port ⟨lane, lost⟩) s = .next ((s.advanceTo at_).pump port) :=
  congrArg Host.Outcome.next (if_neg fun h => Bool.eq_false_iff.mp he h.2.1)

end

/-! ## Training (R338, R356) -/

theorem trainedState_of_whole {lanes : Nat} (h : lanes % 256 = 255) (degrade : Bool) : trainedState lanes degrade = some psUp := if_pos h

section
variable {s : State} {at_ port peer lanes : Nat}

theorem exec_linkUp_of_whole (ht : (s.advanceTo at_).fld (Fld.portState port) = psTraining)
    (hv : (s.advanceTo at_).flag Fld.moduleValid = true) (hl : lanes % 256 = 255) :
    let u := s.advanceTo at_
    let v := ((u.setFld (Fld.portState port) psUp).setFld (Fld.lanesOk port) lanes).setFld (Fld.portPeer port) peer
    exec (.linkUp at_ port peer lanes) s = .next ((v.runs port).report { code := 0x0301, index := port }) := by
  refine congrArg Host.Outcome.next ((if_pos ⟨ht, hv⟩).trans ?_)
  rw [trainedState_of_whole hl]
  exact if_neg (by decide : psUp ≠ psDegraded)

theorem exec_linkUp_of_untrained (ht : (s.advanceTo at_).fld (Fld.portState port) = psTraining)
    (hv : (s.advanceTo at_).flag Fld.moduleValid = true)
    (hl : trainedState lanes ((s.advanceTo at_).flag (Fld.degradeEn port)) = none) :
    exec (.linkUp at_ port peer lanes) s = .next ((s.advanceTo at_).setFld (Fld.lanesOk port) lanes) := by
  refine congrArg Host.Outcome.next ((if_pos ⟨ht, hv⟩).trans ?_)
  rw [hl]

theorem exec_trainingRetry_of_due (ht : (s.advanceTo at_).fld (Fld.portState port) = psTraining)
    (hn : ((s.advanceTo at_).port port).trainAt + 10000000 ≤ (s.advanceTo at_).now) :
    exec (.trainingRetry at_ port) s = .next ((s.advanceTo at_).train port) :=
  congrArg Host.Outcome.next (if_pos ⟨ht, hn⟩)

theorem exec_trainingRetry_of_not_due (hn : (s.advanceTo at_).now < ((s.advanceTo at_).port port).trainAt + 10000000) :
    exec (.trainingRetry at_ port) s = .next (s.advanceTo at_) :=
  congrArg Host.Outcome.next (if_neg fun h => Nat.not_le.mpr hn h.2)

theorem exec_portRetrain_of_may (h : ((s.advanceTo at_).pump port).mayRetrain port = true) :
    exec (.portRetrain at_ port) s = .next (((s.advanceTo at_).pump port).train port) :=
  congrArg Host.Outcome.next (if_pos h)

theorem exec_portRetrain_of_may_not (h : ¬((s.advanceTo at_).pump port).mayRetrain port = true) :
    exec (.portRetrain at_ port) s = .next ((s.advanceTo at_).pump port) :=
  congrArg Host.Outcome.next (if_neg h)

end

/-- A degraded port when Flint likes (log entry 189), a failed one after a second; a fenced one never (log entry 79). -/
theorem State.mayRetrain_iff (s : State) (port : Nat) : s.mayRetrain port = true ↔
    s.fenceBit domPort port = false ∧ s.flag (Fld.portEnable port) = true ∧ s.err.flintDown = false
      ∧ (s.fld (Fld.portState port) = psDegraded ∨ (s.fld (Fld.portState port) = psFailed ∧ (s.port port).failCode ≠ 0
        ∧ (s.policy (s.port port).failCode = 0 ∨ s.policy (s.port port).failCode = 5)
        ∧ (s.port port).failedAt + 100000000 ≤ s.now)) := by
  have hms : ms 1000 = 100000000 := rfl
  simp only [State.mayRetrain, hms, Bool.and_eq_true, Bool.or_eq_true, Bool.not_eq_true', beq_iff_eq, bne_iff_ne, decide_eq_true_eq,
    and_assoc]

/-- Settles O35: each clause is one case of its command, and `State.mayRetrain_iff` says when Flint may retrain a port. -/
theorem linksKept : Obligations.LinksKept := by
  refine ⟨fun s at_ port lane => ⟨exec_linkControlDue_of_due, exec_linkControlDue_of_not_due, fun f r n => exec_ackTimeout_of_due,
      exec_ackTimeout_of_not_due, exec_linkFailed_of_over_budget, exec_linkFailed_of_within_budget,
      fun lost hu he hd ho => ⟨fun hs => ?sign, exec_laneDegrade_of_no_sign⟩, fun lost => exec_laneDegrade_of_no_episode,
      exec_linkDegraded_of_degrading, fun h => ?down⟩,
    fun s at_ port peer lanes => ⟨exec_linkUp_of_whole, exec_linkUp_of_untrained, by decide, exec_trainingRetry_of_due,
      exec_trainingRetry_of_not_due, fun hf he hu hst => ?retrained, fun hf => ?fenced, fun hst hn => ?early⟩⟩
  case sign => exact exec_laneDegrade_of_sign hu he hd ho (hs.imp_right (Port.laneBad_iff _ lane).mpr)
  case down => exact exec_linkDown_of_up (by simpa using h)
  case retrained => exact exec_portRetrain_of_may ((State.mayRetrain_iff _ port).mpr ⟨hf, he, hu, hst⟩)
  case fenced =>
    refine exec_portRetrain_of_may_not fun h => ?_
    obtain ⟨hnf, -⟩ := (State.mayRetrain_iff _ port).mp h
    exact Bool.false_ne_true (hnf.symm.trans hf)
  case early =>
    refine exec_portRetrain_of_may_not fun h => ?_
    obtain ⟨-, -, -, hd | ⟨-, -, -, hdue⟩⟩ := (State.mayRetrain_iff _ port).mp h
    · exact absurd (hst.symm.trans hd) (by decide)
    · exact Nat.not_le.mpr hn hdue

end Sys2Proof.Machine

namespace Sys2Proof.Machine

/-! ## Sizes of pools (R349) -/

section
variable {s : State} {p pool n : Nat}

theorem State.poolWrite_of_size (h : (0 < n ∧ n < 64) ∨ 4096 < n ∨ 4096 < s.poolSum p pool + n) :
    s.poolWrite p pool n = s.setFld Fld.veiCfgReject 1 := by
  refine if_neg fun hok => ?_
  simp only [State.poolOk, Bool.and_eq_true, Bool.or_eq_true, beq_iff_eq, decide_eq_true_eq] at hok
  omega

/-- The size of the hub pool may change whatever contexts take part. -/
theorem State.poolWrite_hub (hn : n = 0 ∨ 64 ≤ n) (hsum : s.poolSum p poolHub + n ≤ 4096) :
    s.poolWrite p poolHub n
      = { s with vein := { s.vein with pools := SMap.put (fun _ => 0) s.vein.pools (64 * p + poolHub) n } } := by
  refine if_pos ?_
  simp only [State.poolOk, Bool.and_eq_true, Bool.or_eq_true, beq_iff_eq, decide_eq_true_eq]
  exact ⟨⟨by omega, hsum⟩, .inl (.inl trivial)⟩

end

/-! ## Writes of the data registers (R360, R575) -/

section
variable {s : State} {value : Word}

theorem exec_veiPoolDataWrite_host (h : s.admits .host Reg.vei = true) :
    exec (.veiPoolDataWrite .host value) s = .next (s.setFld Fld.hostWrReject 1) :=
  congrArg Host.Outcome.next (if_neg (Bool.eq_false_iff.mp · h))

theorem exec_veiRouteDataWrite_host (h : s.admits .host Reg.vei = true) :
    exec (.veiRouteDataWrite .host value) s = .next (s.setFld Fld.hostWrReject 1) :=
  congrArg Host.Outcome.next (if_neg (Bool.eq_false_iff.mp · h))

theorem exec_veiPoolDataWrite_flint (h : s.admits .flint Reg.vei = true) :
    let i := poolIndex (s.rd Reg.veiPoolIdx).toNat
    exec (.veiPoolDataWrite .flint value) s = .next (s.poolWrite i.1 i.2 (bits value.toNat 0 13)) :=
  congrArg Host.Outcome.next (if_neg (Bool.eq_false_iff.mp · h))

theorem exec_veiRouteDataWrite_flint (h : s.admits .flint Reg.vei = true) :
    exec (.veiRouteDataWrite .flint value) s = .next (s.routeWrite (bits (s.rd Reg.veiRouteIdx).toNat 0 12) value) :=
  congrArg Host.Outcome.next (if_neg (Bool.eq_false_iff.mp · h))

end

/-- Settles O36: a host write is told and ignored; a Flint write of a route keeps the bits of its entry, and one of a pool is the size's
check. -/
theorem routesAndPools : Obligations.RoutesAndPools := by
  refine fun s value => ⟨fun h => ⟨exec_veiPoolDataWrite_host h, exec_veiRouteDataWrite_host h⟩,
    fun h => ⟨exec_veiRouteDataWrite_flint h, fun hr => ?refused, fun hn hsum hp => ?taken⟩⟩
  case refused =>
    rw [exec_veiPoolDataWrite_flint h]
    exact congrArg Host.Outcome.next (State.poolWrite_of_size hr)
  case taken =>
    rw [exec_veiPoolDataWrite_flint h]
    rw [hp] at hsum ⊢
    exact congrArg Host.Outcome.next (State.poolWrite_hub hn hsum)

end Sys2Proof.Machine

namespace Sys2Proof.Machine

/-! ## Accepting a descriptor (R364, R386) -/

section
variable {s v : State} {core op : Nat} {q : QEntry}

/-- The checks of the hub passed: the transfer joins the others, and the engines go on. -/
theorem State.acceptXfer_of_accepted {x : Xfer} (hq : s.hubEntry core q.id op = some q) (hn : (s.xfer q.id).isSome = false)
    (ha : (collAccept q) s = (.ok x, v)) : s.acceptXfer core q.id op = (v.setXfers (v.coll.xfers ++ [x])).collSweep := by
  rw [State.acceptXfer, hq]
  dsimp only
  rw [if_neg (Bool.eq_false_iff.mp hn), ha]

/-- A check failed, of whichever operation: the descriptor leaves the queue and nothing is sent. -/
theorem State.acceptXfer_of_refused {code phys : Nat} (hq : s.hubEntry core q.id op = some q) (hn : (s.xfer q.id).isSome = false)
    (ha : (collAccept q) s = (.error (.fault code phys), v)) :
    s.acceptXfer core q.id op
      = ({ v with core := { v.core with hubq := v.core.hubq.filter fun y => y.id != q.id } } : State).raiseCtx
          { code := code, core := some core, phys := phys, tileId := BitVec.ofNat 32 (dTileId q.desc)
            layerTag := BitVec.ofNat 16 (dLayerTag q.desc) } q.ctx := by
  rw [State.acceptXfer, hq]
  dsimp only
  rw [if_neg (Bool.eq_false_iff.mp hn), ha]

end

/-! ## End markers and timeouts (R366, R376, R377) -/

section
variable {s : State} {at_ job src id amount : Nat}

theorem exec_endMarkerReceived_of_no_context (hj : (s.advanceTo at_).jobCtx job = none) :
    exec (.endMarkerReceived at_ job src id amount) s = .next (s.advanceTo at_) := by
  refine congrArg Host.Outcome.next ?_
  rw [endMarkerReceived, hj]

/-- The marker comes as a packet of the job's context, on the channel that its operation uses. -/
theorem exec_endMarkerReceived_of_context {c : Nat} (hj : (s.advanceTo at_).jobCtx job = some c) :
    let u := s.advanceTo at_
    exec (.endMarkerReceived at_ job src id amount) s
      = .next (
        let vc := if 5 ≤ bits id 29 3 then 2 else 1
        u.collReceive none (4 * c + vc) c { dst := u.moduleId, src := src, job := job, vc := vc, escape := false, type := vc + 1, xfer := id
                                            offset := 0, body := amount % 2 ^ 40 + 2 ^ 64, data := [] }) := by
  refine congrArg Host.Outcome.next ?_
  rw [endMarkerReceived, hj]

theorem exec_collTimeout_of_xfer {x : Xfer} (hx : (s.advanceTo at_).xfer id = some x) :
    exec (.collTimeout at_ id) s
      = .next (if x.left = 0 then (s.advanceTo at_).xferFault x 0x0311 0 else s.advanceTo at_) := by
  refine congrArg Host.Outcome.next ?_
  rw [collTimeout, hx]

end

/-- Settles O37: the four commands are one acceptance, which the answer of the hub's checks decides; an end marker and a timeout are
decided by the context of the job and by the strata that the transfer has left. -/
theorem collectivesRun : Obligations.CollectivesRun := by
  refine ⟨fun s v core q x hn ha => ?accepted, fun s v core code phys q hn hq ha => ?refused,
    fun s at_ job src id amount => ⟨exec_endMarkerReceived_of_no_context, fun c => exec_endMarkerReceived_of_context,
      fun x hx hl => ?late, fun x hx hl => ?inTime⟩⟩
  case accepted =>
    refine ⟨?coll, ?shift, ?dispatch, ?combine⟩ <;>
      exact fun hq => congrArg Host.Outcome.next (State.acceptXfer_of_accepted hq hn ha)
  case refused => exact congrArg Host.Outcome.next (State.acceptXfer_of_refused hq hn ha)
  case late => rw [exec_collTimeout_of_xfer hx, if_pos hl]
  case inTime => rw [exec_collTimeout_of_xfer hx, if_neg hl]

end Sys2Proof.Machine

namespace Sys2Proof.Machine

/-! ## Donations that are spent (R400) -/

theorem exec_donationExhausted_of_spent {s : State} {at_ core n : Nat} {d : Donation}
    (hd : (s.advanceTo at_).ctx.donations.find?
      (fun d => d.waiter == 64 * core + n && decide ((s.advanceTo at_).fld (Fld.donateStrata d.fromCtx) ≤ d.used)) = some d) :
    let v := (s.advanceTo at_).closeDonations fun x => x.waiter == 64 * core + n
    exec (.donationExhausted at_ core n) s
      = .next ((v.setStream core n { v.stream core n with donationSpent := true }).report
        { code := 0x0612, ctx := some d.fromCtx, core := some core }) := by
  refine congrArg Host.Outcome.next ?_
  rw [donationExhausted]
  dsimp only
  rw [hd]

/-! ## Blocked quarries (R405, R406) -/

/-- The quarry has been blocked for a period and has not told of it: the event is reported, and the default policy is a swap. -/
theorem exec_allBlocked_of_due {s : State} {at_ q since : Nat}
    (hs : SMap.get (fun _ => none) (s.advanceTo at_).blk.since q = some since)
    (hd : since + 100 * (s.advanceTo at_).fld Fld.periodUs ≤ (s.advanceTo at_).now)
    (hq : q < quarryCount (s.advanceTo at_).modeOf) (hb : (s.advanceTo at_).quarryBlocked q = true)
    (hi : ((s.advanceTo at_).incoming q).isSome = true)
    (ht : (SMap.get (fun _ => none) (s.advanceTo at_).blk.told q).isNone = true) :
    let u := s.advanceTo at_
    let told := some ((u.ctxsOf q).filter u.blocked)
    let v := ({ u with blk := { u.blk with told := SMap.put (fun _ => none) u.blk.told q told } } : State).report
      { code := 0x0611, index := q }
    v.policy 0x0611 = 0 → v.err.flintDown = false → exec (.allBlocked at_ q) s = .next (v.swapBlocked q) := by
  intro u told v hp hf
  refine congrArg Host.Outcome.next ?_
  rw [allBlocked]
  dsimp only
  rw [hs, if_pos ⟨decide_eq_true hd, hq, hb, hi, ht⟩, if_neg fun h => absurd (hp.symm.trans h) (by decide),
    if_neg (ne_true_of_eq_false hf)]

/-! ## Swaps (R403, R407, R408) -/

section
variable {s : State} {at_ q i w lim : Nat}

section
variable (hw : ((s.advanceTo at_).quarry q).swap = some (i, w, lim, false))
include hw

theorem exec_swapExchange_of_landed (hl : (s.advanceTo at_).landedAll w = true) :
    let v := (s.advanceTo at_).exchangeShare w
    exec (.swapExchange at_ q) s = .next (v.setQuarry q { v.quarry q with swap := some (i, w, lim, true) }) := by
  refine congrArg Host.Outcome.next ?_
  rw [swapExchange, hw]
  exact if_pos hl

theorem exec_swapExchange_of_in_flight (hl : (s.advanceTo at_).landedAll w = false) :
    exec (.swapExchange at_ q) s = .next (s.advanceTo at_) := by
  refine congrArg Host.Outcome.next ?_
  rw [swapExchange, hw]
  exact if_neg (ne_true_of_eq_false hl)

/-- The limit is reached with work in flight: the victim stays, and what waited for the end of the swap goes on. -/
theorem exec_swapAbandoned_of_due (ht : lim ≤ ((s.advanceTo at_).quarry q).ticks) (hl : (s.advanceTo at_).landedAll w = false)
    (hf : (s.advanceTo at_).err.flintDown = false) :
    exec (.swapAbandoned at_ q) s = .next
      (((((s.advanceTo at_).endSwap q w).report { code := 0x0613, index := q }).applyPend w).applyPend i).flrStep.collSweep := by
  refine congrArg Host.Outcome.next ?_
  rw [swapAbandoned, hw]
  exact if_pos ⟨ht, hl, hf⟩

end

/-- The shares have been exchanged: the two contexts change places, and what waited for the end of the swap goes on. -/
theorem exec_swapDone_of_exchanged (hw : ((s.advanceTo at_).quarry q).swap = some (i, w, lim, true))
    (hf : (s.advanceTo at_).err.flintDown = false) :
    let v := (((s.advanceTo at_).endSwap q w).setFld (Fld.resident w) 0).setFld (Fld.resident i) 1
    let v := (v.bump (Fld.swaps w)).bump (Fld.swaps i)
    let v := v.setCtx w { v.ctxAt w with spilledAt := v.now }
    exec (.swapDone at_ q) s
      = .next (((v.rankDecode.report { code := 0x0614, index := q }).applyPend w).applyPend i).flrStep.collSweep := by
  refine congrArg Host.Outcome.next ?_
  rw [swapDone, hw]
  exact if_neg (ne_true_of_eq_false hf)

end

/-- Settles O38: each clause is one case of its command; those of a swap take what its quarry's entry says of it. -/
theorem timeSharing : Obligations.TimeSharing := fun _ _ _ _ _ =>
  ⟨fun _ => exec_donationExhausted_of_spent, fun _ => exec_allBlocked_of_due,
    fun _ _ _ hw => ⟨exec_swapExchange_of_landed hw, exec_swapExchange_of_in_flight hw, exec_swapAbandoned_of_due hw⟩,
    fun _ _ _ => exec_swapDone_of_exchanged⟩

end Sys2Proof.Machine

namespace Sys2Proof.Machine

/-! ## CTX_CREATE (R394, R410, R429) -/

section
variable {s : State} {at_ id : Nat} {q : Cmd}

section
variable (hq : (s.advanceTo at_).cmdReady id 0x01 = some q)
include hq

theorem exec_ctxCreate_of_not_free (hs : ((s.advanceTo at_).startCmd q).ctxState q.c ≠ csFree) :
    exec (.ctxCreate at_ id) s = .next (((s.advanceTo at_).startCmd q).completeCmd id 0x0013 0) := by
  refine congrArg Host.Outcome.next ?_
  rw [ctxCreate, hq]
  exact if_pos hs

/-- The checks of a create of a Free context, in their order: ranges, conflicts, and the level A table; a refused share is told in
CTX_STAT.cfg_reject (log entry 155). -/
theorem exec_ctxCreate_of_free (hs : ((s.advanceTo at_).startCmd q).ctxState q.c = csFree) :
    let v := (s.advanceTo at_).startCmd q
    exec (.ctxCreate at_ id) s = .next
      (if v.createRange q = false then (if shareRange q then v else v.setFld Fld.ctxCfgReject 1).completeCmd id 0x0012 0
       else if v.createConflict q then (v.setFld Fld.ctxCfgReject 1).completeCmd id 0x0014 0
       else if v.createRoot q = false then v.completeCmd id 0x0015 0
       else (v.create q).completeCmd id 0 0) := by
  refine congrArg Host.Outcome.next ?_
  rw [ctxCreate, hq]
  exact if_neg (not_not_intro hs)

end

/-! ## CTX_DESTROY (R408, R430) -/

section
variable (hq : (s.advanceTo at_).cmdReady id 0x02 = some q)
include hq

theorem exec_ctxDestroy_of_free (hs : (s.advanceTo at_).ctxState q.c = csFree) :
    exec (.ctxDestroy at_ id) s = .next (((s.advanceTo at_).startCmd q).completeCmd id 0x0013 0) := by
  refine congrArg Host.Outcome.next ?_
  rw [ctxDestroy, hq]
  exact if_pos hs

/-- A swap of the context or its partner keeps the command waiting. -/
theorem exec_ctxDestroy_of_context (hs : (s.advanceTo at_).ctxState q.c ≠ csFree) :
    let u := s.advanceTo at_
    exec (.ctxDestroy at_ id) s = .next
      (if u.swapHolds q.c then u
       else ((((u.startCmd q).abortCommands q.c id).destroy q.c).completeCmd id 0 0).collSweep) := by
  refine congrArg Host.Outcome.next ?_
  rw [ctxDestroy, hq]
  exact if_neg hs

end

/-! ## JOB_LOAD (R425, R431) -/

section
variable (hq : (s.advanceTo at_).cmdReady id 0x03 = some q)
include hq

theorem exec_jobLoad_of_wrong_state (hc : (s.advanceTo at_).ctxState q.c ≠ csCreated) (he : (s.advanceTo at_).ctxState q.c ≠ csEnded) :
    exec (.jobLoad at_ id) s = .next (((s.advanceTo at_).startCmd q).completeCmd id 0x0013 0) := by
  refine congrArg Host.Outcome.next ?_
  rw [jobLoad, hq]
  exact if_pos ⟨hc, he⟩

end

/-! ## JOB_START (R432, R502) -/

section
variable (hq : (s.advanceTo at_).cmdReady id 0x04 = some q)
include hq

theorem exec_jobStart_of_not_loaded (hs : ((s.advanceTo at_).startCmd q).ctxState q.c ≠ csLoaded) :
    exec (.jobStart at_ id) s = .next (((s.advanceTo at_).startCmd q).completeCmd id 0x0013 0) := by
  refine congrArg Host.Outcome.next ?_
  rw [jobStart, hq]
  exact if_pos hs

/-- A Loaded context starts, but in the state partial. -/
theorem exec_jobStart_of_loaded (hs : ((s.advanceTo at_).startCmd q).ctxState q.c = csLoaded) :
    let v := (s.advanceTo at_).startCmd q
    exec (.jobStart at_ id) s = .next
      (if v.flag Fld.partial_ then v.completeCmd id 0x001A 0 else (v.completeCmd id 0 0).startJob q.c q.sq) := by
  refine congrArg Host.Outcome.next ?_
  rw [jobStart, hq]
  exact if_neg (not_not_intro hs)

end

end

/-- Settles O41: each clause is one case of its command; the checks of a create are taken in their order, and a load whose context and
operands are admitted ends as the reading of its image does. -/
theorem contextCommands : Obligations.ContextCommands := by
  refine fun s at_ id q => ⟨fun hq => ⟨exec_ctxCreate_of_not_free hq, fun hs hr => ?range, fun hs hr hc => ?conflict,
      fun hs hr hc ht => ?created, fun hs hr hc ht => ?root⟩,
    fun hq => ⟨exec_ctxDestroy_of_free hq, fun hs hw => ?destroyed, fun hs hw => ?swapping⟩,
    fun hq => ⟨exec_jobLoad_of_wrong_state hq, fun hs ha hn hm => ?image⟩,
    fun hq => ⟨exec_jobStart_of_not_loaded hq, fun hs hp => ?partly, fun hs hp => ?started⟩⟩
  case range => rw [exec_ctxCreate_of_free hq hs, if_pos hr]
  case conflict => rw [exec_ctxCreate_of_free hq hs, if_neg (ne_false_of_eq_true hr), if_pos hc]
  case created =>
    rw [exec_ctxCreate_of_free hq hs, if_neg (ne_false_of_eq_true hr), if_neg (ne_true_of_eq_false hc), if_neg (ne_false_of_eq_true ht)]
  case root => rw [exec_ctxCreate_of_free hq hs, if_neg (ne_false_of_eq_true hr), if_neg (ne_true_of_eq_false hc), if_pos ht]
  case destroyed => rw [exec_ctxDestroy_of_context hq hs, if_neg (ne_true_of_eq_false hw)]
  case swapping => rw [exec_ctxDestroy_of_context hq hs, if_pos hw]
  case image =>
    refine congrArg Host.Outcome.next ?_
    rw [jobLoad, hq]
    dsimp only
    rw [if_neg fun h => hs.elim h.1 h.2, if_neg fun h => h.elim (absurd ha) fun h => h.elim hn (Nat.not_lt.mpr hm)]
    rcases loadImage q ((s.advanceTo at_).startCmd q) with ⟨e | _, w⟩
    · cases e <;> rfl
    · rfl
  case partly => rw [exec_jobStart_of_loaded hq hs, if_pos hp]
  case started => rw [exec_jobStart_of_loaded hq hs, if_neg (ne_true_of_eq_false hp)]

end Sys2Proof.Machine

namespace Sys2Proof.Machine

/-! ## What fuses hold, along a run (R520, R529, R578) -/

/-- What fuses hold is not undone between `s` and `t`, and time does not run back. -/
structure FusesStand (s t : State) : Prop where
  svn : s.fw.burnedSvn ≤ t.fw.burnedSvn
  owner : ∀ k, s.fw.owner = some k → t.fw.owner = some k
  clock : s.now ≤ t.now

theorem FusesStand.refl (s : State) : FusesStand s s := ⟨Nat.le_refl _, fun _ h => h, Nat.le_refl _⟩

theorem FusesStand.trans {s t u : State} (h : FusesStand s t) (g : FusesStand t u) : FusesStand s u :=
  ⟨Nat.le_trans h.svn g.svn, fun k hk => g.owner k (h.owner k hk), Nat.le_trans h.clock g.clock⟩

theorem Kept.fusesStand {s t : State} (h : Kept s t) : FusesStand s t := ⟨h.svn, h.owner, h.clock⟩

/-- The fused minimum does not change, so the minimum svn rises with what is burned. -/
theorem FusesStand.minSvn {s t : State} (h : FusesStand s t) : s.minSvn ≤ t.minSvn := max_le_max_left _ h.svn

theorem step_fusesStand {s t : State} (h : step s = .next t) : FusesStand s t := by
  cases hp : s.pending with
  | nil =>
    rw [step_of_pending_nil hp] at h
    exact (next_kept h (State.idle_kept s)).fusesStand
  | cons c r =>
    rw [step_of_pending_cons hp] at h
    obtain ⟨hsvn, howner, hclock⟩ := (exec_kept h).fusesStand
    exact ⟨hsvn, howner, hclock⟩

theorem reaches_fusesStand {s t : State} (h : Reaches s t) : FusesStand s t := by
  induction h with
  | refl => exact FusesStand.refl s
  | tail _ hstep ih => exact ih.trans (step_fusesStand hstep)

/-- Settles O6: by induction on the run, each step of which keeps what fuses hold. -/
theorem fusesNeverUndone : Obligations.FusesNeverUndone := fun _ _ h =>
  have hf := reaches_fusesStand h
  ⟨hf.svn, hf.minSvn, hf.owner, hf.clock⟩

/-! ## A step and its command (log entry 8) -/

/-- Settles O1: a step on a queue that is not empty is the meaning of its front. -/
theorem stepRunsFront : Obligations.StepRunsFront := fun _ _ _ => step_of_pending_cons rfl

/-- No row is refused and none stops the model. -/
theorem exec_answers (c : Instr) (s : State) : ∃ t, exec c s = .next t := by
  cases c <;> exact ⟨_, rfl⟩

theorem exec_answers_and_keeps_queue (c : Instr) (s : State) : ∃ t, exec c s = .next t ∧ t.pending = s.pending := by
  obtain ⟨t, ht⟩ := exec_answers c s
  exact ⟨t, ht, (exec_kept ht).queue⟩

/-- Settles O3: every command answers and keeps the queue, so a step takes its front away and an idle step leaves it empty. -/
theorem everyCommandAnswers : Obligations.EveryCommandAnswers := by
  refine ⟨exec_answers_and_keeps_queue, fun s => ?_⟩
  cases hp : s.pending with
  | nil => exact ⟨s.idle, step_of_pending_nil hp, (State.idle_kept s).queue.trans hp⟩
  | cons c r =>
    rw [step_of_pending_cons hp]
    exact exec_answers_and_keeps_queue c { s with pending := r }

end Sys2Proof.Machine

namespace Sys2Proof.Machine

/-! ## Register writes by size (R573) -/

theorem exec_regWrite_of_unaligned {s : State} {at_ off n value : Nat} {p : Party} (h : off % 4 ≠ 0) :
    exec (.regWrite at_ p off n value) s = .next (s.advanceTo at_) := congrArg Host.Outcome.next (if_pos h)

theorem exec_regWrite_of_aligned {s : State} {at_ off n value : Nat} {p : Party} (h : off % 4 = 0) :
    let u := s.advanceTo at_
    exec (.regWrite at_ p off n value) s = .next
      (if n = 4 then u.regWrite p off (BitVec.ofNat 32 value)
       else if n = 8 then (u.regWrite p off (BitVec.ofNat 32 value)).regWrite p (off + 4) (BitVec.ofNat 32 (value / 2 ^ 32))
       else u) := congrArg Host.Outcome.next (if_neg (not_not_intro h))

theorem exec_regWrite_of_narrow {s : State} {at_ off n value : Nat} {p : Party} (h : n < 4) :
    exec (.regWrite at_ p off n value) s = .next (s.advanceTo at_) := by
  by_cases ha : off % 4 = 0
  · rw [exec_regWrite_of_aligned ha, if_neg (by omega), if_neg (by omega)]
  · exact exec_regWrite_of_unaligned ha

/-! ## Register writes by party (R575, R583) -/

theorem State.regWrite_of_unreached {s : State} {p : Party} {off : Nat} (h : s.admits p off = false ∨ Reg.info off = none) (v : Word) :
    s.regWrite p off v = s := if_pos (h.imp_right fun hn => by rw [hn]; rfl)

/-- A host write in the blocks MEM to COL goes to the rule of what only Flint programs. -/
theorem State.regWrite_host_of_flintOnly {s : State} {off : Nat} {r : RegInfo} (ha : s.admits .host off = true)
    (hr : Reg.info off = some r) (hlo : Reg.mem ≤ off) (hhi : off < Reg.err) (hx : indexRegs.contains off = false) (v : Word) :
    s.regWrite .host off v = s.hostOnly off v := by
  have hn : ¬(s.admits .host off = false ∨ (Reg.info off).isNone = true) := by
    rintro (h | h)
    · exact Bool.noConfusion (ha.symm.trans h)
    · rw [hr] at h
      exact Bool.noConfusion h
  have hblocks : ¬off < Reg.hif ∧ ¬off < Reg.str ∧ ¬(Reg.ctx ≤ off ∧ off < Reg.mem) ∧ ¬off < Reg.ctx := by
    simp only [Reg.hif, Reg.str, Reg.ctx, Reg.mem] at hlo ⊢
    omega
  obtain ⟨hhif, hstr, hctx, hctx'⟩ := hblocks
  rw [State.regWrite, if_neg hn, if_neg hhif, if_neg hstr, if_neg hctx, if_pos hhi, State.flintBlock, if_neg hctx']
  exact if_neg (ne_true_of_eq_false hx)

/-- With no W1C bit the register takes the word that it holds, and the write is told. -/
theorem State.hostOnly_of_writable {s : State} {off : Nat} {r : RegInfo} (hr : Reg.info off = some r) (hw : r.rw + r.wo ≠ 0)
    (hc : r.w1c = 0) (v : Word) : s.hostOnly off v = (s.wr off (s.rd off)).setFld Fld.hostWrReject 1 := by
  have hkeep : s.rd off &&& ~~~(v &&& BitVec.ofNat 32 0) = s.rd off := by rw [BitVec.and_zero, BitVec.not_zero, BitVec.and_allOnes]
  rw [State.hostOnly, hr]
  dsimp only
  rw [if_neg hw, hc, hkeep]

/-- Settles O10: a write goes by its size, and one of a party that does not reach the register changes nothing but, of the host, the bit
that tells it. -/
theorem registerWrites : Obligations.RegisterWrites := by
  refine ⟨fun s at_ off value p => ⟨exec_regWrite_of_narrow (by decide), exec_regWrite_of_narrow (by decide),
      fun h _ => exec_regWrite_of_unaligned h, exec_regWrite_of_aligned, exec_regWrite_of_aligned⟩,
    fun s p off v h => State.regWrite_of_unreached h v, fun s off v r hs ha hr hw hc hb hx => ?_⟩
  have hcanon := State.wr_canonical hs.regs off (s.rd off)
  have hne : off ≠ Fld.hostWrReject.reg := fun h => by
    rw [h] at hb
    exact absurd hb.1 (by decide)
  rw [State.regWrite_host_of_flintOnly ha hr hb.1 hb.2 hx, State.hostOnly_of_writable hr hw hc]
  refine ⟨?_, ?_, rfl⟩
  · rw [State.setFld_rd_ne _ _ _ hne, State.rd_wr_same hs.regs]
  · rw [State.flag, State.fld_setFld_same hcanon _ _ (by decide)]
    rfl

end Sys2Proof.Machine

namespace Sys2Proof.Machine

/-! ## Doorbells (R418, R420) -/

theorem State.sqTailOf_setSqTail_same (s : State) (r : Nat) {v : Nat} (h : v ≠ 0) : (s.setSqTail r v).sqTailOf r = v :=
  SMap.get_put_of_ne_default h

theorem State.sqTailOf_setSqTail_ne (s : State) {r o : Nat} (v : Nat) (h : o ≠ r) : (s.setSqTail r v).sqTailOf o = s.sqTailOf o :=
  SMap.get_put_of_ne h

theorem State.cqHeadOf_setCqHead_same (s : State) (r : Nat) {v : Nat} (h : v ≠ 0) : (s.setCqHead r v).cqHeadOf r = v :=
  SMap.get_put_of_ne_default h

theorem State.cqHeadOf_setCqHead_ne (s : State) {r o : Nat} (v : Nat) (h : o ≠ r) : (s.setCqHead r v).cqHeadOf o = s.cqHeadOf o :=
  SMap.get_put_of_ne h

section
variable {s : State} {at_ r index : Nat}

theorem exec_doorbellSqTail_of_enabled (hr : r < 64) (hu : (s.advanceTo at_).hostUp = true) (hi : index < 65536)
    (he : (s.advanceTo at_).flag (Fld.sqEnable r) = true) :
    let u := s.advanceTo at_
    exec (.doorbellSqTail at_ r index) s
      = .next (if index < u.sqSize r then u.setSqTail r index else u.setFld Fld.badDoorbell 1) := by
  refine congrArg Host.Outcome.next ?_
  rw [doorbellSqTail, Nat.mod_eq_of_lt hi]
  exact if_pos ⟨hr, hu, he⟩

theorem exec_doorbellSqTail_of_disabled (he : (s.advanceTo at_).flag (Fld.sqEnable r) = false) :
    exec (.doorbellSqTail at_ r index) s = .next (s.advanceTo at_) :=
  congrArg Host.Outcome.next (if_neg fun h => Bool.false_ne_true (he.symm.trans h.2.2))

theorem exec_doorbellCqHead_of_enabled (hr : r < 64) (hu : (s.advanceTo at_).hostUp = true) (hi : index < 65536)
    (he : (s.advanceTo at_).flag (Fld.cqEnable r) = true) :
    let u := s.advanceTo at_
    exec (.doorbellCqHead at_ r index) s
      = .next (if index < u.cqSize r then u.setCqHead r index else u.setFld Fld.badDoorbell 1) := by
  refine congrArg Host.Outcome.next ?_
  rw [doorbellCqHead, Nat.mod_eq_of_lt hi]
  exact if_pos ⟨hr, hu, he⟩

theorem exec_doorbellCqHead_of_disabled (he : (s.advanceTo at_).flag (Fld.cqEnable r) = false) :
    exec (.doorbellCqHead at_ r index) s = .next (s.advanceTo at_) :=
  congrArg Host.Outcome.next (if_neg fun h => Bool.false_ne_true (he.symm.trans h.2.2))

end

/-! ## The fetch of commands (R419, R425, R426, R427) -/

/-- The first ring from which Flint may read, after the last one that it has served. -/
def State.nextRing (s : State) : Option Nat := ((List.range 64).map fun i => (s.host.nextSq + i) % 64).find? s.sqReady

section
variable {s : State} {at_ : Nat}

theorem exec_commandFetch_of_ring {r : Nat} (hu : (s.advanceTo at_).hostUp = true) (hf : (s.advanceTo at_).err.flintDown = false)
    (hr : (s.advanceTo at_).nextRing = some r) :
    let u := s.advanceTo at_
    let v : State := { u with host := { u.host with nextSq := (r + 1) % 64 } }
    let a := v.sqBase r + 64 * v.fld (Fld.sqHead r)
    exec (.commandFetch at_) s = .next
      (if v.hostRefuses a 64 then (v.sqStop r).report { code := 0x0811, index := r }
       else (v.setFld (Fld.sqHead r) ((v.fld (Fld.sqHead r) + 1) % v.sqSize r)).accept r (leNat (v.hostBytes a 64))) := by
  refine congrArg Host.Outcome.next ?_
  rw [State.nextRing] at hr
  rw [commandFetch]
  dsimp only
  rw [if_pos ⟨hu, hf⟩, hr]

theorem exec_commandFetch_of_none (hr : (s.advanceTo at_).nextRing = none) :
    exec (.commandFetch at_) s = .next (s.advanceTo at_) := by
  refine congrArg Host.Outcome.next ?_
  rw [State.nextRing] at hr
  rw [commandFetch]
  dsimp only
  rw [hr, ite_self]

theorem exec_commandFetch_of_flintDown (hf : (s.advanceTo at_).err.flintDown = true) :
    exec (.commandFetch at_) s = .next (s.advanceTo at_) :=
  congrArg Host.Outcome.next (if_neg fun h => Bool.false_ne_true (h.2.symm.trans hf))

end

/-- Settles O39: a doorbell of an enabled ring is decided by the ring's size; a fetch is decided by the ring that comes next and by what
host memory answers. -/
theorem ringsServed : Obligations.RingsServed := by
  constructor
  · intro s at_ r index u hr hu hi
    refine ⟨fun he hs => ?tail, fun he hs => ?tailOut, exec_doorbellSqTail_of_disabled, fun he hs => ?head, fun he hs => ?headOut,
      exec_doorbellCqHead_of_disabled⟩
    case tail =>
      rw [exec_doorbellSqTail_of_enabled hr hu hi he, if_pos hs]
      exact ⟨_, rfl, fun h0 => State.sqTailOf_setSqTail_same _ r h0, fun o ho => State.sqTailOf_setSqTail_ne _ index ho, rfl, rfl, rfl⟩
    case tailOut => rw [exec_doorbellSqTail_of_enabled hr hu hi he, if_neg (Nat.not_lt.mpr hs)]
    case head =>
      rw [exec_doorbellCqHead_of_enabled hr hu hi he, if_pos hs]
      exact ⟨_, rfl, fun h0 => State.cqHeadOf_setCqHead_same _ r h0, fun o ho => State.cqHeadOf_setCqHead_ne _ index ho, rfl, rfl, rfl⟩
    case headOut => rw [exec_doorbellCqHead_of_enabled hr hu hi he, if_neg (Nat.not_lt.mpr hs)]
  · refine fun s at_ => ⟨fun hu hf r hr => ⟨fun ha => ?_, fun ha => ?_⟩, exec_commandFetch_of_none, exec_commandFetch_of_flintDown⟩
    · rw [exec_commandFetch_of_ring hu hf hr, if_neg (ne_true_of_eq_false ha)]
    · rw [exec_commandFetch_of_ring hu hf hr, if_pos ha]

end Sys2Proof.Machine

namespace Sys2Proof.Machine

/-! ## Completing a command (R421, R424, R426) -/

/-- The completion of a command: for the CQ of its SQ, with its tag and the status. -/
def State.completion (s : State) (c : Cmd) (status tail : Nat) : Compl :=
  { cq := s.fld (Fld.sqCq c.sq), sq := c.sq, kind := 0, body := complBody (bits c.raw 32 32) c.sq 0 c.ctx status tail }

theorem State.completeCmd_of_held {s : State} {id : Nat} {c : Cmd} (h : s.cmd id = some c) (status tail : Nat) :
    s.completeCmd id status tail
      = { s with host := { s.host with cmds := s.host.cmds.filter fun x => x.id != id
                                       compls := s.host.compls ++ [s.completion c status tail] } } := by
  rw [State.completeCmd, h]
  rfl

/-- Of the commands but one, that one is not found and every other is found as before. -/
theorem find?_cmd_filter (l : List Cmd) (id j : Nat) :
    (l.filter fun x => x.id != id).find? (fun x => x.id == j) = if j = id then none else l.find? fun x => x.id == j := by
  rw [List.find?_filter]
  split
  · rename_i hj
    refine List.find?_eq_none.mpr fun x _ => ?_
    simp only [hj, bne_iff_ne, beq_iff_eq, decide_eq_true_eq]
    exact fun h => h.1 h.2
  · rename_i hj
    refine congrArg (fun p => List.find? p l) (funext fun x => ?_)
    simp only [bne_iff_ne, beq_iff_eq, ne_eq]
    grind

/-- The fields of a completion below its status fit their places, so the tag stands in bits 31:0 and the status from bit 64 on. -/
theorem complBody_tag (tag sq kind : Nat) (ctx : Option Nat) (status tail : Nat) :
    bits (complBody tag sq kind ctx status tail) 0 32 = tag % 2 ^ 32 := by
  simp only [bits, complBody]
  omega

theorem complBody_status (tag sq kind : Nat) (ctx : Option Nat) (status tail : Nat) :
    bits (complBody tag sq kind ctx status tail) 64 16 = status % 2 ^ 16 := by
  cases ctx with
  | none =>
    simp only [bits, complBody]
    omega
  | some c =>
    simp only [bits, complBody]
    omega

/-- Settles O40: the completion of a held command takes it, and it alone, out of the list, and adds one completion. -/
theorem commandsCompleteOnce : Obligations.CommandsCompleteOnce := by
  intro s id status tail c hc t
  have ht : t = _ := State.completeCmd_of_held hc status tail
  have hcmd : ∀ j, t.cmd j = if j = id then none else s.cmd j := fun j => by
    rw [ht]
    exact find?_cmd_filter s.host.cmds id j
  refine ⟨(hcmd id).trans (if_pos rfl), fun j hj => (hcmd j).trans (if_neg hj), ?_, ?_, complBody_status .., ?_⟩
  · rw [ht]
    rfl
  · rw [complBody_tag, Nat.mod_eq_of_lt (bits_lt ..)]
  · rw [ht]
    exact ⟨rfl, rfl, rfl, rfl⟩

end Sys2Proof.Machine

namespace Sys2Proof.Machine

/-! ## Host DMA (R433 to R435) -/

/-- A DMA command at the head of its queue, whose context exists and whose fields lie in range, ends as its moves do. -/
theorem State.hostDma_of_moved {s w : State} {id op : Nat} {q : Cmd} {work : Cmd → Nat → Exec Unit} (hq : s.cmdReady id op = some q)
    (hh : s.queueHead q = true) (hc : (s.startCmd q).ctxState q.c ≠ csFree) (hr : q.dmaRange = true)
    (hi : op = 5 → (s.startCmd q).inputHeld q.c q.devAddr q.len = false)
    (hw : (Exec.each (List.range (q.len / 64)) (work q)) (s.startCmd q) = (Except.ok (), w)) :
    s.hostDma id op work = w.dmaEnd id 0 := by
  rw [State.hostDma, hq]
  dsimp only
  rw [if_neg (ne_false_of_eq_true hh), if_neg hc, if_neg (ne_false_of_eq_true hr), if_neg fun h => ne_true_of_eq_false (hi h.1) h.2, hw]

/-! ## QUERY, FENCE_UNIT and TELEMETRY_READ (R425, R437, R438, R442) -/

theorem State.answerHost_of_written {s : State} {a : Nat} {b : List Byte} (h : s.hostAborts a b.length = false) (id : Nat)
    (f : State → State) : s.answerHost id a b f = (f (s.putHost a b)).completeCmd id 0 0 := if_neg (ne_true_of_eq_false h)

section
variable {s : State} {at_ id : Nat} {q : Cmd}

theorem exec_query_of_written (hq : (s.advanceTo at_).cmdReady id 0x0A = some q) (hi : ¬(q.at_ 8 0 8 = 4 ∧ 64 ≤ q.at_ 10 0 16))
    (hl : (((s.advanceTo at_).startCmd q).queryResult q).length ≤ q.at_ 24 0 32) :
    let v := (s.advanceTo at_).startCmd q
    v.hostAborts (q.at_ 16 0 64) (v.queryResult q).length = false →
    exec (.query at_ id) s = .next ((v.putHost (q.at_ 16 0 64) (v.queryResult q)).completeCmd id 0 0) := by
  intro v ha
  refine congrArg Host.Outcome.next ?_
  rw [query, hq]
  dsimp only
  rw [if_neg (not_or_intro hi (Nat.not_lt.mpr hl)), State.answerHost_of_written ha]

theorem exec_fenceUnit_of_unfenced (hq : (s.advanceTo at_).cmdReady id 0x0B = some q) (hi : q.at_ 10 0 16 < fenceUnits (q.at_ 8 0 8)) :
    let v := (s.advanceTo at_).startCmd q
    v.unitFenced (q.at_ 8 0 8) (q.at_ 10 0 16) = false →
    exec (.fenceUnit at_ id) s = .next ((v.fenceNow (q.at_ 8 0 8) (q.at_ 10 0 16)).completeCmd id 0 0) := by
  intro v hu
  refine congrArg Host.Outcome.next ?_
  rw [fenceUnitCmd, hq]
  dsimp only
  rw [if_neg (Nat.not_le.mpr hi), if_neg (ne_true_of_eq_false hu)]

/-- A table that may be read: entries that exist, of the expert counters those of the directory's owner. -/
theorem telemetryRange_of_admitted {v : State} (h : (q.at_ 8 0 8 < 2 ∧ q.at_ 10 0 16 + q.at_ 12 0 16 ≤ 4096)
      ∨ (q.at_ 8 0 8 = 2 ∧ q.at_ 10 0 16 + q.at_ 12 0 16 ≤ 8192 ∧ v.flag Fld.dirValid = true ∧ v.fld Fld.dirCtx = q.c)) :
    ¬(2 < q.at_ 8 0 8 ∨ (if q.at_ 8 0 8 = 2 then 8192 else 4096) < q.at_ 10 0 16 + q.at_ 12 0 16
        ∨ (q.at_ 8 0 8 = 2 ∧ (v.flag Fld.dirValid = false ∨ v.fld Fld.dirCtx ≠ q.c))) := by
  obtain ⟨ht, hn⟩ | ⟨ht, hn, hd, hc⟩ := h
  · rw [if_neg (by omega)]
    omega
  · rw [if_pos ht]
    rintro (h | h | ⟨-, h | h⟩)
    · omega
    · omega
    · exact ne_true_of_eq_false h hd
    · exact h hc

theorem exec_telemetryRead_of_written (hq : (s.advanceTo at_).cmdReady id 0x0D = some q) :
    let v := (s.advanceTo at_).startCmd q
    v.ctxState q.c ≠ csFree → ((q.at_ 8 0 8 < 2 ∧ q.at_ 10 0 16 + q.at_ 12 0 16 ≤ 4096)
      ∨ (q.at_ 8 0 8 = 2 ∧ q.at_ 10 0 16 + q.at_ 12 0 16 ≤ 8192 ∧ v.flag Fld.dirValid = true ∧ v.fld Fld.dirCtx = q.c)) →
    let b := v.telemetry q.c (q.at_ 8 0 8) (q.at_ 10 0 16) (q.at_ 12 0 16)
    v.hostAborts (q.at_ 16 0 64) b.length = false →
    let w := v.putHost (q.at_ 16 0 64) b
    exec (.telemetryRead at_ id) s = .next
      ((if q.at_ 9 0 1 = 1 then w.zeroTelemetry q.c (q.at_ 8 0 8) (q.at_ 10 0 16) (q.at_ 12 0 16) else w).completeCmd id 0 0) := by
  intro v hc ht b ha w
  refine congrArg Host.Outcome.next ?_
  rw [telemetryRead, hq]
  dsimp only
  rw [if_neg hc, if_neg (telemetryRange_of_admitted ht), State.answerHost_of_written ha]

/-! ## SET_POLICY (R425, R439, R440) -/

theorem exec_setPolicy_of_applied {w : State} (hq : (s.advanceTo at_).cmdReady id 0x0C = some q) (ht : q.at_ 8 0 16 ≠ 0x10)
    (hc : q.ctx.isSome = true → (s.advanceTo at_).ctxState q.c ≠ csFree) (hn : q.at_ 24 0 32 ≤ policyMax)
    (hl : policyLen (q.at_ 8 0 16) (q.at_ 24 0 32) [] = true)
    (hr : (s.advanceTo at_).hostRefuses (q.at_ 16 0 64) (q.at_ 24 0 32) = false) :
    let b := (s.advanceTo at_).hostBytes (q.at_ 16 0 64) (q.at_ 24 0 32)
    policyLen (q.at_ 8 0 16) (q.at_ 24 0 32) b = true →
    ((s.advanceTo at_).startCmd q).applyPolicy (q.at_ 8 0 16) q.c b = Except.ok w →
    exec (.setPolicy at_ id) s = .next (w.completeCmd id 0 0) := by
  intro b hb hw
  obtain ⟨habort, hpoison⟩ := Bool.or_eq_false_iff.mp hr
  have hlong : ¬(policyMax < q.at_ 24 0 32
      ∨ (q.at_ 8 0 16 ≠ 5 ∧ q.at_ 8 0 16 ≠ 7 ∧ policyLen (q.at_ 8 0 16) (q.at_ 24 0 32) [] = false)) := by
    rintro (h | h)
    · exact Nat.not_lt.mpr hn h
    · exact ne_true_of_eq_false h.2.2 hl
  refine congrArg Host.Outcome.next ?_
  rw [setPolicy, hq]
  dsimp only
  rw [if_neg fun h => ht h.1, if_neg fun h => hc h.1 h.2, if_neg hlong, if_neg (ne_true_of_eq_false habort),
    if_neg (ne_true_of_eq_false hpoison), if_neg (ne_false_of_eq_true hb), hw]

/-! ## Fossil commands (R483, R493, R500) -/

section
variable (hq : (s.advanceTo at_).cmdReady id 0x07 = some q)
include hq

theorem exec_fossilBegin_of_not_allowed (hm : ((s.advanceTo at_).startCmd q).mayFossil q.c = false) :
    exec (.fossilBegin at_ id) s = .next (((s.advanceTo at_).startCmd q).completeCmd id 0x0013 0) := by
  refine congrArg Host.Outcome.next ?_
  rw [fossilBegin, hq]
  exact if_pos hm

theorem exec_fossilBegin_of_set {l : List FosPage} {w : State} (hm : ((s.advanceTo at_).startCmd q).mayFossil q.c = true)
    (hl : (fosSet q.c) ((s.advanceTo at_).startCmd q) = (Except.ok l, w)) :
    let v := (s.advanceTo at_).startCmd q
    exec (.fossilBegin at_ id) s = .next
      (if v.beginStatus q (some l) ≠ 0 then v.completeCmd id (v.beginStatus q (some l)) 0 else w.beginEpoch (newEpoch q l)) := by
  refine congrArg Host.Outcome.next ?_
  rw [fossilBegin, hq]
  dsimp only
  rw [if_neg (ne_false_of_eq_true hm), hl]
  rfl

end

section
variable (hq : (s.advanceTo at_).cmdReady id 0x08 = some q)
include hq

theorem exec_fossilCommit_of_epoch {e : Epoch} (he : (s.advanceTo at_).fos.epoch = some e) (hn : e.epoch = q.at_ 28 0 32)
    (hc : e.ctx = q.c) (hw : e.commit = none) :
    let v := (s.advanceTo at_).startCmd q
    exec (.fossilCommit at_ id) s = .next
      (if v.fld Fld.fosState = fosStreamed then v.commitEpoch e id else v.mapEpoch fun e => { e with commit := some id }) := by
  refine congrArg Host.Outcome.next ?_
  rw [fossilCommit, hq]
  dsimp only
  rw [he]
  dsimp only
  rw [if_pos ⟨hn, hc⟩, hw]
  rfl

theorem exec_fossilCommit_of_no_epoch (he : (s.advanceTo at_).fos.epoch = none) :
    let u := s.advanceTo at_
    exec (.fossilCommit at_ id) s
      = .next ((u.startCmd q).completeCmd id (if u.fos.abandoned.contains (q.at_ 28 0 32) then 0x0907 else 0x0902) 0) := by
  refine congrArg Host.Outcome.next ?_
  rw [fossilCommit, hq]
  dsimp only
  rw [he]

end

/-- The fill that a command asks for. -/
def Cmd.newFill (q : Cmd) (id : Nat) : Fill := { cmd := id, ctx := q.c, buddy := q.at_ 24 0 12, epoch := q.at_ 28 0 32 }

section
variable (hq : (s.advanceTo at_).cmdReady id 0x09 = some q) (hf : (s.advanceTo at_).fos.fill = none)
include hq hf

theorem exec_fillFromBuddy_of_not_loaded (hc : ((s.advanceTo at_).startCmd q).ctxState q.c ≠ csLoaded) :
    exec (.fillFromBuddy at_ id) s = .next (((s.advanceTo at_).startCmd q).completeCmd id 0x0013 0) := by
  refine congrArg Host.Outcome.next ?_
  rw [fillFromBuddy, hq]
  dsimp only
  rw [hf, if_neg (by decide), if_pos (.inl hc)]

theorem exec_fillFromBuddy_of_loaded (hc : ((s.advanceTo at_).startCmd q).ctxState q.c = csLoaded)
    (hm : ((s.advanceTo at_).startCmd q).modeOf = 0) (hv : ((s.advanceTo at_).startCmd q).flag Fld.moduleValid = true) :
    let v := (s.advanceTo at_).startCmd q
    exec (.fillFromBuddy at_ id) s = .next ({ v with fos := { v.fos with fill := some (q.newFill id) } } : State).askFill := by
  refine congrArg Host.Outcome.next ?_
  rw [fillFromBuddy, hq]
  dsimp only
  rw [hf, if_neg (by decide), if_neg fun h => h.elim (absurd hc) fun h => h.elim (absurd hm) (ne_false_of_eq_true hv)]
  rfl

end

end

/-- A fill that has not asked asks its buddy once there is a route, naming this module. -/
theorem State.askFill_of_route {s : State} {f : Fill} (hf : s.fos.fill = some f) (ha : f.asked = false)
    (hr : (s.fosRoute f.buddy).isSome = true) :
    s.askFill
      = ({ s with fos := { s.fos with fill := some { f with asked := true } } } : State).tell (.request f.buddy s.moduleId f.epoch) := by
  rw [State.askFill, hf]
  refine if_neg fun h => h.elim (ne_true_of_eq_false ha) ?_
  exact ne_true_of_eq_false (Option.isNone_eq_false_iff.mpr hr)

theorem State.askFill_of_no_route {s : State} {f : Fill} (hf : s.fos.fill = some f) (hr : (s.fosRoute f.buddy).isNone = true) :
    s.askFill = s := by
  rw [State.askFill, hf]
  exact if_pos (.inr hr)

/-- Settles O42: each clause is the case of its command in which it has its effect, or the one in which it is refused. -/
theorem movingCommands : Obligations.MovingCommands := by
  constructor
  · intro s at_ id q u v
    exact ⟨fun w hq hh hc hr hi hw => congrArg Host.Outcome.next (State.hostDma_of_moved hq hh hc hr (fun _ => hi) hw),
      fun w hq hh hc hr hw => congrArg Host.Outcome.next (State.hostDma_of_moved hq hh hc hr (fun h => absurd h (by decide)) hw),
      exec_query_of_written, exec_fenceUnit_of_unfenced, fun w => exec_setPolicy_of_applied, exec_telemetryRead_of_written⟩
  · intro s at_ id q u v
    refine ⟨fun hq => ⟨exec_fossilBegin_of_not_allowed hq, fun l w hm hl => ⟨fun h0 => ?begun, fun h0 => ?refused⟩⟩,
      fun hq => ⟨fun e he hn hc hw => ⟨fun h => ?committed, fun h => ?awaited⟩, exec_fossilCommit_of_no_epoch hq⟩,
      fun hq hf => ⟨fun hc hm hv => ⟨fun hr => ?asked, fun hr => ?waits⟩, exec_fillFromBuddy_of_not_loaded hq hf⟩⟩
    case begun => rw [exec_fossilBegin_of_set hq hm hl, if_neg (not_not_intro h0)]
    case refused => rw [exec_fossilBegin_of_set hq hm hl, if_pos h0]
    case committed => rw [exec_fossilCommit_of_epoch hq he hn hc hw, if_pos h]
    case awaited => rw [exec_fossilCommit_of_epoch hq he hn hc hw, if_neg h]
    case asked =>
      rw [exec_fillFromBuddy_of_loaded hq hf hc hm hv]
      exact congrArg Host.Outcome.next (State.askFill_of_route rfl rfl hr)
    case waits =>
      rw [exec_fillFromBuddy_of_loaded hq hf hc hm hv]
      exact congrArg Host.Outcome.next (State.askFill_of_no_route rfl hr)

end Sys2Proof.Machine

namespace Sys2Proof.Machine

/-! ## Completions and interrupts (R421, R422, R424, R427) -/

section
variable {s : State} {at_ cq : Nat}

/-- A CQ that is in service and has room, with Flint running, does not hold its oldest completion. -/
theorem completionPost_of_room {x : Compl} (hx : (s.advanceTo at_).host.compls.find? (fun x => x.cq == cq) = some x)
    (hu : (s.advanceTo at_).hostUp = true) (hf : (s.advanceTo at_).err.flintDown = false)
    (he : (s.advanceTo at_).flag (Fld.cqEnable cq) = true) (hr : (s.advanceTo at_).cqFull cq = false) :
    let u := s.advanceTo at_
    let a := u.cqBase cq + 32 * u.fld (Fld.cqTail cq)
    let v := (u.putHost a (u.entryBytes x)).advanceTail cq
    let w : State := { v with host := { v.host with compls := dropFirst cq v.host.compls } }
    completionPost at_ cq s =
      if u.hostAborts a 32 then (u.setFld (Fld.cqEnable cq) 0).report { code := 0x0812, index := cq }
      else (x.slot.elim w w.releaseSlot).noteEntry cq x.kind := by
  rw [completionPost]
  dsimp only
  rw [hx]
  dsimp only
  rw [if_neg fun h => h.elim (ne_false_of_eq_true hu) fun h => h.elim (ne_true_of_eq_false hf) fun h =>
    h.elim (ne_false_of_eq_true he) (ne_true_of_eq_false hr)]
  cases x.slot <;> rfl

theorem exec_completionPost_of_held (h : (s.advanceTo at_).cqFull cq = true ∨ (s.advanceTo at_).err.flintDown = true
      ∨ (s.advanceTo at_).flag (Fld.cqEnable cq) = false) : exec (.completionPost at_ cq) s = .next (s.advanceTo at_) := by
  have hheld : (s.advanceTo at_).hostUp = false ∨ (s.advanceTo at_).err.flintDown = true
      ∨ (s.advanceTo at_).flag (Fld.cqEnable cq) = false ∨ (s.advanceTo at_).cqFull cq = true := by tauto
  refine congrArg Host.Outcome.next ?_
  rw [completionPost]
  dsimp only
  split
  · rfl
  · exact if_pos hheld

theorem exec_msixModeration_of_due (hn : (s.advanceTo at_).unsigned cq ≠ 0)
    (hd : (s.advanceTo at_).fld (Fld.cqModCount cq) ≤ (s.advanceTo at_).unsigned cq
      ∨ (s.advanceTo at_).oldestAt cq + 100 * (s.advanceTo at_).fld (Fld.cqModUs cq) ≤ (s.advanceTo at_).now) :
    exec (.msixModeration at_ cq) s = .next ((s.advanceTo at_).fireVector cq) :=
  congrArg Host.Outcome.next (if_pos ⟨hn, hd⟩)

theorem exec_msixModeration_of_early (h : (s.advanceTo at_).unsigned cq = 0
      ∨ ((s.advanceTo at_).unsigned cq < (s.advanceTo at_).fld (Fld.cqModCount cq)
        ∧ (s.advanceTo at_).now < (s.advanceTo at_).oldestAt cq + 100 * (s.advanceTo at_).fld (Fld.cqModUs cq))) :
    exec (.msixModeration at_ cq) s = .next (s.advanceTo at_) := by
  refine congrArg Host.Outcome.next (if_neg fun hd => ?_)
  obtain ⟨hn, hdue⟩ := hd
  obtain h0 | ⟨hcount, htime⟩ := h
  · exact hn h0
  · exact hdue.elim (Nat.not_le.mpr hcount) (Nat.not_le.mpr htime)

end

/-! ## Host DMA that has moved, and configuration requests (R414, R417, R434) -/

section
variable {s : State} {at_ : Nat}

theorem exec_hostDmaDone_of_moved {queue : Nat} {c : Cmd} (hc : (s.advanceTo at_).host.cmds.find?
      (fun c => c.dma && c.dmaDone && c.queue == queue && !(s.advanceTo at_).err.caught.contains c.id) = some c) :
    exec (.hostDmaDone at_ queue) s = .next ((s.advanceTo at_).completeCmd c.id c.status c.dmaTail) := by
  refine congrArg Host.Outcome.next ?_
  rw [hostDmaDone, hc]

/-- A request that reaches the module: retry status until BOOT_LOCK, and after it the access acts. -/
theorem exec_configurationRequest_of_link (h : (s.advanceTo at_).pins.phase = .boot ∨ (s.advanceTo at_).hostUp = true) (a : CfgAccess) :
    let u := s.advanceTo at_
    let v : State := { u with host := { u.host with lastCrs := some !u.flag Fld.bootLock } }
    exec (.configurationRequest ⟨at_, a⟩) s = .next (if u.flag Fld.bootLock then v.cfgAccess a else v) :=
  congrArg Host.Outcome.next (if_pos h)

/-- In reset the link is down. -/
theorem exec_configurationRequest_of_reset (h : (s.advanceTo at_).pins.phase = .reset) (a : CfgAccess) :
    exec (.configurationRequest ⟨at_, a⟩) s = .next (s.advanceTo at_) := by
  refine congrArg Host.Outcome.next (if_neg fun hl => ?_)
  rw [h, State.hostUp, h] at hl
  exact hl.elim (fun hb => Phase.noConfusion hb) fun hb => Bool.noConfusion hb

end

/-- Settles O43: each clause is one case of its command; a channel that has retrained is filtered out of those that retrain. -/
theorem hostAnswered : Obligations.HostAnswered := by
  constructor
  · intro s at_ cq
    refine ⟨fun x hx hu hf he hr => ⟨fun ha hs => ?written, fun ha => ?aborted⟩, exec_completionPost_of_held, exec_msixModeration_of_due,
      exec_msixModeration_of_early⟩
    case written =>
      refine congrArg Host.Outcome.next ?_
      rw [completionPost_of_room hx hu hf he hr, if_neg (ne_true_of_eq_false ha), hs]
      rfl
    case aborted =>
      refine congrArg Host.Outcome.next ?_
      rw [completionPost_of_room hx hu hf he hr, if_pos ha]
  · intro s at_ queue ch
    refine ⟨fun c => exec_hostDmaDone_of_moved, fun hl => ⟨fun hb a => ?retry, fun hb => ⟨?other, ?read, fun a => ?write⟩⟩,
      exec_configurationRequest_of_reset, _, rfl, rfl, fun e he => ?back, rfl, rfl⟩
    case retry => rw [exec_configurationRequest_of_link hl, hb, if_neg Bool.false_ne_true, Bool.not_false]
    case other =>
      rw [exec_configurationRequest_of_link hl, hb]
      rfl
    case read =>
      rw [exec_configurationRequest_of_link hl, hb]
      rfl
    case write =>
      rw [exec_configurationRequest_of_link hl, hb]
      rfl
    case back => exact bne_iff_ne.mp (List.of_mem_filter (p := fun e : Nat × Nat => e.1 != ch) he)

end Sys2Proof.Machine

namespace Sys2Proof.Machine

/-! ## The HIF registers (R427, R443, R518) -/

/-- A write of register `o` of ring `r` through its offset. -/
theorem State.hifWrite_ring (s : State) (p : Party) {r o : Nat} (hr : r < 64) (ho : o % 4 = 0) (hn : o ≠ 0x0C) (hm : o ≤ 0x18) (v : Word) :
    s.hifWrite p (Reg.ring r + o) v = s.ringWrite r o v := by
  have hbar : Reg.ring r + o ≠ Reg.hifBar4 := by
    simp only [Reg.ring, Reg.hifBar4]
    omega
  have hin : Reg.ring 0 ≤ Reg.ring r + o ∧ Reg.ring r + o < Reg.ring 64 := by
    simp only [Reg.ring]
    omega
  have hoff : (Reg.ring r + o - Reg.ring 0) % 0x40 = o := by
    simp only [Reg.ring]
    omega
  have hnum : (Reg.ring r + o - Reg.ring 0) / 0x40 = r := by
    simp only [Reg.ring]
    omega
  rw [State.hifWrite, if_neg hbar, if_pos hin, hoff, hnum]
  exact if_pos ⟨ho, hm, hn⟩

theorem State.hifWrite_stat (s : State) (p : Party) {off : Nat} (h : off = Reg.hifStat ∨ off = Reg.hifEvt) (v : Word) :
    s.hifWrite p off v = s.plainWrite off v := by
  have hplace : off ≠ Reg.hifBar4 ∧ ¬(Reg.ring 0 ≤ off ∧ off < Reg.ring 64) := by
    rcases h with rfl | rfl <;> decide
  rw [State.hifWrite, if_neg hplace.1, if_neg hplace.2, if_pos h]

theorem State.hifWrite_bar4_of_locked {s : State} (h : s.flag Fld.bootLock = true) (p : Party) (v : Word) :
    s.hifWrite p Reg.hifBar4 v = s := by
  rw [State.hifWrite, if_pos rfl]
  exact if_neg fun hn => ne_true_of_eq_false hn.2 h

section
variable {s : State} {at_ : Nat}

theorem exec_sqDisable_of_admitted {r : Nat} (hr : r < 64) (ha : (s.advanceTo at_).admits .host Reg.hif = true) :
    let u := s.advanceTo at_
    exec (.sqDisable at_ r) s = .next (u.ringWrite r 0x08 (u.rd (Reg.sqCfg r) &&& 0x7FFFFFFF#32)) :=
  congrArg Host.Outcome.next ((if_pos ⟨hr, ha⟩).trans (State.hifWrite_ring _ _ hr (by decide) (by decide) (by decide) _))

section
variable {off : Nat} {p : Party} {v : Word}

theorem exec_hifRegWrite_of_block (hlo : Reg.hif ≤ off) (hhi : off < Reg.str) (ha : (s.advanceTo at_).admits p off = true) :
    exec (.hifRegWrite at_ p off v) s = .next ((s.advanceTo at_).hifWrite p off v) :=
  congrArg Host.Outcome.next (if_pos ⟨hlo, hhi, ha⟩)

theorem exec_hifRegWrite_of_other_block (h : off < Reg.hif ∨ Reg.str ≤ off) :
    exec (.hifRegWrite at_ p off v) s = .next (s.advanceTo at_) :=
  congrArg Host.Outcome.next (if_neg fun hb => h.elim (Nat.not_lt.mpr hb.1) (Nat.not_le.mpr hb.2.1))

end

/-! ## Function-level reset (R415, R578) -/

/-- The host interface as a function-level reset that waits for nothing leaves it. -/
def HostSt.afterReset (h : HostSt) : HostSt := { h.resetRings with flr := false }

/-- With no context to destroy a function-level reset ends at once. -/
theorem State.flrStep_of_no_context {s : State} (hf : s.host.flr = true) (hc : s.anyCtx = false) :
    s.flrStep = ({ s with host := s.host.afterReset } : State).resetHif := by
  have hfree : ∀ c ∈ ctxNumbers, s.ctxState c = csFree := fun c hm => by
    simpa only [bne_iff_ne, ne_eq, not_not] using List.any_eq_false.mp hc c hm
  have hkept : ctxNumbers.foldl (fun t c => if t.ctxState c = csFree ∨ t.swapHolds c then t else t.destroy c) s = s :=
    foldl_eq_of_fixed fun c hm => if_pos (.inl (hfree c hm))
  rw [State.flrStep, if_pos hf, hkept]
  exact if_neg (ne_true_of_eq_false hc)

/-- A register that reads its reset word is disabled in every ring. -/
theorem sqEnable_resetWord : ∀ r < 64, bits (Reg.resetWord (Reg.sqCfg r)).toNat 31 1 = 0 := by decide

theorem SMap.get_drop_of_true {α : Type} {d : Nat → α} {p : Nat → Bool} {b : Nat} (h : p b = true) (m : SMap α) :
    SMap.get d (SMap.drop p m) b = d b := by
  induction m with
  | nil => rfl
  | cons e r ih =>
    rw [SMap.drop, List.filter_cons]
    split
    · rename_i hk
      rw [SMap.get, if_neg fun hb => ?_]
      · exact ih
      · rw [← hb, h] at hk
        exact Bool.noConfusion hk
    · exact ih

theorem State.sqEnable_resetHif (s : State) {r : Nat} (hr : r < 64) : s.resetHif.flag (Fld.sqEnable r) = false := by
  have hplace : (Reg.hif ≤ Reg.sqCfg r ∧ Reg.sqCfg r < Reg.str) ∧ Reg.sqCfg r ≠ Reg.hifBar4 := by
    simp only [Reg.sqCfg, Reg.ring, Reg.hif, Reg.str, Reg.hifBar4]
    omega
  have hdrop : (decide (Reg.hif ≤ Reg.sqCfg r) && decide (Reg.sqCfg r < Reg.str) && Reg.sqCfg r != Reg.hifBar4) = true := by
    simpa only [Bool.and_eq_true, decide_eq_true_eq, bne_iff_ne] using hplace
  have hrd : s.resetHif.rd (Reg.sqCfg r) = Reg.resetWord (Reg.sqCfg r) :=
    SMap.get_drop_of_true (p := fun k => decide (Reg.hif ≤ k) && decide (k < Reg.str) && k != Reg.hifBar4) hdrop _
  rw [State.flag, State.fld, Fld.sqEnable, hrd, sqEnable_resetWord r hr]
  rfl

theorem exec_functionLevelReset_of_down (h : (s.advanceTo at_).hostUp = false) :
    exec (.functionLevelReset at_) s = .next (s.advanceTo at_) := congrArg Host.Outcome.next (if_neg (ne_true_of_eq_false h))

theorem exec_functionLevelReset_of_no_context (h : (s.advanceTo at_).hostUp = true) (hc : (s.advanceTo at_).anyCtx = false) :
    let u := s.advanceTo at_
    exec (.functionLevelReset at_) s = .next ({ u with host := u.host.afterReset } : State).resetHif.collSweep := by
  refine congrArg Host.Outcome.next ((if_pos h).trans ?_)
  exact congrArg State.collSweep (State.flrStep_of_no_context rfl hc)

/-! ## BAR4 (R213, R417) -/

section
variable {x n : Nat} {data : List Nat}

theorem exec_bar4Access_of_down (h : (s.advanceTo at_).hostUp = false) (w : Bool) :
    exec (.bar4Access at_ w x data n) s = .next (s.advanceTo at_) := congrArg Host.Outcome.next (if_pos h)

theorem exec_bar4Access_of_write {w : State} (h : (s.advanceTo at_).hostUp = true)
    (hw : (bar4Write x (data.map (BitVec.ofNat 8))) (s.advanceTo at_) = (Except.ok (), w)) :
    exec (.bar4Access at_ true x data n) s = .next w := by
  refine congrArg Host.Outcome.next ?_
  rw [bar4Access]
  dsimp only
  rw [if_neg (ne_false_of_eq_true h), if_pos rfl, hw]

theorem exec_bar4Access_of_read (h : (s.advanceTo at_).hostUp = true) :
    let r := (s.advanceTo at_).bar4Read (granPieces (pieceFuel n) x n) x
    exec (.bar4Access at_ false x data n) s = .next { r.2 with host := { r.2.host with readData := leNat r.1 } } := by
  refine congrArg Host.Outcome.next ?_
  rw [bar4Access]
  dsimp only
  rw [if_neg (ne_false_of_eq_true h), if_neg Bool.false_ne_true]

end

end

/-- Settles O44: a HIF write goes by the place of its offset in the block; a function-level reset without contexts resets the block, which
disables every ring; BAR4 answers while the host interface is up. -/
theorem hostRegistersAndWindow : Obligations.HostRegistersAndWindow := by
  refine ⟨fun s at_ r => exec_sqDisable_of_admitted, fun s at_ off p v ha => ⟨fun h => ?stat, fun h hl => ?bar4,
      exec_hifRegWrite_of_other_block⟩,
    fun s at_ => ⟨exec_functionLevelReset_of_down, fun h hc => ⟨exec_functionLevelReset_of_no_context h hc,
      fun r hr => State.sqEnable_resetHif _ hr⟩⟩,
    fun s at_ x n data => ⟨exec_bar4Access_of_down, fun h w => exec_bar4Access_of_write h, exec_bar4Access_of_read⟩⟩
  case stat =>
    have hb : Reg.hif ≤ off ∧ off < Reg.str := by rcases h with rfl | rfl <;> decide
    rw [exec_hifRegWrite_of_block hb.1 hb.2 ha, State.hifWrite_stat _ _ h]
  case bar4 =>
    subst h
    rw [exec_hifRegWrite_of_block (by decide) (by decide) ha, State.hifWrite_bar4_of_locked hl]

end Sys2Proof.Machine

namespace Sys2Proof.Machine

/-! ## The closing of records (R451, R454) -/

section
variable {s : State} {at_ i : Nat}

theorem exec_recordClose_of_handled (hp : (s.advanceTo at_).pins.phase = .running) (hf : (s.advanceTo at_).err.flintDown = false)
    (hi : i < 64) (ho : ((s.advanceTo at_).errRec i).state = .opened)
    (hh : (s.advanceTo at_).handled ((s.advanceTo at_).errRec i) = true) :
    let u := s.advanceTo at_
    let r := u.errRec i
    exec (.recordClose at_ i) s = .next ((if r.domain = domContext ∧ u.sameLife r then u.clearCtx r.index else u).closeRec i) :=
  congrArg Host.Outcome.next (if_pos ⟨hp, hf, hi, ho, hh⟩)

theorem exec_recordClose_of_not_open (h : ((s.advanceTo at_).errRec i).state ≠ .opened) :
    exec (.recordClose at_ i) s = .next (s.advanceTo at_) := congrArg Host.Outcome.next (if_neg fun hc => h hc.2.2.2.1)

end

/-! ## The watchdog and Flint's restart (R459 to R461, R517) -/

section
variable {s : State} {at_ : Nat}

theorem exec_watchdogAck_of_up (hu : (s.advanceTo at_).hostUp = true) (hf : (s.advanceTo at_).err.flintDown = false) :
    let u := s.advanceTo at_
    exec (.watchdogAck at_) s = .next { u with err := { u.err with lastAck := u.now } } := congrArg Host.Outcome.next (if_pos ⟨hu, hf⟩)

/-! The times of the watchdog in units of 10 ns (R28). -/
theorem ms_50 : ms 50 = 5000000 := by rw [ms]
theorem ms_10000 : ms 10000 = 1000000000 := by rw [ms]

/-- Without an exception the watchdog trips 50 ms after the last acknowledgement. -/
theorem State.tripDue_iff {u : State} :
    u.tripDue false = true ↔ u.hostUp = true ∧ u.err.flintDown = false ∧ u.err.lastAck + 5000000 ≤ u.now := by
  simp only [State.tripDue, Bool.false_and, Bool.or_false, Bool.and_eq_true, Bool.not_eq_true', decide_eq_true_eq, ms_50,
    and_assoc]

/-- A trip counts and holds Flint; a second one within 10 s, or a bad copy of the firmware, is fatal. -/
theorem exec_watchdogRestart_of_due (h : (s.advanceTo at_).tripDue false = true) :
    let u := s.advanceTo at_
    let v := (u.bump Fld.wdTrips).holdFlint
    exec (.watchdogRestart at_ false) s = .next
      (if u.err.lastTrip.any fun t => decide (u.now ≤ t + ms 10000) then v.raise { code := 0x0802, domain := domModule }
       else if v.copyOk = false then v.raise { code := 0x0802, domain := domModule, detail := 0x0824 }
       else v.report { code := 0x0801 }) := congrArg Host.Outcome.next (if_pos h)

theorem exec_watchdogRestart_of_early (h : (s.advanceTo at_).now < (s.advanceTo at_).err.lastAck + 5000000) :
    exec (.watchdogRestart at_ false) s = .next (s.advanceTo at_) :=
  congrArg Host.Outcome.next (if_neg fun hd => Nat.not_le.mpr h (State.tripDue_iff.mp hd).2.2)

/-- After 50 ms Flint is back; with nothing caught and nothing deferred that is all. -/
theorem exec_flintRestartDone_of_due {t : Nat} (hf : (s.advanceTo at_).err.flintDown = true)
    (ht : (s.advanceTo at_).err.lastTrip = some t) (hd : t + 5000000 ≤ (s.advanceTo at_).now)
    (hc : (s.advanceTo at_).err.caught = []) (ha : (s.advanceTo at_).err.deferred = []) :
    let u := s.advanceTo at_
    exec (.flintRestartDone at_) s
      = .next { u with err := { u.err with flintDown := false, caught := [], deferred := [], lastAck := u.now } } := by
  have hdue : ((s.advanceTo at_).err.lastTrip.any fun t => decide (t + ms 50 ≤ (s.advanceTo at_).now)) = true := by
    rw [ht, Option.any_some, decide_eq_true_eq, ms_50]
    exact hd
  refine congrArg Host.Outcome.next ?_
  rw [flintRestartDone, if_pos ⟨hf, hdue⟩, hc, ha]
  rfl

theorem exec_flintRestartDone_of_up (hf : (s.advanceTo at_).err.flintDown = false) :
    exec (.flintRestartDone at_) s = .next (s.advanceTo at_) :=
  congrArg Host.Outcome.next (if_neg fun h => ne_true_of_eq_false hf h.1)

end

/-- Settles O45: a record closes when its handling is complete; the moments of the watchdog are compared with the 50 ms and 10 s of
the spec. -/
theorem recordsAndWatchdog : Obligations.RecordsAndWatchdog := by
  intro s at_ i
  refine ⟨fun hp hf hi ho hh => ⟨fun hd hl => ?context, fun hd => ?other⟩, exec_recordClose_of_not_open, exec_watchdogAck_of_up,
    fun hu hf hd => ⟨fun ht => ?first, fun t ht hn => ?second⟩, exec_watchdogRestart_of_early, fun t => exec_flintRestartDone_of_due,
    exec_flintRestartDone_of_up⟩
  case context => rw [exec_recordClose_of_handled hp hf hi ho hh, if_pos ⟨hd, hl⟩]
  case other => rw [exec_recordClose_of_handled hp hf hi ho hh, if_neg fun h => hd h.1]
  case first =>
    have hnone : ¬((s.advanceTo at_).err.lastTrip.any fun t => decide ((s.advanceTo at_).now ≤ t + ms 10000)) = true := by
      simp only [ht, Option.any_none, Bool.false_eq_true, not_false_eq_true]
    rw [exec_watchdogRestart_of_due (State.tripDue_iff.mpr ⟨hu, hf, hd⟩), if_neg hnone]
    cases (((s.advanceTo at_).bump Fld.wdTrips).holdFlint).copyOk <;> rfl
  case second =>
    have hagain : ((s.advanceTo at_).err.lastTrip.any fun t => decide ((s.advanceTo at_).now ≤ t + ms 10000)) = true := by
      rw [ht, Option.any_some, decide_eq_true_eq, ms_10000]
      exact hn
    rw [exec_watchdogRestart_of_due (State.tripDue_iff.mpr ⟨hu, hf, hd⟩), if_pos hagain]

end Sys2Proof.Machine

namespace Sys2Proof.Machine

/-! ## Checkers (R465, R466, R469) -/

section
variable {s : State} {at_ core n k : Nat} {t : Tile} (ht : (s.advanceTo at_).tileOf core n = some t) (hk : t.checker = some k)
include ht hk

section
variable (hp : t.phase = .checking)
include hp

/-- The checker of a finished primary, in service with its engine free and next in turn, starts. -/
theorem exec_assayCheckerStart_of_next (hr : t.checkerRan = false) (hc : (s.advanceTo at_).coreFenced k = false)
    (he : (s.advanceTo at_).engineFree k t.engine = true) (hw : (s.advanceTo at_).withheld = false)
    (hn : ((s.advanceTo at_).checkerNext k t.engine).any (fun u => u.core == core && u.stream == n) = true) :
    exec (.assayCheckerStart at_ core n) s = .next ((s.advanceTo at_).startChecker t k) := by
  have hsame : (s.advanceTo at_).reassign t k = (s.advanceTo at_, some t) := if_neg (ne_true_of_eq_false hc)
  have hdue : ¬(t.phase ≠ .checking ∨ t.checkerRan = true) := not_or_intro (not_not_intro hp) (ne_true_of_eq_false hr)
  refine congrArg Host.Outcome.next ?_
  rw [assayCheckerStart, ht]
  dsimp only
  rw [hk]
  dsimp only
  rw [if_neg hdue, hsame]
  dsimp only
  rw [Option.bind_some, hk]
  exact if_pos ⟨he, hw, hn⟩

/-- Both executions have ended: equal signatures let the tile finish. -/
theorem exec_signatureCompare_of_ran {x : Tile} (hr : t.checkerRan = true)
    (hx : (s.advanceTo at_).tileOf k (checkStream core n) = some x) (hxp : x.phase = .recheck) (delta : Nat) :
    let v := ((s.advanceTo at_).dropTile k (checkStream core n)).bump Fld.assayChk
    exec (.signatureCompare at_ core n delta) s = .next
      (if v.signature t t.wrote = (x.sig + delta) % 2 ^ 64 then v.finishTile t
       else v.mismatch t k (v.signature t t.wrote) ((x.sig + delta) % 2 ^ 64)) := by
  have hended : (x.phase == TilePhase.recheck && t.phase == TilePhase.checking && t.checkerRan) = true := by
    rw [hxp, hp, hr]
    rfl
  refine congrArg Host.Outcome.next ?_
  rw [signatureCompare, ht]
  dsimp only
  rw [hk]
  dsimp only
  rw [hx, Option.filter_some, if_pos hended]

end

theorem exec_signatureCompare_of_not_ran (hr : t.checkerRan = false) (delta : Nat) :
    exec (.signatureCompare at_ core n delta) s = .next (s.advanceTo at_) := by
  have hnone : ((s.advanceTo at_).tileOf k (checkStream core n)).filter
      (fun u => u.phase == .recheck && t.phase == .checking && t.checkerRan) = none := by
    rw [hr]
    exact Option.filter_eq_none_iff.mpr fun x _ => by rw [Bool.and_false]; exact Bool.false_ne_true
  refine congrArg Host.Outcome.next ?_
  rw [signatureCompare, ht]
  dsimp only
  rw [hk]
  dsimp only
  rw [hnone]

end

section
variable {s w : State} {t : Tile} {k : Nat}

theorem State.startChecker_of_ok (h : (s.checkerState t k).execute t = (Except.ok (), w)) :
    s.startChecker t k = ((s.readAgain k t.ctx w.accesses).setTile { t with checkerRan := true }).occupy
      { s.checkerTile t k with sig := s.signature t w.accesses } := by
  rw [State.startChecker, h]

/-- An error of the checker is one of the primary's context. -/
theorem State.startChecker_of_fault {code phys : Nat} (h : (s.checkerState t k).execute t = (Except.error (.fault code phys), w)) :
    s.startChecker t k = (((s.readAgain k t.ctx w.accesses).setTile { t with checkerRan := true }).occupy
        { s.checkerTile t k with phase := .stopping, stopAt := s.now }).raiseCtx
      { code := code, core := some k, phys := phys, tileId := BitVec.ofNat 32 (dTileId t.desc)
        layerTag := BitVec.ofNat 16 (dLayerTag t.desc) } t.ctx := by
  rw [State.startChecker, h]

/-- A checker that has to wait does not start. -/
theorem State.startChecker_of_wait {e : Stop} (h : (s.checkerState t k).execute t = (Except.error e, w))
    (he : ∀ code phys, e ≠ .fault code phys) : s.startChecker t k = s := by
  rw [State.startChecker, h]
  cases e with
  | fault code phys => exact absurd rfl (he code phys)
  | kvExtend | kvVersion | kvFail | status | stall => rfl

end

/-! ## Replay (R472) -/

section
variable {s : State} {at_ entry : Nat} {sigs : List Nat}

/-- What a replay of an entry finds on the live cores. -/
def State.replayFound (u : State) (entry : Nat) (sigs : List Nat) : Nat × Nat × List Nat :=
  replayOutcome (u.evid entry) u.liveCores fun c => ((u.replaySig (u.evid entry)).getD 0 + sigs.getD c 0) % 2 ^ 64

/-- The entry as a replay leaves it. -/
def State.replayedEntry (u : State) (entry : Nat) (sigs : List Nat) : Evid :=
  let r := u.replayFound entry sigs
  { u.evid entry with use_ := .replayed, outcome := r.1, sigRef := r.2.1, culprits := r.2.2.foldl (fun n c => n + 2 ^ c) 0 }

/-- A replay that is due is recorded in the entry and reported by its outcome. -/
theorem exec_patternReplay_of_ready (hb : (s.advanceTo at_).flag Fld.replayBusy = true)
    (he : (s.advanceTo at_).flag Fld.reserveEn = true) (hf : (s.advanceTo at_).err.flintDown = false) (hi : entry < 8)
    (hc : ((s.advanceTo at_).evid entry).use_ = .captured)
    (hr : (s.advanceTo at_).replayReady ((s.advanceTo at_).evid entry) = true) :
    let u := s.advanceTo at_
    let r := u.replayFound entry sigs
    let w := (u.setEvid entry (u.replayedEntry entry sigs)).settleReplay
    exec (.patternReplay at_ entry sigs) s = .next
      (if r.1 = 2 then w.report { code := 0x0262, index := entry, evid := some entry }
       else if r.1 = 3 then w.report { code := 0x0263, index := entry, evid := some entry }
       else r.2.2.foldl (fun t c => t.raise
        { code := 0x0264, domain := domCore, index := c, core := some c, evid := some entry
          detail := if (u.evid entry).source = 0 then 0x0212 else 0x0261 }) w) :=
  congrArg Host.Outcome.next (if_pos ⟨hb, he, hf, hi, hc, hr⟩)

theorem exec_patternReplay_of_not_ready (hr : (s.advanceTo at_).replayReady ((s.advanceTo at_).evid entry) = false) :
    exec (.patternReplay at_ entry sigs) s = .next (s.advanceTo at_) :=
  congrArg Host.Outcome.next (if_neg fun h => ne_true_of_eq_false hr h.2.2.2.2.2)

theorem exec_patternReplay_of_idle (hb : (s.advanceTo at_).flag Fld.replayBusy = false) :
    exec (.patternReplay at_ entry sigs) s = .next (s.advanceTo at_) :=
  congrArg Host.Outcome.next (if_neg fun h => ne_true_of_eq_false hb h.1)

/-! ## Evidence for the host (R473) -/

theorem exec_evidenceReady_of_over (he : (s.advanceTo at_).flag Fld.evidEnable = true)
    (hf : (s.advanceTo at_).err.flintDown = false) (hi : entry < 8)
    (ho : (s.advanceTo at_).replayOver ((s.advanceTo at_).evid entry) = true) :
    let u := s.advanceTo at_
    let v := u.evid entry
    let slot := u.err.copied % (u.fld Fld.evidSlotsM1 + 1)
    let b := u.evidBytes v
    b.2.hostAborts (u.evidBase + 8392704 * slot) b.1.length = false →
    let w := (b.2.putHost (u.evidBase + 8392704 * slot) b.1).setEvid entry { v with use_ := .copied }
    exec (.evidenceReady at_ entry) s = .next (({ w with err := { w.err with copied := w.err.copied + 1 } } : State).report
      { code := 0x0267, index := entry, evid := some entry, detail := slot }) := by
  intro u v slot b ha w
  refine congrArg Host.Outcome.next ?_
  rw [evidenceReady]
  dsimp only
  rw [if_pos ⟨he, hf, hi, ho⟩, evidSlot, if_neg (ne_true_of_eq_false ha)]

theorem exec_evidenceReady_of_disabled (he : (s.advanceTo at_).flag Fld.evidEnable = false) :
    exec (.evidenceReady at_ entry) s = .next (s.advanceTo at_) :=
  congrArg Host.Outcome.next (if_neg fun h => ne_true_of_eq_false he h.1)

end

/-! ## Screening (R474) -/

section
variable {s : State} {at_ : Nat} {p : Party} {value : Word} {deltas : List (List Nat)}

theorem exec_screenStart_of_admitted (ha : (s.advanceTo at_).admits p Reg.errScreenCtrl = true) :
    exec (.screenStart at_ p value deltas) s = .next ((s.advanceTo at_).screenWrite value.toNat deltas) :=
  congrArg Host.Outcome.next (if_pos ha)

section
variable {v : Nat}

theorem State.screenWrite_of_count_out_of_range (h : bits v 0 9 = 0 ∨ 256 < bits v 0 9) :
    s.screenWrite v deltas = s.setFld Fld.errCfgReject 1 := if_pos h

theorem State.screenWrite_of_no_go (h0 : 0 < bits v 0 9) (hn : bits v 0 9 ≤ 256)
    (hg : bit v 31 = false ∨ (s.setFld Fld.screenCount (bits v 0 9)).anyCtx = true) :
    s.screenWrite v deltas = s.setFld Fld.screenCount (bits v 0 9) :=
  (if_neg (not_or_intro (Nat.ne_of_gt h0) (Nat.not_lt.mpr hn))).trans
    (if_neg fun h => hg.elim (fun hb => ne_true_of_eq_false hb h.1) fun hc => ne_true_of_eq_false h.2 hc)

theorem State.screenWrite_of_go (h0 : 0 < bits v 0 9) (hn : bits v 0 9 ≤ 256) (hg : bit v 31 = true)
    (hc : (s.setFld Fld.screenCount (bits v 0 9)).anyCtx = false) :
    let w := s.setFld Fld.screenCount (bits v 0 9)
    let base := (w.rd Reg.errScreenLo).toNat + (w.rd Reg.errScreenHi).toNat * 2 ^ 32
    let new := (List.range (bits v 0 9)).map fun i => (base + evidSlot * i, deltas.getD i [])
    s.screenWrite v deltas
      = ({ w with err := { w.err with screen := w.err.screen ++ new } } : State).setFld Fld.screenBusy 1 :=
  (if_neg (not_or_intro (Nat.ne_of_gt h0) (Nat.not_lt.mpr hn))).trans (if_pos ⟨hg, hc⟩)

end

/-- The screen with a vector taken from those that wait. -/
def State.takeVector (s : State) (rest : List (Nat × List Nat)) : State :=
  ({ s with err := { s.err with screen := rest } } : State).setFld Fld.screenBusy (if rest = [] then 0 else 1)

/-- The vector that comes next runs on every live core, and a core whose signature is not the vector's is fenced. -/
theorem State.screenNext_of_cons {a : Nat} {d : List Nat} {rest : List (Nat × List Nat)} (h : s.err.screen = (a, d) :: rest)
    (hp : s.pins.phase = .running) :
    let w := s.takeVector rest
    s.screenNext = if w.hostAborts a evidSlot then w
      else (w.liveCores.filter fun c => ((w.replaySig (w.vector a)).getD (w.vector a).sigRef + d.getD c 0) % 2 ^ 64
          != (w.vector a).sigRef).foldl
        (fun t c => t.raise { code := 0x0265, domain := domCore, index := c, core := some c }) w := by
  have hbusy : b2n (!rest.isEmpty) = if rest = [] then 0 else 1 := by cases rest <;> rfl
  have hrun : (s.err.screen.filter fun _ => s.pins.phase == .running) = (a, d) :: rest := by
    rw [hp, h]
    exact List.filter_true _
  rw [State.screenNext, hrun]
  dsimp only
  rw [hbusy]
  rfl

/-! ## ERR_CTRL (R475) -/

/-- A bit of a word is its field of width 1. -/
theorem bit_eq_bits (n i : Nat) : bit n i = (bits n i 1 == 1) := rfl

/-- The mask of ERR_CTRL keeps its three fields whole. -/
theorem errCtrl_fields (v : Word) :
    let m := keepBits (bitMask 31 31 + bitMask 9 8 + bitMask 3 0) v
    bits m.toNat 8 2 = bits v.toNat 8 2 ∧ bits m.toNat 0 4 = bits v.toNat 0 4 ∧ bit m.toNat 31 = bit v.toNat 31 :=
  ⟨bits_and_of_mask (by decide), bits_and_of_mask (by decide), by
    rw [bit_eq_bits, bit_eq_bits, keepBits, bits_and_of_mask (by decide)]⟩

theorem State.errCtrlWrite_of_range (h : bits value.toNat 8 2 = 3 ∨ bits value.toNat 0 4 < 2 ∨ 8 < bits value.toNat 0 4) :
    s.errCtrlWrite value = s.setFld Fld.errCfgReject 1 := by
  obtain ⟨hlevel, hlog, -⟩ := errCtrl_fields value
  rw [State.errCtrlWrite]
  rw [hlevel, hlog]
  exact if_pos (h.imp_right fun h => h.imp_right .inl)

/-- A write with reserve_en set, while no context exists. -/
theorem State.errCtrlWrite_of_reserve (hl : bits value.toNat 8 2 ≠ 3) (h2 : 2 ≤ bits value.toNat 0 4) (h8 : bits value.toNat 0 4 ≤ 8)
    (he : bit value.toNat 31 = true) (hc : s.anyCtx = false) :
    s.errCtrlWrite value = s.wr Reg.errCtrl (value &&& 0x8000030F#32) := by
  obtain ⟨hlevel, hlog, hen⟩ := errCtrl_fields value
  rw [State.errCtrlWrite]
  rw [hlevel, hlog, hen, he, hc, if_neg (by
    rintro (h | h | h | ⟨h, -⟩ | ⟨-, h⟩)
    · exact hl h
    · exact Nat.not_lt.mpr h2 h
    · exact Nat.not_lt.mpr h8 h
    · exact Bool.noConfusion h
    · exact Bool.noConfusion h)]
  rfl

theorem exec_errCtrlWrite_of_admitted (ha : (s.advanceTo at_).admits p Reg.errCtrl = true) :
    exec (.errCtrlWrite at_ p value) s = .next ((s.advanceTo at_).errCtrlWrite value) :=
  congrArg Host.Outcome.next (if_pos ha)

end

/-- Settles O46: a checker starts as its execution ends, a comparison and a replay go by the signatures, and the writes of the ERR block by
the ranges of their fields. -/
theorem assayChecks : Obligations.AssayChecks := by
  constructor
  · intro s at_ core n k t u ht hk hp
    refine ⟨fun hr hc he hw hn => ⟨fun w h => ?ok, fun w code phys h => ?fault, fun w e h hne => ?wait⟩,
      fun hr x hx hxp delta => ⟨fun h => ?same, fun h => ?differ⟩, exec_signatureCompare_of_not_ran ht hk⟩
    case ok => rw [exec_assayCheckerStart_of_next ht hk hp hr hc he hw hn, State.startChecker_of_ok h]
    case fault => rw [exec_assayCheckerStart_of_next ht hk hp hr hc he hw hn, State.startChecker_of_fault h]
    case wait => rw [exec_assayCheckerStart_of_next ht hk hp hr hc he hw hn, State.startChecker_of_wait h hne]
    case same => rw [exec_signatureCompare_of_ran ht hk hp hr hx hxp, if_pos h.symm]
    case differ => rw [exec_signatureCompare_of_ran ht hk hp hr hx hxp, if_neg fun he => h he.symm]
  · intro s at_ entry sigs deltas value u v
    refine ⟨fun hb he hf hi hc => ⟨exec_patternReplay_of_not_ready, fun hr => ⟨fun h => ?none_, fun h => ?split_, fun h => ?fenced⟩⟩,
      exec_patternReplay_of_idle, exec_evidenceReady_of_over, exec_evidenceReady_of_disabled,
      fun p ha => ⟨fun h => ?count, fun h0 hn hg => ?stored, fun h0 hn hg hc => ?queued⟩,
      fun a d rest h hp => ⟨fun ha => ?passed, fun x ha hx => ?screened⟩,
      fun ha => ⟨fun h => ?ranges, fun hl h2 h8 he hc => ?taken⟩⟩
    case none_ => exact (exec_patternReplay_of_ready hb he hf hi hc hr).trans (congrArg Host.Outcome.next (if_pos h))
    case split_ =>
      exact (exec_patternReplay_of_ready hb he hf hi hc hr).trans
        (congrArg Host.Outcome.next ((if_neg fun h2 => absurd (h.symm.trans h2) (by decide)).trans (if_pos h)))
    case fenced =>
      exact (exec_patternReplay_of_ready hb he hf hi hc hr).trans
        (congrArg Host.Outcome.next ((if_neg fun h2 => absurd (h.symm.trans h2) (by decide)).trans
          (if_neg fun h3 => absurd (h.symm.trans h3) (by decide))))
    case count => rw [exec_screenStart_of_admitted ha, State.screenWrite_of_count_out_of_range h]
    case stored => rw [exec_screenStart_of_admitted ha, State.screenWrite_of_no_go h0 hn hg]
    case queued => rw [exec_screenStart_of_admitted ha, State.screenWrite_of_go h0 hn hg hc, evidSlot]
    case passed => exact (State.screenNext_of_cons h hp).trans (if_pos ha)
    case screened =>
      refine (State.screenNext_of_cons h hp).trans ((if_neg (ne_true_of_eq_false ha)).trans ?_)
      rw [show (u.takeVector rest).replaySig ((u.takeVector rest).vector a) = some x from hx]
      rfl
    case ranges => rw [exec_errCtrlWrite_of_admitted ha, State.errCtrlWrite_of_range h]
    case taken => rw [exec_errCtrlWrite_of_admitted ha, State.errCtrlWrite_of_reserve hl h2 h8 he hc]

end Sys2Proof.Machine

namespace Sys2Proof.Machine

/-! ## Ports that send leave the registers of other blocks alone (R340, R500) -/

theorem State.freeFlit_regs (s : State) (o : OutPkt) : (s.freeFlit o).regs = s.regs := by
  unfold State.freeFlit
  split
  · unfold State.freePool
    split <;> rfl
  · rfl

theorem State.startPacket_regs (s : State) (p : Nat) (o : OutPkt) : (s.startPacket p o).2.regs = s.regs := State.freeFlit_regs s o

theorem State.sendData_regs (s : State) (p : Nat) (o : OutPkt) (d : Nat × Nat) (rest : List (Nat × Nat)) :
    (s.sendData p o d rest).2.regs = s.regs := State.freeFlit_regs s o

theorem State.channelFlit_regs {s : State} {p vc : Nat} {r : WireFlit × State} (h : s.channelFlit p vc = some r) : r.2.regs = s.regs := by
  unfold State.channelFlit at h
  split at h
  · split at h
    · exact Option.some.inj h ▸ State.sendData_regs ..
    · cases h
  · obtain ⟨o, -, rfl⟩ := Option.map_eq_some_iff.1 h
    exact State.startPacket_regs ..

theorem State.turnFlit_regs {s : State} {p : Nat} {r : WireFlit × State} (h : s.turnFlit p = some r) : r.2.regs = s.regs := by
  obtain ⟨i, -, hi⟩ := List.exists_of_findSome?_eq_some h
  obtain ⟨q, hq, rfl⟩ := Option.map_eq_some_iff.1 hi
  exact (State.channelFlit_regs hq : q.2.regs = s.regs)

theorem State.nextFlit_regs {s : State} {p : Nat} {r : WireFlit × State} (h : s.nextFlit p = some r) : r.2.regs = s.regs := by
  unfold State.nextFlit at h
  dsimp only at h
  split at h
  · exact Option.some.inj h ▸ rfl
  · exact Option.some.inj h ▸ rfl
  · split at h
    · cases h
    · split at h
      · exact Option.some.inj h ▸ State.startPacket_regs ..
      · cases hc : s.channelFlit p 3 with
        | some q =>
          rw [hc] at h
          exact Option.some.inj h ▸ State.channelFlit_regs hc
        | none =>
          rw [hc] at h
          exact State.turnFlit_regs h

theorem State.slots_regs (s : State) (p n : Nat) : (s.slots p n).2.regs = s.regs := by
  induction n generalizing s with
  | zero => rfl
  | succ n ih =>
    unfold State.slots
    split
    · exact (ih _).trans (State.nextFlit_regs ‹_›)
    · exact ih s

theorem State.sendGroup_regs (s : State) (p : Nat) : (s.sendGroup p).regs = s.regs := by
  unfold State.sendGroup
  dsimp only
  split
  · rfl
  · exact State.slots_regs ..

theorem State.sendGroups_regs (s : State) (p n : Nat) : (s.sendGroups p n).regs = s.regs := by
  induction n generalizing s with
  | zero => rfl
  | succ n ih =>
    rw [State.sendGroups]
    split
    · exact (ih _).trans (State.sendGroup_regs s p)
    · rfl

theorem State.endFillRead_rd (s : State) {off : Nat} (h : off ≠ Reg.fosBuddyStat) : s.endFillRead.rd off = s.rd off := by
  unfold State.endFillRead
  dsimp only
  split
  · exact State.setFld_rd_ne s _ _ h
  · rfl

/-- Filling every slot writes at most FOS_BUDDY_STAT. -/
theorem State.pump_rd (s : State) (p : Nat) {off : Nat} (h : off ≠ Reg.fosBuddyStat) : (s.pump p).rd off = s.rd off := by
  unfold State.pump
  dsimp only
  split
  · rw [State.endFillRead_rd _ h]
    exact congrArg (fun r => SMap.get Reg.resetWord r off) (State.sendGroups_regs s p _)
  · rfl

theorem State.pumpAll_rd (s : State) {off : Nat} (h : off ≠ Reg.fosBuddyStat) : s.pumpAll.rd off = s.rd off :=
  List.foldlRecOn (motive := fun t : State => t.rd off = s.rd off) _ _ rfl fun t ht p _ => (State.pump_rd t p h).trans ht

theorem State.pumpAll_fosState (s : State) : s.pumpAll.fld Fld.fosState = s.fld Fld.fosState :=
  congrArg (fun w : Word => bits w.toNat 0 3) (State.pumpAll_rd s (off := Reg.fosStat) (by decide))

/-! ## The course of an epoch (R485 to R489) -/

theorem State.endStreaming_fld (s : State) (f : Fld) : s.endStreaming.fld f = s.fld f := by
  unfold State.endStreaming
  dsimp only
  split <;> rfl

/-- After `endStreaming` no page is Streaming. -/
theorem State.endStreaming_states {s : State} {x : Epoch} {p : FosPage} (hx : s.endStreaming.fos.epoch = some x) (hp : p ∈ x.pages) :
    p.state ≠ 3 := by
  unfold State.endStreaming at hx
  dsimp only at hx
  split at hx
  next =>
    obtain ⟨e, -, rfl⟩ := Option.map_eq_some_iff.1 hx
    obtain ⟨q, -, rfl⟩ := List.mem_map.1 hp
    split
    · exact (by decide : (2 : Nat) ≠ 3)
    · assumption
  next hs =>
    intro h3
    refine hs ?_
    rw [hx, Option.any_some]
    exact List.any_eq_true.mpr ⟨p, hp, beq_iff_eq.mpr h3⟩

section
variable {s : State} {at_ pa k : Nat} {e x : Epoch} {p : FosPage}

section
variable (he : (s.advanceTo at_).fos.epoch = some e)
include he

theorem exec_firstTouchCopy_of_not_open (hs : (s.advanceTo at_).fld Fld.fosState ≠ fosOpen) :
    exec (.firstTouchCopy at_ pa) s = .next (s.advanceTo at_) := by
  refine congrArg Host.Outcome.next ?_
  rw [firstTouchCopy, State.touchPage, he]
  dsimp only
  split
  · exact if_neg fun h => hs h.1
  · rfl

theorem exec_firstTouchCopy_of_frame {f : Nat} (hs : (s.advanceTo at_).fld Fld.fosState = fosOpen) (hp : e.pageAt pa = some p)
    (h0 : p.state = 0) (hf : (s.advanceTo at_).bounceFrame e ((s.advanceTo at_).bounceSlice p.pa) = some f)
    {r : List Gran × State} {v : State} {x : Epoch} (hr : (s.advanceTo at_).readFosPage p.pa = r)
    (hv : (r.2.writeFosPage f r.1).fossilField f 1 = v)
    (hx : { e.setPage { p with state := 1, frame := f } with bounces := e.bounces + 1 } = x) :
    exec (.firstTouchCopy at_ pa) s = .next ({ v with fos := { v.fos with epoch := some x } } : State).countBounced := by
  subst hr hv hx
  refine congrArg Host.Outcome.next ?_
  rw [firstTouchCopy, State.touchPage, he]
  dsimp only
  rw [hp]
  dsimp only
  rw [if_pos ⟨hs, h0⟩, hf]

theorem exec_fossilStoreFailed_of_not_open (hs : (s.advanceTo at_).fld Fld.fosState ≠ fosOpen) :
    exec (.fossilStoreFailed at_) s = .next (s.advanceTo at_) := by
  refine congrArg Host.Outcome.next ?_
  rw [fossilStoreFailed, he]
  exact if_neg fun h => hs h.1

theorem exec_fossilStoreFailed_of_abort (hs : (s.advanceTo at_).fld Fld.fosState = fosOpen)
    (ha : (s.advanceTo at_).hostAborts e.store ((e.pages.length + 1) * fosPage) = true) :
    exec (.fossilStoreFailed at_) s = .next (s.advanceTo at_).loseStore := by
  refine congrArg Host.Outcome.next ?_
  rw [fossilStoreFailed, he]
  exact if_pos ⟨hs, ha⟩

end

theorem exec_fossilPageStream_of_not_open (hs : (s.advanceTo at_).endStreaming.fld Fld.fosState ≠ fosOpen) :
    exec (.fossilPageStream at_ k) s = .next (s.advanceTo at_).endStreaming := by
  refine congrArg Host.Outcome.next ?_
  unfold fossilPageStream
  dsimp only
  split
  · exact if_pos (.inl hs)
  · rfl

section
variable (hx : (s.advanceTo at_).endStreaming.fos.epoch = some x) (hs : (s.advanceTo at_).endStreaming.fld Fld.fosState = fosOpen)
  (hr : (s.advanceTo at_).endStreaming.storeReady x = true)
include hx hs hr

theorem exec_fossilPageStream_of_page (hp : x.pages[k]? = some p) (hm : x.mayStream p = true) :
    exec (.fossilPageStream at_ (k + 1)) s = .next ((s.advanceTo at_).endStreaming.streamPage x (k + 1) p) := by
  refine congrArg Host.Outcome.next ?_
  rw [fossilPageStream, hx]
  dsimp only
  rw [if_neg (not_or_intro (not_not_intro hs) (ne_false_of_eq_true hr)), if_neg (Nat.succ_ne_zero k), Nat.add_sub_cancel, hp]
  exact if_pos hm

theorem exec_fossilPageStream_of_header (hh : x.headerSent = false) (hc : x.pages.all (fun (p : FosPage) => p.state == 2) = true) :
    let w := (s.advanceTo at_).endStreaming
    exec (.fossilPageStream at_ 0) s
      = .next ((w.mapEpoch fun e => { e with headerSent := true }).sendImagePage x 0 (w.headerPage x)) := by
  refine congrArg Host.Outcome.next ?_
  rw [fossilPageStream, hx]
  dsimp only
  rw [if_neg (not_or_intro (not_not_intro hs) (ne_false_of_eq_true hr)), if_pos rfl, if_pos ⟨hh, hc⟩]

end

theorem exec_epochStreamed_of_not_open (hs : (s.advanceTo at_).endStreaming.pumpAll.fld Fld.fosState ≠ fosOpen) :
    exec (.epochStreamed at_) s = .next (s.advanceTo at_).endStreaming.pumpAll := by
  refine congrArg Host.Outcome.next ?_
  unfold epochStreamed
  dsimp only
  split
  · exact if_neg fun h => hs h.1
  · rfl

/-- All of an Open epoch has left for what destinations live: it is Streamed, and a commit that waits is carried out. -/
theorem exec_epochStreamed_of_left (hx : (s.advanceTo at_).endStreaming.pumpAll.fos.epoch = some x)
    (hs : (s.advanceTo at_).endStreaming.pumpAll.fld Fld.fosState = fosOpen)
    (hl : ((x.toStore && x.storeLive) = false ∧ (x.toBuddy && x.buddyLive) = false)
      ∨ (x.headerSent = true ∧ (x.buddyLive = false ∨ (s.advanceTo at_).endStreaming.pumpAll.fosInFlight x.buddy = false))) :
    let v := (s.advanceTo at_).endStreaming.pumpAll.setFld Fld.fosState fosStreamed
    exec (.epochStreamed at_) s = .next (x.commit.elim v (v.commitEpoch x)) := by
  refine congrArg Host.Outcome.next ?_
  rw [epochStreamed, hx]
  dsimp only
  rw [if_pos ⟨hs, hl.imp_left fun h => Bool.or_eq_false_iff.2 h⟩]
  cases x.commit <;> rfl

end

/-! ## How an epoch ends (R494) -/

section
variable {e : Epoch}

theorem Epoch.outcome_of_all (hs : (e.toStore && e.storeLive) = e.toStore) (hb : (e.toBuddy && e.buddyLive) = e.toBuddy) :
    e.outcome = (if e.pages.any fun (p : FosPage) => p.poisoned != 0 then 1 else 0, true) := by
  rw [Epoch.outcome]
  rw [hs, hb, beq_self_eq_true, beq_self_eq_true]
  rfl

theorem Epoch.outcome_of_one (hs : e.toStore = true) (hb : e.toBuddy = true)
    (hne : (e.toStore && e.storeLive) ≠ (e.toBuddy && e.buddyLive)) : e.outcome = (0, true) := by
  rw [hs, hb, Bool.true_and, Bool.true_and] at hne
  rw [Epoch.outcome]
  rw [hs, hb, Bool.true_and, Bool.true_and, Bool.eq_not.2 hne]
  cases e.buddyLive <;> rfl

theorem Epoch.outcome_of_none (ha : e.toStore = true ∨ e.toBuddy = true) (hs : (e.toStore && e.storeLive) = false)
    (hb : (e.toBuddy && e.buddyLive) = false) : e.outcome = (e.lost, false) := by
  have hall : (false == e.toStore && false == e.toBuddy) = false := by
    rcases ha with h | h
    · rw [h]
      rfl
    · rw [h]
      exact Bool.and_false _
  rw [Epoch.outcome]
  rw [hs, hb, hall]
  rfl

end

/-- Settles O47: each command's branch by the state of the epoch; that the ports fill their slots first changes no register but
FOS_BUDDY_STAT, so that an epoch which was not Open is not Open then. -/
theorem epochRuns : Obligations.EpochRuns := by
  refine ⟨fun s at_ pa k e => ?course, fun e => ⟨fun h => Epoch.outcome_of_all h.1 h.2, Epoch.outcome_of_one, Epoch.outcome_of_none⟩⟩
  case course =>
    intro u he w z
    have hw : w.fld Fld.fosState = u.fld Fld.fosState := State.endStreaming_fld u _
    have hz : z.fld Fld.fosState = u.fld Fld.fosState := (State.pumpAll_fosState w).trans hw
    refine ⟨fun hs => ⟨exec_firstTouchCopy_of_not_open he hs, exec_fossilPageStream_of_not_open (fun h => hs (hw.symm.trans h)),
      exec_epochStreamed_of_not_open (fun h => hs (hz.symm.trans h)), exec_fossilStoreFailed_of_not_open he hs⟩,
      fun hs => ⟨?_, ?_, ?_, ?_, ?_⟩⟩
    · intro p f hp h0 hf r v e'
      exact exec_firstTouchCopy_of_frame he hs hp h0 hf rfl rfl rfl
    · exact fun x hx hr => ⟨fun p hp hm => exec_fossilPageStream_of_page hx (hw.trans hs) hr hp hm,
        exec_fossilPageStream_of_header hx (hw.trans hs) hr⟩
    · exact fun x hx p hp => State.endStreaming_states hx hp
    · intro x hx hopen hl
      have hrun := exec_epochStreamed_of_left hx hopen hl
      exact ⟨fun hc => by rw [hrun, hc]; rfl, fun id hc => by rw [hrun, hc]; rfl⟩
    · exact exec_fossilStoreFailed_of_abort he hs

end Sys2Proof.Machine

namespace Sys2Proof.Machine

/-! ## The image of another module in the buddy reserve (R490, R494) -/

section
variable {s : State} {at_ sender epoch pages page n : Nat}

theorem exec_buddyOpenMessage_of_fits (he : (s.advanceTo at_).flag Fld.buddyEn = true)
    (hs : (s.advanceTo at_).fld Fld.buddySender = sender) (hf : (s.advanceTo at_).flag Fld.buddyFilling = false)
    (hp : pages + 1 ≤ (s.advanceTo at_).halfPages) :
    let u := s.advanceTo at_
    let v := ({ u with fos := { u.fos with
      landing := some (sender, epoch, pages), arriving := u.fos.arriving.filter fun a => a.fill } } : State).setFld Fld.buddyLanding 1
    exec (.buddyOpenMessage at_ sender epoch pages) s = .next (v.tell (.reply sender true v.feedId)) :=
  congrArg Host.Outcome.next (if_pos ⟨he, hs, hf, hp⟩)

theorem exec_buddyOpenMessage_of_unfit (h : (s.advanceTo at_).flag Fld.buddyEn = false
    ∨ (s.advanceTo at_).fld Fld.buddySender ≠ sender ∨ (s.advanceTo at_).halfPages < pages + 1) :
    exec (.buddyOpenMessage at_ sender epoch pages) s
      = .next ((s.advanceTo at_).tell (.reply sender false (s.advanceTo at_).feedId)) := by
  refine congrArg Host.Outcome.next (if_neg ?_)
  rintro ⟨he, hs, -, hp⟩
  rcases h with h | h | h
  · exact ne_true_of_eq_false h he
  · exact h hs
  · exact Nat.not_lt.mpr hp h

section
variable (hl : (s.advanceTo at_).fos.landing = some (sender, epoch, n))
include hl

theorem exec_buddyImagePage_of_landing (hp : page ≤ n) (data : List (Nat × Nat)) :
    let u := s.advanceTo at_
    let pa := u.buddyPageAt (1 - u.fos.half) page
    exec (.buddyImagePage at_ sender page data) s = .next ((u.writeFosPage pa (gransOf data)).fossilField pa (parityField epoch)) := by
  refine congrArg Host.Outcome.next ?_
  rw [buddyImagePage, State.landImage, hl]
  exact if_pos ⟨rfl, hp⟩

/-- The half that has landed becomes the committed one. -/
theorem exec_commitMarkerReceived_of_landing :
    let u := s.advanceTo at_
    let v : State := { u with fos := { u.fos with
      landing := none, arriving := u.fos.arriving.filter (fun a => a.fill), half := 1 - u.fos.half } }
    exec (.commitMarkerReceived at_ sender epoch) s = .next
      ((((v.setFld Fld.buddyLanding 0).setFld Fld.buddyEpoch epoch).setFld Fld.buddyValid 1).setFld Fld.buddyPages n) := by
  refine congrArg Host.Outcome.next ?_
  rw [commitMarkerReceived, hl]
  exact if_pos ⟨rfl, rfl⟩

theorem exec_commitMarkerReceived_of_other {other : Nat} (ho : other ≠ epoch) :
    exec (.commitMarkerReceived at_ sender other) s = .next (s.advanceTo at_) := by
  refine congrArg Host.Outcome.next ?_
  rw [commitMarkerReceived, hl]
  exact if_neg fun h => ho h.2.symm

end

section
variable {e : Epoch} {feed : Nat} (he : (s.advanceTo at_).fos.epoch = some e)
include he

theorem exec_buddyOpenReply_of_accept (ha : e.asked = true) :
    let u := s.advanceTo at_
    exec (.buddyOpenReply at_ true feed) s
      = .next (u.mapEpoch fun e => { e with asked := false, coFed := u.coFedWith feed }).armEpoch := by
  refine congrArg Host.Outcome.next ?_
  rw [buddyOpenReply, he]
  exact if_pos ha

theorem exec_buddyOpenReply_of_refusal (ha : e.asked = true) :
    let u := s.advanceTo at_
    exec (.buddyOpenReply at_ false feed) s = .next
      ((({ u with fos := { u.fos with epoch := none } } : State).completeSome e.begin_ 0x0905 0).completeSome e.commit 0x0902 0) := by
  refine congrArg Host.Outcome.next ?_
  rw [buddyOpenReply, he]
  exact if_pos ha

theorem exec_fossilBuddyLost_of_no_route (hb : e.buddyLive = true) (hr : ((s.advanceTo at_).fosRoute e.buddy).isNone = true) :
    exec (.fossilBuddyLost at_) s = .next (s.advanceTo at_).loseBuddy := by
  refine congrArg Host.Outcome.next ?_
  rw [fossilBuddyLost, he]
  exact if_pos ⟨hb, hr⟩

end
end

/-! ## Fills (R500, R501) -/

section
variable {s : State} {at_ requester epoch page : Nat} {data : List (Nat × Nat)}

theorem exec_fillRequestReceived_of_no_image
    (h : (s.advanceTo at_).flag Fld.buddyValid = false ∨ (s.advanceTo at_).fld Fld.buddyEpoch ≠ epoch) :
    exec (.fillRequestReceived at_ requester epoch) s = .next ((s.advanceTo at_).tell (.refused requester 0x0909)) :=
  congrArg Host.Outcome.next (if_pos h)

section
variable (hv : (s.advanceTo at_).flag Fld.buddyValid = true) (he : (s.advanceTo at_).fld Fld.buddyEpoch = epoch)
include hv he

theorem exec_fillRequestReceived_of_other (hs : (s.advanceTo at_).fld Fld.buddySender ≠ requester) :
    exec (.fillRequestReceived at_ requester epoch) s = .next ((s.advanceTo at_).tell (.refused requester 0x0905)) :=
  congrArg Host.Outcome.next
    ((if_neg (not_or_intro (ne_false_of_eq_true hv) (not_not_intro he))).trans (if_pos hs))

theorem exec_fillRequestReceived_of_sender (hs : (s.advanceTo at_).fld Fld.buddySender = requester) :
    let v := (s.advanceTo at_).setFld Fld.buddyFilling 1
    exec (.fillRequestReceived at_ requester epoch) s = .next ((List.range (v.fld Fld.buddyPages + 1)).foldl (fun t k =>
      let r := t.committedPage k
      (r.2.fosPackets true requester epoch k r.1).foldl State.routeOut r.2) v).endFillRead :=
  congrArg Host.Outcome.next
    ((if_neg (not_or_intro (ne_false_of_eq_true hv) (not_not_intro he))).trans (if_neg (not_not_intro hs)))

end

section
variable {f : Fill} (hf : (s.advanceTo at_).fos.fill = some f)
include hf

theorem exec_fillPageReceived_of_page : exec (.fillPageReceived at_ 0 page data) s
    = .next (((s.advanceTo at_).fillPage page (gransOf data)).getD (s.advanceTo at_)) := by
  refine congrArg Host.Outcome.next ?_
  rw [fillPageReceived, hf]
  exact if_pos rfl

theorem exec_fillPageReceived_of_refusal {status : Nat} (hs : status ≠ 0) (hh : f.header = false) :
    let u := s.advanceTo at_
    exec (.fillPageReceived at_ status page data) s
      = .next (({ u with fos := { u.fos with fill := none } } : State).completeCmd f.cmd status 0) := by
  refine congrArg Host.Outcome.next ?_
  rw [fillPageReceived, hf]
  exact (if_neg hs).trans (if_pos hh)

theorem exec_fillSourceLost_of_no_route (ha : f.asked = true) (hr : ((s.advanceTo at_).fosRoute f.buddy).isNone = true) :
    exec (.fillSourceLost at_) s = .next (s.advanceTo at_).loseFill := by
  refine congrArg Host.Outcome.next ?_
  rw [fillSourceLost, hf]
  exact if_pos ⟨ha, hr⟩

theorem exec_fillSourceLost_of_route (h : f.asked = false ∨ ((s.advanceTo at_).fosRoute f.buddy).isNone = false) :
    exec (.fillSourceLost at_) s = .next (s.advanceTo at_) := by
  refine congrArg Host.Outcome.next ?_
  rw [fillSourceLost, hf]
  refine if_neg ?_
  rintro ⟨ha, hr⟩
  exact h.elim (ne_false_of_eq_true ha) (ne_false_of_eq_true hr)

end
end

/-- A write of a FOS register by a party that is admitted (R503). -/
theorem exec_fosRegWrite_of_admitted {s : State} {at_ off : Nat} {p : Party} {v : Word} (hl : Reg.fos ≤ off) (hh : off < Reg.pwr)
    (ha : (s.advanceTo at_).admits p off = true) : exec (.fosRegWrite at_ p off v) s = .next ((s.advanceTo at_).fosWrite off v) :=
  congrArg Host.Outcome.next (if_pos ⟨hl, hh, ha⟩)

/-- Settles O48: the commands of a buddy and of a fill, each by the image that lands, the committed one and the fill that runs. -/
theorem buddyImages : Obligations.BuddyImages := by
  refine ⟨fun s at_ sender epoch pages page feed data => ⟨exec_buddyOpenMessage_of_fits, exec_buddyOpenMessage_of_unfit,
      fun e he ha => ⟨exec_buddyOpenReply_of_accept he ha, exec_buddyOpenReply_of_refusal he ha⟩,
      fun n hl => ⟨fun hp => exec_buddyImagePage_of_landing hl hp data, exec_commitMarkerReceived_of_landing hl,
        fun other => exec_commitMarkerReceived_of_other hl⟩,
      fun e => exec_fossilBuddyLost_of_no_route⟩,
    fun s at_ requester epoch page data => ⟨exec_fillRequestReceived_of_no_image, exec_fillRequestReceived_of_other,
      exec_fillRequestReceived_of_sender,
      fun f hf => ⟨exec_fillPageReceived_of_page hf, fun status hs => exec_fillPageReceived_of_refusal hf hs,
        exec_fillSourceLost_of_no_route hf, exec_fillSourceLost_of_route hf⟩,
      fun p off v hl hh ha => ⟨fun hr => ?refused, fun hr => ?written⟩⟩⟩
  case refused =>
    rw [exec_fosRegWrite_of_admitted hl hh ha]
    exact congrArg Host.Outcome.next (if_pos hr)
  case written =>
    rw [exec_fosRegWrite_of_admitted hl hh ha]
    exact congrArg Host.Outcome.next (if_neg (ne_true_of_eq_false hr))

end Sys2Proof.Machine

namespace Sys2Proof.Machine

/-! ## Boot, the lock, the owner and debug (R514, R518, R520, R521) -/

section
variable {s : State} {at_ : Nat}

theorem exec_bootRomStart_of_not_reset (h : (s.advanceTo at_).pins.phase ≠ .reset) :
    exec (.bootRomStart at_) s = .next (s.advanceTo at_) :=
  congrArg Host.Outcome.next (if_neg fun g => h g.1)

/-- What boot code sets before Flint's service starts leaves SEC_BOOT_STAT.fallback as it was. -/
theorem State.fallback_lockBoot {u : State} (h : SMap.wf Reg.resetWord u.regs = true) :
    (u.lockBoot.setFld Fld.bootState 2).flag Fld.fallback = u.flag Fld.fallback := by
  have hlock : u.lockBoot.fld Fld.fallback = u.fld Fld.fallback := by
    refine (State.setFld_fld_of_reg_ne (u.setFld Fld.bootLock 1) (f := Fld.debugOpen) (g := Fld.fallback) 0 (by decide)).trans ?_
    exact State.setFld_fld_of_reg_ne u 1 (by decide)
  have hwf : SMap.wf Reg.resetWord u.lockBoot.regs = true :=
    State.setFld_canonical (State.setFld_canonical h Fld.bootLock 1) Fld.debugOpen 0
  rw [State.flag, State.fld_setFld_ne hwf Fld.bootState Fld.fallback 2 (by decide) (.inr (.inr (by decide))), hlock, State.flag]

/-- The lock of boot code starts Flint's service, and reports a boot that fell back. -/
theorem exec_bootLock_of_bootCode (hs : Sound s) (hb : (s.advanceTo at_).bootCode = true) :
    let u := s.advanceTo at_
    let v := u.lockBoot.setFld Fld.bootState 2
    let w : State := { v with pins := { v.pins with phase := .running }, err := { v.err with lastAck := v.now } }
    exec (.bootLock at_) s = .next (if u.flag Fld.fallback then w.report { code := 0x0821 } else w) := by
  intro u v w
  rw [← State.fallback_lockBoot (u := u) ((State.advanceTo_kept s at_).sound hs).regs]
  exact congrArg Host.Outcome.next (if_pos hb)

section
variable (hb : (s.advanceTo at_).bootCode = false)
include hb

theorem exec_bootLock_of_no_bootCode : exec (.bootLock at_) s = .next (s.advanceTo at_) :=
  congrArg Host.Outcome.next (if_neg (ne_true_of_eq_false hb))

theorem exec_ownerEnroll_of_no_bootCode (p : Party) (value : Word) :
    exec (.ownerEnroll at_ p value) s = .next (s.advanceTo at_) := by
  refine congrArg Host.Outcome.next ?_
  cases p with
  | host => rfl
  | flint =>
    rw [ownerEnroll, State.enrollWrite]
    split
    · exact if_neg fun h => ne_true_of_eq_false hb h.2.1
    · rfl

theorem exec_debugOpen_of_no_bootCode (p : Party) (value : Word) :
    exec (.debugOpen at_ p value) s = .next (s.advanceTo at_) := by
  refine congrArg Host.Outcome.next ?_
  cases p with
  | host => rfl
  | flint => exact if_pos hb

end

section
variable {value : Word} (hb : (s.advanceTo at_).bootCode = true) (hv : bit value.toNat 0 = true)
include hb hv

theorem exec_ownerEnroll_of_key {key : Nat} (hk : (s.advanceTo at_).fw.enrollKey = some key) :
    let u := s.advanceTo at_
    exec (.ownerEnroll at_ .flint value) s = .next (if u.ownerKey.isSome then u
      else ({ u with fw := { u.fw with owner := some key, enrollKey := none } } : State).loadFuses.setFld Fld.enroll 1) := by
  refine congrArg Host.Outcome.next ?_
  rw [ownerEnroll]
  dsimp only
  rw [State.enrollWrite, hk]
  dsimp only
  rw [hv, hb]
  cases (s.advanceTo at_).ownerKey with
  | none => exact if_pos ⟨rfl, rfl, rfl⟩
  | some k => exact if_neg fun h => Bool.noConfusion h.2.2

theorem exec_debugOpen_of_bootCode : exec (.debugOpen at_ .flint value) s
    = .next (if (s.advanceTo at_).fw.debugImage then ((s.advanceTo at_).setFld Fld.debugOpen 1).setFld Fld.debugOpened 1
      else s.advanceTo at_) :=
  congrArg Host.Outcome.next ((if_neg (ne_false_of_eq_true hb)).trans (if_neg (ne_false_of_eq_true hv)))

end
end

/-! ## Updates (R526 to R529) -/

section
variable {s : State} {at_ : Nat} (hu : (s.advanceTo at_).servesUpdate = true)
include hu

section
variable (hs : (s.advanceTo at_).fld Fld.updStatus ≠ 1)
include hs

theorem exec_fwUpdate_of_trial (ht : (s.advanceTo at_).flag Fld.trial = true) :
    exec (.fwUpdate at_) s = .next ((s.advanceTo at_).failUpdate 4) :=
  congrArg Host.Outcome.next ((if_pos hu).trans ((if_neg hs).trans (if_pos ht)))

theorem exec_fwUpdate_of_no_trial (ht : (s.advanceTo at_).flag Fld.trial = false) :
    let u := s.advanceTo at_
    let a := (u.rd Reg.secUpdLo).toNat / 64 * 64 + (u.rd Reg.secUpdHi).toNat * 2 ^ 32
    let n := bits (u.rd Reg.secUpdLen).toNat 0 26
    exec (.fwUpdate at_) s
      = .next (({ u with fw := { u.fw with update := some (a, n), updAborted := false } } : State).setFld Fld.updStatus 1) :=
  congrArg Host.Outcome.next ((if_pos hu).trans ((if_neg hs).trans (if_neg (ne_true_of_eq_false ht))))

end

section
variable {a n : Nat} (hw : (s.advanceTo at_).fw.update = some (a, n))
include hw

theorem exec_fwUpdateDone_of_aborted (hab : (s.advanceTo at_).fw.updAborted = true) :
    exec (.fwUpdateDone at_) s = .next ((s.advanceTo at_).failUpdate 6) := by
  refine congrArg Host.Outcome.next ?_
  rw [fwUpdateDone, hw]
  exact (if_neg (ne_false_of_eq_true hu)).trans (if_pos hab)

section
variable (hab : (s.advanceTo at_).fw.updAborted = false) (hr : (s.advanceTo at_).hostRefuses a n = false)
include hab hr

/-- The staged image has been read: it is written to the other slot if its length is the header's and it is acceptable. -/
theorem fwUpdateDone_of_read :
    let u := s.advanceTo at_
    let image := u.hostBytes a n
    let v := u.writeSlot u.otherSlot image
    fwUpdateDone at_ s = if n = 4096 + Header.bodyLen (image.take 4096) ∧ u.imageOk (image.take 4096) (image.drop 4096)
      then (({ v with fw := { v.fw with update := none } } : State).setFld Fld.updStatus 2).tellUpdate 0x0822
      else u.failUpdate 3 := by
  obtain ⟨hha, hhp⟩ := Bool.or_eq_false_iff.1 hr
  rw [fwUpdateDone, hw]
  dsimp only
  rw [if_neg (ne_false_of_eq_true hu), if_neg (ne_true_of_eq_false hab),
    if_neg (not_or_intro (ne_true_of_eq_false hha) (ne_true_of_eq_false hhp))]

theorem exec_fwUpdateDone_of_length (hn : n = 4096 + Header.bodyLen (((s.advanceTo at_).hostBytes a n).take 4096)) :
    let u := s.advanceTo at_
    let image := u.hostBytes a n
    let v := u.writeSlot u.otherSlot image
    exec (.fwUpdateDone at_) s = .next (if u.imageOk (image.take 4096) (image.drop 4096)
      then (({ v with fw := { v.fw with update := none } } : State).setFld Fld.updStatus 2).tellUpdate 0x0822
      else u.failUpdate 3) := by
  refine congrArg Host.Outcome.next ((fwUpdateDone_of_read hu hw hab hr).trans ?_)
  exact if_congr (and_iff_right hn) rfl rfl

theorem exec_fwUpdateDone_of_other_length (hn : n ≠ 4096 + Header.bodyLen (((s.advanceTo at_).hostBytes a n).take 4096)) :
    exec (.fwUpdateDone at_) s = .next ((s.advanceTo at_).failUpdate 3) :=
  congrArg Host.Outcome.next ((fwUpdateDone_of_read hu hw hab hr).trans (if_neg fun h => hn h.1))

end
end

theorem exec_fwConfirm_of_running (hb : (s.advanceTo at_).fld Fld.bootState = 2) :
    let u := s.advanceTo at_
    exec (.fwConfirm at_) s = .next
      ((u.setSlotBits (u.fld Fld.bootSlot) (putBits (u.slotBits (u.fld Fld.bootSlot)) 1 1 0)).setFld Fld.trial 0) :=
  congrArg Host.Outcome.next ((if_pos hu).trans (if_pos hb))

theorem exec_burnSvn_of_trial (ht : (s.advanceTo at_).flag Fld.trial = true) :
    exec (.burnSvn at_) s = .next ((s.advanceTo at_).setFld Fld.updStatus 4) :=
  congrArg Host.Outcome.next ((if_pos hu).trans (if_pos ht))

theorem exec_burnSvn_of_no_trial (ht : (s.advanceTo at_).flag Fld.trial = false) :
    let u := s.advanceTo at_
    exec (.burnSvn at_) s = .next (if u.minSvn < u.fld Fld.svn
      then ({ u with fw := { u.fw with burnedSvn := u.fld Fld.svn } } : State).setFld Fld.minSvn (u.fld Fld.svn) else u) :=
  congrArg Host.Outcome.next ((if_pos hu).trans (if_neg (ne_true_of_eq_false ht)))

end

/-! ## Attestation (R522 to R525) -/

section
variable {s : State} {at_ : Nat}

section
variable (hu : (s.advanceTo at_).up = true) (hs : (s.advanceTo at_).fld Fld.attStatus ≠ 1)
include hu hs

theorem exec_attestationRequest_of_opened (hd : (s.advanceTo at_).flag Fld.debugOpened = true) :
    exec (.attestationRequest at_) s = .next ((s.advanceTo at_).setFld Fld.attStatus 3) :=
  congrArg Host.Outcome.next ((if_pos hu).trans ((if_neg hs).trans (if_pos hd)))

theorem exec_attestationRequest_of_never_opened (hd : (s.advanceTo at_).flag Fld.debugOpened = false) :
    let u := s.advanceTo at_
    let a := (u.rd Reg.secAttLo).toNat / 64 * 64 + (u.rd Reg.secAttHi).toNat * 2 ^ 32
    let nonce := (List.range 8).flatMap fun n => u.regBytes (Reg.secAttNonce n)
    exec (.attestationRequest at_) s
      = .next (({ u with fw := { u.fw with report := some (a, nonce) } } : State).setFld Fld.attStatus 1) :=
  congrArg Host.Outcome.next ((if_pos hu).trans ((if_neg hs).trans (if_neg (ne_true_of_eq_false hd))))

end

theorem exec_attestationReportWritten_of_report {a : Nat} {nonce : List Byte} (hr : (s.advanceTo at_).fw.report = some (a, nonce))
    (ha : (s.advanceTo at_).hostAborts a 384 = false) :
    let u := s.advanceTo at_
    exec (.attestationReportWritten at_) s = .next
      ((({ u with fw := { u.fw with report := none } } : State).putHost a (u.attestation nonce)).setFld Fld.attStatus 2) := by
  refine congrArg Host.Outcome.next ?_
  rw [attestationReportWritten, hr]
  exact if_neg (ne_true_of_eq_false ha)

end

/-- Settles O49: boot, the lock, the owner and debug by what boot code may do; updates and the report by what serves them. -/
theorem bootAndFirmware : Obligations.BootAndFirmware := by
  refine ⟨fun s at_ value => ⟨fun hp hg hd => congrArg Host.Outcome.next (if_pos ⟨hp, hg, hd⟩), exec_bootRomStart_of_not_reset,
      fun hs hb => ⟨fun hf => ?lock, fun hf => ?fellBack⟩,
      fun hb => ⟨exec_bootLock_of_no_bootCode hb, fun p => ⟨exec_ownerEnroll_of_no_bootCode hb p value,
        exec_debugOpen_of_no_bootCode hb p value⟩⟩,
      fun key hb hk hv => exec_ownerEnroll_of_key hb hv hk,
      fun hb hv => ⟨fun hd => ?opened, fun hd => ?closed⟩⟩,
    fun s at_ => ⟨fun hu => ⟨exec_fwUpdate_of_trial hu, exec_fwUpdate_of_no_trial hu,
        fun a n hw hab hr => ⟨exec_fwUpdateDone_of_length hu hw hab hr, exec_fwUpdateDone_of_other_length hu hw hab hr⟩,
        fun a n hw hab => exec_fwUpdateDone_of_aborted hu hw hab, exec_fwConfirm_of_running hu, exec_burnSvn_of_trial hu,
        exec_burnSvn_of_no_trial hu⟩,
      fun hu hs => ⟨exec_attestationRequest_of_opened hu hs, exec_attestationRequest_of_never_opened hu hs⟩,
      fun a nonce => exec_attestationReportWritten_of_report⟩⟩
  case lock => exact (exec_bootLock_of_bootCode hs hb).trans (congrArg Host.Outcome.next (if_neg (ne_true_of_eq_false hf)))
  case fellBack => exact (exec_bootLock_of_bootCode hs hb).trans (congrArg Host.Outcome.next (if_pos hf))
  case opened => exact (exec_debugOpen_of_bootCode hb hv).trans (congrArg Host.Outcome.next (if_pos hd))
  case closed => exact (exec_debugOpen_of_bootCode hb hv).trans (congrArg Host.Outcome.next (if_neg (ne_true_of_eq_false hd)))

/-! ## Acceptable images (R510, R513) -/

theorem Header.wellFormed_iff (h : Header) : h.wellFormed = true ↔
    h.num 0 2 = 1 ∧ h.num 2 2 = 0x2560 ∧ h.bodyLen % 64 = 0 ∧ 64 ≤ h.bodyLen ∧ h.bodyLen ≤ 33546240 ∧ h.num 12 4 < h.bodyLen
      ∧ bit h.flags 7 = false ∧ bits h.flags 2 2 = 0 ∧ h.num 5 1 < 64 ∧ h.num 6 2 = 0 ∧ h.num 16 16 = 0 ∧ h.num 64 64 = 0
      ∧ ∀ b ∈ h.drop 256, b = 0 := by
  simp only [Header.wellFormed, Bool.and_eq_true, beq_iff_eq, decide_eq_true_eq, List.all_eq_true]
  tauto

/-- The owner's part of R513 by what is enrolled: the first row under an owner's key, the second without one. -/
theorem ownerAccepts_iff (owner : Option Nat) (h : Header) (d : List Byte) : ownerAccepts owner h d = true ↔
    (∀ k, owner = some k → h.ownerSig = true ∧ edVerify (leBytes 32 k) (h.sub 192 64) d = true
      ∧ (h.enroll = false ∨ h.enrollKey = leBytes 32 k))
    ∧ (owner = none → h.enroll = true → h.ownerSig = true ∧ edVerify h.enrollKey (h.sub 192 64) d = true) := by
  cases owner with
  | none =>
    simp only [ownerAccepts, Bool.or_eq_true, Bool.not_eq_true', Bool.and_eq_true, reduceCtorEq, false_implies, implies_true,
      true_and, forall_const, ← Bool.not_eq_true, ← imp_iff_not_or]
  | some k =>
    simp only [ownerAccepts, Bool.or_eq_true, Bool.not_eq_true', Bool.and_eq_true, beq_iff_eq, Option.some.injEq, forall_eq',
      reduceCtorEq, false_implies, and_true, and_assoc]

/-- Settles O50: the rows of R513, the layout and the owner's part each by its own equivalence. -/
theorem imageAcceptable : Obligations.ImageAcceptable := by
  intro s h body d
  rw [State.imageOk, Bool.and_eq_true, Bool.and_eq_true, Bool.and_eq_true, Bool.and_eq_true, Bool.not_eq_true', decide_eq_true_eq,
    Header.wellFormed_iff, ownerAccepts_iff, and_assoc, and_assoc, and_assoc]

end Sys2Proof.Machine

namespace Sys2Proof.Machine

/-! ## The sequence of the supply (R533 to R536, R562, R570) -/

theorem ms_100 : ms 100 = 10000000 := by rw [ms]

/-- FEED_ID, NODE_ID and SLOT_ID stand in their fields of the straps word (R562). -/
theorem strapsWord_toNat {feed node slot : Nat} (hf : feed < 16) (hn : node < 8) (hs : slot < 64) :
    (strapsWord (BitVec.ofNat 4 feed, BitVec.ofNat 3 node, BitVec.ofNat 6 slot)).toNat = feed * 4096 + node * 256 + slot := by
  simp only [strapsWord, BitVec.toNat_ofNat]
  omega

section
variable {s : State} {at_ : Nat}

section
variable (hp : (s.advanceTo at_).pins.phase = .unpowered) (hd : (s.advanceTo at_).deaf = false)
include hp hd

/-- PWR_EN has been low for 100 ms: regulators that turned off of themselves may turn on. -/
theorem exec_pwrEnRise_of_low (hl : (s.advanceTo at_).pwr.lowSince + 10000000 ≤ (s.advanceTo at_).now) :
    let u := s.advanceTo at_
    let v : State := { u with pins := { u.pins with phase := .powerUp, pwrEn := true } }
    exec (.pwrEnRise at_) s = .next { v with pwr := { v.pwr with lockout := false } } :=
  congrArg Host.Outcome.next ((if_pos ⟨hp, hd⟩).trans (if_pos (ms_100.symm ▸ hl)))

theorem exec_pwrEnRise_of_not_low (hl : (s.advanceTo at_).now < (s.advanceTo at_).pwr.lowSince + 10000000) :
    let u := s.advanceTo at_
    exec (.pwrEnRise at_) s = .next { u with pins := { u.pins with phase := .powerUp, pwrEn := true } } :=
  congrArg Host.Outcome.next ((if_pos ⟨hp, hd⟩).trans (if_neg (ms_100.symm ▸ Nat.not_le.mpr hl)))

end

/-- A regulator that turns off of itself. -/
theorem State.regulatorsOff_of_powered (hu : s.pins.phase ≠ .unpowered) (hp : s.pins.phase ≠ .powerUp) :
    s.regulatorsOff = ({ s with pwr := { s.pwr with lockout := true } } : State).anew .powerUp true false :=
  if_neg (not_or_intro hu hp)

end

/-- Settles O52: each command of the sequence by the phase in which it acts. -/
theorem powerSequence : Obligations.PowerSequence := by
  intro s at_ feed node slot u
  refine ⟨fun hp hd => ⟨exec_pwrEnRise_of_low hp hd, exec_pwrEnRise_of_not_low hp hd⟩,
    fun hp hl hf hn hs => ⟨congrArg Host.Outcome.next (if_pos ⟨hp, hl⟩), strapsWord_toNat hf hn hs⟩,
    fun hl => congrArg Host.Outcome.next (if_neg fun h => ne_false_of_eq_true hl h.2),
    fun he hd => congrArg Host.Outcome.next (if_pos ⟨he, hd⟩), fun hu hp => ?_⟩
  exact ⟨fun hd => congrArg Host.Outcome.next (if_neg (not_or_intro hu (not_or_intro hp (ne_true_of_eq_false hd)))),
    congrArg Host.Outcome.next (State.regulatorsOff_of_powered hu hp),
    congrArg Host.Outcome.next (State.regulatorsOff_of_powered hu hp)⟩

/-! ## What a reset leaves (R536, R570, R578) -/

/-- Filling the registers of the fuses and the straps writes registers only. -/
theorem State.loadFuses_eq (s : State) : ∃ r, s.loadFuses = { s with regs := r } :=
  List.foldlRecOn (motive := fun t : State => ∃ r, t = { s with regs := r }) _ _ ⟨_, rfl⟩ fun _ h _ _ => by
    obtain ⟨r, rfl⟩ := h
    exact ⟨_, rfl⟩

/-- Writing the owner's key leaves the registers below the SEC block's keys. -/
theorem State.rd_foldl_ownerKey (s : State) (f : Nat → Word) {off : Nat} (h : off < Reg.sec) (l : List Nat) :
    (l.foldl (fun t n => t.wr (Reg.secOwnerKey n) (f n)) s).rd off = s.rd off :=
  List.foldlRecOn (motive := fun t : State => t.rd off = s.rd off) _ _ rfl fun t ht n _ => by
    rw [State.rd_wr_ne _ _ (by simp only [Reg.sec, Reg.secOwnerKey] at h ⊢; omega), ht]

theorem State.loadFuses_rd (s : State) {off : Nat} (h : off < Reg.sec) : s.loadFuses.rd off = (s.wr Reg.glbStraps s.pins.straps).rd off := by
  have hne : off ≠ Reg.secBootStat := by simp only [Reg.sec, Reg.secBootStat] at h ⊢; omega
  rw [State.loadFuses, State.rd_foldl_ownerKey _ _ h, State.setFld_rd_ne _ Fld.ownerEnrolled _ hne, State.setFld_rd_ne _ Fld.minSvn _ hne]

/-- An update that is dropped touches the boot flash only. -/
theorem State.dropUpdate_eq (s : State) : ∃ f, s.dropUpdate = { s with fw := { s.fw with flash := f } } := by
  unfold State.dropUpdate
  split
  · exact ⟨_, rfl⟩
  · exact ⟨_, rfl⟩

/-- What a module that starts anew consists of, before the fuses and the straps fill their registers. -/
def State.blank (s : State) (phase : Phase) (en good : Bool) (flash : SMap Byte) : State :=
  { now := s.now
    mem := { mainEpoch := s.mem.mainEpoch + 1, sramEpoch := s.mem.sramEpoch + 1, losses := s.mem.losses
             host := s.mem.host, hostBad := s.mem.hostBad }
    fw := { flash := flash, burnedSvn := s.fw.burnedSvn, owner := s.fw.owner }
    pwr := { lockout := s.pwr.lockout, lowSince := s.pwr.lowSince }
    pins := { phase := phase, pwrEn := en, pwrGood := good, perst := true, straps := s.pins.straps }
    freeCtr := s.freeCtr
    pending := s.pending }

theorem State.anew_eq_blank (s : State) (phase : Phase) (en good : Bool) :
    s.anew phase en good = (s.blank phase en good s.dropUpdate.fw.flash).loadFuses := by
  obtain ⟨f, hf⟩ := s.dropUpdate_eq
  rw [State.anew, hf]
  rfl

/-- Registers outside the SEC block hold the straps or their reset values. -/
theorem State.anew_rd (s : State) (phase : Phase) (en good : Bool) {off : Nat} (h : off < Reg.sec) (hs : off ≠ Reg.glbStraps) :
    (s.anew phase en good).rd off = Reg.resetWord off := by
  rw [State.anew_eq_blank, State.loadFuses_rd _ h, State.rd_wr_ne _ _ hs]
  exact SMap.get_nil _ off

theorem State.anew_straps (s : State) (phase : Phase) (en good : Bool) : (s.anew phase en good).rd Reg.glbStraps = s.pins.straps := by
  rw [State.anew_eq_blank, State.loadFuses_rd _ (by decide)]
  exact State.rd_wr_same rfl _ _

theorem Fld.ctxState_reg_lt {c : Nat} (h : c < 8) : (Fld.ctxState c).reg < Reg.sec ∧ (Fld.ctxState c).reg ≠ Reg.glbStraps := by
  simp only [Fld.ctxState, Reg.ctxState, Reg.sec, Reg.glbStraps]
  omega

theorem State.anew_anyCtx (s : State) (phase : Phase) (en good : Bool) : (s.anew phase en good).anyCtx = false := by
  refine List.any_eq_false.2 fun c hc => ?_
  obtain ⟨hl, hne⟩ := Fld.ctxState_reg_lt ((by decide : ∀ c ∈ ctxNumbers, c < 8) c hc)
  have hst : (s.anew phase en good).ctxState c = State.reset.ctxState c := by
    rw [State.ctxState, State.fld, State.anew_rd s phase en good hl hne, State.ctxState, State.fld, State.rd_reset]
  rw [hst]
  exact List.any_eq_false.1 State.anyCtx_reset c hc

/-- Settles O53: the registers by what the fuses and the straps fill, all else by the blank state itself. -/
theorem startsAnew : Obligations.StartsAnew := by
  intro s phase en good t
  have hrd {off : Nat} : off < Reg.sec → off ≠ Reg.glbStraps → t.rd off = Reg.resetWord off := s.anew_rd phase en good
  have hstraps : t.rd Reg.glbStraps = s.pins.straps := s.anew_straps phase en good
  have hctx : t.anyCtx = false := s.anew_anyCtx phase en good
  obtain ⟨r, hr⟩ := (s.blank phase en good s.dropUpdate.fw.flash).loadFuses_eq
  have ht : t = { s.blank phase en good s.dropUpdate.fw.flash with regs := r } := (s.anew_eq_blank phase en good).trans hr
  clear_value t
  subst ht
  refine ⟨rfl, rfl, rfl, rfl, rfl, rfl, fun hu => ?flash, hstraps, hctx, fun c n => rfl, fun i => ?records, rfl, rfl, fun q => rfl,
    fun off => hrd, rfl, rfl, rfl, rfl⟩
  case flash =>
    show s.dropUpdate.fw.flash = s.fw.flash
    rw [State.dropUpdate, hu]
    rfl
  case records => exact (by decide : ({} : ErrRec).state ≠ .opened)

end Sys2Proof.Machine

namespace Sys2Proof.Machine

/-! ## The clock of a slab (R537 to R541) -/

theorem lesser_le (f req : Nat) : lesser f req ≤ f := by
  unfold lesser
  split
  · exact Nat.le_refl f
  · exact Nat.min_le_left f req

theorem State.floor_le_requested (s : State) (i : Nat) : 950 ≤ s.requested i := Nat.le_max_left ..

theorem State.requested_le_wear (s : State) (i : Nat) : s.requested i ≤ max 950 (s.fld (Fld.wearMhz i)) :=
  max_le_max_left 950 <| calc
    _ ≤ _ := lesser_le _ _
    _ ≤ _ := lesser_le _ _
    _ ≤ _ := lesser_le _ _
    _ ≤ s.fld (Fld.wearMhz i) := lesser_le _ _

/-- A step of the return of the clocks lies between the floor and what the requests leave. -/
theorem ramp_bounds {f k : Nat} (hf : 950 ≤ f) (hk : k ≤ 8) : 950 ≤ 950 + (f - 950) * k / 8 ∧ 950 + (f - 950) * k / 8 ≤ f := by
  have hstep : (f - 950) * k ≤ (f - 950) * 8 := Nat.mul_le_mul_left _ hk
  omega

theorem State.permitted_bounds (s : State) (i : Nat) : 950 ≤ s.permitted i ∧ s.permitted i ≤ s.requested i := by
  have hfloor := s.floor_le_requested i
  unfold State.permitted
  dsimp only
  split
  · exact ⟨Nat.le_refl 950, hfloor⟩
  · exact ramp_bounds hfloor (Nat.min_le_left ..)
  · exact ⟨hfloor, Nat.le_refl _⟩

theorem State.permitted_of_throttle {s : State} (h : s.pwr.throttleAt.isSome = true) (i : Nat) : s.permitted i = 950 := by
  obtain ⟨t, ht⟩ := Option.isSome_iff_exists.1 h
  rw [State.permitted, ht]

theorem Slab.share_bounds (b : Slab) (now : Nat) : 8 ≤ b.share now ∧ b.share now ≤ 16 := by
  unfold Slab.share
  split
  · decide
  · split
    · exact ⟨Nat.le_add_right .., Nat.add_le_add_left (Nat.min_le_left ..) 8⟩
    · decide

theorem State.clockOf_of_undrooped {s : State} {i : Nat} (hd : (s.slab i).drooped = false) (hr : (s.slab i).droopRamp = none) :
    s.clockOf i = s.permitted i := by
  rw [State.clockOf, Slab.share, hd, hr]
  exact Nat.mul_div_cancel _ (by decide : 0 < 16)

theorem State.clockOf_of_drooped {s : State} {i : Nat} (hd : (s.slab i).drooped = true) : s.clockOf i = s.permitted i / 2 := by
  rw [State.clockOf, Slab.share, hd, if_pos rfl]
  omega

theorem State.clockOf_bounds (s : State) (i : Nat) : s.permitted i / 2 ≤ s.clockOf i ∧ s.clockOf i ≤ s.permitted i := by
  obtain ⟨hlow, hhigh⟩ := (s.slab i).share_bounds s.now
  have h8 : s.permitted i * 8 ≤ s.permitted i * (s.slab i).share s.now := Nat.mul_le_mul_left _ hlow
  have h16 : s.permitted i * (s.slab i).share s.now ≤ s.permitted i * 16 := Nat.mul_le_mul_left _ hhigh
  rw [State.clockOf]
  omega

/-- Settles O55: the requests, THROTTLE_IN# and droop, each by the bounds of its own share of the clock. -/
theorem clockFloor : Obligations.ClockFloor := fun s i =>
  have ⟨hfloor, hreq⟩ := s.permitted_bounds i
  have ⟨hhalf, hclock⟩ := s.clockOf_bounds i
  ⟨s.floor_le_requested i, s.requested_le_wear i, hfloor, hreq, fun h => State.permitted_of_throttle h i,
    State.clockOf_of_undrooped, State.clockOf_of_drooped, hhalf, hclock⟩

/-! ## Input range, ceiling and cap (R533, R537) -/

theorem us_50 : us 50 = 5000 := by rw [us]

section
variable {s : State} {at_ mv ca avg win : Nat} (hu : (s.advanceTo at_).up = true)
include hu

theorem exec_inputVoltage_of_within (hl : 44000 ≤ mv) (hh : mv ≤ 58000) :
    exec (.inputVoltage at_ mv) s = .next (((s.advanceTo at_).setFld Fld.inputMv mv).setFld Fld.inputRange 0) :=
  congrArg Host.Outcome.next ((if_pos hu).trans (if_neg (not_or_intro (Nat.not_lt.mpr hl) (Nat.not_lt.mpr hh))))

theorem exec_inputVoltage_of_outside (h : mv < 44000 ∨ 58000 < mv)
    (hf : ((s.advanceTo at_).setFld Fld.inputMv mv).flag Fld.inputRange = false) :
    exec (.inputVoltage at_ mv) s
      = .next ((((s.advanceTo at_).setFld Fld.inputMv mv).setFld Fld.inputRange 1).report { code := 0x0705 }) :=
  congrArg Host.Outcome.next ((if_pos hu).trans ((if_pos h).trans (if_neg (ne_true_of_eq_false hf))))

/-- A sample within the ceiling drops its request. -/
theorem exec_powerSample_of_within (h : avg ≤ ceilingW mv) :
    let u := s.advanceTo at_
    let v := (((u.setFld Fld.inputMv mv).setFld Fld.inputCa ca).setFld Fld.avg1ms avg).setFld Fld.avgWin win
    exec (.powerSample at_ mv ca avg win) s = .next
      ({ v with pwr := { v.pwr with withhold := v.pwr.withhold && decide (2100 ≤ avg), ceilReq := 0 } } : State).setClocks := by
  refine congrArg Host.Outcome.next ((if_pos hu).trans ?_)
  dsimp only
  rw [decide_eq_false (Nat.not_lt.mpr h), Bool.false_and, Bool.false_and, Bool.false_or]
  rfl

/-- A sample above the ceiling, with a slab above the floor, halves the clock. -/
theorem exec_powerSample_of_above (h : ceilingW mv < avg) :
    let u := s.advanceTo at_
    let v := (((u.setFld Fld.inputMv mv).setFld Fld.inputCa ca).setFld Fld.avg1ms avg).setFld Fld.avgWin win
    (([0, 1, 2, 3] : List Nat).all fun i => v.permitted i == 950) = false →
    exec (.powerSample at_ mv ca avg win) s = .next
      ({ v with pwr := { v.pwr with withhold := v.pwr.withhold && decide (2100 ≤ avg), ceilReq := v.halvedClock } } : State).setClocks := by
  intro u v hf
  refine congrArg Host.Outcome.next ((if_pos hu).trans ?_)
  dsimp only
  rw [hf, decide_eq_true h, Bool.and_false, Bool.false_and, Bool.false_or]
  rfl

theorem exec_capStep_of_above (ht : (s.advanceTo at_).pwr.capAt + 5000 ≤ (s.advanceTo at_).now)
    (he : (s.advanceTo at_).flag Fld.capEn = true) (hc : (s.advanceTo at_).fld Fld.capW < (s.advanceTo at_).fld Fld.avgWin) :
    let u := s.advanceTo at_
    let f := if u.pwr.capReq = 0 then 1900 else u.pwr.capReq
    exec (.capStep at_) s
      = .next ({ u with pwr := { u.pwr with capReq := max 950 (f - 25), capAt := u.now } } : State).setClocks := by
  refine congrArg Host.Outcome.next ((if_pos ⟨hu, us_50.symm ▸ ht⟩).trans ?_)
  dsimp only
  rw [if_neg (ne_false_of_eq_true he), if_pos hc]

end

theorem exec_capStep_of_early {s : State} {at_ : Nat} (ht : (s.advanceTo at_).now < (s.advanceTo at_).pwr.capAt + 5000) :
    exec (.capStep at_) s = .next (s.advanceTo at_) :=
  congrArg Host.Outcome.next (if_neg fun h => Nat.not_le.mpr ht (us_50 ▸ h.2))

/-- Settles O54: each sample by the limit that it passes. -/
theorem powerLimits : Obligations.PowerLimits :=
  ⟨fun _ => rfl, fun _ _ _ _ _ _ hu => ⟨exec_inputVoltage_of_within hu, exec_inputVoltage_of_outside hu,
    exec_powerSample_of_within hu, exec_powerSample_of_above hu, exec_capStep_of_above hu, exec_capStep_of_early⟩⟩

end Sys2Proof.Machine

namespace Sys2Proof.Machine

/-! ## Temperature (R538) -/

section
variable {s : State} {at_ unit temp : Nat}

/-- The threshold above which a unit throttles. -/
def State.throttleLimit (s : State) (unit : Nat) : Nat := s.fld (if unit < 5 then Fld.throttleC else Fld.stackThrottleC)

section
variable (hu : (s.advanceTo at_).up = true) (hn : unit < 37)
include hu hn

theorem exec_thermalThrottle_of_begin
    (hl : ((s.advanceTo at_).sense unit temp).throttleLimit unit < temp) (hh : ((s.advanceTo at_).sense unit temp).isHot unit = false) :
    exec (.thermalThrottle at_ unit temp) s = .next
      ((((((s.advanceTo at_).sense unit temp).setHot unit true).setThermal unit lowered).setClocks).report { code := 0x0702 }) :=
  congrArg Host.Outcome.next ((if_pos ⟨hu, hn⟩).trans (if_pos ⟨hl, hh⟩))

theorem exec_thermalThrottle_of_cool
    (hl : temp ≤ ((s.advanceTo at_).sense unit temp).throttleLimit unit) (hh : ((s.advanceTo at_).sense unit temp).isHot unit = false) :
    exec (.thermalThrottle at_ unit temp) s = .next ((s.advanceTo at_).sense unit temp) :=
  congrArg Host.Outcome.next ((if_pos ⟨hu, hn⟩).trans
    ((if_neg fun h => Nat.not_lt.mpr hl h.1).trans (if_neg (ne_true_of_eq_false hh))))

section
variable (hh : ((s.advanceTo at_).sense unit temp).isHot unit = true)
include hh

/-- A unit in an excursion leaves it 2 °C below its threshold. -/
theorem exec_thermalThrottle_of_end (hl : temp + 2 ≤ ((s.advanceTo at_).sense unit temp).throttleLimit unit) :
    exec (.thermalThrottle at_ unit temp) s = .next
      ((((s.advanceTo at_).sense unit temp).setHot unit false).setThermal unit fun _ => 0).setClocks :=
  congrArg Host.Outcome.next ((if_pos ⟨hu, hn⟩).trans
    ((if_neg fun h => ne_false_of_eq_true hh h.2).trans ((if_pos hh).trans (if_pos hl))))

/-- A unit that stays in its excursion takes a step where one is due. -/
theorem exec_thermalThrottle_of_hot (hl : ((s.advanceTo at_).sense unit temp).throttleLimit unit < temp + 2) :
    let v := (s.advanceTo at_).sense unit temp
    exec (.thermalThrottle at_ unit temp) s
      = .next (if v.hotDue unit then ((v.setHot unit true).setThermal unit lowered).setClocks else v) :=
  congrArg Host.Outcome.next ((if_pos ⟨hu, hn⟩).trans
    ((if_neg fun h => ne_false_of_eq_true hh h.2).trans ((if_pos hh).trans (if_neg (Nat.not_le.mpr hl)))))

end

theorem exec_thermalTrip_of_above (ht : (s.advanceTo at_).fld Fld.tripC < temp) :
    exec (.thermalTrip at_ unit temp) s = .next ((s.advanceTo at_).sense unit temp).regulatorsOff :=
  congrArg Host.Outcome.next (if_pos ⟨hu, hn, ht⟩)

end

theorem exec_thermalTrip_of_not_above (ht : temp ≤ (s.advanceTo at_).fld Fld.tripC) :
    exec (.thermalTrip at_ unit temp) s = .next (s.advanceTo at_) :=
  congrArg Host.Outcome.next (if_neg fun h => Nat.not_lt.mpr ht h.2.2)

end

/-! ## THROTTLE_IN# (R539) -/

theorem ms_1000 : ms 1000 = 100000000 := by rw [ms]

section
variable {s : State} {at_ : Nat}

section
variable (hu : (s.advanceTo at_).up = true) (hd : (s.advanceTo at_).deaf = false)
include hu hd

theorem exec_throttleInAssert_of_released (hf : (s.advanceTo at_).flag Fld.throttleIn = false) :
    let u := s.advanceTo at_
    let v : State := { u with pwr := { u.pwr with throttleAt := some u.now, throttleTold := false, throttleRamp := none } }
    exec (.throttleInAssert at_) s = .next (((v.setFld Fld.throttleIn 1).bump Fld.assertions).setClocks) :=
  congrArg Host.Outcome.next (if_pos ⟨hu, hd, hf⟩)

theorem exec_throttleInRelease_of_asserted (hf : (s.advanceTo at_).flag Fld.throttleIn = true) :
    let u := s.advanceTo at_
    let v : State := { u with pwr := { u.pwr with throttleAt := none, throttleRamp := some u.now } }
    exec (.throttleInRelease at_) s = .next (v.setFld Fld.throttleIn 0).setClocks :=
  congrArg Host.Outcome.next (if_pos ⟨hu, hd, hf⟩)

theorem exec_throttleInPulse_of_heard : exec (.throttleInPulse at_) s = .next ((s.advanceTo at_).bump Fld.filtered) :=
  congrArg Host.Outcome.next (if_pos ⟨hu, hd⟩)

end

section
variable {t : Nat} (ha : (s.advanceTo at_).pwr.throttleAt = some t)
include ha

theorem exec_throttleHeld_of_second (hr : (s.advanceTo at_).pwr.throttleTold = false) (ht : t + 100000000 ≤ (s.advanceTo at_).now) :
    let u := s.advanceTo at_
    exec (.throttleHeld at_) s = .next (({ u with pwr := { u.pwr with throttleTold := true } } : State).report { code := 0x0703 }) := by
  refine congrArg Host.Outcome.next ?_
  rw [throttleHeld, ha]
  dsimp only
  rw [ms_1000]
  exact if_pos ⟨hr, ht⟩

theorem exec_throttleHeld_of_early (ht : (s.advanceTo at_).now < t + 100000000) :
    exec (.throttleHeld at_) s = .next (s.advanceTo at_) := by
  refine congrArg Host.Outcome.next ?_
  rw [throttleHeld, ha]
  dsimp only
  rw [ms_1000]
  exact if_neg fun h => Nat.not_le.mpr ht h.2

end
end

/-- Settles O56: a sample by the threshold and the excursion of its unit, THROTTLE_IN# by its state and its time. -/
theorem thermalAndThrottle : Obligations.ThermalAndThrottle := by
  refine fun s at_ unit temp hu => ⟨fun hn => ⟨exec_thermalThrottle_of_begin hu hn, fun hh hl hd => ?step, fun hh hl hd => ?wait,
      exec_thermalThrottle_of_end hu hn, fun hh hl => exec_thermalThrottle_of_cool hu hn hl hh⟩,
    exec_thermalTrip_of_above hu, exec_thermalTrip_of_not_above,
    fun hd => ⟨exec_throttleInAssert_of_released hu hd, exec_throttleInRelease_of_asserted hu hd, exec_throttleInPulse_of_heard hu hd⟩,
    fun t ha hr => ⟨exec_throttleHeld_of_second ha hr, exec_throttleHeld_of_early ha⟩⟩
  case step => exact (exec_thermalThrottle_of_hot hu hn hh hl).trans (congrArg Host.Outcome.next (if_pos hd))
  case wait => exact (exec_thermalThrottle_of_hot hu hn hh hl).trans (congrArg Host.Outcome.next (if_neg (ne_true_of_eq_false hd)))

/-! ## Droop and canaries (R541, R543) -/

theorem ms_1 : ms 1 = 100000 := by rw [ms]

section
variable {s : State} {i : Nat}

/-- The stretches of a slab in the last millisecond, with the one of this moment. -/
def State.stretches (s : State) (i : Nat) : List Nat := ((s.slab i).droopAt.filter fun t => decide (s.now < t + 100000)) ++ [s.now]

section
variable (hu : s.up = true) (hi : i < 4)
include hu hi

theorem State.stretch_of_few (h : (s.stretches i).length ≤ s.fld Fld.stormPerMs) :
    s.stretch i = ((s.setSlab i { s.slab i with drooped := true, droopRamp := none, droopAt := s.stretches i }).bump (Fld.droops i)).setClocks := by
  rw [State.stretch, if_pos ⟨hu, hi⟩, ms_1]
  dsimp only
  rw [← State.stretches, decide_eq_false (Nat.not_lt.mpr h), if_neg Bool.false_ne_true, if_neg Bool.false_ne_true]

theorem State.stretch_of_storm (h : s.fld Fld.stormPerMs < (s.stretches i).length) :
    s.stretch i = ((((s.setSlab i { s.slab i with drooped := true, droopRamp := none, droopAt := [] }).bump (Fld.droops i)).setClocks).report
      { code := 0x0704, index := i }).raiseGroups i := by
  rw [State.stretch, if_pos ⟨hu, hi⟩, ms_1]
  dsimp only
  rw [← State.stretches, decide_eq_true h, if_pos rfl, if_pos rfl]

end
end

section
variable {s : State} {at_ i : Nat}

theorem exec_droopRecovery_of_drooped (hi : i < 4) (hd : ((s.advanceTo at_).slab i).drooped = true) :
    let u := s.advanceTo at_
    exec (.droopRecovery at_ i) s = .next (u.setSlab i { u.slab i with drooped := false, droopRamp := some u.now }).setClocks :=
  congrArg Host.Outcome.next (if_pos ⟨hi, hd⟩)

theorem exec_droopRecovery_of_undrooped (hd : ((s.advanceTo at_).slab i).drooped = false) :
    exec (.droopRecovery at_ i) s = .next (s.advanceTo at_) :=
  congrArg Host.Outcome.next (if_neg fun h => ne_true_of_eq_false hd h.2)

end

/-! ## Reference clocks and weathering (R542, R544 to R547) -/

theorem late_24h : 24 * 3600 * ms 1000 = 8640000000000 := by rw [ms_1000]

section
variable {s : State} {at_ : Nat}

section
variable (hu : (s.advanceTo at_).up = true)
include hu

theorem exec_refclkLost_of_100 :
    exec (.refclkLost at_ 100) s = .next (((s.advanceTo at_).report { code := 0x0706, detail := 100 }).makeFatal 0x0706) :=
  congrArg Host.Outcome.next ((if_neg (ne_false_of_eq_true hu)).trans (if_pos rfl))

theorem exec_refclkLost_of_156 {m : Nat} (hm : m ≠ 100) :
    exec (.refclkLost at_ m) s = .next ((List.range 16).foldl (fun t p =>
      if t.fld (Fld.portState p) = psDisabled ∨ t.fld (Fld.portState p) = psFailed then t else t.loseLink p 0x0302)
      (((s.advanceTo at_).setFld Fld.ref156Lost 1).report { code := 0x0706, detail := 156 })) :=
  congrArg Host.Outcome.next ((if_neg (ne_false_of_eq_true hu)).trans (if_neg hm))

theorem exec_planNow_of_up :
    let u := s.advanceTo at_
    exec (.planNow at_) s = .next { u with pwr := { u.pwr with planNow := true } } := congrArg Host.Outcome.next (if_pos hu)

end

theorem exec_wearPlan_of_not_due {steps mhz failed slabs : List Nat} (hd : (s.advanceTo at_).planDue = false) :
    exec (.wearPlan at_ steps mhz failed slabs) s = .next (s.advanceTo at_) :=
  congrArg Host.Outcome.next (if_neg fun h => ne_true_of_eq_false hd h.2.2)

section
variable {t : Nat} (hp : (s.advanceTo at_).planDueAt = some t)
include hp

theorem exec_wearPlanDue_of_late (hr : (s.advanceTo at_).pins.phase = .running) (hf : (s.advanceTo at_).flag Fld.wearPlanDue = false)
    (ht : t + 8640000000000 ≤ (s.advanceTo at_).now) :
    exec (.wearPlanDue at_) s = .next (((s.advanceTo at_).setFld Fld.wearPlanDue 1).report { code := 0x0709 }) := by
  refine congrArg Host.Outcome.next ?_
  rw [wearPlanDue, hp]
  dsimp only
  rw [late_24h]
  exact if_pos ⟨hr, ht, hf⟩

theorem exec_wearPlanDue_of_early (ht : (s.advanceTo at_).now < t + 8640000000000) :
    exec (.wearPlanDue at_) s = .next (s.advanceTo at_) := by
  refine congrArg Host.Outcome.next ?_
  rw [wearPlanDue, hp]
  dsimp only
  rw [late_24h]
  exact if_neg fun h => Nat.not_le.mpr ht h.2.1

end
end

/-- Settles O57: a stretch by the stretches of its last millisecond, the reference clocks by which one fails, a plan by when it is
due. -/
theorem droopAndWear : Obligations.DroopAndWear := by
  refine ⟨fun s at_ i hu hi => ⟨rfl, fun h => congrArg Host.Outcome.next (State.stretch_of_few hu hi h),
      fun h => congrArg Host.Outcome.next (State.stretch_of_storm hu hi h),
      exec_droopRecovery_of_drooped hi, exec_droopRecovery_of_undrooped⟩,
    fun s at_ steps mhz failed slabs => ⟨exec_refclkLost_of_100, fun hu m => exec_refclkLost_of_156 hu, rfl, exec_planNow_of_up,
      fun hr hf hd => congrArg Host.Outcome.next (if_pos ⟨hr, hf, hd⟩), exec_wearPlan_of_not_due,
      fun t hp hr hf => ⟨exec_wearPlanDue_of_late hp hr hf, exec_wearPlanDue_of_early hp⟩⟩⟩

end Sys2Proof.Machine

namespace Sys2Proof.Machine

/-! ## The JTAG port (R521, R568) -/

/-- A JTAG instruction changes what the port itself holds, and nothing else. -/
def PortOnly (u t : State) : Prop :=
  ∃ i out b, t = { u with pins := { u.pins with jtag := i, scanOut := out, boundary := b } }

theorem State.jtagRun_portOnly (u : State) (i : Jtag) (out : List Nat) : PortOnly u (u.jtagRun i out) := by
  unfold State.jtagRun
  split
  · exact ⟨i, out, u.pins.boundary, rfl⟩
  · exact ⟨u.pins.jtag, u.pins.scanOut, u.pins.boundary, rfl⟩

theorem samplePreload_portOnly (at_ : Nat) (l : List Bool) (s : State) : PortOnly (s.advanceTo at_) (samplePreload at_ l s) := by
  obtain ⟨i, out, b, h⟩ := (s.advanceTo at_).jtagRun_portOnly .samplePreload (s.advanceTo at_).coveredPins
  rw [samplePreload, h]
  dsimp only
  split
  · exact ⟨i, out, l, rfl⟩
  · exact ⟨i, out, b, rfl⟩

theorem extest_portOnly (at_ : Nat) (s : State) : PortOnly (s.advanceTo at_) (extest at_ s) := by
  unfold extest
  dsimp only
  split <;> exact State.jtagRun_portOnly ..

theorem kuermouPrivateDebug_portOnly (at_ : Nat) (s : State) : PortOnly (s.advanceTo at_) (kuermouPrivateDebug at_ s) := by
  unfold kuermouPrivateDebug
  dsimp only
  split <;> exact State.jtagRun_portOnly ..

section
variable {s : State} {at_ : Nat} (hj : (s.advanceTo at_).jtagOn = true)
include hj

theorem exec_samplePreload_of_on (l : List Bool) :
    let u := s.advanceTo at_
    exec (.samplePreload at_ l) s
      = .next { u with pins := { u.pins with jtag := .samplePreload, scanOut := u.coveredPins, boundary := l } } := by
  have hrun (out : List Nat) : (s.advanceTo at_).jtagRun .samplePreload out
      = { s.advanceTo at_ with pins := { (s.advanceTo at_).pins with jtag := .samplePreload, scanOut := out } } := if_pos hj
  refine congrArg Host.Outcome.next ?_
  rw [samplePreload, hrun]
  exact if_pos hj

theorem exec_extest_of_free (h : (s.advanceTo at_).flag Fld.bootLock = false ∨ (s.advanceTo at_).anyCtx = false) :
    let u := s.advanceTo at_
    exec (.extest at_) s = .next { u with pins := { u.pins with jtag := .extest, scanOut := u.coveredPins } } :=
  congrArg Host.Outcome.next ((if_neg fun g => h.elim (ne_false_of_eq_true g.1) (ne_false_of_eq_true g.2)).trans (if_pos hj))

theorem exec_extest_of_ctx (hl : (s.advanceTo at_).flag Fld.bootLock = true) (hc : (s.advanceTo at_).anyCtx = true) :
    let u := s.advanceTo at_
    exec (.extest at_) s = .next { u with pins := { u.pins with jtag := .bypass, scanOut := [0] } } :=
  congrArg Host.Outcome.next ((if_pos ⟨hl, hc⟩).trans (if_pos hj))

theorem exec_kuermouPrivateDebug_of_open (hl : (s.advanceTo at_).flag Fld.bootLock = false)
    (hd : (s.advanceTo at_).flag Fld.debugOpen = true) :
    let u := s.advanceTo at_
    exec (.kuermouPrivateDebug at_) s = .next { u with pins := { u.pins with jtag := .private_, scanOut := [] } } :=
  congrArg Host.Outcome.next ((if_pos ⟨hl, hd⟩).trans (if_pos hj))

theorem exec_kuermouPrivateDebug_of_locked (hl : (s.advanceTo at_).flag Fld.bootLock = true) :
    let u := s.advanceTo at_
    exec (.kuermouPrivateDebug at_) s = .next { u with pins := { u.pins with jtag := .bypass, scanOut := [0] } } :=
  congrArg Host.Outcome.next ((if_neg fun h => ne_false_of_eq_true hl h.1).trans (if_pos hj))

end

/-- Settles O51: each instruction while the port runs; that it changes the port only, and time what it changes of itself. -/
theorem jtagInstructions : Obligations.JtagInstructions := by
  refine ⟨fun s at_ l hj => ⟨congrArg Host.Outcome.next (if_pos hj), congrArg Host.Outcome.next (if_pos hj),
    exec_samplePreload_of_on hj l, exec_extest_of_free hj, exec_extest_of_ctx hj, exec_kuermouPrivateDebug_of_open hj,
    exec_kuermouPrivateDebug_of_locked hj⟩, fun s t at_ l c hc he => ?_⟩
  have hport : PortOnly (s.advanceTo at_) t := by
    rcases hc with rfl | rfl | rfl | rfl | rfl <;> refine Host.Outcome.next.inj he ▸ ?_
    · exact State.jtagRun_portOnly ..
    · exact State.jtagRun_portOnly ..
    · exact samplePreload_portOnly at_ l s
    · exact extest_portOnly at_ s
    · exact kuermouPrivateDebug_portOnly at_ s
  obtain ⟨i, out, b, rfl⟩ := hport
  have h := s.advanceTo_timeOnly at_
  have hphase : (s.advanceTo at_).pins.phase = s.pins.phase := congrArg Pins.phase h.pins
  exact ⟨h.rd, h.mem, h.core, h.host, h.fw, h.quarries, h.ctx, h.err, h.vein, hphase⟩

/-! ## The management endpoint (R564 to R566) -/

section
variable {s : State} {at_ : Nat}

/-- The outcome of a command that the endpoint answers with `r`. -/
def State.replies (u : State) (r : Reply) : Host.Outcome State Fault Refusal := .next { u with pins := { u.pins with reply := some r } }

theorem State.smbReply_of_answers {fatalToo : Bool} (h : s.answers fatalToo = true) (completion : Nat) (values : List Nat) :
    s.smbReply fatalToo completion values = { s with pins := { s.pins with reply := some ⟨completion, values⟩ } } := by
  rw [State.smbReply, if_pos h]

theorem State.next_smbReply_of_answers {fatalToo : Bool} (h : s.answers fatalToo = true) (completion : Nat) (values : List Nat) :
    Host.Outcome.next (s.smbReply fatalToo completion values) = s.replies ⟨completion, values⟩ :=
  congrArg Host.Outcome.next (State.smbReply_of_answers h completion values)

theorem State.freeReply_of_answers {fatalToo : Bool} (h : s.answers fatalToo = true) {n : Nat} (hn : 0 < n) :
    ∃ v, v < n ∧ (s.freeReply fatalToo n).pins = { s.pins with reply := some ⟨0, [v]⟩ } ∧ (s.freeReply fatalToo n).regs = s.regs
      ∧ (s.freeReply fatalToo n).mem = s.mem := by
  have hf : (s.fresh n).2.answers fatalToo = true := h
  refine ⟨(s.fresh n).1, Nat.mod_lt _ hn, ?_, rfl, rfl⟩
  rw [State.freeReply, State.smbReply_of_answers hf]
  rfl

section
variable (ha : (s.advanceTo at_).answers false = true)
include ha

theorem exec_setEndpointId_of_range {eid : Nat} (hl : 8 ≤ eid) (hh : eid < 255) :
    let u := s.advanceTo at_
    exec (.setEndpointId at_ eid) s = .next { u with pins := { u.pins with eid := eid, reply := some ⟨0, [eid]⟩ } } := by
  intro u
  have hv : ({ u with pins := { u.pins with eid := eid } } : State).answers false = true := ha
  exact congrArg Host.Outcome.next ((if_pos ⟨ha, hl, hh⟩).trans (State.smbReply_of_answers hv 0 [eid]))

theorem exec_setEndpointId_of_out_of_range {eid : Nat} (h : eid < 8 ∨ 255 ≤ eid) :
    exec (.setEndpointId at_ eid) s = (s.advanceTo at_).replies ⟨ccInvalidData, []⟩ := by
  have hr : ¬((s.advanceTo at_).answers false = true ∧ 8 ≤ eid ∧ eid < 255) := by omega
  exact congrArg Host.Outcome.next ((if_neg hr).trans (State.smbReply_of_answers ha ccInvalidData []))

theorem exec_getpldmcommands_of_type {ty : Nat} (h : pldmType ty = true) :
    exec (.getpldmcommands at_ ty) s = (s.advanceTo at_).replies ⟨0, pldmCommands ty⟩ :=
  congrArg Host.Outcome.next ((if_pos h).trans (State.smbReply_of_answers ha 0 (pldmCommands ty)))

section
variable {ty : Nat} (h : pldmType ty = false)
include h

theorem exec_getpldmcommands_of_no_type : exec (.getpldmcommands at_ ty) s = (s.advanceTo at_).replies ⟨ccInvalidType, []⟩ :=
  congrArg Host.Outcome.next ((if_neg (ne_true_of_eq_false h)).trans (State.smbReply_of_answers ha ccInvalidType []))

theorem exec_getpldmversion_of_no_type : exec (.getpldmversion at_ ty) s = (s.advanceTo at_).replies ⟨ccInvalidType, []⟩ :=
  congrArg Host.Outcome.next ((if_neg (ne_true_of_eq_false h)).trans (State.smbReply_of_answers ha ccInvalidType []))

end

theorem State.next_freeReply_of_answers : ∃ v t, (.next ((s.advanceTo at_).freeReply false (2 ^ 32)) : Host.Outcome State Fault Refusal) = .next t
    ∧ t.pins = { (s.advanceTo at_).pins with reply := some ⟨0, [v]⟩ } ∧ t.regs = (s.advanceTo at_).regs ∧ t.mem = (s.advanceTo at_).mem :=
  have ⟨v, _, h⟩ := State.freeReply_of_answers ha (Nat.two_pow_pos 32)
  ⟨v, _, rfl, h⟩

end

section
variable (ha : (s.advanceTo at_).answers true = true)
include ha

theorem exec_gettid_of_answers : ∃ v t, exec (.gettid at_) s = .next t ∧ v < 256
    ∧ t.pins = { (s.advanceTo at_).pins with reply := some ⟨0, [v]⟩ } ∧ t.regs = (s.advanceTo at_).regs ∧ t.mem = (s.advanceTo at_).mem :=
  have ⟨v, hv, h⟩ := State.freeReply_of_answers ha (n := 256) (by decide)
  ⟨v, _, rfl, hv, h⟩

/-- A reading of a sensor between `lo` and `hi` is the one last refreshed. -/
theorem State.next_readSensor_of_range {lo hi n : Nat} (hl : lo ≤ n) (hh : n < hi) :
    Host.Outcome.next ((s.advanceTo at_).readSensor lo hi n) = (s.advanceTo at_).replies ⟨0, [(s.advanceTo at_).pwr.readings.getD n 0]⟩ :=
  congrArg Host.Outcome.next ((if_pos ⟨hl, hh⟩).trans (State.smbReply_of_answers ha _ _))

theorem State.next_readSensor_of_out_of_range {lo hi n : Nat} (h : n < lo ∨ hi ≤ n) :
    Host.Outcome.next ((s.advanceTo at_).readSensor lo hi n) = (s.advanceTo at_).replies ⟨ccInvalidSensor, []⟩ := by
  have hr : ¬(lo ≤ n ∧ n < hi) := by omega
  exact congrArg Host.Outcome.next ((if_neg hr).trans (State.smbReply_of_answers ha _ _))

theorem exec_getpdr_of_no_record {n : Nat} (hn : 11 ≤ n) : exec (.getpdr at_ n) s = (s.advanceTo at_).replies ⟨ccInvalidRecord, []⟩ :=
  congrArg Host.Outcome.next ((if_neg (Nat.not_lt.mpr hn)).trans (State.smbReply_of_answers ha _ _))

theorem exec_getpdr_of_record {n : Nat} (hn : n < 11) : ∃ v t, exec (.getpdr at_ n) s = .next t
    ∧ t.pins = { (s.advanceTo at_).pins with reply := some ⟨0, [n, v]⟩ } ∧ t.regs = (s.advanceTo at_).regs
    ∧ t.mem = (s.advanceTo at_).mem := by
  have hf : ((s.advanceTo at_).fresh (2 ^ 64)).2.answers true = true := ha
  exact ⟨_, _, congrArg Host.Outcome.next ((if_pos hn).trans (State.smbReply_of_answers hf _ _)), rfl, rfl, rfl⟩

end

section
variable (hp : (s.advanceTo at_).pins.phase = .running ∨ (s.advanceTo at_).pins.phase = .fatal)
  (hf : (s.advanceTo at_).err.flintDown = false)
include hp hf

/-- The readings are taken anew when none have been taken for 100 ms. -/
theorem exec_sensorRefresh_of_due (hd : ∀ t, (s.advanceTo at_).pwr.readAt = some t → t + 10000000 ≤ (s.advanceTo at_).now) :
    let u := s.advanceTo at_
    exec (.sensorRefresh at_) s = .next { u with pwr := { u.pwr with readings := u.sensors, readAt := some u.now } } := by
  refine congrArg Host.Outcome.next (if_pos ⟨hp, hf, ?_⟩)
  rw [Option.all_eq_true]
  intro t ht
  rw [decide_eq_true_eq, ms_100]
  exact hd t ht

end

theorem exec_sensorRefresh_of_early {t : Nat} (hr : (s.advanceTo at_).pwr.readAt = some t)
    (ht : (s.advanceTo at_).now < t + 10000000) : exec (.sensorRefresh at_) s = .next (s.advanceTo at_) := by
  refine congrArg Host.Outcome.next (if_neg ?_)
  rintro ⟨-, -, hd⟩
  rw [hr, Option.all_some, decide_eq_true_eq, ms_100] at hd
  exact Nat.not_le.mpr ht hd

end

/-- Settles O58: the reply of each command of the endpoint by what answers and by the number that it names. -/
theorem smbusEndpoint : Obligations.SmbusEndpoint := by
  refine ⟨fun s at_ => ⟨fun ha => ⟨fun eid => exec_setEndpointId_of_range ha, fun eid => exec_setEndpointId_of_out_of_range ha,
        State.next_smbReply_of_answers ha _ _, State.next_smbReply_of_answers ha _ _, State.next_smbReply_of_answers ha _ _,
        fun ty h => exec_getpldmcommands_of_type ha ?known, fun ty h0 h2 => ?unknown, State.next_smbReply_of_answers ha _ _,
        State.next_freeReply_of_answers ha, State.next_freeReply_of_answers ha⟩,
      exec_gettid_of_answers, fun ha => congrArg Host.Outcome.next ?silent⟩,
    fun s at_ => ⟨fun ha => ⟨State.next_smbReply_of_answers ha _ _, fun n => State.next_readSensor_of_range ha (Nat.zero_le n),
        fun n h => State.next_readSensor_of_out_of_range ha (.inr h), fun n => State.next_readSensor_of_range ha,
        fun n => State.next_readSensor_of_out_of_range ha, fun n => exec_getpdr_of_no_record ha, fun n => exec_getpdr_of_record ha⟩,
      fun hp hf => ⟨fun hr => exec_sensorRefresh_of_due hp hf fun t ht => ?never, fun t hr => ⟨fun ht => ?due,
        exec_sensorRefresh_of_early hr⟩⟩⟩⟩
  case known => rcases h with rfl | rfl <;> rfl
  case unknown =>
    have hty : pldmType ty = false := Bool.or_eq_false_iff.2 ⟨beq_false_of_ne h0, beq_false_of_ne h2⟩
    exact ⟨exec_getpldmcommands_of_no_type ha hty, exec_getpldmversion_of_no_type ha hty⟩
  case silent =>
    dsimp only
    rw [State.smbReply, if_neg (ne_true_of_eq_false ha)]
  case never => cases hr.symm.trans ht
  case due => exact exec_sensorRefresh_of_due hp hf fun t' ht' => Option.some.inj (hr.symm.trans ht') ▸ ht

end Sys2Proof.Machine
